-- ==== Sys2Proof/Word.lean ====
section
/-! DEFINITION. The word types of the BX-1 (00_scope.md R4, R5, R8). -/

namespace Sys2Proof

/-- A byte of memory. -/
abbrev Byte := BitVec 8
/-- A 32-bit register of one lane (R98). -/
abbrev Word := BitVec 32
/-- A register pair (R8). -/
abbrev DWord := BitVec 64
/-- A program counter: PC arithmetic is modulo 2^57 (R90). -/
abbrev PC := BitVec 57
/-- One bit per lane of a wave, bit l for lane l (R130 $active, R197). -/
abbrev Mask := BitVec 64

end Sys2Proof
end

