-- ==== Sys2Proof/Machine/Bits.lean ====
section
/-! DEFINITION. Bit fields, sign extension, byte order and lane masks (R4, R5, R8). -/

namespace Sys2Proof

/-- Bits `hi` down to `lo` of a natural number (R4). -/
def bitsOf (n hi lo : Nat) : Nat := n / 2 ^ lo % 2 ^ (hi + 1 - lo)

/-- Two's-complement reading of the low `w` bits of `n` (R133). -/
def signOf (w n : Nat) : Int :=
  if n % 2 ^ w < 2 ^ (w - 1) then (n % 2 ^ w : Nat) else (n % 2 ^ w : Nat) - (2 ^ w : Nat)

/-- The `w`-bit two's-complement code of an integer. -/
def unsignOf (w : Nat) (i : Int) : Nat := (i % (2 ^ w : Nat)).toNat

/-- The 64-bit value of a pair, low register first (R8). -/
def pair (lo hi : Word) : DWord := hi ++ lo

/-- Word 0 of a pair (R8). -/
def loWord (x : DWord) : Word := x.setWidth 32

/-- Word 1 of a pair (R8). -/
def hiWord (x : DWord) : Word := (x >>> 32).setWidth 32

/-- 1 or 0, as the compares write it (R159). -/
def boolWord (b : Bool) : Word := if b then 1#32 else 0#32

/-- The little-endian value of a list of bytes (R5). -/
def leValue : List Byte → Nat
  | [] => 0
  | b :: bs => b.toNat + 256 * leValue bs

/-- The low `n` bytes of a value, little-endian (R5). -/
def leBytes : Nat → Nat → List Byte
  | 0, _ => []
  | n + 1, v => BitVec.ofNat 8 v :: leBytes n (v / 256)

/-- A little-endian field of a structure's bytes: offset and length. -/
def fieldAt (bs : List Byte) (off n : Nat) : Nat := leValue ((bs.drop off).take n)

/-- The lanes of a mask in increasing order. -/
def lanesOf (m : Mask) : List Nat := (List.range 64).filter fun l => m.getLsbD l

/-- The mask holding one lane. -/
def laneBit (l : Nat) : Mask := BitVec.ofNat 64 (2 ^ l)

/-- The mask of a list of lanes. -/
def maskOf (ls : List Nat) : Mask := ls.foldl (fun m l => m ||| laneBit l) 0#64

/-- The mask of lanes `0` to `n - 1`. -/
def lowLanes (n : Nat) : Mask := BitVec.ofNat 64 (2 ^ n - 1)

/-- Whether the mask holds the lane. -/
def hasLane (m : Mask) (l : Nat) : Bool := m.getLsbD l

/-- The lowest lane of a mask, 64 when it is empty. -/
def lowestLane (m : Mask) : Nat := ((lanesOf m).head?).getD 64

/-- The number of one bits of a word (R162 POPC). -/
def popCount (n : Nat) : Nat → Nat
  | 0 => 0
  | k + 1 => popCount n k + n / 2 ^ k % 2

/-- The least power of two exponent `k` with `n < 2^k`: the bit length of `n`. -/
def bitLen (n : Nat) : Nat := if n = 0 then 0 else Nat.log2 n + 1

/-- `n ÷ d`, rounded up. -/
def ceilDiv (n d : Nat) : Nat := (n + d - 1) / d

end Sys2Proof
end

