-- ==== Sys2Proof/Machine/Names.lean ====
section
/-! DEFINITION. The operand forms of the instruction words, and what the device's own operations and events
(the rows of the opcode table without an encoding) name. -/

namespace Sys2Proof

/-- A 7-bit register field (R95): a window register v0 to v119, or a queue register q0 to q7. -/
inductive Reg where
  | v (n : Nat)
  | q (n : Nat)
  deriving DecidableEq, Repr

/-- The access sizes of R34 with their z codes 0 to 6. -/
inductive Size where
  | ub | sb | uh | sh | word | pr | qd
  deriving DecidableEq, Repr

/-- The actions of TRET (R93, R395). -/
inductive TretAct where
  | retry | skip | fixed | killTeam | killLaunch
  deriving DecidableEq, Repr

/-- What SET_KEYS changes (R48): one verification key slot, or the signing policy. -/
inductive KeyUpdate where
  | slot (i : Nat) (key : Option (List Byte))
  | policy (required : Bool)
  deriving DecidableEq, Repr

/-- A queue descriptor (R53). -/
structure QueueDesc where
  base : DWord
  tail : DWord
  head : DWord
  logSize : Nat
  mode : Nat
  state : Nat
  reserved : Nat
  deriving DecidableEq, Repr

/-- Whether a queue is in LAUNCH mode (R53). -/
def QueueDesc.launchMode (d : QueueDesc) : Bool := d.mode == 1

/-- Configuration registers without a row of their own, as REGISTER_WRITE writes them. -/
inductive RegWrite where
  /-- CSR_DRAINDL (R415) -/
  | drainDl (v : Word)
  /-- CSR_FABTMO (R415) -/
  | fabTmo (v : Word)
  /-- a launch queue's descriptor, its 32 bytes (R53) -/
  | queue (owner queue : Nat) (bytes : List Byte)
  /-- the completion event ring (R74): control block, log size, MSI-X vector -/
  | eventRing (owner : Nat) (block : DWord) (logSize vector : Nat)
  /-- the migration notification queue (R221) -/
  | migration (owner : Nat) (block : DWord) (logSize : Nat)
  /-- the migration threshold (R220) -/
  | threshold (owner v : Nat)
  /-- the fault queue (R399) -/
  | faultQueue (owner : Nat) (block : DWord) (logSize : Nat)
  /-- the violation log (R411) -/
  | violationLog (owner : Nat) (block : DWord) (logSize : Nat)
  /-- the context-frame region (R405) -/
  | frames (owner : Nat) (base : DWord) (slots : Nat)
  /-- the owner's default trap handler (R387) -/
  | handler (owner : Nat) (pc : Option DWord)
  /-- a further key identifier granted to, or released by, an owner (R224) -/
  | grant (owner key : Nat) (on : Bool)
  /-- a key imported from another anchor die for an identifier (R235) -/
  | importKey (key ver : Nat)
  deriving DecidableEq, Repr

/-- A firmware image: what its signature covers, the signature and the security version (R440). -/
structure Firmware where
  code : List Byte
  sig : List Byte
  version : BitVec 16
  deriving DecidableEq, Repr

/-- What a peer asks of this device (R234): a read, a write, or an atomic by its number in R261 with its operands. -/
inductive MemReq where
  | read (bytes : Nat)
  | write (data : List Byte)
  | atomic (op : Nat) (wide : Bool) (x y : DWord)
  deriving DecidableEq, Repr

/-- How the host touches a line of the HDM-DB range (R246): a read, a write, a read it caches, and a line it takes and
then holds modified with the given bytes. -/
inductive HostReq where
  | read
  | write (data : List Byte)
  | cache
  | dirty (data : List Byte)
  deriving DecidableEq, Repr

/-- A fabric request as a target receives it (R231). -/
structure FabReq where
  src : Nat
  stream : Nat
  seq : Nat
  addr : Nat
  key : Nat
  req : MemReq
  deriving DecidableEq, Repr

/-- A memory error (R446): corrected, or uncorrectable on a read of the owner. -/
inductive MemErr where
  | corrected
  | uncorrectable (owner : Nat)
  deriving DecidableEq, Repr

/-- What an operation or event carries besides numbers. -/
inductive EvData where
  | none
  | keys (u : KeyUpdate)
  | reg (w : RegWrite)
  | firmware (f : Firmware)
  | bytes (b : List Byte)
  | nats (l : List Nat)
  | fabric (r : FabReq)
  | host (r : HostReq)
  | error (e : MemErr)
  deriving DecidableEq, Repr

/-- The operands of an operation or event, as the docstring of its meaning reads them. -/
structure Ev where
  x : Nat
  y : Nat
  z : Nat
  flag : Bool
  data : EvData
  deriving DecidableEq, Repr

/-- An event on one or two numbered agents. -/
def Ev.at (x : Nat) (y : Nat := 0) (z : Nat := 0) : Ev := ⟨x, y, z, false, .none⟩

end Sys2Proof
end

