-- ==== Sys2Proof/Syntax.lean ====
section
/-! DEFINITION. The instructions and events of the BX-1: one constructor per row of spec/opcode_table.json.
An instruction word's constructor carries its decoded fields (R92, R93). The switch marker S stands in every word alike (R91)
and is decoded beside the instruction. What an event acts on stands in the state (`State.ev`). -/

namespace Sys2Proof

/-- The rows of the opcode table: instruction words with operands, words without, then operations and events. -/
inductive Instr where
  /-- IADD (R157) -/
  | iadd (d a b : Reg)
  /-- ISUB (R157) -/
  | isub (d a b : Reg)
  /-- IMUL (R157) -/
  | imul (d a b : Reg)
  /-- IMULH (R157) -/
  | imulh (d a b : Reg)
  /-- UMULH (R157) -/
  | umulh (d a b : Reg)
  /-- IMAD (R157) -/
  | imad (d a b : Reg)
  /-- IMIN (R157) -/
  | imin (d a b : Reg)
  /-- IMAX (R157) -/
  | imax (d a b : Reg)
  /-- UMIN (R157) -/
  | umin (d a b : Reg)
  /-- UMAX (R157) -/
  | umax (d a b : Reg)
  /-- IADD_W (R157) -/
  | iaddW (d a b : Reg)
  /-- ISUB_W (R157) -/
  | isubW (d a b : Reg)
  /-- IMUL_W (R157) -/
  | imulW (d a b : Reg)
  /-- UMUL_W (R157) -/
  | umulW (d a b : Reg)
  /-- AND (R158) -/
  | and (d a b : Reg)
  /-- OR (R158) -/
  | or (d a b : Reg)
  /-- XOR (R158) -/
  | xor (d a b : Reg)
  /-- ANDN (R158) -/
  | andn (d a b : Reg)
  /-- ORN (R158) -/
  | orn (d a b : Reg)
  /-- XNOR (R158) -/
  | xnor (d a b : Reg)
  /-- SHL (R158) -/
  | shl (d a b : Reg)
  /-- SHR (R158) -/
  | shr (d a b : Reg)
  /-- SRA (R158) -/
  | sra (d a b : Reg)
  /-- ROTL (R158) -/
  | rotl (d a b : Reg)
  /-- SHL_W (R158) -/
  | shlW (d a b : Reg)
  /-- SHR_W (R158) -/
  | shrW (d a b : Reg)
  /-- SRA_W (R158) -/
  | sraW (d a b : Reg)
  /-- CMPEQ (R159) -/
  | cmpeq (d a b : Reg)
  /-- CMPNE (R159) -/
  | cmpne (d a b : Reg)
  /-- CMPLT (R159) -/
  | cmplt (d a b : Reg)
  /-- CMPLE (R159) -/
  | cmple (d a b : Reg)
  /-- CMPLTU (R159) -/
  | cmpltu (d a b : Reg)
  /-- CMPLEU (R159) -/
  | cmpleu (d a b : Reg)
  /-- SEL (R159) -/
  | sel (d a b : Reg)
  /-- BFE (R160) -/
  | bfe (d a b : Reg)
  /-- BFI (R160) -/
  | bfi (d a b : Reg)
  /-- PACK2 (R159) -/
  | pack2 (d a b : Reg)
  /-- PERMB (R161) -/
  | permb (d a b : Reg)
  /-- CLZ (R162) -/
  | clz (d a : Reg)
  /-- POPC (R162) -/
  | popc (d a : Reg)
  /-- BREV (R162) -/
  | brev (d a : Reg)
  /-- IABS (R162) -/
  | iabs (d a : Reg)
  /-- INEG (R162) -/
  | ineg (d a : Reg)
  /-- NOT (R162) -/
  | not (d a : Reg)
  /-- MOV (R162) -/
  | mov (d a : Reg)
  /-- MOV_W (R162) -/
  | movW (d a : Reg)
  /-- SEXTB (R162) -/
  | sextb (d a : Reg)
  /-- SEXTH (R162) -/
  | sexth (d a : Reg)
  /-- ZEXTB (R162) -/
  | zextb (d a : Reg)
  /-- ZEXTH (R162) -/
  | zexth (d a : Reg)
  /-- ADDI (R163) -/
  | addi (d a : Reg) (i : Int)
  /-- ANDI (R163) -/
  | andi (d a : Reg) (i : Nat)
  /-- ORI (R163) -/
  | ori (d a : Reg) (i : Nat)
  /-- XORI (R163) -/
  | xori (d a : Reg) (i : Nat)
  /-- SHLI (R164) -/
  | shli (d a : Reg) (k : Nat)
  /-- SHRI (R164) -/
  | shri (d a : Reg) (k : Nat)
  /-- SRAI (R164) -/
  | srai (d a : Reg) (k : Nat)
  /-- ROTLI (R164) -/
  | rotli (d a : Reg) (k : Nat)
  /-- SHLI_W (R164) -/
  | shliW (d a : Reg) (k : Nat)
  /-- SHRI_W (R164) -/
  | shriW (d a : Reg) (k : Nat)
  /-- SRAI_W (R164) -/
  | sraiW (d a : Reg) (k : Nat)
  /-- CMPEQI (R165) -/
  | cmpeqi (d a : Reg) (k : Int)
  /-- CMPNEI (R165) -/
  | cmpnei (d a : Reg) (k : Int)
  /-- CMPLTI (R165) -/
  | cmplti (d a : Reg) (k : Int)
  /-- CMPLEI (R165) -/
  | cmplei (d a : Reg) (k : Int)
  /-- CMPGTI (R165) -/
  | cmpgti (d a : Reg) (k : Int)
  /-- CMPGEI (R165) -/
  | cmpgei (d a : Reg) (k : Int)
  /-- CMPLTUI (R165) -/
  | cmpltui (d a : Reg) (k : Nat)
  /-- CMPGEUI (R165) -/
  | cmpgeui (d a : Reg) (k : Nat)
  /-- MOVI (R166) -/
  | movi (d : Reg) (i : Int)
  /-- MOVHI (R166) -/
  | movhi (d : Reg) (i : Nat)
  /-- LDLIT (R167) -/
  | ldlit (d : Reg) (i : Int)
  /-- LDLIT_W (R167) -/
  | ldlitW (d : Reg) (i : Int)
  /-- FADD (R181) -/
  | fadd (d a b : Reg)
  /-- FSUB (R181) -/
  | fsub (d a b : Reg)
  /-- FMUL (R181) -/
  | fmul (d a b : Reg)
  /-- FFMA (R181) -/
  | ffma (d a b : Reg)
  /-- FFMS (R181) -/
  | ffms (d a b : Reg)
  /-- FNFMA (R181) -/
  | fnfma (d a b : Reg)
  /-- FMIN (R182) -/
  | fmin (d a b : Reg)
  /-- FMAX (R182) -/
  | fmax (d a b : Reg)
  /-- FCOPYSIGN (R181) -/
  | fcopysign (d a b : Reg)
  /-- FCMPEQ (R181) -/
  | fcmpeq (d a b : Reg)
  /-- FCMPLT (R181) -/
  | fcmplt (d a b : Reg)
  /-- FCMPLE (R181) -/
  | fcmple (d a b : Reg)
  /-- FCMPUN (R181) -/
  | fcmpun (d a b : Reg)
  /-- FABS (R183) -/
  | fabs (d a : Reg)
  /-- FNEG (R183) -/
  | fneg (d a : Reg)
  /-- FRCP (R183) -/
  | frcp (d a : Reg)
  /-- FRSQ (R183) -/
  | frsq (d a : Reg)
  /-- FSQRT (R183) -/
  | fsqrt (d a : Reg)
  /-- FEXP2 (R183) -/
  | fexp2 (d a : Reg)
  /-- FLOG2 (R183) -/
  | flog2 (d a : Reg)
  /-- FSIN (R183) -/
  | fsin (d a : Reg)
  /-- FCOS (R183) -/
  | fcos (d a : Reg)
  /-- FTANH (R183) -/
  | ftanh (d a : Reg)
  /-- FFLOOR (R183) -/
  | ffloor (d a : Reg)
  /-- FCEIL (R183) -/
  | fceil (d a : Reg)
  /-- FTRUNC (R183) -/
  | ftrunc (d a : Reg)
  /-- FRINT (R183) -/
  | frint (d a : Reg)
  /-- FCLASS (R184) -/
  | fclass (d a : Reg)
  /-- HADD2_B (R187) -/
  | hadd2B (d a b : Reg)
  /-- HSUB2_B (R187) -/
  | hsub2B (d a b : Reg)
  /-- HMUL2_B (R187) -/
  | hmul2B (d a b : Reg)
  /-- HFMA2_B (R187) -/
  | hfma2B (d a b : Reg)
  /-- HMIN2_B (R187) -/
  | hmin2B (d a b : Reg)
  /-- HMAX2_B (R187) -/
  | hmax2B (d a b : Reg)
  /-- HADD2_H (R187) -/
  | hadd2H (d a b : Reg)
  /-- HSUB2_H (R187) -/
  | hsub2H (d a b : Reg)
  /-- HMUL2_H (R187) -/
  | hmul2H (d a b : Reg)
  /-- HFMA2_H (R187) -/
  | hfma2H (d a b : Reg)
  /-- HMIN2_H (R187) -/
  | hmin2H (d a b : Reg)
  /-- HMAX2_H (R187) -/
  | hmax2H (d a b : Reg)
  /-- CVT (R190) -/
  | cvt (d a b : Reg)
  /-- CVT_PACK (R190) -/
  | cvtPack (d a b : Reg)
  /-- CVT_UNPK (R190) -/
  | cvtUnpk (d a b : Reg)
  /-- CVT_PACK2 (R190) -/
  | cvtPack2 (d a b : Reg)
  /-- CVT_UNPK2 (R190) -/
  | cvtUnpk2 (d a b : Reg)
  /-- CVT_PACKS (R191) -/
  | cvtPacks (d a b : Reg)
  /-- CVT_UNPKS (R191) -/
  | cvtUnpks (d a b : Reg)
  /-- QSCALE (R192) -/
  | qscale (d a b : Reg)
  /-- SHFL (R195) -/
  | shfl (d a b : Reg)
  /-- SHFLUP (R195) -/
  | shflup (d a b : Reg)
  /-- SHFLDN (R195) -/
  | shfldn (d a b : Reg)
  /-- SHFLX (R195) -/
  | shflx (d a b : Reg)
  /-- QXCH (R196) -/
  | qxch (d a b : Reg)
  /-- BALLOT (R197) -/
  | ballot (d a : Reg)
  /-- VANY (R197) -/
  | vany (d a : Reg)
  /-- VALL (R197) -/
  | vall (d a : Reg)
  /-- MATCH (R197) -/
  | laneMatch (d a : Reg)
  /-- IRED (R198) -/
  | ired (d a b : Reg)
  /-- FRED (R198) -/
  | fred (d a b : Reg)
  /-- ISCAN (R198) -/
  | iscan (d a b : Reg)
  /-- FSCAN (R198) -/
  | fscan (d a b : Reg)
  /-- ELECT (R197) -/
  | elect (d : Reg)
  /-- SREAD (R199) -/
  | sread (d : Reg) (k : Nat)
  /-- SWRITE (R199) -/
  | swrite (a : Reg) (k : Nat)
  /-- LD (R256) -/
  | ld (d a : Reg) (z : Size) (off : Int)
  /-- ST (R256) -/
  | st (d a : Reg) (z : Size) (off : Int)
  /-- LDL (R257) -/
  | ldl (d a : Reg) (z : Size) (off : Int)
  /-- STL (R257) -/
  | stl (d a : Reg) (z : Size) (off : Int)
  /-- LDX (R258) -/
  | ldx (d a b : Reg) (z : Size)
  /-- STX (R258) -/
  | stx (d a b : Reg) (z : Size)
  /-- ATOM_ADD (R261) -/
  | atomAdd (d a b : Reg)
  /-- ATOM_AND (R261) -/
  | atomAnd (d a b : Reg)
  /-- ATOM_OR (R261) -/
  | atomOr (d a b : Reg)
  /-- ATOM_XOR (R261) -/
  | atomXor (d a b : Reg)
  /-- ATOM_MIN (R261) -/
  | atomMin (d a b : Reg)
  /-- ATOM_MAX (R261) -/
  | atomMax (d a b : Reg)
  /-- ATOM_UMIN (R261) -/
  | atomUmin (d a b : Reg)
  /-- ATOM_UMAX (R261) -/
  | atomUmax (d a b : Reg)
  /-- ATOM_XCHG (R261) -/
  | atomXchg (d a b : Reg)
  /-- ATOM_CAS (R261) -/
  | atomCas (d a b : Reg)
  /-- ATOM_INC (R261) -/
  | atomInc (d a b : Reg)
  /-- ATOM_FADD (R262) -/
  | atomFadd (d a b : Reg)
  /-- ATOM_HADD2_B (R262) -/
  | atomHadd2B (d a b : Reg)
  /-- ATOM_HADD2_H (R262) -/
  | atomHadd2H (d a b : Reg)
  /-- ATOM_FMIN (R262) -/
  | atomFmin (d a b : Reg)
  /-- ATOM_FMAX (R262) -/
  | atomFmax (d a b : Reg)
  /-- ATOM_W_ADD (R263) -/
  | atomWAdd (d a b : Reg)
  /-- ATOM_W_AND (R263) -/
  | atomWAnd (d a b : Reg)
  /-- ATOM_W_OR (R263) -/
  | atomWOr (d a b : Reg)
  /-- ATOM_W_XOR (R263) -/
  | atomWXor (d a b : Reg)
  /-- ATOM_W_MIN (R263) -/
  | atomWMin (d a b : Reg)
  /-- ATOM_W_MAX (R263) -/
  | atomWMax (d a b : Reg)
  /-- ATOM_W_UMIN (R263) -/
  | atomWUmin (d a b : Reg)
  /-- ATOM_W_UMAX (R263) -/
  | atomWUmax (d a b : Reg)
  /-- ATOM_W_XCHG (R263) -/
  | atomWXchg (d a b : Reg)
  /-- ATOM_W_CAS (R263) -/
  | atomWCas (d a b : Reg)
  /-- ATOM_W_INC (R263) -/
  | atomWInc (d a b : Reg)
  /-- ATOML_ADD (R264) -/
  | atomlAdd (d a b : Reg)
  /-- ATOML_AND (R264) -/
  | atomlAnd (d a b : Reg)
  /-- ATOML_OR (R264) -/
  | atomlOr (d a b : Reg)
  /-- ATOML_XOR (R264) -/
  | atomlXor (d a b : Reg)
  /-- ATOML_MIN (R264) -/
  | atomlMin (d a b : Reg)
  /-- ATOML_MAX (R264) -/
  | atomlMax (d a b : Reg)
  /-- ATOML_UMIN (R264) -/
  | atomlUmin (d a b : Reg)
  /-- ATOML_UMAX (R264) -/
  | atomlUmax (d a b : Reg)
  /-- ATOML_XCHG (R264) -/
  | atomlXchg (d a b : Reg)
  /-- ATOML_CAS (R264) -/
  | atomlCas (d a b : Reg)
  /-- ATOML_INC (R264) -/
  | atomlInc (d a b : Reg)
  /-- ATOML_FADD (R264) -/
  | atomlFadd (d a b : Reg)
  /-- ATOML_HADD2_B (R264) -/
  | atomlHadd2B (d a b : Reg)
  /-- ATOML_HADD2_H (R264) -/
  | atomlHadd2H (d a b : Reg)
  /-- ATOML_FMIN (R264) -/
  | atomlFmin (d a b : Reg)
  /-- ATOML_FMAX (R264) -/
  | atomlFmax (d a b : Reg)
  /-- BRA (R168) -/
  | bra (i : Int)
  /-- BZ (R168) -/
  | bz (a : Reg) (i : Int)
  /-- BNZ (R168) -/
  | bnz (a : Reg) (i : Int)
  /-- CALL (R169) -/
  | call (d : Reg) (i : Int)
  /-- JMP (R170) -/
  | jmp (a : Reg)
  /-- JCALL (R170) -/
  | jcall (d a : Reg)
  /-- RET (R170) -/
  | ret (a : Reg)
  /-- SLEEP (R176) -/
  | sleep (k : Nat)
  /-- TRAP (R177) -/
  | trap (k : Nat)
  /-- TRET (R395) -/
  | tret (k : TretAct)
  /-- REGCLM (R128) -/
  | regclm (k : Nat)
  /-- REGREL (R128) -/
  | regrel (k : Nat)
  /-- WBASE (R127) -/
  | wbase (k : Nat)
  /-- REGSTAT (R362) -/
  | regstat (d : Reg)
  /-- HALLOC (R274) -/
  | halloc (d a b : Reg)
  /-- HFREE (R273) -/
  | hfree (a : Reg)
  /-- HSEAL (R273) -/
  | hseal (a : Reg)
  /-- HWAIT (R273) -/
  | hwait (a : Reg)
  /-- HSTAT (R274) -/
  | hstat (d a : Reg)
  /-- HGEN (R273) -/
  | hgen (d a : Reg)
  /-- LSFENCE (R273) -/
  | lsfence (a : Reg)
  /-- TFETCH (R284) -/
  | tfetch (d a b : Reg)
  /-- TSTORE (R284) -/
  | tstore (d a b : Reg)
  /-- TMCAST (R285) -/
  | tmcast (d a : Reg)
  /-- LRBIND (R276) -/
  | lrbind (a b : Reg)
  /-- LRFLUSH (R276) -/
  | lrflush (b : Reg)
  /-- ABCLAIM (R293) -/
  | abclaim (d a : Reg)
  /-- ABREL (R294) -/
  | abrel (a : Reg)
  /-- MZERO (R297) -/
  | mzero (a : Reg)
  /-- MMA (R298) -/
  | mma (d a b : Reg)
  /-- MLOOP (R299) -/
  | mloop (d a b : Reg)
  /-- MDRAIN (R301) -/
  | mdrain (d a b : Reg)
  /-- BCOPY (R286) -/
  | bcopy (d a b : Reg)
  /-- EMBAG (R316) -/
  | embag (d a b : Reg)
  /-- TLWAIT (R355) -/
  | tlwait (a b : Reg)
  /-- TLREAD (R355) -/
  | tlread (d b : Reg)
  /-- QBIND (R357) -/
  | qbind (a b : Reg)
  /-- QUNBIND (R360) -/
  | qunbind (a : Reg)
  /-- QSTAT (R361) -/
  | qstat (d a : Reg)
  /-- BINIT (R347) -/
  | binit (a b : Reg)
  /-- BEXPECT (R348) -/
  | bexpect (a b : Reg)
  /-- BARRIVE (R349) -/
  | barrive (d a : Reg)
  /-- BWAIT (R350) -/
  | bwait (a b : Reg)
  /-- BCREDIT (R348) -/
  | bcredit (a b : Reg)
  /-- LAUNCH (R354) -/
  | launch (d a b : Reg)
  /-- TKPUSH (R365) -/
  | tkpush (a : Reg)
  /-- TKPOP (R366) -/
  | tkpop (d : Reg)
  /-- TKCANCEL (R369) -/
  | tkcancel (a b : Reg)
  /-- TKSTAT (R370) -/
  | tkstat (d a : Reg)
  /-- TLBINV (R413) -/
  | tlbinv (d a : Reg) (k : Nat)
  /-- ICINV (R414) -/
  | icinv (k : Nat)
  /-- CSRRD (R415) -/
  | csrrd (d : Reg) (k : Nat)
  /-- CSRWR (R415) -/
  | csrwr (a : Reg) (k : Nat)
  /-- PERFRD (R416) -/
  | perfrd (d : Reg) (k : Nat)
  /-- NOP (R172) -/
  | nop
  /-- EXIT (R173) -/
  | exit
  /-- YIELD (R174) -/
  | yield
  /-- COMMIT (R175) -/
  | commit
  /-- BKPT (R177) -/
  | bkpt
  /-- TSYNC (R352) -/
  | tsync
  /-- TRIGGER (R353) -/
  | trigger
  /-- TKDONE (R368) -/
  | tkdone
  /-- HALT (R416) -/
  | halt
  /-- TAKE_RECORDS (R56) -/
  | takeRecords
  /-- QUEUE_ENABLE (R54) -/
  | queueEnable
  /-- QUEUE_RESET (R76) -/
  | queueReset
  /-- IMAGE_CHECK (R45) -/
  | imageCheck
  /-- PLACE_GANG (R81) -/
  | placeGang
  /-- COLAUNCH_PLACE (R83) -/
  | colaunchPlace
  /-- DRAIN_START (R88) -/
  | drainStart
  /-- DRAIN_DEADLINE (R402) -/
  | drainDeadline
  /-- RESTORE_GANG (R404) -/
  | restoreGang
  /-- CLUSTER_OWNER_CHANGE (R89) -/
  | clusterOwnerChange
  /-- WAVE_RETIRE (R432) -/
  | waveRetire
  /-- TEAM_RETIRE (R433) -/
  | teamRetire
  /-- LAUNCH_COMPLETE (R435) -/
  | launchComplete
  /-- LAUNCH_DISCARD (R410) -/
  | launchDiscard
  /-- LAUNCH_KILL (R400) -/
  | launchKill
  /-- OWNER_CREATE (R224) -/
  | ownerCreate
  /-- OWNER_DESTROY (R52) -/
  | ownerDestroy
  /-- SET_KEYS (R48) -/
  | setKeys
  /-- DBTAG_WRITE (R205) -/
  | dbtagWrite
  /-- FAULTDONE_WRITE (R400) -/
  | faultdoneWrite
  /-- HDMCFG_WRITE (R244) -/
  | hdmcfgWrite
  /-- BIASBASE_WRITE (R245) -/
  | biasbaseWrite
  /-- REGISTER_WRITE (R415) -/
  | registerWrite
  /-- STORE_ENTRY_SEND (R331) -/
  | storeEntrySend
  /-- INVALIDATION (R331) -/
  | invalidation
  /-- STORE_ENTRY_ACK (R331) -/
  | storeEntryAck
  /-- ATOMIC_PERFORM (R260) -/
  | atomicPerform
  /-- CLASS_V_RESULT (R121) -/
  | classVResult
  /-- REGION_COMMIT (R338) -/
  | regionCommit
  /-- CAUTIOUS_MODE_END (R341) -/
  | cautiousModeEnd
  /-- STARVATION_SWEEP (R113) -/
  | starvationSweep
  /-- TRAP_ENTRY (R390) -/
  | trapEntry
  /-- TEAM_PARK (R398) -/
  | teamPark
  /-- FAULT_POST (R399) -/
  | faultPost
  /-- ENGINE_COMMAND_RELEASE (R326) -/
  | engineCommandRelease
  /-- ENGINE_COMMAND_COMPLETE (R280) -/
  | engineCommandComplete
  /-- ARRAY_SLOT_START (R304) -/
  | arraySlotStart
  /-- BANK_SETTLE (R294) -/
  | bankSettle
  /-- ABCLAIM_GRANT (R293) -/
  | abclaimGrant
  /-- REGCLM_GRANT (R128) -/
  | regclmGrant
  /-- SLEEP_END (R176) -/
  | sleepEnd
  /-- CORE_GATE (R445) -/
  | coreGate
  /-- CORE_WAKE (R445) -/
  | coreWake
  /-- CORE_RESUME (R416) -/
  | coreResume
  /-- POWER_THROTTLE (R444) -/
  | powerThrottle
  /-- RAIL_EXCURSION (R443) -/
  | railExcursion
  /-- MODULE_RESET (R439) -/
  | moduleReset
  /-- DEVICE_ID_WRITE (R228) -/
  | deviceIdWrite
  /-- FIRMWARE_UPDATE (R447) -/
  | firmwareUpdate
  /-- ATTESTATION_REQUEST (R442) -/
  | attestationRequest
  /-- MR_EXTEND (R441) -/
  | mrExtend
  /-- DEBUG_UNLOCK (R448) -/
  | debugUnlock
  /-- HK_PWRLIM_WRITE (R449) -/
  | hkPwrlimWrite
  /-- HK_ECC_CLEAR (R449) -/
  | hkEccClear
  /-- MEMORY_ERROR (R446) -/
  | memoryError
  /-- MEMORY_SCRUB (R446) -/
  | memoryScrub
  /-- ARRAY_FAULT (R408) -/
  | arrayFault
  /-- LINK_RETRY (R230) -/
  | linkRetry
  /-- LINK_DOWN (R230) -/
  | linkDown
  /-- FABRIC_REQUEST (R231) -/
  | fabricRequest
  /-- FABRIC_RESEND (R232) -/
  | fabricResend
  /-- FABRIC_UNREACHABLE (R233) -/
  | fabricUnreachable
  /-- LEASE_REQUEST (R236) -/
  | leaseRequest
  /-- LEASE_RECALL (R237) -/
  | leaseRecall
  /-- LEASE_BLOCK (R238) -/
  | leaseBlock
  /-- HOST_SNOOP (R240) -/
  | hostSnoop
  /-- HOST_HDM_ACCESS (R246) -/
  | hostHdmAccess
  /-- KEY_FETCH (R311) -/
  | keyFetch
  /-- ILLEGAL_INSTRUCTION (R105) -/
  | illegalInstruction
  /-- INSTRUCTION_FETCH_FAULT (R106) -/
  | instructionFetchFault
  /-- ELEMENT_ACCESS_PERFORMED (R268) -/
  | elementAccessPerformed
  /-- LEASE_BLOCK_CLEAR (R238) -/
  | leaseBlockClear
  deriving DecidableEq, Repr

end Sys2Proof
end

