-- ==== Sys2Proof/WellFormed.lean ====
section
/-! DEFINITION. Which terms of `Instr` an instruction word can denote: field ranges (R93), units (R96, R98) and queue
register fields (R99). An event has no encoding and is well formed as it stands. -/

namespace Sys2Proof

/-- Registers a size's data takes (R98). -/
def Size.regs : Size → Nat
  | .pr => 2
  | .qd => 4
  | _ => 1

/-- A window field naming a unit of `u` registers: aligned, at or below v119, no queue register (R96). -/
def Reg.block (u : Nat) : Reg → Bool
  | .v n => n % u == 0 && n + u < 121
  | .q _ => false

/-- A single-register source that may name a queue register (R95, R99). -/
def Reg.src : Reg → Bool
  | .v n => decide (n < 120)
  | .q n => decide (n < 8)

/-- Whether the field names a queue register. -/
def Reg.isQ : Reg → Bool
  | .v _ => false
  | .q _ => true

/-- A single-register destination that may name a queue register when no other field does (R99). -/
def Reg.dst (others : List Reg) : Reg → Bool
  | .v n => decide (n < 120)
  | .q n => n < 8 && !others.any Reg.isQ

/-- A signed field's range (R93). -/
def inRange (lo hi i : Int) : Bool := decide (lo ≤ i) && decide (i ≤ hi)

/-- The field checks of R106 step 3 that are not must-be-zero checks. -/
def Instr.wf : Instr → Bool
  | .iadd d a b => d.dst [a, b] && a.src && b.src
  | .isub d a b => d.dst [a, b] && a.src && b.src
  | .imul d a b => d.dst [a, b] && a.src && b.src
  | .imulh d a b => d.dst [a, b] && a.src && b.src
  | .umulh d a b => d.dst [a, b] && a.src && b.src
  | .imad d a b => d.block 1 && a.src && b.src
  | .imin d a b => d.dst [a, b] && a.src && b.src
  | .imax d a b => d.dst [a, b] && a.src && b.src
  | .umin d a b => d.dst [a, b] && a.src && b.src
  | .umax d a b => d.dst [a, b] && a.src && b.src
  | .iaddW d a b => d.block 2 && a.block 2 && b.block 2
  | .isubW d a b => d.block 2 && a.block 2 && b.block 2
  | .imulW d a b => d.block 2 && a.src && b.src
  | .umulW d a b => d.block 2 && a.src && b.src
  | .and d a b => d.dst [a, b] && a.src && b.src
  | .or d a b => d.dst [a, b] && a.src && b.src
  | .xor d a b => d.dst [a, b] && a.src && b.src
  | .andn d a b => d.dst [a, b] && a.src && b.src
  | .orn d a b => d.dst [a, b] && a.src && b.src
  | .xnor d a b => d.dst [a, b] && a.src && b.src
  | .shl d a b => d.dst [a, b] && a.src && b.src
  | .shr d a b => d.dst [a, b] && a.src && b.src
  | .sra d a b => d.dst [a, b] && a.src && b.src
  | .rotl d a b => d.dst [a, b] && a.src && b.src
  | .shlW d a b => d.block 2 && a.block 2 && b.src
  | .shrW d a b => d.block 2 && a.block 2 && b.src
  | .sraW d a b => d.block 2 && a.block 2 && b.src
  | .cmpeq d a b => d.dst [a, b] && a.src && b.src
  | .cmpne d a b => d.dst [a, b] && a.src && b.src
  | .cmplt d a b => d.dst [a, b] && a.src && b.src
  | .cmple d a b => d.dst [a, b] && a.src && b.src
  | .cmpltu d a b => d.dst [a, b] && a.src && b.src
  | .cmpleu d a b => d.dst [a, b] && a.src && b.src
  | .sel d a b => d.block 1 && a.src && b.src
  | .bfe d a b => d.dst [a, b] && a.src && b.src
  | .bfi d a b => d.block 1 && a.src && b.src
  | .pack2 d a b => d.dst [a, b] && a.src && b.src
  | .permb d a b => d.dst [a, b] && a.src && b.src
  | .clz d a => d.dst [a] && a.src
  | .popc d a => d.dst [a] && a.src
  | .brev d a => d.dst [a] && a.src
  | .iabs d a => d.dst [a] && a.src
  | .ineg d a => d.dst [a] && a.src
  | .not d a => d.dst [a] && a.src
  | .mov d a => d.dst [a] && a.src
  | .movW d a => d.block 2 && a.block 2
  | .sextb d a => d.dst [a] && a.src
  | .sexth d a => d.dst [a] && a.src
  | .zextb d a => d.dst [a] && a.src
  | .zexth d a => d.dst [a] && a.src
  | .addi d a i => d.dst [a] && a.src && inRange (-1024) 1023 i
  | .andi d a i => d.dst [a] && a.src && decide (i < 2048)
  | .ori d a i => d.dst [a] && a.src && decide (i < 2048)
  | .xori d a i => d.dst [a] && a.src && decide (i < 2048)
  | .shli d a k => d.dst [a] && a.src && decide (k < 32)
  | .shri d a k => d.dst [a] && a.src && decide (k < 32)
  | .srai d a k => d.dst [a] && a.src && decide (k < 32)
  | .rotli d a k => d.dst [a] && a.src && decide (k < 32)
  | .shliW d a k => d.block 2 && a.block 2 && decide (k < 64)
  | .shriW d a k => d.block 2 && a.block 2 && decide (k < 64)
  | .sraiW d a k => d.block 2 && a.block 2 && decide (k < 64)
  | .cmpeqi d a k => d.dst [a] && a.src && inRange (-64) 63 k
  | .cmpnei d a k => d.dst [a] && a.src && inRange (-64) 63 k
  | .cmplti d a k => d.dst [a] && a.src && inRange (-64) 63 k
  | .cmplei d a k => d.dst [a] && a.src && inRange (-64) 63 k
  | .cmpgti d a k => d.dst [a] && a.src && inRange (-64) 63 k
  | .cmpgei d a k => d.dst [a] && a.src && inRange (-64) 63 k
  | .cmpltui d a k => d.dst [a] && a.src && decide (k < 128)
  | .cmpgeui d a k => d.dst [a] && a.src && decide (k < 128)
  | .movi d i => d.dst [] && inRange (-131072) 131071 i
  | .movhi d i => d.block 1 && decide (i < 262144)
  | .ldlit d i => d.block 1 && inRange (-131072) 131071 i
  | .ldlitW d i => d.block 2 && inRange (-131072) 131071 i
  | .fadd d a b => d.dst [a, b] && a.src && b.src
  | .fsub d a b => d.dst [a, b] && a.src && b.src
  | .fmul d a b => d.dst [a, b] && a.src && b.src
  | .ffma d a b => d.block 1 && a.src && b.src
  | .ffms d a b => d.block 1 && a.src && b.src
  | .fnfma d a b => d.block 1 && a.src && b.src
  | .fmin d a b => d.dst [a, b] && a.src && b.src
  | .fmax d a b => d.dst [a, b] && a.src && b.src
  | .fcopysign d a b => d.dst [a, b] && a.src && b.src
  | .fcmpeq d a b => d.dst [a, b] && a.src && b.src
  | .fcmplt d a b => d.dst [a, b] && a.src && b.src
  | .fcmple d a b => d.dst [a, b] && a.src && b.src
  | .fcmpun d a b => d.dst [a, b] && a.src && b.src
  | .fabs d a => d.dst [a] && a.src
  | .fneg d a => d.dst [a] && a.src
  | .frcp d a => d.block 1 && a.src
  | .frsq d a => d.block 1 && a.src
  | .fsqrt d a => d.block 1 && a.src
  | .fexp2 d a => d.block 1 && a.src
  | .flog2 d a => d.block 1 && a.src
  | .fsin d a => d.block 1 && a.src
  | .fcos d a => d.block 1 && a.src
  | .ftanh d a => d.block 1 && a.src
  | .ffloor d a => d.dst [a] && a.src
  | .fceil d a => d.dst [a] && a.src
  | .ftrunc d a => d.dst [a] && a.src
  | .frint d a => d.dst [a] && a.src
  | .fclass d a => d.dst [a] && a.src
  | .hadd2B d a b => d.dst [a, b] && a.src && b.src
  | .hsub2B d a b => d.dst [a, b] && a.src && b.src
  | .hmul2B d a b => d.dst [a, b] && a.src && b.src
  | .hfma2B d a b => d.block 1 && a.src && b.src
  | .hmin2B d a b => d.dst [a, b] && a.src && b.src
  | .hmax2B d a b => d.dst [a, b] && a.src && b.src
  | .hadd2H d a b => d.dst [a, b] && a.src && b.src
  | .hsub2H d a b => d.dst [a, b] && a.src && b.src
  | .hmul2H d a b => d.dst [a, b] && a.src && b.src
  | .hfma2H d a b => d.block 1 && a.src && b.src
  | .hmin2H d a b => d.dst [a, b] && a.src && b.src
  | .hmax2H d a b => d.dst [a, b] && a.src && b.src
  | .cvt d a b => d.dst [a, b] && a.src && b.src
  | .cvtPack d a b => d.block 1 && a.block 4 && b.block 1
  | .cvtUnpk d a b => d.block 4 && a.block 1 && b.block 1
  | .cvtPack2 d a b => d.block 1 && a.block 2 && b.block 1
  | .cvtUnpk2 d a b => d.block 2 && a.block 1 && b.block 1
  | .cvtPacks d a b => d.block 1 && a.block 4 && b.block 1
  | .cvtUnpks d a b => d.block 4 && a.block 1 && b.block 1
  | .qscale d a b => d.block 1 && a.block 4 && b.block 1
  | .shfl d a b => d.block 1 && a.block 1 && b.block 1
  | .shflup d a b => d.block 1 && a.block 1 && b.block 1
  | .shfldn d a b => d.block 1 && a.block 1 && b.block 1
  | .shflx d a b => d.block 1 && a.block 1 && b.block 1
  | .qxch d a b => d.block 1 && a.block 1 && b.block 1
  | .ballot d a => d.block 2 && a.block 1
  | .vany d a => d.block 1 && a.block 1
  | .vall d a => d.block 1 && a.block 1
  | .laneMatch d a => d.block 2 && a.block 1
  | .ired d a b => d.block 1 && a.block 1 && b.block 1
  | .fred d a b => d.block 1 && a.block 1 && b.block 1
  | .iscan d a b => d.block 1 && a.block 1 && b.block 1
  | .fscan d a b => d.block 1 && a.block 1 && b.block 1
  | .elect d => d.block 1
  | .sread d k => d.block 1 && decide (k < 32)
  | .swrite a k => a.block 1 && (k == 16 || k == 17 || k == 19)
  | .ld d a z off => d.block z.regs && a.block 2 && inRange (-128) 127 off
  | .st d a z off => d.block z.regs && a.block 2 && inRange (-128) 127 off
  | .ldl d a z off => d.block z.regs && a.block 1 && inRange (-128) 127 off
  | .stl d a z off => d.block z.regs && a.block 1 && inRange (-128) 127 off
  | .ldx d a b z => d.block z.regs && a.block 2 && b.block 2
  | .stx d a b z => d.block z.regs && a.block 2 && b.block 2
  | .atomAdd d a b => d.block 1 && a.block 2 && b.block 1
  | .atomAnd d a b => d.block 1 && a.block 2 && b.block 1
  | .atomOr d a b => d.block 1 && a.block 2 && b.block 1
  | .atomXor d a b => d.block 1 && a.block 2 && b.block 1
  | .atomMin d a b => d.block 1 && a.block 2 && b.block 1
  | .atomMax d a b => d.block 1 && a.block 2 && b.block 1
  | .atomUmin d a b => d.block 1 && a.block 2 && b.block 1
  | .atomUmax d a b => d.block 1 && a.block 2 && b.block 1
  | .atomXchg d a b => d.block 1 && a.block 2 && b.block 1
  | .atomCas d a b => d.block 1 && a.block 2 && b.block 2
  | .atomInc d a b => d.block 1 && a.block 2 && b.block 1
  | .atomFadd d a b => d.block 1 && a.block 2 && b.block 1
  | .atomHadd2B d a b => d.block 1 && a.block 2 && b.block 1
  | .atomHadd2H d a b => d.block 1 && a.block 2 && b.block 1
  | .atomFmin d a b => d.block 1 && a.block 2 && b.block 1
  | .atomFmax d a b => d.block 1 && a.block 2 && b.block 1
  | .atomWAdd d a b => d.block 2 && a.block 2 && b.block 2
  | .atomWAnd d a b => d.block 2 && a.block 2 && b.block 2
  | .atomWOr d a b => d.block 2 && a.block 2 && b.block 2
  | .atomWXor d a b => d.block 2 && a.block 2 && b.block 2
  | .atomWMin d a b => d.block 2 && a.block 2 && b.block 2
  | .atomWMax d a b => d.block 2 && a.block 2 && b.block 2
  | .atomWUmin d a b => d.block 2 && a.block 2 && b.block 2
  | .atomWUmax d a b => d.block 2 && a.block 2 && b.block 2
  | .atomWXchg d a b => d.block 2 && a.block 2 && b.block 2
  | .atomWCas d a b => d.block 2 && a.block 2 && b.block 4
  | .atomWInc d a b => d.block 2 && a.block 2 && b.block 2
  | .atomlAdd d a b => d.block 1 && a.block 1 && b.block 1
  | .atomlAnd d a b => d.block 1 && a.block 1 && b.block 1
  | .atomlOr d a b => d.block 1 && a.block 1 && b.block 1
  | .atomlXor d a b => d.block 1 && a.block 1 && b.block 1
  | .atomlMin d a b => d.block 1 && a.block 1 && b.block 1
  | .atomlMax d a b => d.block 1 && a.block 1 && b.block 1
  | .atomlUmin d a b => d.block 1 && a.block 1 && b.block 1
  | .atomlUmax d a b => d.block 1 && a.block 1 && b.block 1
  | .atomlXchg d a b => d.block 1 && a.block 1 && b.block 1
  | .atomlCas d a b => d.block 1 && a.block 1 && b.block 2
  | .atomlInc d a b => d.block 1 && a.block 1 && b.block 1
  | .atomlFadd d a b => d.block 1 && a.block 1 && b.block 1
  | .atomlHadd2B d a b => d.block 1 && a.block 1 && b.block 1
  | .atomlHadd2H d a b => d.block 1 && a.block 1 && b.block 1
  | .atomlFmin d a b => d.block 1 && a.block 1 && b.block 1
  | .atomlFmax d a b => d.block 1 && a.block 1 && b.block 1
  | .bra i => inRange (-131072) 131071 i
  | .bz a i => a.block 1 && inRange (-131072) 131071 i
  | .bnz a i => a.block 1 && inRange (-131072) 131071 i
  | .call d i => d.block 2 && inRange (-131072) 131071 i
  | .jmp a => a.block 2
  | .jcall d a => d.block 2 && a.block 2
  | .ret a => a.block 2
  | .sleep k => decide (k < 128)
  | .trap k => decide (k < 128)
  | .tret _ => true
  | .regclm k => (0 < k && k < 65)
  | .regrel k => (0 < k && k < 65)
  | .wbase k => decide (k < 64)
  | .regstat d => d.block 1
  | .halloc d a b => d.block 1 && a.block 1 && b.block 1
  | .hfree a => a.block 1
  | .hseal a => a.block 1
  | .hwait a => a.block 1
  | .hstat d a => d.block 1 && a.block 1
  | .hgen d a => d.block 1 && a.block 1
  | .lsfence a => a.block 1
  | .tfetch d a b => d.block 2 && a.block 4 && b.block 4
  | .tstore d a b => d.block 2 && a.block 4 && b.block 4
  | .tmcast d a => d.block 2 && a.block 4
  | .lrbind a b => a.block 2 && b.block 1
  | .lrflush b => b.block 1
  | .abclaim d a => d.block 1 && a.block 1
  | .abrel a => a.block 1
  | .mzero a => a.block 1
  | .mma d a b => d.block 2 && a.block 4 && b.block 1
  | .mloop d a b => d.block 2 && a.block 4 && b.block 4
  | .mdrain d a b => d.block 2 && a.block 4 && b.block 1
  | .bcopy d a b => d.block 2 && a.block 4 && b.block 4
  | .embag d a b => d.block 2 && a.block 4 && b.block 1
  | .tlwait a b => a.block 2 && b.block 1
  | .tlread d b => d.block 2 && b.block 1
  | .qbind a b => a.block 1 && b.block 1
  | .qunbind a => a.block 1
  | .qstat d a => d.block 1 && a.block 1
  | .binit a b => a.block 1 && b.block 1
  | .bexpect a b => a.block 1 && b.block 1
  | .barrive d a => d.block 1 && a.block 1
  | .bwait a b => a.block 1 && b.block 1
  | .bcredit a b => a.block 1 && b.block 1
  | .launch d a b => d.block 1 && a.block 2 && b.block 1
  | .tkpush a => a.block 8
  | .tkpop d => d.block 8
  | .tkcancel a b => a.block 1 && b.block 1
  | .tkstat d a => d.block 1 && a.block 1
  | .tlbinv d a k => d.block 1 && a.block 1 && (k < 42 || k == 64)
  | .icinv k => decide (k < 2)
  | .csrrd d k => d.block 1 && (k < 5 || (7 < k && k < 12))
  | .csrwr a k => a.block 1 && (k < 5 || (7 < k && k < 12))
  | .perfrd d k => d.block 1 && decide (k < 8)
  | .nop => true
  | .exit => true
  | .yield => true
  | .commit => true
  | .bkpt => true
  | .tsync => true
  | .trigger => true
  | .tkdone => true
  | .halt => true
  | .takeRecords => true
  | .queueEnable => true
  | .queueReset => true
  | .imageCheck => true
  | .placeGang => true
  | .colaunchPlace => true
  | .drainStart => true
  | .drainDeadline => true
  | .restoreGang => true
  | .clusterOwnerChange => true
  | .waveRetire => true
  | .teamRetire => true
  | .launchComplete => true
  | .launchDiscard => true
  | .launchKill => true
  | .ownerCreate => true
  | .ownerDestroy => true
  | .setKeys => true
  | .dbtagWrite => true
  | .faultdoneWrite => true
  | .hdmcfgWrite => true
  | .biasbaseWrite => true
  | .registerWrite => true
  | .storeEntrySend => true
  | .invalidation => true
  | .storeEntryAck => true
  | .atomicPerform => true
  | .classVResult => true
  | .regionCommit => true
  | .cautiousModeEnd => true
  | .starvationSweep => true
  | .trapEntry => true
  | .teamPark => true
  | .faultPost => true
  | .engineCommandRelease => true
  | .engineCommandComplete => true
  | .arraySlotStart => true
  | .bankSettle => true
  | .abclaimGrant => true
  | .regclmGrant => true
  | .sleepEnd => true
  | .coreGate => true
  | .coreWake => true
  | .coreResume => true
  | .powerThrottle => true
  | .railExcursion => true
  | .moduleReset => true
  | .deviceIdWrite => true
  | .firmwareUpdate => true
  | .attestationRequest => true
  | .mrExtend => true
  | .debugUnlock => true
  | .hkPwrlimWrite => true
  | .hkEccClear => true
  | .memoryError => true
  | .memoryScrub => true
  | .arrayFault => true
  | .linkRetry => true
  | .linkDown => true
  | .fabricRequest => true
  | .fabricResend => true
  | .fabricUnreachable => true
  | .leaseRequest => true
  | .leaseRecall => true
  | .leaseBlock => true
  | .hostSnoop => true
  | .hostHdmAccess => true
  | .keyFetch => true
  | .illegalInstruction => true
  | .instructionFetchFault => true
  | .elementAccessPerformed => true
  | .leaseBlockClear => true

/-- A well-formed term (R106 check 3). -/
abbrev Instr.WellFormed (i : Instr) : Prop := i.wf = true

/-- The rows that are instruction words; the others are operations and events without an encoding. -/
def Instr.isWord : Instr → Bool
  | .takeRecords => false
  | .queueEnable => false
  | .queueReset => false
  | .imageCheck => false
  | .placeGang => false
  | .colaunchPlace => false
  | .drainStart => false
  | .drainDeadline => false
  | .restoreGang => false
  | .clusterOwnerChange => false
  | .waveRetire => false
  | .teamRetire => false
  | .launchComplete => false
  | .launchDiscard => false
  | .launchKill => false
  | .ownerCreate => false
  | .ownerDestroy => false
  | .setKeys => false
  | .dbtagWrite => false
  | .faultdoneWrite => false
  | .hdmcfgWrite => false
  | .biasbaseWrite => false
  | .registerWrite => false
  | .storeEntrySend => false
  | .invalidation => false
  | .storeEntryAck => false
  | .atomicPerform => false
  | .classVResult => false
  | .regionCommit => false
  | .cautiousModeEnd => false
  | .starvationSweep => false
  | .trapEntry => false
  | .teamPark => false
  | .faultPost => false
  | .engineCommandRelease => false
  | .engineCommandComplete => false
  | .arraySlotStart => false
  | .bankSettle => false
  | .abclaimGrant => false
  | .regclmGrant => false
  | .sleepEnd => false
  | .coreGate => false
  | .coreWake => false
  | .coreResume => false
  | .powerThrottle => false
  | .railExcursion => false
  | .moduleReset => false
  | .deviceIdWrite => false
  | .firmwareUpdate => false
  | .attestationRequest => false
  | .mrExtend => false
  | .debugUnlock => false
  | .hkPwrlimWrite => false
  | .hkEccClear => false
  | .memoryError => false
  | .memoryScrub => false
  | .arrayFault => false
  | .linkRetry => false
  | .linkDown => false
  | .fabricRequest => false
  | .fabricResend => false
  | .fabricUnreachable => false
  | .leaseRequest => false
  | .leaseRecall => false
  | .leaseBlock => false
  | .hostSnoop => false
  | .hostHdmAccess => false
  | .keyFetch => false
  | .illegalInstruction => false
  | .instructionFetchFault => false
  | .elementAccessPerformed => false
  | .leaseBlockClear => false
  | _ => true

end Sys2Proof
end

