-- ==== Sys2Proof/Decode.lean ====
section
/-! DEFINITION. The decoder (R92 to R106 checks 2 and 3) and, after it, the encoder of the same words. -/

namespace Sys2Proof

/-- Why a word is refused: fewer than four bytes, check 2 of R106 (opcode), or check 3 (fields). -/
inductive Reject where
  | truncated
  | opcode
  | field
  deriving DecidableEq, Repr

/-- A register field's value (R95). -/
def regOf (n : Nat) : Reg := if n < 120 then .v n else .q (n - 120)

/-- The 7-bit register field whose lowest bit is `lo` (R92). -/
def regT (lo w : Nat) : Reg := regOf (bitsOf w (lo + 6) lo)

/-- The switch marker S (R91). -/
def bitS (w : Nat) : Bool := bitsOf w 31 31 == 1

/-- Fields the instruction does not use must be zero (R94). -/
def mbz (zs : List Nat) (i : Instr) : Except Reject Instr := if zs.all (· == 0) then .ok i else .error .field

/-- The size codes of R34; 7 is reserved. -/
def sizeOf? : Nat → Option Size
  | 0 => some .ub
  | 1 => some .sb
  | 2 => some .uh
  | 3 => some .sh
  | 4 => some .word
  | 5 => some .pr
  | 6 => some .qd
  | _ => none

/-- Format M (R92): z = 7 fails check 2 (R105, R106). -/
def decM (c : Reg → Reg → Size → Int → Instr) (w : Nat) : Except Reject Instr :=
  match sizeOf? (bitsOf w 10 8) with
  | some z => .ok (c (regT 18 w) (regT 11 w) z (signOf 8 (bitsOf w 7 0)))
  | none => .error .opcode

/-- The gathers (R258): F[2:0] is the size, 7 reserved. -/
def decG (c : Reg → Reg → Reg → Size → Instr) (w : Nat) : Except Reject Instr :=
  match sizeOf? (bitsOf w 23 21) with
  | some z => .ok (c (regT 14 w) (regT 7 w) (regT 0 w) z)
  | none => .error .opcode

/-- TRET's action (R93): 0 to 4. -/
def tretOf? : Nat → Option TretAct
  | 0 => some .retry
  | 1 => some .skip
  | 2 => some .fixed
  | 3 => some .killTeam
  | 4 => some .killLaunch
  | _ => none

/-- TRET (R394): d and a zero, k from 0 to 4. -/
def decTret (w : Nat) : Except Reject Instr :=
  match tretOf? (bitsOf w 6 0) with
  | some k => mbz [bitsOf w 20 14, bitsOf w 13 7] (.tret k)
  | none => .error .field

/-- The F values of P = 0x01 (R102). -/
def dec01 (w : Nat) : Except Reject Instr :=
  match bitsOf w 24 21 with
  | 0 => .ok (.iadd (regT 14 w) (regT 7 w) (regT 0 w))
  | 1 => .ok (.isub (regT 14 w) (regT 7 w) (regT 0 w))
  | 2 => .ok (.imul (regT 14 w) (regT 7 w) (regT 0 w))
  | 3 => .ok (.imulh (regT 14 w) (regT 7 w) (regT 0 w))
  | 4 => .ok (.umulh (regT 14 w) (regT 7 w) (regT 0 w))
  | 5 => .ok (.imad (regT 14 w) (regT 7 w) (regT 0 w))
  | 6 => .ok (.imin (regT 14 w) (regT 7 w) (regT 0 w))
  | 7 => .ok (.imax (regT 14 w) (regT 7 w) (regT 0 w))
  | 8 => .ok (.umin (regT 14 w) (regT 7 w) (regT 0 w))
  | 9 => .ok (.umax (regT 14 w) (regT 7 w) (regT 0 w))
  | 10 => .ok (.iaddW (regT 14 w) (regT 7 w) (regT 0 w))
  | 11 => .ok (.isubW (regT 14 w) (regT 7 w) (regT 0 w))
  | 12 => .ok (.imulW (regT 14 w) (regT 7 w) (regT 0 w))
  | 13 => .ok (.umulW (regT 14 w) (regT 7 w) (regT 0 w))
  | _ => .error .opcode

/-- The F values of P = 0x02 (R102). -/
def dec02 (w : Nat) : Except Reject Instr :=
  match bitsOf w 24 21 with
  | 0 => .ok (.and (regT 14 w) (regT 7 w) (regT 0 w))
  | 1 => .ok (.or (regT 14 w) (regT 7 w) (regT 0 w))
  | 2 => .ok (.xor (regT 14 w) (regT 7 w) (regT 0 w))
  | 3 => .ok (.andn (regT 14 w) (regT 7 w) (regT 0 w))
  | 4 => .ok (.orn (regT 14 w) (regT 7 w) (regT 0 w))
  | 5 => .ok (.xnor (regT 14 w) (regT 7 w) (regT 0 w))
  | 6 => .ok (.shl (regT 14 w) (regT 7 w) (regT 0 w))
  | 7 => .ok (.shr (regT 14 w) (regT 7 w) (regT 0 w))
  | 8 => .ok (.sra (regT 14 w) (regT 7 w) (regT 0 w))
  | 9 => .ok (.rotl (regT 14 w) (regT 7 w) (regT 0 w))
  | 10 => .ok (.shlW (regT 14 w) (regT 7 w) (regT 0 w))
  | 11 => .ok (.shrW (regT 14 w) (regT 7 w) (regT 0 w))
  | 12 => .ok (.sraW (regT 14 w) (regT 7 w) (regT 0 w))
  | _ => .error .opcode

/-- The F values of P = 0x03 (R102). -/
def dec03 (w : Nat) : Except Reject Instr :=
  match bitsOf w 24 21 with
  | 0 => .ok (.cmpeq (regT 14 w) (regT 7 w) (regT 0 w))
  | 1 => .ok (.cmpne (regT 14 w) (regT 7 w) (regT 0 w))
  | 2 => .ok (.cmplt (regT 14 w) (regT 7 w) (regT 0 w))
  | 3 => .ok (.cmple (regT 14 w) (regT 7 w) (regT 0 w))
  | 4 => .ok (.cmpltu (regT 14 w) (regT 7 w) (regT 0 w))
  | 5 => .ok (.cmpleu (regT 14 w) (regT 7 w) (regT 0 w))
  | 6 => .ok (.sel (regT 14 w) (regT 7 w) (regT 0 w))
  | 7 => .ok (.bfe (regT 14 w) (regT 7 w) (regT 0 w))
  | 8 => .ok (.bfi (regT 14 w) (regT 7 w) (regT 0 w))
  | 9 => .ok (.pack2 (regT 14 w) (regT 7 w) (regT 0 w))
  | 10 => .ok (.permb (regT 14 w) (regT 7 w) (regT 0 w))
  | _ => .error .opcode

/-- The F values of P = 0x04 (R102). -/
def dec04 (w : Nat) : Except Reject Instr :=
  match bitsOf w 24 21 with
  | 0 => mbz [bitsOf w 6 0] (.clz (regT 14 w) (regT 7 w))
  | 1 => mbz [bitsOf w 6 0] (.popc (regT 14 w) (regT 7 w))
  | 2 => mbz [bitsOf w 6 0] (.brev (regT 14 w) (regT 7 w))
  | 3 => mbz [bitsOf w 6 0] (.iabs (regT 14 w) (regT 7 w))
  | 4 => mbz [bitsOf w 6 0] (.ineg (regT 14 w) (regT 7 w))
  | 5 => mbz [bitsOf w 6 0] (.not (regT 14 w) (regT 7 w))
  | 6 => mbz [bitsOf w 6 0] (.mov (regT 14 w) (regT 7 w))
  | 7 => mbz [bitsOf w 6 0] (.movW (regT 14 w) (regT 7 w))
  | 8 => mbz [bitsOf w 6 0] (.sextb (regT 14 w) (regT 7 w))
  | 9 => mbz [bitsOf w 6 0] (.sexth (regT 14 w) (regT 7 w))
  | 10 => mbz [bitsOf w 6 0] (.zextb (regT 14 w) (regT 7 w))
  | 11 => mbz [bitsOf w 6 0] (.zexth (regT 14 w) (regT 7 w))
  | _ => .error .opcode

/-- The F values of P = 0x09 (R102). -/
def dec09 (w : Nat) : Except Reject Instr :=
  match bitsOf w 24 21 with
  | 0 => .ok (.shli (regT 14 w) (regT 7 w) (bitsOf w 6 0))
  | 1 => .ok (.shri (regT 14 w) (regT 7 w) (bitsOf w 6 0))
  | 2 => .ok (.srai (regT 14 w) (regT 7 w) (bitsOf w 6 0))
  | 3 => .ok (.rotli (regT 14 w) (regT 7 w) (bitsOf w 6 0))
  | 4 => .ok (.shliW (regT 14 w) (regT 7 w) (bitsOf w 6 0))
  | 5 => .ok (.shriW (regT 14 w) (regT 7 w) (bitsOf w 6 0))
  | 6 => .ok (.sraiW (regT 14 w) (regT 7 w) (bitsOf w 6 0))
  | _ => .error .opcode

/-- The F values of P = 0x0A (R102). -/
def dec0A (w : Nat) : Except Reject Instr :=
  match bitsOf w 24 21 with
  | 0 => .ok (.cmpeqi (regT 14 w) (regT 7 w) (signOf 7 (bitsOf w 6 0)))
  | 1 => .ok (.cmpnei (regT 14 w) (regT 7 w) (signOf 7 (bitsOf w 6 0)))
  | 2 => .ok (.cmplti (regT 14 w) (regT 7 w) (signOf 7 (bitsOf w 6 0)))
  | 3 => .ok (.cmplei (regT 14 w) (regT 7 w) (signOf 7 (bitsOf w 6 0)))
  | 4 => .ok (.cmpgti (regT 14 w) (regT 7 w) (signOf 7 (bitsOf w 6 0)))
  | 5 => .ok (.cmpgei (regT 14 w) (regT 7 w) (signOf 7 (bitsOf w 6 0)))
  | 6 => .ok (.cmpltui (regT 14 w) (regT 7 w) (bitsOf w 6 0))
  | 7 => .ok (.cmpgeui (regT 14 w) (regT 7 w) (bitsOf w 6 0))
  | _ => .error .opcode

/-- The F values of P = 0x10 (R102). -/
def dec10 (w : Nat) : Except Reject Instr :=
  match bitsOf w 24 21 with
  | 0 => .ok (.fadd (regT 14 w) (regT 7 w) (regT 0 w))
  | 1 => .ok (.fsub (regT 14 w) (regT 7 w) (regT 0 w))
  | 2 => .ok (.fmul (regT 14 w) (regT 7 w) (regT 0 w))
  | 3 => .ok (.ffma (regT 14 w) (regT 7 w) (regT 0 w))
  | 4 => .ok (.ffms (regT 14 w) (regT 7 w) (regT 0 w))
  | 5 => .ok (.fnfma (regT 14 w) (regT 7 w) (regT 0 w))
  | 6 => .ok (.fmin (regT 14 w) (regT 7 w) (regT 0 w))
  | 7 => .ok (.fmax (regT 14 w) (regT 7 w) (regT 0 w))
  | 8 => .ok (.fcopysign (regT 14 w) (regT 7 w) (regT 0 w))
  | 9 => .ok (.fcmpeq (regT 14 w) (regT 7 w) (regT 0 w))
  | 10 => .ok (.fcmplt (regT 14 w) (regT 7 w) (regT 0 w))
  | 11 => .ok (.fcmple (regT 14 w) (regT 7 w) (regT 0 w))
  | 12 => .ok (.fcmpun (regT 14 w) (regT 7 w) (regT 0 w))
  | _ => .error .opcode

/-- The F values of P = 0x11 (R102). -/
def dec11 (w : Nat) : Except Reject Instr :=
  match bitsOf w 24 21 with
  | 0 => mbz [bitsOf w 6 0] (.fabs (regT 14 w) (regT 7 w))
  | 1 => mbz [bitsOf w 6 0] (.fneg (regT 14 w) (regT 7 w))
  | 2 => mbz [bitsOf w 6 0] (.frcp (regT 14 w) (regT 7 w))
  | 3 => mbz [bitsOf w 6 0] (.frsq (regT 14 w) (regT 7 w))
  | 4 => mbz [bitsOf w 6 0] (.fsqrt (regT 14 w) (regT 7 w))
  | 5 => mbz [bitsOf w 6 0] (.fexp2 (regT 14 w) (regT 7 w))
  | 6 => mbz [bitsOf w 6 0] (.flog2 (regT 14 w) (regT 7 w))
  | 7 => mbz [bitsOf w 6 0] (.fsin (regT 14 w) (regT 7 w))
  | 8 => mbz [bitsOf w 6 0] (.fcos (regT 14 w) (regT 7 w))
  | 9 => mbz [bitsOf w 6 0] (.ftanh (regT 14 w) (regT 7 w))
  | 10 => mbz [bitsOf w 6 0] (.ffloor (regT 14 w) (regT 7 w))
  | 11 => mbz [bitsOf w 6 0] (.fceil (regT 14 w) (regT 7 w))
  | 12 => mbz [bitsOf w 6 0] (.ftrunc (regT 14 w) (regT 7 w))
  | 13 => mbz [bitsOf w 6 0] (.frint (regT 14 w) (regT 7 w))
  | 14 => mbz [bitsOf w 6 0] (.fclass (regT 14 w) (regT 7 w))
  | _ => .error .opcode

/-- The F values of P = 0x12 (R102). -/
def dec12 (w : Nat) : Except Reject Instr :=
  match bitsOf w 24 21 with
  | 0 => .ok (.hadd2B (regT 14 w) (regT 7 w) (regT 0 w))
  | 1 => .ok (.hsub2B (regT 14 w) (regT 7 w) (regT 0 w))
  | 2 => .ok (.hmul2B (regT 14 w) (regT 7 w) (regT 0 w))
  | 3 => .ok (.hfma2B (regT 14 w) (regT 7 w) (regT 0 w))
  | 4 => .ok (.hmin2B (regT 14 w) (regT 7 w) (regT 0 w))
  | 5 => .ok (.hmax2B (regT 14 w) (regT 7 w) (regT 0 w))
  | 8 => .ok (.hadd2H (regT 14 w) (regT 7 w) (regT 0 w))
  | 9 => .ok (.hsub2H (regT 14 w) (regT 7 w) (regT 0 w))
  | 10 => .ok (.hmul2H (regT 14 w) (regT 7 w) (regT 0 w))
  | 11 => .ok (.hfma2H (regT 14 w) (regT 7 w) (regT 0 w))
  | 12 => .ok (.hmin2H (regT 14 w) (regT 7 w) (regT 0 w))
  | 13 => .ok (.hmax2H (regT 14 w) (regT 7 w) (regT 0 w))
  | _ => .error .opcode

/-- The F values of P = 0x13 (R102). -/
def dec13 (w : Nat) : Except Reject Instr :=
  match bitsOf w 24 21 with
  | 0 => .ok (.cvt (regT 14 w) (regT 7 w) (regT 0 w))
  | 1 => .ok (.cvtPack (regT 14 w) (regT 7 w) (regT 0 w))
  | 2 => .ok (.cvtUnpk (regT 14 w) (regT 7 w) (regT 0 w))
  | 3 => .ok (.cvtPack2 (regT 14 w) (regT 7 w) (regT 0 w))
  | 4 => .ok (.cvtUnpk2 (regT 14 w) (regT 7 w) (regT 0 w))
  | 5 => .ok (.cvtPacks (regT 14 w) (regT 7 w) (regT 0 w))
  | 6 => .ok (.cvtUnpks (regT 14 w) (regT 7 w) (regT 0 w))
  | 7 => .ok (.qscale (regT 14 w) (regT 7 w) (regT 0 w))
  | _ => .error .opcode

/-- The F values of P = 0x14 (R102). -/
def dec14 (w : Nat) : Except Reject Instr :=
  match bitsOf w 24 21 with
  | 0 => .ok (.shfl (regT 14 w) (regT 7 w) (regT 0 w))
  | 1 => .ok (.shflup (regT 14 w) (regT 7 w) (regT 0 w))
  | 2 => .ok (.shfldn (regT 14 w) (regT 7 w) (regT 0 w))
  | 3 => .ok (.shflx (regT 14 w) (regT 7 w) (regT 0 w))
  | 4 => .ok (.qxch (regT 14 w) (regT 7 w) (regT 0 w))
  | 5 => mbz [bitsOf w 6 0] (.ballot (regT 14 w) (regT 7 w))
  | 6 => mbz [bitsOf w 6 0] (.vany (regT 14 w) (regT 7 w))
  | 7 => mbz [bitsOf w 6 0] (.vall (regT 14 w) (regT 7 w))
  | 8 => mbz [bitsOf w 6 0] (.laneMatch (regT 14 w) (regT 7 w))
  | 9 => .ok (.ired (regT 14 w) (regT 7 w) (regT 0 w))
  | 10 => .ok (.fred (regT 14 w) (regT 7 w) (regT 0 w))
  | 11 => .ok (.iscan (regT 14 w) (regT 7 w) (regT 0 w))
  | 12 => .ok (.fscan (regT 14 w) (regT 7 w) (regT 0 w))
  | 13 => mbz [bitsOf w 13 7, bitsOf w 6 0] (.elect (regT 14 w))
  | _ => .error .opcode

/-- The F values of P = 0x15 (R102). -/
def dec15 (w : Nat) : Except Reject Instr :=
  match bitsOf w 24 21 with
  | 0 => mbz [bitsOf w 13 7] (.sread (regT 14 w) (bitsOf w 6 0))
  | 1 => mbz [bitsOf w 20 14] (.swrite (regT 7 w) (bitsOf w 6 0))
  | _ => .error .opcode

/-- P = 0x1C (R102, R258). -/
def dec1C (w : Nat) : Except Reject Instr :=
  if bitsOf w 24 24 = 0 then decG .ldx w else decG .stx w

/-- The F values of P = 0x1D (R102). -/
def dec1D (w : Nat) : Except Reject Instr :=
  match bitsOf w 24 21 with
  | 0 => .ok (.atomAdd (regT 14 w) (regT 7 w) (regT 0 w))
  | 1 => .ok (.atomAnd (regT 14 w) (regT 7 w) (regT 0 w))
  | 2 => .ok (.atomOr (regT 14 w) (regT 7 w) (regT 0 w))
  | 3 => .ok (.atomXor (regT 14 w) (regT 7 w) (regT 0 w))
  | 4 => .ok (.atomMin (regT 14 w) (regT 7 w) (regT 0 w))
  | 5 => .ok (.atomMax (regT 14 w) (regT 7 w) (regT 0 w))
  | 6 => .ok (.atomUmin (regT 14 w) (regT 7 w) (regT 0 w))
  | 7 => .ok (.atomUmax (regT 14 w) (regT 7 w) (regT 0 w))
  | 8 => .ok (.atomXchg (regT 14 w) (regT 7 w) (regT 0 w))
  | 9 => .ok (.atomCas (regT 14 w) (regT 7 w) (regT 0 w))
  | 10 => .ok (.atomInc (regT 14 w) (regT 7 w) (regT 0 w))
  | 11 => .ok (.atomFadd (regT 14 w) (regT 7 w) (regT 0 w))
  | 12 => .ok (.atomHadd2B (regT 14 w) (regT 7 w) (regT 0 w))
  | 13 => .ok (.atomHadd2H (regT 14 w) (regT 7 w) (regT 0 w))
  | 14 => .ok (.atomFmin (regT 14 w) (regT 7 w) (regT 0 w))
  | _ => .ok (.atomFmax (regT 14 w) (regT 7 w) (regT 0 w))

/-- The F values of P = 0x1E (R102). -/
def dec1E (w : Nat) : Except Reject Instr :=
  match bitsOf w 24 21 with
  | 0 => .ok (.atomWAdd (regT 14 w) (regT 7 w) (regT 0 w))
  | 1 => .ok (.atomWAnd (regT 14 w) (regT 7 w) (regT 0 w))
  | 2 => .ok (.atomWOr (regT 14 w) (regT 7 w) (regT 0 w))
  | 3 => .ok (.atomWXor (regT 14 w) (regT 7 w) (regT 0 w))
  | 4 => .ok (.atomWMin (regT 14 w) (regT 7 w) (regT 0 w))
  | 5 => .ok (.atomWMax (regT 14 w) (regT 7 w) (regT 0 w))
  | 6 => .ok (.atomWUmin (regT 14 w) (regT 7 w) (regT 0 w))
  | 7 => .ok (.atomWUmax (regT 14 w) (regT 7 w) (regT 0 w))
  | 8 => .ok (.atomWXchg (regT 14 w) (regT 7 w) (regT 0 w))
  | 9 => .ok (.atomWCas (regT 14 w) (regT 7 w) (regT 0 w))
  | 10 => .ok (.atomWInc (regT 14 w) (regT 7 w) (regT 0 w))
  | _ => .error .opcode

/-- The F values of P = 0x1F (R102). -/
def dec1F (w : Nat) : Except Reject Instr :=
  match bitsOf w 24 21 with
  | 0 => .ok (.atomlAdd (regT 14 w) (regT 7 w) (regT 0 w))
  | 1 => .ok (.atomlAnd (regT 14 w) (regT 7 w) (regT 0 w))
  | 2 => .ok (.atomlOr (regT 14 w) (regT 7 w) (regT 0 w))
  | 3 => .ok (.atomlXor (regT 14 w) (regT 7 w) (regT 0 w))
  | 4 => .ok (.atomlMin (regT 14 w) (regT 7 w) (regT 0 w))
  | 5 => .ok (.atomlMax (regT 14 w) (regT 7 w) (regT 0 w))
  | 6 => .ok (.atomlUmin (regT 14 w) (regT 7 w) (regT 0 w))
  | 7 => .ok (.atomlUmax (regT 14 w) (regT 7 w) (regT 0 w))
  | 8 => .ok (.atomlXchg (regT 14 w) (regT 7 w) (regT 0 w))
  | 9 => .ok (.atomlCas (regT 14 w) (regT 7 w) (regT 0 w))
  | 10 => .ok (.atomlInc (regT 14 w) (regT 7 w) (regT 0 w))
  | 11 => .ok (.atomlFadd (regT 14 w) (regT 7 w) (regT 0 w))
  | 12 => .ok (.atomlHadd2B (regT 14 w) (regT 7 w) (regT 0 w))
  | 13 => .ok (.atomlHadd2H (regT 14 w) (regT 7 w) (regT 0 w))
  | 14 => .ok (.atomlFmin (regT 14 w) (regT 7 w) (regT 0 w))
  | _ => .ok (.atomlFmax (regT 14 w) (regT 7 w) (regT 0 w))

/-- The F values of P = 0x24 (R102). -/
def dec24 (w : Nat) : Except Reject Instr :=
  match bitsOf w 24 21 with
  | 0 => mbz [bitsOf w 20 14, bitsOf w 6 0] (.jmp (regT 7 w))
  | 1 => mbz [bitsOf w 6 0] (.jcall (regT 14 w) (regT 7 w))
  | 2 => mbz [bitsOf w 20 14, bitsOf w 6 0] (.ret (regT 7 w))
  | _ => .error .opcode

/-- The F values of P = 0x25 (R102). -/
def dec25 (w : Nat) : Except Reject Instr :=
  match bitsOf w 24 21 with
  | 4 => mbz [bitsOf w 20 14, bitsOf w 13 7] (.sleep (bitsOf w 6 0))
  | 6 => mbz [bitsOf w 20 14, bitsOf w 13 7] (.trap (bitsOf w 6 0))
  | 7 => decTret w
  | 0 => mbz [bitsOf w 20 14, bitsOf w 13 7, bitsOf w 6 0] .nop
  | 1 => mbz [bitsOf w 20 14, bitsOf w 13 7, bitsOf w 6 0] .exit
  | 2 => mbz [bitsOf w 20 14, bitsOf w 13 7, bitsOf w 6 0] .yield
  | 3 => mbz [bitsOf w 20 14, bitsOf w 13 7, bitsOf w 6 0] .commit
  | 5 => mbz [bitsOf w 20 14, bitsOf w 13 7, bitsOf w 6 0] .bkpt
  | _ => .error .opcode

/-- The F values of P = 0x26 (R102). -/
def dec26 (w : Nat) : Except Reject Instr :=
  match bitsOf w 24 21 with
  | 0 => mbz [bitsOf w 20 14, bitsOf w 13 7] (.regclm (bitsOf w 6 0))
  | 1 => mbz [bitsOf w 20 14, bitsOf w 13 7] (.regrel (bitsOf w 6 0))
  | 2 => mbz [bitsOf w 20 14, bitsOf w 13 7] (.wbase (bitsOf w 6 0))
  | 3 => mbz [bitsOf w 13 7, bitsOf w 6 0] (.regstat (regT 14 w))
  | _ => .error .opcode

/-- The F values of P = 0x28 (R102). -/
def dec28 (w : Nat) : Except Reject Instr :=
  match bitsOf w 24 21 with
  | 0 => .ok (.halloc (regT 14 w) (regT 7 w) (regT 0 w))
  | 1 => mbz [bitsOf w 20 14, bitsOf w 6 0] (.hfree (regT 7 w))
  | 2 => mbz [bitsOf w 20 14, bitsOf w 6 0] (.hseal (regT 7 w))
  | 3 => mbz [bitsOf w 20 14, bitsOf w 6 0] (.hwait (regT 7 w))
  | 4 => mbz [bitsOf w 6 0] (.hstat (regT 14 w) (regT 7 w))
  | 5 => mbz [bitsOf w 6 0] (.hgen (regT 14 w) (regT 7 w))
  | 6 => mbz [bitsOf w 20 14, bitsOf w 6 0] (.lsfence (regT 7 w))
  | _ => .error .opcode

/-- The F values of P = 0x29 (R102). -/
def dec29 (w : Nat) : Except Reject Instr :=
  match bitsOf w 24 21 with
  | 0 => .ok (.tfetch (regT 14 w) (regT 7 w) (regT 0 w))
  | 1 => .ok (.tstore (regT 14 w) (regT 7 w) (regT 0 w))
  | 2 => mbz [bitsOf w 6 0] (.tmcast (regT 14 w) (regT 7 w))
  | 3 => mbz [bitsOf w 20 14] (.lrbind (regT 7 w) (regT 0 w))
  | 4 => mbz [bitsOf w 20 14, bitsOf w 13 7] (.lrflush (regT 0 w))
  | _ => .error .opcode

/-- The F values of P = 0x2A (R102). -/
def dec2A (w : Nat) : Except Reject Instr :=
  match bitsOf w 24 21 with
  | 0 => mbz [bitsOf w 6 0] (.abclaim (regT 14 w) (regT 7 w))
  | 1 => mbz [bitsOf w 20 14, bitsOf w 6 0] (.abrel (regT 7 w))
  | 2 => mbz [bitsOf w 20 14, bitsOf w 6 0] (.mzero (regT 7 w))
  | 3 => .ok (.mma (regT 14 w) (regT 7 w) (regT 0 w))
  | 4 => .ok (.mloop (regT 14 w) (regT 7 w) (regT 0 w))
  | 5 => .ok (.mdrain (regT 14 w) (regT 7 w) (regT 0 w))
  | _ => .error .opcode

/-- The F values of P = 0x2B (R102). -/
def dec2B (w : Nat) : Except Reject Instr :=
  match bitsOf w 24 21 with
  | 0 => .ok (.bcopy (regT 14 w) (regT 7 w) (regT 0 w))
  | 1 => .ok (.embag (regT 14 w) (regT 7 w) (regT 0 w))
  | 2 => mbz [bitsOf w 20 14] (.tlwait (regT 7 w) (regT 0 w))
  | 3 => mbz [bitsOf w 13 7] (.tlread (regT 14 w) (regT 0 w))
  | 4 => mbz [bitsOf w 20 14] (.qbind (regT 7 w) (regT 0 w))
  | 5 => mbz [bitsOf w 20 14, bitsOf w 6 0] (.qunbind (regT 7 w))
  | 6 => mbz [bitsOf w 6 0] (.qstat (regT 14 w) (regT 7 w))
  | _ => .error .opcode

/-- The F values of P = 0x2C (R102). -/
def dec2C (w : Nat) : Except Reject Instr :=
  match bitsOf w 24 21 with
  | 0 => mbz [bitsOf w 20 14] (.binit (regT 7 w) (regT 0 w))
  | 1 => mbz [bitsOf w 20 14] (.bexpect (regT 7 w) (regT 0 w))
  | 2 => mbz [bitsOf w 6 0] (.barrive (regT 14 w) (regT 7 w))
  | 3 => mbz [bitsOf w 20 14] (.bwait (regT 7 w) (regT 0 w))
  | 4 => mbz [bitsOf w 20 14] (.bcredit (regT 7 w) (regT 0 w))
  | 7 => .ok (.launch (regT 14 w) (regT 7 w) (regT 0 w))
  | 5 => mbz [bitsOf w 20 14, bitsOf w 13 7, bitsOf w 6 0] .tsync
  | 6 => mbz [bitsOf w 20 14, bitsOf w 13 7, bitsOf w 6 0] .trigger
  | _ => .error .opcode

/-- The F values of P = 0x2D (R102). -/
def dec2D (w : Nat) : Except Reject Instr :=
  match bitsOf w 24 21 with
  | 0 => mbz [bitsOf w 20 14, bitsOf w 6 0] (.tkpush (regT 7 w))
  | 1 => mbz [bitsOf w 13 7, bitsOf w 6 0] (.tkpop (regT 14 w))
  | 3 => mbz [bitsOf w 20 14] (.tkcancel (regT 7 w) (regT 0 w))
  | 4 => mbz [bitsOf w 6 0] (.tkstat (regT 14 w) (regT 7 w))
  | 2 => mbz [bitsOf w 20 14, bitsOf w 13 7, bitsOf w 6 0] .tkdone
  | _ => .error .opcode

/-- The F values of P = 0x2E (R102). -/
def dec2E (w : Nat) : Except Reject Instr :=
  match bitsOf w 24 21 with
  | 0 => .ok (.tlbinv (regT 14 w) (regT 7 w) (bitsOf w 6 0))
  | 1 => mbz [bitsOf w 20 14, bitsOf w 13 7] (.icinv (bitsOf w 6 0))
  | 2 => mbz [bitsOf w 13 7] (.csrrd (regT 14 w) (bitsOf w 6 0))
  | 3 => mbz [bitsOf w 20 14] (.csrwr (regT 7 w) (bitsOf w 6 0))
  | 5 => mbz [bitsOf w 13 7] (.perfrd (regT 14 w) (bitsOf w 6 0))
  | 4 => mbz [bitsOf w 20 14, bitsOf w 13 7, bitsOf w 6 0] .halt
  | _ => .error .opcode

/-- The opcode map (R102): check 2 of R106, and the must-be-zero fields of check 3. -/
def decodeRaw (w : Nat) : Except Reject Instr :=
  match bitsOf w 30 25 with
  | 0x01 => dec01 w
  | 0x02 => dec02 w
  | 0x03 => dec03 w
  | 0x04 => dec04 w
  | 0x05 => .ok (.addi (regT 18 w) (regT 11 w) (signOf 11 (bitsOf w 10 0)))
  | 0x06 => .ok (.andi (regT 18 w) (regT 11 w) (bitsOf w 10 0))
  | 0x07 => .ok (.ori (regT 18 w) (regT 11 w) (bitsOf w 10 0))
  | 0x08 => .ok (.xori (regT 18 w) (regT 11 w) (bitsOf w 10 0))
  | 0x09 => dec09 w
  | 0x0A => dec0A w
  | 0x0B => .ok (.movi (regT 18 w) (signOf 18 (bitsOf w 17 0)))
  | 0x0C => .ok (.movhi (regT 18 w) (bitsOf w 17 0))
  | 0x0D => .ok (.ldlit (regT 18 w) (signOf 18 (bitsOf w 17 0)))
  | 0x0E => .ok (.ldlitW (regT 18 w) (signOf 18 (bitsOf w 17 0)))
  | 0x10 => dec10 w
  | 0x11 => dec11 w
  | 0x12 => dec12 w
  | 0x13 => dec13 w
  | 0x14 => dec14 w
  | 0x15 => dec15 w
  | 0x18 => decM .ld w
  | 0x19 => decM .st w
  | 0x1A => decM .ldl w
  | 0x1B => decM .stl w
  | 0x1C => dec1C w
  | 0x1D => dec1D w
  | 0x1E => dec1E w
  | 0x1F => dec1F w
  | 0x20 => mbz [bitsOf w 24 18] (.bra (signOf 18 (bitsOf w 17 0)))
  | 0x21 => .ok (.bz (regT 18 w) (signOf 18 (bitsOf w 17 0)))
  | 0x22 => .ok (.bnz (regT 18 w) (signOf 18 (bitsOf w 17 0)))
  | 0x23 => .ok (.call (regT 18 w) (signOf 18 (bitsOf w 17 0)))
  | 0x24 => dec24 w
  | 0x25 => dec25 w
  | 0x26 => dec26 w
  | 0x28 => dec28 w
  | 0x29 => dec29 w
  | 0x2A => dec2A w
  | 0x2B => dec2B w
  | 0x2C => dec2C w
  | 0x2D => dec2D w
  | 0x2E => dec2E w
  | _ => .error .opcode

/-- The instruction of a word (R106 checks 2 and 3). -/
def decodeWord (w : Nat) : Except Reject Instr :=
  match decodeRaw w with
  | .ok i => if i.wf then .ok i else .error .field
  | .error e => .error e

/-- The instruction at the head of a list of bytes, little-endian (R90), its switch marker (R91) and the bytes after it. -/
def decode : List Byte → Except Reject (Bool × Instr × List Byte)
  | b0 :: b1 :: b2 :: b3 :: rest =>
    match decodeWord (leValue [b0, b1, b2, b3]) with
    | .ok i => .ok (bitS (leValue [b0, b1, b2, b3]), i, rest)
    | .error e => .error e
  | _ => .error .truncated

/-- The decoder on a row of the opcode table: every word is one 32-bit word, whose bits above `nbits` are zero. -/
def decodeTableWord (_nbits w : Nat) : Option Instr :=
  match decode (leBytes 4 w) with
  | .ok (_, i, _) => if w < 2 ^ 32 then some i else none
  | .error _ => none

/-- A register's field value (R95). -/
def Reg.code : Reg → Nat
  | .v n => n
  | .q n => n + 120

/-- The size code (R34). -/
def Size.code : Size → Nat
  | .ub => 0
  | .sb => 1
  | .uh => 2
  | .sh => 3
  | .word => 4
  | .pr => 5
  | .qd => 6

/-- TRET's action code (R93). -/
def TretAct.code : TretAct → Nat
  | .retry => 0
  | .skip => 1
  | .fixed => 2
  | .killTeam => 3
  | .killLaunch => 4

/-- S as its bit's value (R92). -/
def sBit (s : Bool) : Nat := if s then 2 ^ 31 else 0

/-- Formats T and X (R92). -/
def wordT (p f d a b : Nat) : Nat := p * 2 ^ 25 + f * 2 ^ 21 + d * 2 ^ 14 + a * 2 ^ 7 + b

/-- Format I (R92). -/
def wordI (p d a i : Nat) : Nat := p * 2 ^ 25 + d * 2 ^ 18 + a * 2 ^ 11 + i

/-- Format M (R92). -/
def wordM (p d a z o : Nat) : Nat := p * 2 ^ 25 + d * 2 ^ 18 + a * 2 ^ 11 + z * 2 ^ 8 + o

/-- Formats U and B (R92). -/
def wordU (p d i : Nat) : Nat := p * 2 ^ 25 + d * 2 ^ 18 + i

/-- The word of a well-formed instruction with S = 0 (R92, R102); 0, which never decodes (R105), for an event. -/
def encodeBody : Instr → Nat
  | .iadd d a b => wordT 0x01 0 d.code a.code b.code
  | .isub d a b => wordT 0x01 1 d.code a.code b.code
  | .imul d a b => wordT 0x01 2 d.code a.code b.code
  | .imulh d a b => wordT 0x01 3 d.code a.code b.code
  | .umulh d a b => wordT 0x01 4 d.code a.code b.code
  | .imad d a b => wordT 0x01 5 d.code a.code b.code
  | .imin d a b => wordT 0x01 6 d.code a.code b.code
  | .imax d a b => wordT 0x01 7 d.code a.code b.code
  | .umin d a b => wordT 0x01 8 d.code a.code b.code
  | .umax d a b => wordT 0x01 9 d.code a.code b.code
  | .iaddW d a b => wordT 0x01 10 d.code a.code b.code
  | .isubW d a b => wordT 0x01 11 d.code a.code b.code
  | .imulW d a b => wordT 0x01 12 d.code a.code b.code
  | .umulW d a b => wordT 0x01 13 d.code a.code b.code
  | .and d a b => wordT 0x02 0 d.code a.code b.code
  | .or d a b => wordT 0x02 1 d.code a.code b.code
  | .xor d a b => wordT 0x02 2 d.code a.code b.code
  | .andn d a b => wordT 0x02 3 d.code a.code b.code
  | .orn d a b => wordT 0x02 4 d.code a.code b.code
  | .xnor d a b => wordT 0x02 5 d.code a.code b.code
  | .shl d a b => wordT 0x02 6 d.code a.code b.code
  | .shr d a b => wordT 0x02 7 d.code a.code b.code
  | .sra d a b => wordT 0x02 8 d.code a.code b.code
  | .rotl d a b => wordT 0x02 9 d.code a.code b.code
  | .shlW d a b => wordT 0x02 10 d.code a.code b.code
  | .shrW d a b => wordT 0x02 11 d.code a.code b.code
  | .sraW d a b => wordT 0x02 12 d.code a.code b.code
  | .cmpeq d a b => wordT 0x03 0 d.code a.code b.code
  | .cmpne d a b => wordT 0x03 1 d.code a.code b.code
  | .cmplt d a b => wordT 0x03 2 d.code a.code b.code
  | .cmple d a b => wordT 0x03 3 d.code a.code b.code
  | .cmpltu d a b => wordT 0x03 4 d.code a.code b.code
  | .cmpleu d a b => wordT 0x03 5 d.code a.code b.code
  | .sel d a b => wordT 0x03 6 d.code a.code b.code
  | .bfe d a b => wordT 0x03 7 d.code a.code b.code
  | .bfi d a b => wordT 0x03 8 d.code a.code b.code
  | .pack2 d a b => wordT 0x03 9 d.code a.code b.code
  | .permb d a b => wordT 0x03 10 d.code a.code b.code
  | .clz d a => wordT 0x04 0 d.code a.code 0
  | .popc d a => wordT 0x04 1 d.code a.code 0
  | .brev d a => wordT 0x04 2 d.code a.code 0
  | .iabs d a => wordT 0x04 3 d.code a.code 0
  | .ineg d a => wordT 0x04 4 d.code a.code 0
  | .not d a => wordT 0x04 5 d.code a.code 0
  | .mov d a => wordT 0x04 6 d.code a.code 0
  | .movW d a => wordT 0x04 7 d.code a.code 0
  | .sextb d a => wordT 0x04 8 d.code a.code 0
  | .sexth d a => wordT 0x04 9 d.code a.code 0
  | .zextb d a => wordT 0x04 10 d.code a.code 0
  | .zexth d a => wordT 0x04 11 d.code a.code 0
  | .addi d a i => wordI 0x05 d.code a.code (unsignOf 11 i)
  | .andi d a i => wordI 0x06 d.code a.code i
  | .ori d a i => wordI 0x07 d.code a.code i
  | .xori d a i => wordI 0x08 d.code a.code i
  | .shli d a k => wordT 0x09 0 d.code a.code k
  | .shri d a k => wordT 0x09 1 d.code a.code k
  | .srai d a k => wordT 0x09 2 d.code a.code k
  | .rotli d a k => wordT 0x09 3 d.code a.code k
  | .shliW d a k => wordT 0x09 4 d.code a.code k
  | .shriW d a k => wordT 0x09 5 d.code a.code k
  | .sraiW d a k => wordT 0x09 6 d.code a.code k
  | .cmpeqi d a k => wordT 0x0A 0 d.code a.code (unsignOf 7 k)
  | .cmpnei d a k => wordT 0x0A 1 d.code a.code (unsignOf 7 k)
  | .cmplti d a k => wordT 0x0A 2 d.code a.code (unsignOf 7 k)
  | .cmplei d a k => wordT 0x0A 3 d.code a.code (unsignOf 7 k)
  | .cmpgti d a k => wordT 0x0A 4 d.code a.code (unsignOf 7 k)
  | .cmpgei d a k => wordT 0x0A 5 d.code a.code (unsignOf 7 k)
  | .cmpltui d a k => wordT 0x0A 6 d.code a.code k
  | .cmpgeui d a k => wordT 0x0A 7 d.code a.code k
  | .movi d i => wordU 0x0B d.code (unsignOf 18 i)
  | .movhi d i => wordU 0x0C d.code i
  | .ldlit d i => wordU 0x0D d.code (unsignOf 18 i)
  | .ldlitW d i => wordU 0x0E d.code (unsignOf 18 i)
  | .fadd d a b => wordT 0x10 0 d.code a.code b.code
  | .fsub d a b => wordT 0x10 1 d.code a.code b.code
  | .fmul d a b => wordT 0x10 2 d.code a.code b.code
  | .ffma d a b => wordT 0x10 3 d.code a.code b.code
  | .ffms d a b => wordT 0x10 4 d.code a.code b.code
  | .fnfma d a b => wordT 0x10 5 d.code a.code b.code
  | .fmin d a b => wordT 0x10 6 d.code a.code b.code
  | .fmax d a b => wordT 0x10 7 d.code a.code b.code
  | .fcopysign d a b => wordT 0x10 8 d.code a.code b.code
  | .fcmpeq d a b => wordT 0x10 9 d.code a.code b.code
  | .fcmplt d a b => wordT 0x10 10 d.code a.code b.code
  | .fcmple d a b => wordT 0x10 11 d.code a.code b.code
  | .fcmpun d a b => wordT 0x10 12 d.code a.code b.code
  | .fabs d a => wordT 0x11 0 d.code a.code 0
  | .fneg d a => wordT 0x11 1 d.code a.code 0
  | .frcp d a => wordT 0x11 2 d.code a.code 0
  | .frsq d a => wordT 0x11 3 d.code a.code 0
  | .fsqrt d a => wordT 0x11 4 d.code a.code 0
  | .fexp2 d a => wordT 0x11 5 d.code a.code 0
  | .flog2 d a => wordT 0x11 6 d.code a.code 0
  | .fsin d a => wordT 0x11 7 d.code a.code 0
  | .fcos d a => wordT 0x11 8 d.code a.code 0
  | .ftanh d a => wordT 0x11 9 d.code a.code 0
  | .ffloor d a => wordT 0x11 10 d.code a.code 0
  | .fceil d a => wordT 0x11 11 d.code a.code 0
  | .ftrunc d a => wordT 0x11 12 d.code a.code 0
  | .frint d a => wordT 0x11 13 d.code a.code 0
  | .fclass d a => wordT 0x11 14 d.code a.code 0
  | .hadd2B d a b => wordT 0x12 0 d.code a.code b.code
  | .hsub2B d a b => wordT 0x12 1 d.code a.code b.code
  | .hmul2B d a b => wordT 0x12 2 d.code a.code b.code
  | .hfma2B d a b => wordT 0x12 3 d.code a.code b.code
  | .hmin2B d a b => wordT 0x12 4 d.code a.code b.code
  | .hmax2B d a b => wordT 0x12 5 d.code a.code b.code
  | .hadd2H d a b => wordT 0x12 8 d.code a.code b.code
  | .hsub2H d a b => wordT 0x12 9 d.code a.code b.code
  | .hmul2H d a b => wordT 0x12 10 d.code a.code b.code
  | .hfma2H d a b => wordT 0x12 11 d.code a.code b.code
  | .hmin2H d a b => wordT 0x12 12 d.code a.code b.code
  | .hmax2H d a b => wordT 0x12 13 d.code a.code b.code
  | .cvt d a b => wordT 0x13 0 d.code a.code b.code
  | .cvtPack d a b => wordT 0x13 1 d.code a.code b.code
  | .cvtUnpk d a b => wordT 0x13 2 d.code a.code b.code
  | .cvtPack2 d a b => wordT 0x13 3 d.code a.code b.code
  | .cvtUnpk2 d a b => wordT 0x13 4 d.code a.code b.code
  | .cvtPacks d a b => wordT 0x13 5 d.code a.code b.code
  | .cvtUnpks d a b => wordT 0x13 6 d.code a.code b.code
  | .qscale d a b => wordT 0x13 7 d.code a.code b.code
  | .shfl d a b => wordT 0x14 0 d.code a.code b.code
  | .shflup d a b => wordT 0x14 1 d.code a.code b.code
  | .shfldn d a b => wordT 0x14 2 d.code a.code b.code
  | .shflx d a b => wordT 0x14 3 d.code a.code b.code
  | .qxch d a b => wordT 0x14 4 d.code a.code b.code
  | .ballot d a => wordT 0x14 5 d.code a.code 0
  | .vany d a => wordT 0x14 6 d.code a.code 0
  | .vall d a => wordT 0x14 7 d.code a.code 0
  | .laneMatch d a => wordT 0x14 8 d.code a.code 0
  | .ired d a b => wordT 0x14 9 d.code a.code b.code
  | .fred d a b => wordT 0x14 10 d.code a.code b.code
  | .iscan d a b => wordT 0x14 11 d.code a.code b.code
  | .fscan d a b => wordT 0x14 12 d.code a.code b.code
  | .elect d => wordT 0x14 13 d.code 0 0
  | .sread d k => wordT 0x15 0 d.code 0 k
  | .swrite a k => wordT 0x15 1 0 a.code k
  | .ld d a z off => wordM 0x18 d.code a.code z.code (unsignOf 8 off)
  | .st d a z off => wordM 0x19 d.code a.code z.code (unsignOf 8 off)
  | .ldl d a z off => wordM 0x1A d.code a.code z.code (unsignOf 8 off)
  | .stl d a z off => wordM 0x1B d.code a.code z.code (unsignOf 8 off)
  | .ldx d a b z => wordT 0x1C (0 + z.code) d.code a.code b.code
  | .stx d a b z => wordT 0x1C (8 + z.code) d.code a.code b.code
  | .atomAdd d a b => wordT 0x1D 0 d.code a.code b.code
  | .atomAnd d a b => wordT 0x1D 1 d.code a.code b.code
  | .atomOr d a b => wordT 0x1D 2 d.code a.code b.code
  | .atomXor d a b => wordT 0x1D 3 d.code a.code b.code
  | .atomMin d a b => wordT 0x1D 4 d.code a.code b.code
  | .atomMax d a b => wordT 0x1D 5 d.code a.code b.code
  | .atomUmin d a b => wordT 0x1D 6 d.code a.code b.code
  | .atomUmax d a b => wordT 0x1D 7 d.code a.code b.code
  | .atomXchg d a b => wordT 0x1D 8 d.code a.code b.code
  | .atomCas d a b => wordT 0x1D 9 d.code a.code b.code
  | .atomInc d a b => wordT 0x1D 10 d.code a.code b.code
  | .atomFadd d a b => wordT 0x1D 11 d.code a.code b.code
  | .atomHadd2B d a b => wordT 0x1D 12 d.code a.code b.code
  | .atomHadd2H d a b => wordT 0x1D 13 d.code a.code b.code
  | .atomFmin d a b => wordT 0x1D 14 d.code a.code b.code
  | .atomFmax d a b => wordT 0x1D 15 d.code a.code b.code
  | .atomWAdd d a b => wordT 0x1E 0 d.code a.code b.code
  | .atomWAnd d a b => wordT 0x1E 1 d.code a.code b.code
  | .atomWOr d a b => wordT 0x1E 2 d.code a.code b.code
  | .atomWXor d a b => wordT 0x1E 3 d.code a.code b.code
  | .atomWMin d a b => wordT 0x1E 4 d.code a.code b.code
  | .atomWMax d a b => wordT 0x1E 5 d.code a.code b.code
  | .atomWUmin d a b => wordT 0x1E 6 d.code a.code b.code
  | .atomWUmax d a b => wordT 0x1E 7 d.code a.code b.code
  | .atomWXchg d a b => wordT 0x1E 8 d.code a.code b.code
  | .atomWCas d a b => wordT 0x1E 9 d.code a.code b.code
  | .atomWInc d a b => wordT 0x1E 10 d.code a.code b.code
  | .atomlAdd d a b => wordT 0x1F 0 d.code a.code b.code
  | .atomlAnd d a b => wordT 0x1F 1 d.code a.code b.code
  | .atomlOr d a b => wordT 0x1F 2 d.code a.code b.code
  | .atomlXor d a b => wordT 0x1F 3 d.code a.code b.code
  | .atomlMin d a b => wordT 0x1F 4 d.code a.code b.code
  | .atomlMax d a b => wordT 0x1F 5 d.code a.code b.code
  | .atomlUmin d a b => wordT 0x1F 6 d.code a.code b.code
  | .atomlUmax d a b => wordT 0x1F 7 d.code a.code b.code
  | .atomlXchg d a b => wordT 0x1F 8 d.code a.code b.code
  | .atomlCas d a b => wordT 0x1F 9 d.code a.code b.code
  | .atomlInc d a b => wordT 0x1F 10 d.code a.code b.code
  | .atomlFadd d a b => wordT 0x1F 11 d.code a.code b.code
  | .atomlHadd2B d a b => wordT 0x1F 12 d.code a.code b.code
  | .atomlHadd2H d a b => wordT 0x1F 13 d.code a.code b.code
  | .atomlFmin d a b => wordT 0x1F 14 d.code a.code b.code
  | .atomlFmax d a b => wordT 0x1F 15 d.code a.code b.code
  | .bra i => wordU 0x20 0 (unsignOf 18 i)
  | .bz a i => wordU 0x21 a.code (unsignOf 18 i)
  | .bnz a i => wordU 0x22 a.code (unsignOf 18 i)
  | .call d i => wordU 0x23 d.code (unsignOf 18 i)
  | .jmp a => wordT 0x24 0 0 a.code 0
  | .jcall d a => wordT 0x24 1 d.code a.code 0
  | .ret a => wordT 0x24 2 0 a.code 0
  | .sleep k => wordT 0x25 4 0 0 k
  | .trap k => wordT 0x25 6 0 0 k
  | .tret k => wordT 0x25 7 0 0 k.code
  | .regclm k => wordT 0x26 0 0 0 k
  | .regrel k => wordT 0x26 1 0 0 k
  | .wbase k => wordT 0x26 2 0 0 k
  | .regstat d => wordT 0x26 3 d.code 0 0
  | .halloc d a b => wordT 0x28 0 d.code a.code b.code
  | .hfree a => wordT 0x28 1 0 a.code 0
  | .hseal a => wordT 0x28 2 0 a.code 0
  | .hwait a => wordT 0x28 3 0 a.code 0
  | .hstat d a => wordT 0x28 4 d.code a.code 0
  | .hgen d a => wordT 0x28 5 d.code a.code 0
  | .lsfence a => wordT 0x28 6 0 a.code 0
  | .tfetch d a b => wordT 0x29 0 d.code a.code b.code
  | .tstore d a b => wordT 0x29 1 d.code a.code b.code
  | .tmcast d a => wordT 0x29 2 d.code a.code 0
  | .lrbind a b => wordT 0x29 3 0 a.code b.code
  | .lrflush b => wordT 0x29 4 0 0 b.code
  | .abclaim d a => wordT 0x2A 0 d.code a.code 0
  | .abrel a => wordT 0x2A 1 0 a.code 0
  | .mzero a => wordT 0x2A 2 0 a.code 0
  | .mma d a b => wordT 0x2A 3 d.code a.code b.code
  | .mloop d a b => wordT 0x2A 4 d.code a.code b.code
  | .mdrain d a b => wordT 0x2A 5 d.code a.code b.code
  | .bcopy d a b => wordT 0x2B 0 d.code a.code b.code
  | .embag d a b => wordT 0x2B 1 d.code a.code b.code
  | .tlwait a b => wordT 0x2B 2 0 a.code b.code
  | .tlread d b => wordT 0x2B 3 d.code 0 b.code
  | .qbind a b => wordT 0x2B 4 0 a.code b.code
  | .qunbind a => wordT 0x2B 5 0 a.code 0
  | .qstat d a => wordT 0x2B 6 d.code a.code 0
  | .binit a b => wordT 0x2C 0 0 a.code b.code
  | .bexpect a b => wordT 0x2C 1 0 a.code b.code
  | .barrive d a => wordT 0x2C 2 d.code a.code 0
  | .bwait a b => wordT 0x2C 3 0 a.code b.code
  | .bcredit a b => wordT 0x2C 4 0 a.code b.code
  | .launch d a b => wordT 0x2C 7 d.code a.code b.code
  | .tkpush a => wordT 0x2D 0 0 a.code 0
  | .tkpop d => wordT 0x2D 1 d.code 0 0
  | .tkcancel a b => wordT 0x2D 3 0 a.code b.code
  | .tkstat d a => wordT 0x2D 4 d.code a.code 0
  | .tlbinv d a k => wordT 0x2E 0 d.code a.code k
  | .icinv k => wordT 0x2E 1 0 0 k
  | .csrrd d k => wordT 0x2E 2 d.code 0 k
  | .csrwr a k => wordT 0x2E 3 0 a.code k
  | .perfrd d k => wordT 0x2E 5 d.code 0 k
  | .nop => wordT 0x25 0 0 0 0
  | .exit => wordT 0x25 1 0 0 0
  | .yield => wordT 0x25 2 0 0 0
  | .commit => wordT 0x25 3 0 0 0
  | .bkpt => wordT 0x25 5 0 0 0
  | .tsync => wordT 0x2C 5 0 0 0
  | .trigger => wordT 0x2C 6 0 0 0
  | .tkdone => wordT 0x2D 2 0 0 0
  | .halt => wordT 0x2E 4 0 0 0
  | .takeRecords => 0
  | .queueEnable => 0
  | .queueReset => 0
  | .imageCheck => 0
  | .placeGang => 0
  | .colaunchPlace => 0
  | .drainStart => 0
  | .drainDeadline => 0
  | .restoreGang => 0
  | .clusterOwnerChange => 0
  | .waveRetire => 0
  | .teamRetire => 0
  | .launchComplete => 0
  | .launchDiscard => 0
  | .launchKill => 0
  | .ownerCreate => 0
  | .ownerDestroy => 0
  | .setKeys => 0
  | .dbtagWrite => 0
  | .faultdoneWrite => 0
  | .hdmcfgWrite => 0
  | .biasbaseWrite => 0
  | .registerWrite => 0
  | .storeEntrySend => 0
  | .invalidation => 0
  | .storeEntryAck => 0
  | .atomicPerform => 0
  | .classVResult => 0
  | .regionCommit => 0
  | .cautiousModeEnd => 0
  | .starvationSweep => 0
  | .trapEntry => 0
  | .teamPark => 0
  | .faultPost => 0
  | .engineCommandRelease => 0
  | .engineCommandComplete => 0
  | .arraySlotStart => 0
  | .bankSettle => 0
  | .abclaimGrant => 0
  | .regclmGrant => 0
  | .sleepEnd => 0
  | .coreGate => 0
  | .coreWake => 0
  | .coreResume => 0
  | .powerThrottle => 0
  | .railExcursion => 0
  | .moduleReset => 0
  | .deviceIdWrite => 0
  | .firmwareUpdate => 0
  | .attestationRequest => 0
  | .mrExtend => 0
  | .debugUnlock => 0
  | .hkPwrlimWrite => 0
  | .hkEccClear => 0
  | .memoryError => 0
  | .memoryScrub => 0
  | .arrayFault => 0
  | .linkRetry => 0
  | .linkDown => 0
  | .fabricRequest => 0
  | .fabricResend => 0
  | .fabricUnreachable => 0
  | .leaseRequest => 0
  | .leaseRecall => 0
  | .leaseBlock => 0
  | .hostSnoop => 0
  | .hostHdmAccess => 0
  | .keyFetch => 0
  | .illegalInstruction => 0
  | .instructionFetchFault => 0
  | .elementAccessPerformed => 0
  | .leaseBlockClear => 0

/-- The word of a well-formed instruction and its switch marker (R91, R92). -/
def encode (s : Bool) (i : Instr) : Nat := sBit s + encodeBody i

end Sys2Proof
end

