-- ==== Sys2Proof/Config.lean ====
section
/-! DEFINITION. What the specification leaves open: uninterpreted constants without a body. Nothing in Lean can evaluate
one or prove a value of it, so a statement about the model holds whatever they are. -/

namespace Sys2Proof.Config

/-- Which enabled act the machine takes at a step, as a function of the model's counter (R325, R326: unordered steps). -/
opaque choose : Nat → Nat

/-- A free bit: the model's counter, the question (1 a peer's answer to a lease request, R238; 2 a fetched word from cache
or memory, R49, R101; 4 an operand-cache element, R306; 5 a word that a core keeps as it was before a write, R49), and what
it is about. Log entry 54, DESIGN CHOICE. -/
opaque freeBit : Nat → Nat → Nat → Bool

/-- A free number: the model's counter, the question (1, 2 replacement of held translations and pointers, R216; 3 the
fabric stream of a request, R231; 4 replacement of operand tiles, R306; 5 a byte of a frame to which no field is given, R406;
6 to 10 replacement in an L2 slice, the host-line agent, a die directory, an L1 cache and an instruction cache, R1, R240, R330;
11 the port of a request, R232), and what it is about. Log entry 55, DESIGN CHOICE. -/
opaque freeNat : Nat → Nat → Nat → Nat

/-- How many lines more than 64 a die's directory tracks (R330). Log entry 11, DESIGN CHOICE. -/
opaque dieDirMore : Nat

/-- The plaintext of a 32-byte sector read under a key it was not written under (R226): the key it was written under, the
key of the request, the sector's number, its plaintext. Log entry 6, DESIGN CHOICE. -/
opaque wrongKey : Nat → Nat → Nat → List Byte → List Byte

/-- The transcendental functions of R185 where the bounds leave the result open: function code, FTZ, operand.
Log entry 7, DESIGN CHOICE. -/
opaque transcendental : Nat → Bool → Word → Word

/-- The Vexusk public key whose digest is fused on the anchor die (R440). Log entry 5, DESIGN CHOICE. -/
opaque vexuskKey : List Byte

/-- The fused minimum security version (R440). Log entry 5, DESIGN CHOICE. -/
opaque fusedMinimum : Nat

/-- Whether a debug token is signed by Vexusk and bound to a device identifier (R448). Log entry 5, DESIGN CHOICE. -/
opaque tokenValid : Nat → List Byte → Bool

/-- The bytes that OWNERMR digests for an owner's verification keys and signing policy (R442). Log entry 5, DESIGN CHOICE. -/
opaque ownerPolicy : List (Nat × List Byte) → Bool → List Byte

/-- A byte of the module's attestation signature of a report body's digest (R442). Log entry 5, DESIGN CHOICE. -/
opaque attest : List Byte → Nat → Byte

/-- Whether a peer device's key table holds a key for an identifier (R235). Log entry 5, DESIGN CHOICE. -/
opaque peerHasKey : Nat → Nat → Bool

/-- CSR_VERSION, fixed for the device (R415). Log entry 5, DESIGN CHOICE. -/
opaque version : Word

end Sys2Proof.Config
end

