-- ==== Sys2Proof/Machine/Table.lean ====
section
/-! DEFINITION. Sparse tables: lists of (key, value) pairs with strictly rising keys. A table read with a default value
lists no entry equal to the default, so that equal contents are equal data. -/

namespace Sys2Proof

/-- A table of entries by numbered key. -/
abbrev Tbl (α : Type) := List (Nat × α)

namespace Tbl

variable {α : Type}

/-- The entry of a key. -/
def get? : Tbl α → Nat → Option α
  | [], _ => none
  | (k, v) :: t, n => if k = n then some v else get? t n

/-- Put an entry in its place. -/
def put : Tbl α → Nat → α → Tbl α
  | [], n, x => [(n, x)]
  | (k, v) :: t, n, x =>
    if n < k then (n, x) :: (k, v) :: t
    else if n = k then (n, x) :: t
    else (k, v) :: put t n x

/-- Remove a key's entries. -/
def del : Tbl α → Nat → Tbl α
  | [], _ => []
  | (k, v) :: t, n => if k = n then del t n else (k, v) :: del t n

/-- Read with a default. Log entry 1, DESIGN CHOICE. -/
def get (d : α) (t : Tbl α) (n : Nat) : α := (t.get? n).getD d

/-- Write with a default: writing the default removes the entry. -/
def set [DecidableEq α] (d : α) (t : Tbl α) (n : Nat) (x : α) : Tbl α := if x = d then t.del n else t.put n x

/-- Change the entry of a key, if there is one. -/
def upd (t : Tbl α) (n : Nat) (f : α → α) : Tbl α :=
  match t.get? n with
  | some v => t.put n (f v)
  | none => t

/-- Keys strictly rising from above a bound. -/
def ascending : Nat → Tbl α → Bool
  | _, [] => true
  | lo, (k, _) :: t => decide (lo ≤ k) && ascending (k + 1) t

/-- The keys of a table. -/
def keys (t : Tbl α) : List Nat := t.map (·.1)

/-- Canonical form: keys strictly rising, no default value listed. -/
def wf [DecidableEq α] (d : α) (t : Tbl α) : Bool := ascending 0 t && t.all fun e => decide (e.2 ≠ d)

end Tbl

end Sys2Proof
end

