-- ==== Sys2Proof/Machine/State.lean ====
section
/-! DEFINITION. The state of one BX-1 module as plain data, the reasons a step stops, and the state after reset. -/

namespace Sys2Proof.Machine

/-- Privilege levels (R386). -/
inductive Level where
  | u | s | m
  deriving DecidableEq, Repr

/-- Trap causes 0x01 to 0x19 (R388), in the order of their codes. -/
inductive Cause where
  | illegal | privileged | window | misaligned | uniformity | formatDivergence | collectiveDivergence | format
  | alignment | bounds | protection | hostAtomic | handle | bank | engineOperand | multicast | layout | index
  | barrier | queue | orphanedQueue | claimDeadlock | task | breakpoint | software
  deriving DecidableEq, Repr

/-- Causes of a violation log entry (R411). -/
inductive ViolCause where
  | permission | malformed | range | bulletinTag | keyAbsent | unusedRange
  deriving DecidableEq, Repr

/-- Access kinds of fault and violation entries (R399, R411). -/
inductive AccKind where
  | load | store | atomic | fetch | engineRead | engineWrite | walk
  deriving DecidableEq, Repr

/-- A protection violation as it is logged (R411). -/
structure Viol where
  addr : Nat
  cause : ViolCause
  kind : AccKind
  phys : Bool
  deriving DecidableEq, Repr

/-- A trap as an instruction raises it: reported lanes, $tval, $taddr (R388, R389) and the violation to log. -/
structure TrapInfo where
  cause : Cause
  lanes : Mask
  val : Word
  addr : DWord
  viol : Option Viol
  deriving DecidableEq, Repr

/-- Causes of a parking fault (R398, R399). -/
inductive ParkCause where
  | page | migration | lease
  deriving DecidableEq, Repr

/-- A parking fault: its cause, the access and the faulting virtual address (R398). -/
structure ParkInfo where
  cause : ParkCause
  kind : AccKind
  va : Nat
  deriving DecidableEq, Repr

/-- What a wave that has stopped issuing waits to take (R343, R398). -/
inductive Stop where
  | trap (i : TrapInfo)
  | park (p : ParkInfo)
  deriving DecidableEq, Repr

/-- A stop with the issuing set, its PC and word. -/
structure Pending where
  stop : Stop
  set : Mask
  pc : PC
  word : Word
  deriving DecidableEq, Repr

/-- Where global bytes live: this device's DRAM, a peer's, or the host's (R206). -/
inductive Space where
  | dev | peer | host
  deriving DecidableEq, Repr

/-- A translated global address: space, byte address in it, key identifier, tier 0 to 4, access counting (R211, R212). -/
structure Phys where
  sp : Space
  addr : Nat
  key : Nat
  tier : Nat
  ace : Bool
  deriving DecidableEq, Repr

/-- A word a read set can hold (R337): memory words by byte address ÷ 4, bulletin words, and the words of R327 (a launch's
task state too, R364). -/
inductive Loc where
  | mem (sp : Space) (w : Nat)
  | ls (tid w : Nat)
  | cb (cluster i : Nat)
  | db (die i : Nat)
  | ctr (tid k : Nat)
  | handle (core i : Nat)
  | chan (tid q : Nat)
  | tsync (tid : Nat)
  | task (lid : Nat)
  deriving DecidableEq, Repr

/-- A page-table leaf (R211). -/
structure Leaf where
  frame : Nat
  dev : Nat
  key : Nat
  tier : Nat
  moving : Bool
  ace : Bool
  sonly : Bool
  x : Bool
  w : Bool
  r : Bool
  deriving DecidableEq, Repr

/-- A held translation (R216): owner, page address and log2 size, leaf. -/
structure Trans where
  owner : Nat
  page : Nat
  bits : Nat
  leaf : Leaf
  deriving DecidableEq, Repr

/-- A held pointer entry (R216): owner, table level and index path, next table. -/
structure WalkEnt where
  owner : Nat
  level : Nat
  path : Nat
  table : Nat
  deriving DecidableEq, Repr

/-- What a store-buffer entry does when it is performed (R254). -/
inductive SbOp where
  /-- bytes of one 128-byte line of global memory -/
  | mem (sp : Space) (tier key : Nat) (ace : Bool) (bytes : List (Nat × Byte))
  /-- bytes of one 128-byte line of the local store -/
  | ls (bytes : List (Nat × Byte))
  /-- a bulletin word -/
  | bull (l : Loc) (v : Word)
  /-- BINIT of the barriers named, with their counts (R347) -/
  | binit (bs : List (Nat × Nat))
  /-- BEXPECT and BCREDIT: what to add to BYTES of the barriers named (R348) -/
  | owed (bs : List (Nat × Int))
  /-- TSYNC arrivals of the lanes (R352) -/
  | arrive (lanes : Mask)
  /-- a queue push, one value per lane (R358) -/
  | push (q : Nat) (vals : List (Nat × Word))
  deriving DecidableEq, Repr

/-- What of a store-buffer entry is performed at one point (R254): the write, issue order and line, which name the entry,
held (R338), sent, and the dies that have not acknowledged (R331). -/
structure SbEntry where
  op : SbOp
  seq : Nat
  line : Nat
  held : Bool
  sent : Bool
  await : List Nat
  deriving DecidableEq, Repr

/-- The operations of ATOM, ATOM.W and ATOML (R261). -/
inductive AtomOp where
  | add | and | or | xor | min | max | umin | umax | xchg | cas | inc | fadd | hadd2b | hadd2h | fmin | fmax
  deriving DecidableEq, Repr

/-- What one lane of an atomic names. -/
inductive AtomTgt where
  | mem (p : Phys)
  | ls (a : Nat)
  | bull (l : Loc)
  deriving DecidableEq, Repr

/-- One lane of an atomic: its target, the operand b (for CAS the compare value) and the new value of CAS. -/
structure AtomLane where
  lane : Nat
  tgt : AtomTgt
  x : DWord
  y : DWord
  deriving DecidableEq, Repr

/-- A register of the wave: hidden (R392) or of the allocation. -/
structure PReg where
  hidden : Bool
  n : Nat
  deriving DecidableEq, Repr

/-- An unperformed irrevocable access of a wave: an atomic (R259), with the lane whose words its home holds pending and
the dies that have yet to acknowledge (R332), or a load of a TIER 2 or TIER 4 page (R234). -/
inductive Irrev where
  | atom (seq : Nat) (op : AtomOp) (wide : Bool) (lanes : List AtomLane) (await : Option (Nat × List Nat))
  | load (seq : Nat) (size : Size) (lanes : List (Nat × Phys))
  deriving DecidableEq, Repr

/-- A class V result of one lane that has not returned (R121): issue order, word of the instruction's unit, register
(none for flags alone), whether it still goes to the register and not only to its shadow copy, lane, value, flags (R148),
and whether the value is there (an unperformed irrevocable access's is not). -/
structure Outst where
  seq : Nat
  idx : Nat
  dst : Option PReg
  toReg : Bool
  lane : Nat
  val : Word
  flags : Word
  ready : Bool
  deriving DecidableEq, Repr

/-- A speculation region (R335 to R337): the waymark, the shadow storage by register, the read set. -/
structure Region where
  seq : Nat
  pcs : List (PC × Mask)
  base : Nat
  fpmode : Word
  fflags : Word
  srseed : Word
  tsMark : Mask
  shadow : Tbl (Tbl Word)
  reads : List Loc
  deriving DecidableEq, Repr

/-- A starvation sweep (R113): threshold, lanes that had a turn, the turning lanes, issues of the turn. -/
structure Sweep where
  h : Nat
  had : Mask
  turn : Mask
  count : Nat
  deriving DecidableEq, Repr

/-- The trap registers of a wave (R389). -/
structure TrapRegs where
  cause : Nat
  pc : PC
  word : Word
  lanes : Mask
  addr : DWord
  val : Word
  prevLevel : Level
  prevBase : Nat
  depth : Nat
  retries : Nat
  deriving DecidableEq, Repr

/-- What the sequencer records of the interrupted code (R390, R391, R395). -/
structure Recorded where
  pcs : List (PC × Mask)
  base : Nat
  level : Level
  fpmode : Word
  fflags : Word
  srseed : Word
  trapped : Mask
  deriving DecidableEq, Repr

/-- One wave. `fence` is the issue order at which its TLBINV dropped translations and began to wait (R413),
`slept` the SLEEP it last issued and the lanes (R402). -/
structure Wave where
  tid : Nat
  idx : Nat
  slot : Nat
  alloc : Nat
  base : Nat
  regs : Tbl Word
  hidden : Tbl Word
  live : Mask
  helper : Mask
  threads : Mask
  exited : Mask
  pcs : List (PC × Mask)
  level : Level
  fpmode : Word
  fflags : Word
  srseed : Word
  clockh : Word
  brCount : Nat
  qCount : Nat
  sweep : Option Sweep
  outst : List Outst
  parked : Bool
  waiting : Option Mask
  absentWait : Bool
  sleep : Option Nat
  slept : Option (PC × Mask)
  sbuf : List SbEntry
  irrev : Option Irrev
  region : Option Region
  rollbacks : Nat
  cautious : Nat
  stop : Option Pending
  trap : TrapRegs
  recd : Option Recorded
  tsCount : Tbl Nat
  tsMark : Mask
  holds : Mask
  triggered : Mask
  claiming : Option Word
  spilling : Option (List SbEntry)
  fence : Option Nat
  retired : Bool
  deriving DecidableEq, Repr

/-- A timeline counter (R327): its value, the largest ticket taken, tickets complete beyond the value. -/
structure Ctr where
  value : Nat
  taken : Nat
  early : List Nat
  deriving DecidableEq, Repr

/-- A queue binding (R357): a channel of PROD waves with 2^LOGCAP slots per lane at a base, or the port. FIFO positions
count values pushed and popped per lane; a port holds its values per lane (R320). -/
structure Binding where
  port : Bool
  prod : Nat
  logCap : Nat
  base : Nat
  pushed : Tbl Nat
  popped : Tbl Nat
  vals : Tbl (List Word)
  deriving DecidableEq, Repr

/-- A tensor's layout record (R275). Strides are 64-bit values. -/
structure Tensor where
  base : Nat
  rank : Nat
  es : Nat
  dims : List Nat
  strides : List Nat
  boxes : List Nat
  pitch : Nat
  deriving DecidableEq, Repr

/-- An embedding table's layout record (R313). -/
structure EmbTable where
  base : Nat
  rows : Nat
  pitch : Nat
  dim : Nat
  efmt : Nat
  okind : Nat
  deriving DecidableEq, Repr

/-- A layout record of either kind (R275, R313). -/
inductive Layout where
  | tensor (t : Tensor)
  | table (t : EmbTable)
  deriving DecidableEq, Repr

/-- A bound record identifier: the record's address and its cached copy (R276). -/
structure BoundRec where
  addr : Nat
  layout : Layout
  deriving DecidableEq, Repr

/-- Handle states (R270); a free entry is absent from its table. -/
inductive HState where
  | filling | full | draining
  deriving DecidableEq, Repr

/-- A handle entry (R269). -/
structure Handle where
  tid : Nat
  base : Nat
  len : Nat
  st : HState
  fills : Nat
  refs : Nat
  auto : Bool
  deriving DecidableEq, Repr

/-- Where a tile lies: core, handle index, generation, byte offset (R306). -/
structure TileKey where
  core : Nat
  handle : Nat
  gen : Nat
  off : Nat
  deriving DecidableEq, Repr

/-- One operand of a matrix step: handle, generation at issue, start and increment in bytes, half of a format word. -/
structure TileArg where
  handle : Nat
  gen : Nat
  base : Nat
  off : Nat
  inc : Nat
  fmt : Nat
  deriving DecidableEq, Repr

/-- A bag of EMBAG: lane, first entry, entry count (R315). -/
structure Bag where
  lane : Nat
  off : Nat
  count : Nat
  deriving DecidableEq, Repr

/-- An engine command with its captured operands. -/
inductive CmdKind where
  /-- TFETCH, or TSTORE when `store` (R282 to R284): record copy, handle base, OFFSET, TRANSPOSE, coordinates -/
  | tile (store : Bool) (tensor : Tensor) (hbase off : Nat) (transpose : Bool) (c : List Int)
  /-- TMCAST (R285): source base, LEN, targets as (team, local base) -/
  | mcast (src len : Nat) (targets : List (Nat × Nat))
  /-- BCOPY (R286): DIR, handle base, OFFSET, LEN, global source and destination -/
  | bcopy (dir hbase off len src dst : Nat)
  /-- EMBAG (R315): record, MODE, index-list base, output local address or queue, bags -/
  | embag (table : EmbTable) (mode ibase : Nat) (out : Option Nat) (q : Nat) (bags : List Bag)
  /-- MZERO (R297) of a physical bank -/
  | mzero (bank : Nat)
  /-- MMA and MLOOP (R298, R299): physical bank, operands, steps -/
  | mma (bank : Nat) (a b : TileArg) (n : Nat)
  /-- MDRAIN (R300): physical bank, control word, output address, epilogue address, format word, generator state -/
  | mdrain (bank ctl out epi fmt seed : Nat)
  /-- QUNBIND issued in a region (R360) -/
  | qunbind (q : Nat)
  deriving DecidableEq, Repr

/-- What a void completion returns a handle to (R279): core, index, the entry before issue and its generation, and how
often the entry had been changed after it. -/
structure Undo where
  core : Nat
  idx : Nat
  before : Handle
  genBefore : Nat
  changes : Nat
  deriving DecidableEq, Repr

/-- An engine command in flight. `engine` is the bulk copy engine of which it has a context (R1), `got` holds what elements have
read, `lines` the absent lines it owes, `faults` the pages it waits for with their entries' sequence numbers. -/
structure Cmd where
  tid : Nat
  wid : Nat
  seq : Nat
  owner : Nat
  level : Level
  kind : CmdKind
  counter : Option (Nat × Nat)
  inb : List (Nat × Nat)
  outb : List (Nat × Nat)
  barriers : List (Nat × Nat)
  lines : List (Nat × Nat)
  undo : List Undo
  held : Bool
  released : Bool
  queued : Bool
  engine : Option Nat
  slots : Nat
  slotsDone : Nat
  done : List Nat
  got : Tbl Nat
  outBytes : List (Nat × List Byte)
  flags : Word
  faults : List (Nat × Nat)
  fatal : Bool
  deriving DecidableEq, Repr

/-- One team (R16). `recs` holds the record addresses bound with LRBIND (R404), `slot` the frame slot of its last save,
`saving` why a save of it has begun (R406 WHY). -/
structure Team where
  lid : Nat
  owner : Nat
  prio : Nat
  gang : Nat
  pos : Nat
  team : Nat
  cluster : Nat
  nWaves : Nat
  nThreads : Nat
  regsPer : Nat
  localBytes : Nat
  banks : Nat
  pool : Nat
  claims : List (Nat × Nat)
  ls : Tbl Byte
  absent : List Nat
  ctr : Tbl Ctr
  queues : Tbl Binding
  bankMap : Tbl Nat
  barriers : List Nat
  recs : Tbl Nat
  slot : Option Nat
  handler : Option Nat
  args : Nat
  saving : Option Nat
  deriving DecidableEq, Repr

/-- Power gating of a core (R445): entering and waking last until a cycle; `sweep` where the wake ends with the parity sweep
of registers held at retention voltage. -/
inductive Gate where
  | awake
  | entering (until_ : Nat)
  | gated
  | waking (until_ : Nat) (sweep : Bool)
  deriving DecidableEq, Repr

/-- A 32-byte sector that an L1 cache holds: its space and number, and the key identifier of its plaintext (R226, R329). -/
structure Sector where
  sp : Space
  n : Nat
  key : Nat
  deriving DecidableEq, Repr

/-- A 128-byte line that an L2 slice holds: its number, the key identifier of its plaintext, and where it has been written
since its fill the owner of the last write and that write's ACE (R208, R220, R226, R329). -/
structure L2Line where
  line : Nat
  key : Nat
  dirty : Option (Nat × Bool)
  deriving DecidableEq, Repr

/-- A capacity page that has crossed its owner's threshold and is to be posted (R220, R222): owner, page, count, key. -/
structure Crossing where
  own : Nat
  page : Nat
  count : Nat
  key : Nat
  deriving DecidableEq, Repr

/-- One core: its handle table with each entry's count of changes, translations, L1 sectors and counters. -/
structure Core where
  handles : Tbl Handle
  gen : Tbl Nat
  changes : Tbl Nat
  tlb : List Trans
  lastPage : Tbl Trans
  l1 : List Sector
  perf : Tbl Nat
  halted : Bool
  gate : Gate
  owner : Option Nat
  deriving DecidableEq, Repr

/-- A task entry: eight words (R364). -/
abbrev TaskEntry := List Word

/-- A hamper in use (R365): its launch, key, and entries, oldest first. -/
structure Hamper where
  lid : Nat
  key : Nat
  entries : List TaskEntry
  deriving DecidableEq, Repr

/-- The states of a physical bank that are not free (R292). -/
inductive BankSt where
  | mapped
  | unsettled (seq tid : Nat)
  deriving DecidableEq, Repr

/-- An accumulator bank: mapped or unsettled, its words keyed by 128m + n. A free bank is absent. -/
structure Bank where
  st : BankSt
  words : Tbl Word
  deriving DecidableEq, Repr

/-- A tile held by the operand cache, as the handle's bytes stood when it was filled (R306). -/
structure OpTile where
  key : TileKey
  bytes : List Byte
  deriving DecidableEq, Repr

/-- One cluster. -/
structure Cluster where
  owner : Option Nat
  inService : Bool
  bull : Tbl Word
  recs : Tbl BoundRec
  hampers : Tbl Hamper
  banks : Tbl Bank
  abq : List (Nat × Nat)
  opCache : List OpTile
  ptr : Tbl Nat
  setAside : Option Nat
  deriving DecidableEq, Repr

/-- One compute die, or the anchor die (die 16). `dir` is its directory: for each line a bit for each core that may hold sectors
of it, and above them one for each agent of the die that watches it: a compute die's two Utino buffers, on the anchor die the
launch front and the host-line agent (R330). `recalls` holds the leases whose recall it has yet to acknowledge (R237). -/
structure Die where
  bull : Tbl Word
  tag : Tbl Nat
  dir : Tbl (BitVec 202)
  walk : List WalkEnt
  leases : List Nat
  recalls : List Nat
  deriving DecidableEq, Repr

/-- STATE of a launch queue (R53). -/
inductive QState where
  | disabled | running | stalled | resetting
  deriving DecidableEq, Repr

/-- A launch queue (R53, R54): descriptor, counts of records taken and of the last tail loaded, the place of the tail word
whose copy the front holds, none once it is invalidated (R56), and the outcomes of R65. -/
structure Queue where
  desc : QueueDesc
  state : QState
  taken : Nat
  lastTail : Nat
  copy : Option (Space × Nat)
  outcomes : Tbl Nat
  deriving DecidableEq, Repr

/-- A ring in memory (R74, R221, R399, R411): control block, log2 of its entries, interrupt vector, and the place of the
control block when the device last used it, whose HEAD and STATUS words it watches from then on (R222). -/
structure Ring where
  block : Nat
  logSize : Nat
  vector : Nat
  place : Option Phys
  deriving DecidableEq, Repr

/-- A fault entry (R399): posted or waiting for room, resolved by FAULTDONE (R400). -/
structure FaultEnt where
  seq : Nat
  va : Nat
  pc : Nat
  slot : Option Nat
  cause : ParkCause
  kind : AccKind
  core : Nat
  launch : Nat
  posted : Bool
  deriving DecidableEq, Repr

/-- One owner (R51). -/
structure Owner where
  root : Nat
  key : Nat
  grant : List Nat
  frameBase : Nat
  frameSlots : Nat
  framesUsed : List Nat
  vkeys : Tbl (List Byte)
  required : Bool
  queues : Tbl Queue
  ring : Option Ring
  ringDropped : Nat
  migQ : Option Ring
  threshold : Nat
  faultQ : Option Ring
  faults : List FaultEnt
  faultSeq : Nat
  vlog : Option Ring
  vlogSeq : Nat
  handler : Option Nat
  deriving DecidableEq, Repr

/-- A predecessor field of a launch record (R61). -/
structure Pred where
  trigger : Bool
  queue : Nat
  seq : Nat
  deriving DecidableEq, Repr

/-- Stages of a launch in the front's table (R62, R68, R81). -/
inductive Stage where
  | taken | checked | running
  deriving DecidableEq, Repr

/-- The team shape of R77, with what the start state needs of the descriptor (R50, R387). -/
structure Shape where
  nWaves : Nat
  nThreads : Nat
  regs : Nat
  localBytes : Nat
  nTeams : Nat
  banks : Nat
  entry : Nat
  trapvec : Option Nat
  fpmode : Nat
  seed : Nat
  deriving DecidableEq, Repr

/-- A launch in the front's table. -/
structure Launch where
  owner : Nat
  queue : Nat
  seq : Nat
  image : Nat
  args : Nat
  compl : Nat
  pred0 : Option Pred
  pred1 : Option Pred
  ovf : Nat
  ovfN : Nat
  gangs : Nat
  threadsO : Nat
  regsO : Nat
  localO : Nat
  banksO : Nat
  gangO : Nat
  notify : Bool
  persist : Bool
  colaunch : Bool
  prio : Nat
  sat0 : Bool
  sat1 : Bool
  stage : Stage
  shape : Option Shape
  nextGang : Nat
  gangsDone : Nat
  lastCluster : Option Nat
  passed : Nat
  reserved : Bool
  trigDone : Nat
  cancel : List Nat
  ovfHead : Nat
  ovfTail : Nat
  inFlight : Nat
  fail : Option (Nat × Nat)
  deriving DecidableEq, Repr

/-- What the device itself keeps of a wave whose context lies in a frame (R406): the lanes that have triggered (R63) and the
latched half of $clock (R131). -/
structure SavedWave where
  triggered : Mask
  clockh : Word
  deriving DecidableEq, Repr

/-- A saved team (R397, R404) as the device itself keeps it; the rest lies in its frame, the `bytes` of slot `slot` (R405, R406).
`team` has what its launch gives it and its place, `handles` the saved indices and `banks` how many banks it claimed, which
placing it back needs; `waves`, and in `fifos` what of a channel's FIFO positions does not fit its 64 bytes of QUEUES, have no room
in R406's layout. -/
structure SavedTeam where
  tid : Nat
  team : Team
  waves : List SavedWave
  handles : List Nat
  banks : Nat
  fifos : Tbl Nat
  slot : Nat
  bytes : Nat
  deriving DecidableEq, Repr

/-- A saved gang (R398, R402, R404): its teams, the fault entries it waits for, and the place in the order of restoring
from when it may be restored (R87). -/
structure SavedGang where
  lid : Nat
  gang : Nat
  prio : Nat
  owner : Nat
  teams : List SavedTeam
  faults : List Nat
  ready : Option Nat
  deriving DecidableEq, Repr

/-- A drain (R88, R402): cluster, the class it is for, the launch, when it began. -/
structure Drain where
  cluster : Nat
  prio : Nat
  lid : Nat
  started : Option Nat
  deriving DecidableEq, Repr

/-- CSR_HDMCFG (R244). -/
structure Hdm where
  en : Bool
  base : Nat
  key : Nat
  size : Nat
  deriving DecidableEq, Repr

/-- HK_STATE but for THROTTLE (R449), and whether the CXL port has trained as a PCIe endpoint only (R239). -/
structure Hk where
  bootStep : Nat
  debug : Bool
  recovery : Bool
  ready : Bool
  pcieOnly : Bool
  deriving DecidableEq, Repr

/-- A fabric port (R229, R230): up, retries in a row, the payload bytes handed to it, which it packs back to back into
flits numbered from 0, and how many flits are acknowledged. -/
structure Link where
  down : Bool
  retries : Nat
  bytes : Nat
  acked : Nat
  deriving DecidableEq, Repr

/-- A target's window for one source and stream (R231): low edge, responses by sequence number. -/
structure Window where
  low : Nat
  resp : Tbl (List Byte)
  deriving DecidableEq, Repr

/-- What an access needs before its home can serve it: a Utino buffer a key (R311), or an access of the device itself to a peer
its answer (R231): the die that asks, 16 the anchor die, for an owner, a place, and the bytes of data that go with it. -/
inductive Want where
  | key (buffer key : Nat)
  | line (die own : Nat) (p : Phys) (bytes : Nat)
  deriving DecidableEq, Repr

/-- For what a request to a peer has gone out: an access of a wave, an element of a command by the numbers of both, or an access
of the device itself. -/
inductive Asker where
  | wave (wid : Nat)
  | elem (cmd req : Nat)
  | device (w : Want)
  deriving DecidableEq, Repr

/-- The engine command that a request is for. -/
def Asker.cmd? : Asker → Option Nat
  | .elem k _ => some k
  | _ => none

/-- An outstanding request of this device (R231 to R233): stream, sequence number, target, owner, for what it is, its message's
bytes, the port it last went out by with the number of its last flit there, times it was sent again, when it was first and last
sent. -/
structure OutReq where
  stream : Nat
  seq : Nat
  device : Nat
  owner : Nat
  who : Asker
  bytes : Nat
  port : Option Nat
  flit : Nat
  resends : Nat
  first : Nat
  last : Nat
  deriving DecidableEq, Repr

/-- A line of the HDM range the host may hold: with its bytes when it is modified (R246). -/
structure HostLine where
  dirty : Option (List Byte)
  deriving DecidableEq, Repr

/-- The model's own: for which wave, set and word an instruction's meaning acts. -/
structure Cur where
  wid : Nat
  set : Mask
  pc : PC
  word : Word
  deriving DecidableEq, Repr

/-- The reasons the machine stops with a fault. Log entry 47, DESIGN CHOICE. -/
inductive Fault where
  /-- Raised by HOST_HDM_ACCESS at an address of the exposed range that lies past the end of HBM4E (R207, R244): there is
  no HBM4E there. Safe: the spec gives such an access no effect. -/
  | hdmOutsideHbm
  deriving DecidableEq, Repr

/-- The reasons a term of `Instr` has no meaning in a state. -/
inductive Refusal where
  /-- An instruction that has no meaning yet. No meaning answers with it. Safe. -/
  | notModelled (mnemonic : String)
  /-- Raised by an instruction's meaning when `cur` names no wave: no thread issues it. Safe: `step` never does this. -/
  | noIssuingWave
  /-- Raised by an operation or event whose conditions do not hold in the state: it does not happen there. Safe:
  `step` chooses only enabled acts. -/
  | notEnabled (what : String)
  deriving DecidableEq, Repr

/-- A verified image (R49): owner, image address, and the extents its bytes lie in (space, first byte, length). -/
structure ImgEnt where
  owner : Nat
  va : Nat
  extents : List (Space × Nat × Nat)
  deriving DecidableEq, Repr

/-- One BX-1 module. `icache` holds, by core, space and word, words that a fetch may still answer with (R49, R101), with the key
they were encrypted under; `wants` what the act under way still needs of keys and peers, and `met` the answers of peers that have
come for acts which wait (R231, R311). `power` is the measured power in watts, `rails` the measured currents of the five rails of
R443 and `temps` the measured temperatures (R447), `withheld` the cycle since which issue is withheld, `withheldSpans`
the ended spans of the last millisecond (R444), `hostAnswer` what the host's last read of the HDM range was answered with,
`candidate` the launch the front has chosen, `passedBy` those it has moved past since it last began with the lowest class (R70). -/
structure State where
  clock : DWord
  deviceId : Nat
  deviceIdValid : Bool
  drainDl : Nat
  fabTmo : Word
  hdm : Hdm
  biasBase : Nat
  hk : Hk
  pwrLim : Nat
  eccUncorr : Nat
  eccCorr : Nat
  power : Nat
  rails : List Nat
  temps : List Nat
  withheld : Option Nat
  withheldSpans : List (Nat × Nat)
  mr : List (List Byte)
  fwRunning : Tbl Firmware
  fwStaged : Tbl Firmware
  reports : List (List Byte)
  msix : List (Nat × Nat)
  keyVer : Tbl Nat
  keySeq : Nat
  mem : Tbl Byte
  memKey : Tbl Nat
  host : Tbl Byte
  peer : Tbl Byte
  peerKey : Tbl Nat
  l2 : Tbl (List L2Line)
  homeDir : Tbl (BitVec 17)
  pend : List (Loc × Nat)
  crossings : List Crossing
  accessCnt : Tbl Nat
  queuedPages : List (Nat × Nat × Nat)
  hostLines : Tbl HostLine
  hostAnswer : List Byte
  agentLines : Tbl Bool
  leasesGranted : List (Nat × Nat)
  leaseBlocked : List Nat
  recallPending : List (Nat × Nat)
  links : Tbl Link
  fabWindow : Tbl Window
  fabOut : List OutReq
  fabSeq : Tbl Nat
  fabHeard : Tbl Nat
  bufKeys : Tbl (List Nat)
  keyWants : List (Nat × Nat)
  wants : List Want
  met : List Want
  owners : Tbl Owner
  launches : Tbl Launch
  teams : Tbl Team
  waves : Tbl Wave
  cmds : Tbl Cmd
  saved : Tbl SavedGang
  cores : Tbl Core
  icache : Tbl (Tbl (Nat × Word))
  clusters : Tbl Cluster
  dies : Tbl Die
  imgCache : List ImgEnt
  rrOwner : Tbl Nat
  rrQueue : Tbl Nat
  candidate : Option Nat
  passedBy : List Nat
  drains : List Drain
  nextTid : Nat
  nextLid : Nat
  nextCid : Nat
  seq : Nat
  inputs : List (Instr × Ev)
  cur : Cur
  ev : Ev
  sched : List Nat
  tick : Nat
  deriving DecidableEq, Repr

/-- Trap registers before any trap: the spec gives no value, and no program can read one (R50, R131). -/
def TrapRegs.init : TrapRegs := ⟨0, 0, 0, 0, 0, 0, .u, 0, 0, 0⟩

/-- A core after reset. Log entry 4, DESIGN CHOICE. -/
def Core.init : Core := ⟨[], [], [], [], [], [], [], false, .awake, none⟩

/-- A cluster after reset. Log entry 4, DESIGN CHOICE. -/
def Cluster.init : Cluster := ⟨none, true, [], [], [], [], [], [], [], none⟩

/-- A die after reset. Log entry 4, DESIGN CHOICE. -/
def Die.init : Die := ⟨[], [], [], [], [], []⟩

/-- A timeline counter at placement (R50). -/
def Ctr.init : Ctr := ⟨0, 0, []⟩

/-- The module right after reset, before the steps of R439. Log entry 4, DESIGN CHOICE. -/
def State.reset : State where
  clock := 0
  deviceId := 0
  deviceIdValid := false
  drainDl := 2000
  fabTmo := 10000
  hdm := ⟨false, 0, 0, 0⟩
  biasBase := 0
  hk := ⟨0, false, false, false, false⟩
  pwrLim := 8000
  eccUncorr := 0
  eccCorr := 0
  power := 0
  rails := List.replicate 5 0
  temps := []
  withheld := none
  withheldSpans := []
  mr := List.replicate 8 (List.replicate 64 0)
  fwRunning := []
  fwStaged := []
  reports := []
  msix := []
  keyVer := []
  keySeq := 0
  mem := []
  memKey := []
  host := []
  peer := []
  peerKey := []
  l2 := []
  homeDir := []
  pend := []
  crossings := []
  accessCnt := []
  queuedPages := []
  hostLines := []
  hostAnswer := []
  agentLines := []
  leasesGranted := []
  leaseBlocked := []
  recallPending := []
  links := []
  fabWindow := []
  fabOut := []
  fabSeq := []
  fabHeard := []
  bufKeys := []
  keyWants := []
  wants := []
  met := []
  owners := []
  launches := []
  teams := []
  waves := []
  cmds := []
  saved := []
  cores := []
  icache := []
  clusters := []
  dies := []
  imgCache := []
  rrOwner := []
  rrQueue := []
  candidate := none
  passedBy := []
  drains := []
  nextTid := 0
  nextLid := 0
  nextCid := 0
  seq := 0
  inputs := []
  cur := ⟨0, 0, 0, 0⟩
  ev := ⟨0, 0, 0, false, .none⟩
  sched := []
  tick := 0

end Sys2Proof.Machine
end

