-- ==== Sys2Proof/Machine/Mem.lean ====
section
/-! DEFINITION. Bytes of the physical spaces (R206, R207), the keys they are stored under (R224 to R226), the HDM-DB range
(R244 to R247), and the team's local store. -/

namespace Sys2Proof.Machine

/-- The outcome of a step of this machine. -/
abbrev Out := Host.Outcome State Fault Refusal

/-- The canonical form of a memory: addresses strictly rising, no listed byte that an unlisted address reads as. -/
def Memory.wf (m : Tbl Byte) : Bool := Tbl.wf 0#8 m

/-- First address past HBM4E (R207). -/
def hbmEnd : Nat := 0x20000000000

/-- First address past the capacity tier (R207). -/
def capEnd : Nat := 0x50000000000

/-- The byte a space holds. An unlisted byte reads 0. Log entry 1, DESIGN CHOICE. -/
def State.rawByte (s : State) (sp : Space) (a : Nat) : Byte :=
  match sp with
  | .dev => s.mem.get 0 a
  | .peer => s.peer.get 0 a
  | .host => s.host.get 0 a

/-- Put a byte into a space. -/
def State.putByte (s : State) (sp : Space) (a : Nat) (b : Byte) : State :=
  match sp with
  | .dev => { s with mem := s.mem.set 0 a b }
  | .peer => { s with peer := s.peer.set 0 a b }
  | .host => { s with host := s.host.set 0 a b }

/-- The key that an identifier names now (R224): one of its own while none has been drawn for it or imported.
Log entry 6, DESIGN CHOICE. -/
def State.keyName (s : State) (key : Nat) : Nat :=
  let v := s.keyVer.get 0 key
  if v = 0 then 2 * key else 2 * v + 1

/-- What stands for the key and the device identifier that a device sector is encrypted under: which key the identifier
names now, and the identifier of the device in the tweak (R225). Never 0, which marks a sector nothing has written.
Log entry 6, DESIGN CHOICE. -/
def State.keyTag (s : State) (key : Nat) : Nat := 1 + s.keyName key * 2 ^ 20 + s.deviceId

/-- The plaintext of a sector that lies encrypted under one tag, read under another (R226). A sector nothing has written
has no tag. Log entry 6, DESIGN CHOICE. -/
def underTag (old new sec : Nat) (m : Tbl Byte) : List Byte :=
  let plain := (List.range 32).map fun i => m.get 0 (32 * sec + i)
  if old == 0 || old == new then plain else Config.wrongKey old new sec plain

/-- Bytes and tags of a space after a sector is taken over to the tag of a request that is about to write part of it (R226):
the other bytes become what the wrong key decrypts. -/
def retag (new sec : Nat) (m : Tbl Byte) (tags : Tbl Nat) : Tbl Byte × Tbl Nat :=
  let old := tags.get 0 sec
  if old == new then (m, tags)
  else if old == 0 then (m, tags.set 0 sec new)
  else
    let bs := underTag old new sec m
    ((List.range 32).foldl (fun m i => m.set 0 (32 * sec + i) (bs.getD i 0)) m, tags.set 0 sec new)

/-- The plaintext of a device sector as a request under a key identifier reads it (R225, R226).
Log entry 1, DESIGN CHOICE; log entry 6, DESIGN CHOICE. -/
def State.sectorUnder (s : State) (sec key : Nat) : List Byte :=
  underTag (s.memKey.get 0 sec) (s.keyTag key) sec s.mem

/-- Whether a device sector reads as it was written under a key identifier (R226).
Log entry 1, DESIGN CHOICE; log entry 6, DESIGN CHOICE. -/
def State.keyFits (s : State) (sec key : Nat) : Bool :=
  s.memKey.get 0 sec == 0 || s.memKey.get 0 sec == s.keyTag key

/-- The plaintext of a peer's sector as a request under a key identifier reads it: the peer uses its own key of that
identifier (R235). -/
def State.peerSector (s : State) (sec key : Nat) : List Byte := underTag (s.peerKey.get 0 sec) (key + 1) sec s.peer

/-- Take a sector over to the key of a request that is about to write part of it (R226, R235). -/
def State.rekey (s : State) (sp : Space) (sec key : Nat) : State :=
  match sp with
  | .dev => { s with mem := (retag (s.keyTag key) sec s.mem s.memKey).1, memKey := (retag (s.keyTag key) sec s.mem s.memKey).2 }
  | .peer => { s with peer := (retag (key + 1) sec s.peer s.peerKey).1, peerKey := (retag (key + 1) sec s.peer s.peerKey).2 }
  | .host => s

/-- Write one byte under a key identifier (R225, R235). -/
def State.writeByte (s : State) (sp : Space) (key a : Nat) (b : Byte) : State := (s.rekey sp (a / 32) key).putByte sp a b

/-- Write bytes, in the order listed. -/
def State.writeBytes (s : State) (sp : Space) (key : Nat) (bs : List (Nat × Byte)) : State :=
  bs.foldl (fun t e => t.writeByte sp key e.1 e.2) s

/-- Whether a device address lies in the exposed HDM-DB range (R244). -/
def State.inHdm (s : State) (a : Nat) : Bool :=
  s.hdm.en && decide (s.hdm.base * 2 ^ 30 ≤ a) && decide (a < (s.hdm.base + s.hdm.size) * 2 ^ 30)

/-- Whether a device address lies in the bias table (R245). Log entry 94, DESIGN CHOICE. -/
def State.inBias (s : State) (a : Nat) : Bool :=
  s.hdm.en && decide (s.biasBase ≤ a) && decide (a < s.biasBase + s.hdm.size * 2 ^ 15)

/-- The bias bit of the granule of an address in the range: true for device bias (R245). -/
def State.deviceBias (s : State) (a : Nat) : Bool :=
  let g := (a - s.hdm.base * 2 ^ 30) / 4096
  (s.mem.get 0 (s.biasBase + g / 8)).getLsbD (g % 8)

/-- Put a granule's bias bit (R245 to R247). -/
def State.setBias (s : State) (a : Nat) (dev : Bool) : State :=
  let g := (a - s.hdm.base * 2 ^ 30) / 4096
  let at_ := s.biasBase + g / 8
  let bit := BitVec.ofNat 8 (2 ^ (g % 8))
  let old := s.mem.get 0 at_
  { s with mem := s.mem.set 0 at_ (if dev then old ||| bit else old &&& ~~~bit) }

/-- A byte as a request under a key identifier reads it at its home, where no host holds its line. Host memory is not encrypted; a
peer decrypts under its own key (R225, R235). -/
def State.homeByte (s : State) (sp : Space) (key a : Nat) : Byte :=
  match sp with
  | .dev => if s.keyFits (a / 32) key then s.mem.get 0 a else (s.sectorUnder (a / 32) key).getD (a % 32) 0
  | .peer =>
    if s.peerKey.get 0 (a / 32) == key + 1 || s.peerKey.get 0 (a / 32) == 0 then s.peer.get 0 a
    else (s.peerSector (a / 32) key).getD (a % 32) 0
  | .host => s.host.get 0 a

/-- A doubleword as it stands at its home. -/
def State.homeWord64 (s : State) (sp : Space) (key a : Nat) : Nat :=
  leValue ((List.range 8).map fun i => s.homeByte sp key (a + i))

/-- Bytes with their addresses. -/
def placed (a : Nat) (bs : List Byte) : List (Nat × Byte) := bs.mapIdx fun i b => (a + i, b)

/-- The rings whose STATUS word a store may clear (R74, R222, R411). -/
def Owner.rings (o : Owner) : List Ring := o.ring.toList ++ o.migQ.toList ++ o.vlog.toList

/-- Whether a byte of one of the words lies in the doubleword at an address. -/
def touches8 (ls : List Loc) (sp : Space) (a : Nat) : Bool := ls.any fun l => l == .mem sp (a / 8 * 2) || l == .mem sp (a / 8 * 2 + 1)

/-- Where the control blocks of those rings lay when the device last used them. -/
def State.statusPlaces (s : State) : List Phys := s.owners.flatMap fun o => o.2.rings.filterMap (·.place)

/-- STATUS words as they stand after a write of some words: OVF goes only with a store of 0 (R222). `old` is the state before. -/
def State.keepStatus (s old : State) (ls : List Loc) : State :=
  s.statusPlaces.foldl (fun s p =>
    if touches8 ls p.sp (p.addr + 16) ∧ old.homeWord64 p.sp p.key (p.addr + 16) / 2 ^ 63 % 2 = 1 ∧
        s.homeWord64 p.sp p.key (p.addr + 16) ≠ 0 then
      s.writeBytes p.sp p.key [(p.addr + 23, s.homeByte p.sp p.key (p.addr + 23) ||| 0x80#8)]
    else s) s

/-- The words of a 64-byte line. -/
def lineLocs (sp : Space) (line : Nat) : List Loc := (List.range 16).map fun i => .mem sp (16 * line + i)

/-- Back-invalidate a 64-byte host line: its modified bytes go to the device home first (R246), as the host's stores to it (R222). -/
def State.backInvalidate (s : State) (line : Nat) : State :=
  match s.hostLines.get? line with
  | none => s
  | some h =>
    let s := { s with hostLines := s.hostLines.del line }
    match h.dirty with
    | none => s
    | some bs => (s.writeBytes .dev s.hdm.key (placed (64 * line) bs)).keepStatus s (lineLocs .dev line)

/-- What the home does for the host before a device access to a byte of the range (R246): in host bias a load
back-invalidates a line the host may hold modified, a write every copy. -/
def State.hdmTouch (s : State) (write : Bool) (a : Nat) : State :=
  if s.inHdm a && !s.deviceBias a then
    match s.hostLines.get? (a / 64) with
    | some h => if write || h.dirty.isSome then s.backInvalidate (a / 64) else s
    | none => s
  else s

/-- A byte as a request under a key identifier reads it. A line that the host holds modified is read as the home reads it after
taking it back (R246). -/
def State.byteAt (s : State) (sp : Space) (key a : Nat) : Byte :=
  match sp with
  | .dev => (s.hdmTouch false a).homeByte .dev key a
  | .peer => s.homeByte .peer key a
  | .host => s.homeByte .host key a

/-- Consecutive bytes under a key identifier. -/
def State.bytesAt (s : State) (sp : Space) (key a n : Nat) : List Byte :=
  (List.range n).map fun i => s.byteAt sp key (a + i)

/-- A byte of a team's local store. -/
def Team.lsByte (t : Team) (a : Nat) : Byte := t.ls.get 0 a

/-- A word of a team's local store. -/
def Team.lsWord (t : Team) (a : Nat) : Word :=
  BitVec.ofNat 32 (leValue ((List.range 4).map fun i => t.lsByte (a + i)))

/-- Write bytes of the local store. -/
def Team.lsPut (t : Team) (bs : List (Nat × Byte)) : Team :=
  { t with ls := bs.foldl (fun m e => m.set 0 e.1 e.2) t.ls }

/-- Write a word of the local store. -/
def Team.lsPutWord (t : Team) (a : Nat) (v : Word) : Team := t.lsPut (placed a (leBytes 4 v.toNat))

end Sys2Proof.Machine
end

