-- ==== Sys2Proof/Machine/Access.lean ====
section
/-! DEFINITION. Reading and changing one wave, team, core, cluster, die, owner, launch or command of the state; PC sets
(R109); registers (R95, R392) and their shadows (R336). -/

namespace Sys2Proof.Machine

/-- Put a wave. -/
def State.setWave (s : State) (wid : Nat) (w : Wave) : State := { s with waves := s.waves.put wid w }

/-- Change a wave. -/
def State.updWave (s : State) (wid : Nat) (f : Wave → Wave) : State := { s with waves := s.waves.upd wid f }

/-- Put a team. -/
def State.setTeam (s : State) (tid : Nat) (t : Team) : State := { s with teams := s.teams.put tid t }

/-- Change a team. -/
def State.updTeam (s : State) (tid : Nat) (f : Team → Team) : State := { s with teams := s.teams.upd tid f }

/-- Change a launch. -/
def State.updLaunch (s : State) (lid : Nat) (f : Launch → Launch) : State := { s with launches := s.launches.upd lid f }

/-- Change an owner. -/
def State.updOwner (s : State) (o : Nat) (f : Owner → Owner) : State := { s with owners := s.owners.upd o f }

/-- Change a command. -/
def State.updCmd (s : State) (c : Nat) (f : Cmd → Cmd) : State := { s with cmds := s.cmds.upd c f }

/-- A core; one the table does not list is as after reset. -/
def State.core (s : State) (c : Nat) : Core := s.cores.get Core.init c

/-- Change a core. -/
def State.updCore (s : State) (c : Nat) (f : Core → Core) : State :=
  { s with cores := s.cores.set Core.init c (f (s.core c)) }

/-- A cluster; one the table does not list is as after reset. -/
def State.cluster (s : State) (c : Nat) : Cluster := s.clusters.get Cluster.init c

/-- Change a cluster. -/
def State.updCluster (s : State) (c : Nat) (f : Cluster → Cluster) : State :=
  { s with clusters := s.clusters.set Cluster.init c (f (s.cluster c)) }

/-- A die; one the table does not list is as after reset. -/
def State.die (s : State) (d : Nat) : Die := s.dies.get Die.init d

/-- Change a die. -/
def State.updDie (s : State) (d : Nat) (f : Die → Die) : State := { s with dies := s.dies.set Die.init d (f (s.die d)) }

/-- The core of a team (R13). -/
def Team.core (t : Team) : Nat := 4 * t.cluster + t.pos

/-- The die of a team (R13). -/
def Team.die (t : Team) : Nat := t.cluster / 50

/-- Draw a number for a free value. -/
def State.drawn (s : State) : State := { s with tick := s.tick + 1 }

/-- Take lanes out of the PC sets. -/
def pcsRemove (m : Mask) : List (PC × Mask) → List (PC × Mask)
  | [] => []
  | (p, x) :: r => if x &&& ~~~m = 0#64 then pcsRemove m r else (p, x &&& ~~~m) :: pcsRemove m r

/-- Lanes come to stand at a PC; the sets stay in increasing order of PC (R111). -/
def pcsAdd (p : PC) (m : Mask) : List (PC × Mask) → List (PC × Mask)
  | [] => [(p, m)]
  | (q, x) :: r =>
    if p = q then (q, x ||| m) :: r
    else if p.toNat < q.toNat then (p, m) :: (q, x) :: r
    else (q, x) :: pcsAdd p m r

/-- The lanes of a set go to their next PCs; a lane without one leaves (R109, R171). -/
def pcsMove (set : Mask) (next : Nat → Option PC) (pcs : List (PC × Mask)) : List (PC × Mask) :=
  (lanesOf set).foldl
    (fun acc l => match next l with
      | some p => pcsAdd p (laneBit l) acc
      | none => acc)
    (pcsRemove set pcs)

/-- The PC a lane stands at. -/
def pcOfLane (pcs : List (PC × Mask)) (l : Nat) : PC :=
  match pcs.find? fun e => hasLane e.2 l with
  | some e => e.1
  | none => 0

/-- The live non-helper lanes of a wave. -/
def Wave.counted (w : Wave) : Mask := w.live &&& ~~~w.helper

/-- What register number a field reaches: hidden registers in a handler (R392), else an allocation register (R95). -/
def Wave.phys (w : Wave) (n : Nat) : PReg :=
  match w.level with
  | .s => if n < 16 then ⟨true, n⟩ else ⟨false, n - 16⟩
  | _ => ⟨false, n + w.base⟩

/-- A register of a lane; at or above the allocation it reads 0 (R392). -/
def Wave.read (w : Wave) (p : PReg) (l : Nat) : Word :=
  if p.hidden then w.hidden.get 0 (64 * p.n + l)
  else if p.n < w.alloc then w.regs.get 0 (64 * p.n + l) else 0

/-- Write a register of a lane; at or above the allocation the write is discarded (R392). -/
def Wave.write (w : Wave) (p : PReg) (l : Nat) (v : Word) : Wave :=
  if p.hidden then { w with hidden := w.hidden.set 0 (64 * p.n + l) v }
  else if p.n < w.alloc then { w with regs := w.regs.set 0 (64 * p.n + l) v } else w

/-- Whether a result belongs to an instruction issued before the open region's waymark (R122). -/
def Wave.older (w : Wave) (o : Outst) : Bool :=
  match w.region with
  | some r => decide (o.seq < r.seq)
  | none => false

/-- A later write takes the place of results still to return in that register and lane; their flags still come (R121,
R148). A result from before the open region's waymark still belongs in the register's copy (R122, R341).
Log entry 16, DEDUCED. -/
def Wave.supersede (w : Wave) (p : PReg) (l : Nat) : Wave :=
  { w with outst := w.outst.map fun o =>
      if o.dst = some p ∧ o.lane = l then (if w.older o then { o with toReg := false } else { o with dst := none }) else o }

/-- Write lanes of a register: values by lane, in the lanes of a set. -/
def Wave.writeLanes (w : Wave) (p : PReg) (set : Mask) (f : Nat → Word) : Wave :=
  (lanesOf set).foldl (fun w l => (w.supersede p l).write p l (f l)) w

/-- The values of a register in all lanes, as shadow storage keeps them (R336). -/
def Wave.regLanes (w : Wave) (n : Nat) : Tbl Word :=
  (w.regs.filter fun e => e.1 / 64 = n).map fun e => (e.1 % 64, e.2)

/-- Put back a register's values in all lanes. -/
def Wave.putLanes (w : Wave) (n : Nat) (vals : Tbl Word) : Wave :=
  { w with regs := (List.range 64).foldl (fun r l => r.set 0 (64 * n + l) (vals.get 0 l)) w.regs }

/-- The registers a write in the open region would have to copy first (R336). -/
def Wave.toShadow (w : Wave) (ps : List PReg) : List Nat :=
  match w.region with
  | none => []
  | some r => ((ps.filter fun p => !p.hidden).map (·.n)).filter fun n => (r.shadow.get? n).isNone

/-- Copy registers to shadow storage before their first write in the region (R336). -/
def Wave.shadowed (w : Wave) (ps : List PReg) : Wave :=
  match w.region with
  | none => w
  | some r =>
    { w with region := some { r with
        shadow := (w.toShadow ps).foldl (fun t n => t.put n (w.regLanes n)) r.shadow } }

/-- Whether shadow storage has room for the registers (R336: 64 registers). -/
def Wave.shadowRoom (w : Wave) (ps : List PReg) : Bool :=
  match w.region with
  | none => true
  | some r => decide (r.shadow.length + (w.toShadow ps).length ≤ 64)

/-- Whether the wave has something unperformed: a store-buffer entry, an atomic or a remote access (R342). -/
def Wave.unperformed (w : Wave) : Bool := !w.sbuf.isEmpty || w.irrev.isSome || w.spilling.isSome

/-- Add words to the read set of the open region (R337). -/
def Wave.addReads (w : Wave) (ls : List Loc) : Wave :=
  match w.region with
  | none => w
  | some r => { w with region := some { r with reads := r.reads ++ ls.filter fun x => !r.reads.contains x } }

/-- Whether the wave's open region has read one of the words (R337). -/
def Wave.hasRead (w : Wave) (ls : List Loc) : Bool :=
  match w.region with
  | none => false
  | some r => ls.any r.reads.contains

/-- The copy of a register takes a result from before the waymark. Log entry 16, DEDUCED. -/
def Wave.landShadow (w : Wave) (o : Outst) (p : PReg) : Wave :=
  match w.region with
  | none => w
  | some r =>
    match r.shadow.get? p.n with
    | some vals => if w.older o ∧ !p.hidden then
        { w with region := some { r with shadow := r.shadow.put p.n (vals.set 0 o.lane o.val) } } else w
    | none => w

/-- A result's flags, also for the registers a rollback would restore (R148, R149). Log entry 16, DEDUCED. -/
def Wave.landFlags (w : Wave) (o : Outst) : Wave :=
  { w with
    fflags := w.fflags ||| o.flags
    region := w.region.map fun r => if w.older o then { r with fflags := r.fflags ||| o.flags } else r }

/-- What a result that returns leaves of another one still to come for the same register and lane: an earlier
instruction's no longer reaches the register (R121). -/
def Wave.outrun (w : Wave) (o x : Outst) : Outst :=
  if x.dst = o.dst ∧ x.lane = o.lane ∧ x.seq < o.seq then
    (if w.older x ∧ !w.older o then { x with toReg := false } else { x with dst := none })
  else x

/-- A class V result returns (R121). Log entry 16, DEDUCED. -/
def Wave.land (w : Wave) (o : Outst) : Wave :=
  let left := (w.outst.filter fun x => x ≠ o).map (w.outrun o)
  let w := { w with outst := left }.landFlags o
  match o.dst with
  | none => w
  | some p =>
    let w := w.landShadow o p
    if o.toReg then w.write p o.lane o.val else w

/-- Give a waiting result its value (R259, R234). -/
def Wave.answer (w : Wave) (seq lane : Nat) (vals : List Word) : Wave :=
  { w with outst := w.outst.map fun o =>
      if o.seq = seq ∧ o.lane = lane ∧ !o.ready then { o with val := vals.getD o.idx 0, ready := true } else o }

/-- The owner of a team's launch, its page-table root and keys. -/
def State.ownerOf (s : State) (t : Team) : Option Owner := s.owners.get? t.owner

/-- Wave identifier of a wave of a team. -/
def widOf (tid idx : Nat) : Nat := 16 * tid + idx

/-- The waves of a team, with their identifiers. -/
def State.teamWaves (s : State) (tid : Nat) : List (Nat × Wave) := s.waves.filter fun e => e.2.tid = tid

/-- The teams of a launch. -/
def State.launchTeams (s : State) (lid : Nat) : List (Nat × Team) := s.teams.filter fun e => e.2.lid = lid

/-- $launch (R130) of a launch: queue number and sequence number mod 2^26. -/
def Launch.short (l : Launch) : Nat := l.queue * 2 ^ 26 + l.seq % 2 ^ 26

/-- The launch identifier (R54). -/
def Launch.ident (l : Launch) : Nat := l.queue * 2 ^ 56 + l.seq

/-- Count on a core's performance counter (R416). -/
def State.count (s : State) (c k : Nat) : State :=
  s.updCore c fun x => { x with perf := x.perf.set 0 k ((x.perf.get 0 k + 1) % 2 ^ 32) }

end Sys2Proof.Machine
end

