-- ==== Sys2Proof/Machine/Flags.lean ====
section
/-! DEFINITION. $fflags, $fpmode and the stochastic generator (R144, R145, R147, R148). -/

namespace Sys2Proof.Machine

/-- Floating-point and conversion flags raised by one element (R147). -/
structure FpFlags where
  clamp : Bool := false
  nonfinite : Bool := false
  underscale : Bool := false
  nv : Bool := false
  dz : Bool := false
  of : Bool := false
  uf : Bool := false
  nx : Bool := false
  deriving DecidableEq, Repr

/-- No flag. -/
def FpFlags.none : FpFlags := {}

/-- The flags of two elements together. -/
def FpFlags.or (a b : FpFlags) : FpFlags where
  clamp := a.clamp || b.clamp
  nonfinite := a.nonfinite || b.nonfinite
  underscale := a.underscale || b.underscale
  nv := a.nv || b.nv
  dz := a.dz || b.dz
  of := a.of || b.of
  uf := a.uf || b.uf
  nx := a.nx || b.nx

/-- One bit of $fflags. -/
def flagBit (b : Bool) (n : Nat) : Nat := if b then 2 ^ n else 0

/-- Flags at their places in $fflags (R147). -/
def FpFlags.word (f : FpFlags) : Word :=
  BitVec.ofNat 32 (flagBit f.clamp 7 + flagBit f.nonfinite 6 + flagBit f.underscale 5 + flagBit f.nv 4 + flagBit f.dz 3 +
    flagBit f.of 2 + flagBit f.uf 1 + flagBit f.nx 0)

/-- Raise flags in the wave's sticky register (R148). -/
def Wave.orFlags (w : Wave) (f : Word) : Wave := { w with fflags := w.fflags ||| f }

/-- Rounding modes (R139, R145). -/
inductive Rm where
  | rne | rtz | rdn | rup | rna | stoch
  deriving DecidableEq, Repr

/-- A rounding mode's code; 6 and 7 are invalid. -/
def Rm.ofCode : Nat → Option Rm
  | 0 => some .rne
  | 1 => some .rtz
  | 2 => some .rdn
  | 3 => some .rup
  | 4 => some .rna
  | 5 => some .stoch
  | _ => none

/-- $fpmode.RM (R145). -/
def Wave.rm (w : Wave) : Rm := (Rm.ofCode (w.fpmode.toNat % 8)).getD .rne

/-- $fpmode.FTZ (R145). -/
def Wave.ftz (w : Wave) : Bool := w.fpmode.getLsbD 3

/-- $fpmode after a write (R145): RM 6 and 7 leave RM, bits [31:4] are ignored. -/
def fpmodeWrite (old v : Word) : Word :=
  let rm := if (Rm.ofCode (v.toNat % 8)).isNone then old.toNat % 8 else v.toNat % 8
  BitVec.ofNat 32 (v.toNat % 16 / 8 * 8 + rm)

/-- One step of the generator (R144). Log entry 9, DEDUCED. -/
def seedStep (seed : Word) : Word :=
  let s := if seed = 0 then 0x9E3779B9#32 else seed
  let s := s ^^^ (s <<< 13)
  let s := s ^^^ (s >>> 17)
  s ^^^ (s <<< 5)

/-- The 24-bit random number of lane l and element j after a step (R144). -/
def stochBits (seed : Word) (l j : Nat) : Nat :=
  let x := seed ^^^ BitVec.ofNat 32 (l * 0x9E3779B9) ^^^ BitVec.ofNat 32 (j * 0x85EBCA6B)
  let x := x ^^^ (x >>> 16)
  let x := x * 0x7FEB352D#32
  let x := x ^^^ (x >>> 15)
  let x := x * 0x846CA68B#32
  let x := x ^^^ (x >>> 16)
  (x >>> 8).toNat

end Sys2Proof.Machine
end

