-- ==== Sys2Proof/Machine/Num.lean ====
section
/-! DEFINITION. Number formats (R132 to R139), exact values, and rounding (R141 to R144). -/

namespace Sys2Proof.Machine

/-- A magnitude n ÷ d with d positive. -/
structure Mag where
  n : Nat
  d : Nat
  deriving DecidableEq, Repr

/-- A magnitude times 2^k. -/
def Mag.scale (x : Mag) (k : Int) : Mag :=
  if 0 ≤ k then ⟨x.n * 2 ^ k.toNat, x.d⟩ else ⟨x.n, x.d * 2 ^ (-k).toNat⟩

/-- Product of magnitudes. -/
def Mag.mul (x y : Mag) : Mag := ⟨x.n * y.n, x.d * y.d⟩

/-- Whether one magnitude is below another. -/
def Mag.lt (x y : Mag) : Bool := decide (x.n * y.d < y.n * x.d)

/-- Whether one magnitude is at or below another. -/
def Mag.le (x y : Mag) : Bool := decide (x.n * y.d ≤ y.n * x.d)

/-- The floor of the base 2 logarithm of a positive magnitude. -/
def Mag.log2 (x : Mag) : Int :=
  let e : Int := (Nat.log2 x.n : Int) - (Nat.log2 x.d : Int)
  if (Mag.le (Mag.scale ⟨1, 1⟩ e) x) then e else e - 1

/-- An exact value: a NaN (signalling or quiet), an infinity, or a signed real with signed zeros. -/
inductive Num where
  | nan (signalling : Bool)
  | inf (neg : Bool)
  | fin (neg : Bool) (m : Mag)
  deriving DecidableEq, Repr

/-- Plus zero. -/
def Num.zero : Num := .fin false ⟨0, 1⟩

/-- A value with its sign reversed. -/
def Num.neg : Num → Num
  | .nan q => .nan q
  | .inf n => .inf !n
  | .fin n m => .fin (!n) m

/-- The sign of a value; a NaN has none. -/
def Num.isNeg : Num → Bool
  | .nan _ => false
  | .inf n => n
  | .fin n _ => n

/-- Whether a value is a signalling NaN. -/
def Num.signals : Num → Bool
  | .nan q => q
  | _ => false

/-- Whether a value is a NaN. -/
def Num.isNan : Num → Bool
  | .nan _ => true
  | _ => false

/-- Whether a value is a zero. -/
def Num.isZero : Num → Bool
  | .fin _ m => m.n == 0
  | _ => false

/-- Whether a value is infinite. -/
def Num.isInf : Num → Bool
  | .inf _ => true
  | _ => false

/-- Kinds of a format half (R139) with the fields that shape them. -/
inductive Kind where
  | fp32 | fp16 | bf16
  | b8 (p : Nat) (inf : Bool)
  | u8 (p : Nat) (inf : Bool)
  | int8 | uint8 | int16 | int32
  deriving DecidableEq, Repr

/-- A decoded format half (R139). -/
structure Half where
  kind : Kind
  rm : Rm
  sat : Bool
  blk : Nat
  deriving DecidableEq, Repr

/-- The shape of a floating-point format: exponent and trailing bits, bias, sign bit, greatest finite magnitude code,
the code of +∞ if it has infinities, its canonical NaN (R132, R134, R135). -/
structure Shape2 where
  e : Nat
  t : Nat
  bias : Nat
  signed : Bool
  maxCode : Nat
  infCode : Option Nat
  nanCode : Nat
  deriving DecidableEq, Repr

/-- The shape of a kind; integers have none. -/
def Kind.shape : Kind → Option Shape2
  | .fp32 => some ⟨8, 23, 127, true, 0x7F7FFFFF, some 0x7F800000, 0x7FC00000⟩
  | .fp16 => some ⟨5, 10, 15, true, 0x7BFF, some 0x7C00, 0x7E00⟩
  | .bf16 => some ⟨8, 7, 127, true, 0x7F7F, some 0x7F80, 0x7FC0⟩
  | .b8 p i => some ⟨8 - p, p - 1, 2 ^ (7 - p), true, if i then 0x7E else 0x7F, if i then some 0x7F else none, 0x80⟩
  | .u8 p i => some ⟨9 - p, p - 1, 2 ^ (8 - p), false, if i then 0xFD else 0xFE, if i then some 0xFE else none, 0xFF⟩
  | _ => none

/-- Bits of a kind's code. -/
def Kind.bits : Kind → Nat
  | .fp32 => 32
  | .int32 => 32
  | .fp16 => 16
  | .bf16 => 16
  | .int16 => 16
  | _ => 8

/-- Whether a kind is one of the binary8 family. -/
def Kind.is8 : Kind → Bool
  | .b8 _ _ => true
  | .u8 _ _ => true
  | _ => false

/-- The range of an integer kind (R133). -/
def Kind.range : Kind → Int × Int
  | .int8 => (-128, 127)
  | .uint8 => (0, 255)
  | .int16 => (-32768, 32767)
  | _ => (-2147483648, 2147483647)

/-- The exponent of the smallest normal. -/
def Shape2.emin (f : Shape2) : Int := 1 - (f.bias : Int)

/-- The magnitude a magnitude code stands for (R134 steps 4 and 5). -/
def Shape2.value (f : Shape2) (c : Nat) : Mag :=
  let e := c / 2 ^ f.t
  let m := c % 2 ^ f.t
  if e = 0 then Mag.scale ⟨m, 1⟩ (f.emin - f.t) else Mag.scale ⟨2 ^ f.t + m, 1⟩ ((e : Int) - f.bias - f.t)

/-- The value of a floating-point code (R132, R134, R135). -/
def Shape2.decode (f : Shape2) (is8 : Bool) (code : Nat) : Num :=
  if is8 ∧ code = f.nanCode then .nan false
  else
    let neg := f.signed && decide (2 ^ (f.e + f.t) ≤ code)
    let c := if f.signed then code % 2 ^ (f.e + f.t) else code
    if some c = f.infCode then .inf neg
    else if !is8 ∧ f.maxCode < c then .nan (!c.testBit (f.t - 1))
    else .fin neg (f.value c)

/-- The value of a code of a kind; only the kind's low bits are read (R188). -/
def Kind.decode (k : Kind) (w : Nat) : Num :=
  let c := w % 2 ^ k.bits
  match k.shape with
  | some f => f.decode k.is8 c
  | none =>
    let i : Int := match k with
      | .uint8 => c
      | _ => signOf k.bits c
    .fin (decide (i < 0)) ⟨i.natAbs, 1⟩

/-- Rounding of n ÷ d to an integer: the sign decides the directed modes, u the stochastic one (R141 step 3, R144). A tie
under RNE goes to the neighbour that is even beside `lead`, the lower part of the result's code. Log entry 71, DEDUCED. -/
def roundNat (rm : Rm) (neg : Bool) (u n d : Nat) (lead : Nat := 0) : Nat :=
  let q := n / d
  let r := n % d
  let up := match rm with
    | .rne => decide (d < 2 * r) || (2 * r == d && (lead + q) % 2 == 1)
    | .rtz => false
    | .rdn => neg && r != 0
    | .rup => !neg && r != 0
    | .rna => decide (d ≤ 2 * r)
    | .stoch => r != 0 && decide (u < r * 2 ^ 24 / d)
  if up then q + 1 else q

/-- A result code with its flags. -/
structure Coded where
  code : Nat
  flags : FpFlags
  deriving DecidableEq, Repr

/-- The code of ±∞, or NaN in a format without infinities (R141 step 5). -/
def Shape2.infOrNan (f : Shape2) (neg : Bool) : Nat :=
  match f.infCode with
  | some c => if neg then c + 2 ^ (f.e + f.t) else c
  | none => f.nanCode

/-- ± the largest finite value (R141). -/
def Shape2.largest (f : Shape2) (neg : Bool) : Nat := if neg then f.maxCode + 2 ^ (f.e + f.t) else f.maxCode

/-- round(fmt, rm, x) for a floating-point format (R141). Log entry 71, DEDUCED. -/
def Shape2.round (f : Shape2) (is8 sat : Bool) (rm : Rm) (u : Nat) (x : Num) : Coded :=
  match x with
  | .nan q => ⟨f.nanCode, { nv := q }⟩
  | .inf neg =>
    if neg ∧ !f.signed then (if sat then ⟨0, {}⟩ else ⟨f.nanCode, { nv := true }⟩)
    else if sat then ⟨f.largest neg, {}⟩
    else if f.infCode.isSome then ⟨f.infOrNan neg, {}⟩
    else ⟨f.nanCode, { nv := true }⟩
  | .fin neg m =>
    if m.n = 0 then ⟨if is8 ∨ !neg then 0 else 2 ^ (f.e + f.t), {}⟩
    else
      let tiny := Mag.lt m (Mag.scale ⟨1, 1⟩ f.emin)
      let ex := if tiny then f.emin else m.log2
      let y := m.scale ((f.t : Int) - ex)
      let lead := (ex - f.emin).toNat * 2 ^ f.t
      let q := roundNat rm neg u y.n y.d lead
      let nx := y.n % y.d != 0
      let c := lead + q
      let uf := tiny && nx
      if neg ∧ !f.signed ∧ q ≠ 0 then ⟨if sat then 0 else f.nanCode, { nv := !sat, nx := nx, uf := uf }⟩
      else if f.maxCode < c then
        let keep := sat || rm == .rtz || (rm == .rdn && !neg) || (rm == .rup && neg)
        ⟨if keep then f.largest neg else f.infOrNan neg, { of := true, nx := true, uf := uf }⟩
      else if q = 0 then ⟨if is8 ∨ !neg then 0 else 2 ^ (f.e + f.t), { nx := nx, uf := uf }⟩
      else ⟨if neg then c + 2 ^ (f.e + f.t) else c, { nx := nx, uf := uf }⟩

/-- Rounding to an integer kind (R142). -/
def Kind.roundInt (k : Kind) (rm : Rm) (u : Nat) (x : Num) : Coded :=
  let (lo, hi) := k.range
  match x with
  | .nan _ => ⟨0, { nv := true }⟩
  | .inf neg => ⟨unsignOf k.bits (if neg then lo else hi), { clamp := true }⟩
  | .fin neg m =>
    let q : Int := roundNat rm neg u m.n m.d
    let v := if neg then -q else q
    let nx := m.n % m.d != 0
    if v < lo then ⟨unsignOf k.bits lo, { clamp := true, nx := nx }⟩
    else if hi < v then ⟨unsignOf k.bits hi, { clamp := true, nx := nx }⟩
    else ⟨unsignOf k.bits v, { nx := nx }⟩

/-- round(fmt, rm, x) of R141 or R142, to a code of the kind's width. -/
def Kind.round (k : Kind) (sat : Bool) (rm : Rm) (u : Nat) (x : Num) : Coded :=
  match k.shape with
  | some f => f.round k.is8 sat rm u x
  | none => k.roundInt rm u x

/-- A code in a 32-bit register: INT8 and INT16 sign-extended, others zero-extended (R188). -/
def Kind.toWord (k : Kind) (code : Nat) : Word :=
  match k with
  | .int8 => BitVec.ofInt 32 (signOf 8 code)
  | .int16 => BitVec.ofInt 32 (signOf 16 code)
  | _ => BitVec.ofNat 32 code

/-- The exact sum; an exact zero of opposite signs is −0 under RDN, +0 otherwise (R180). -/
def Num.add (rm : Rm) (x y : Num) : Num × Bool :=
  match x, y with
  | .nan a, .nan b => (.nan false, a || b)
  | .nan a, _ => (.nan false, a)
  | _, .nan b => (.nan false, b)
  | .inf a, .inf b => if a = b then (.inf a, false) else (.nan false, true)
  | .inf a, _ => (.inf a, false)
  | _, .inf b => (.inf b, false)
  | .fin a m, .fin b n =>
    let v : Int := (if a then -(m.n * n.d : Int) else m.n * n.d) + (if b then -(n.n * m.d : Int) else n.n * m.d)
    if v = 0 then (.fin (if a = b then a else rm == .rdn) ⟨0, 1⟩, false)
    else (.fin (decide (v < 0)) ⟨v.natAbs, m.d * n.d⟩, false)

/-- The exact product, and whether it is an invalid operation (R180). -/
def Num.mul (x y : Num) : Num × Bool :=
  match x, y with
  | .nan a, .nan b => (.nan false, a || b)
  | .nan a, _ => (.nan false, a)
  | _, .nan b => (.nan false, b)
  | .inf a, .inf b => (.inf (a != b), false)
  | .inf a, .fin b m => if m.n = 0 then (.nan false, true) else (.inf (a != b), false)
  | .fin a m, .inf b => if m.n = 0 then (.nan false, true) else (.inf (a != b), false)
  | .fin a m, .fin b n => (.fin (a != b) (m.mul n), false)

/-- x × y + z with no rounding in between; 0 × ∞ is invalid even beside a quiet NaN (R181). -/
def Num.fma (rm : Rm) (x y z : Num) : Num × Bool :=
  let (p, i) := x.mul y
  let (s, j) := p.add rm z
  (s, i || j || z.signals)

/-- The order of two values that are no NaNs: −1, 0 or 1, the zeros equal. -/
def Num.cmp (x y : Num) : Int :=
  match x, y with
  | .inf a, .inf b => if a = b then 0 else if a then -1 else 1
  | .inf a, _ => if a then -1 else 1
  | _, .inf b => if b then 1 else -1
  | .fin a m, .fin b n =>
    let v : Int := (if a then -(m.n * n.d : Int) else m.n * n.d) - (if b then -(n.n * m.d : Int) else n.n * m.d)
    if v < 0 then -1 else if v = 0 then 0 else 1
  | _, _ => 0

/-- The FP32 value of a register. -/
def f32 (w : Word) : Num := Kind.fp32.decode w.toNat

/-- A subnormal FP32 code. -/
def isSub32 (w : Word) : Bool := w.toNat % 2 ^ 31 / 2 ^ 23 == 0 && w.toNat % 2 ^ 23 != 0

/-- An FP32 operand under FTZ (R180): a subnormal becomes a zero of its sign. -/
def flush (ftz : Bool) (w : Word) : Word := if ftz ∧ isSub32 w then w &&& 0x80000000#32 else w

/-- round(fp32, rm, x) with FTZ on the result (R146, R180); `nv` is the operation's own invalid flag. -/
def round32 (rm : Rm) (ftz : Bool) (u : Nat) (x : Num) (nv : Bool) : Word × FpFlags :=
  let r := Kind.fp32.round false rm u x
  let w := BitVec.ofNat 32 r.code
  if ftz ∧ isSub32 w then (w &&& 0x80000000#32, { r.flags with uf := true, nx := true, nv := r.flags.nv || nv })
  else (w, { r.flags with nv := r.flags.nv || nv })

/-- round(fp32, rne, x), subnormals kept, as engines and the array use it. -/
def rne32 (x : Num) : Word := (round32 .rne false 0 x false).1

/-- A format half (R139, R140): none when the half itself fails a check of R140. -/
def Half.ofBits (h : Nat) : Option Half :=
  let kind := h % 16
  let p := bitsOf h 6 4
  let inf := h.testBit 7
  let rm := Rm.ofCode (bitsOf h 10 8)
  let sat := h.testBit 11
  let blk := bitsOf h 13 12
  if 2 ^ 14 ≤ h % 2 ^ 16 then none
  else
    match rm with
    | none => none
    | some rm =>
      let plain := p == 0 && !inf
      let k : Option Kind := match kind with
        | 0 => if plain then some .fp32 else none
        | 1 => if plain then some .fp16 else none
        | 2 => if plain then some .bf16 else none
        | 3 => if p = 0 then none else some (.b8 p inf)
        | 4 => if p = 0 then none else some (.u8 p inf)
        | 5 => if plain then some .int8 else none
        | 6 => if plain then some .uint8 else none
        | 7 => if plain then some .int16 else none
        | 8 => if plain then some .int32 else none
        | _ => none
      match k with
      | none => none
      | some k =>
        if blk ≠ 0 ∧ !(k.is8 ∨ k = .int8 ∨ k = .uint8) then none else some ⟨k, rm, sat, blk⟩

/-- The KIND code of a kind (R139). -/
def Kind.code : Kind → Nat
  | .fp32 => 0
  | .fp16 => 1
  | .bf16 => 2
  | .b8 _ _ => 3
  | .u8 _ _ => 4
  | .int8 => 5
  | .uint8 => 6
  | .int16 => 7
  | .int32 => 8

/-- emax of a kind (R136): floor of log2 of the largest finite value. -/
def Kind.emax (k : Kind) : Int :=
  match k.shape with
  | some f => (f.value f.maxCode).log2
  | none => (Mag.mk (k.range.2.natAbs) 1).log2

/-- The NaN code of a quantiser destination, 0 for the integer kinds (R151). -/
def Kind.nanOr0 (k : Kind) : Nat :=
  match k.shape with
  | some f => f.nanCode
  | none => 0

/-- minimumNumber or maximumNumber on codes: canonical NaN, decoded values, the codes (R182). -/
def minMaxNum (max : Bool) (canon x y : Nat) (p q : Num) : Nat × FpFlags :=
  let before : Bool :=
    if p.cmp q = 0 then p.isNeg || !q.isNeg else decide (p.cmp q < 0)
  let r := if p.isNan ∧ q.isNan then canon
    else if p.isNan then y
    else if q.isNan then x
    else if before != max then x else y
  (r, { nv := p.signals || q.signals })

/-- FMIN and FMAX of two registers under FTZ (R182). -/
def minMax32 (max ftz : Bool) (a b : Word) : Word × FpFlags :=
  let x := flush ftz a
  let y := flush ftz b
  let r := minMaxNum max 0x7FC00000 x.toNat y.toNat (f32 x) (f32 y)
  (BitVec.ofNat 32 r.1, r.2)

/-- Half h of a register (R187). -/
def half (w : Word) (h : Nat) : Nat := w.toNat / 2 ^ (16 * h) % 65536

end Sys2Proof.Machine
end

