-- ==== Sys2Proof/Machine/Trans.lean ====
section
/-! DEFINITION. Translation: page tables (R210 to R213), held translations (R216 to R218), leases (R236) and the checks
of R214 and R223. -/

namespace Sys2Proof.Machine

/-- How a translation ends (R213, R223, R236). -/
inductive Xlat where
  | ok (t : Trans)
  | pageFault
  | moving
  | violation (v : ViolCause)
  deriving DecidableEq, Repr

/-- The lowest index bit of a level (R210), and so the log2 size of a page mapped there. -/
def levelBits : Nat → Nat
  | 1 => 48
  | 2 => 37
  | 3 => 26
  | _ => 16

/-- The index of an address at a level (R210). -/
def levelIndex (level va : Nat) : Nat :=
  match level with
  | 1 => bitsOf va 56 48
  | 2 => bitsOf va 47 37
  | 3 => bitsOf va 36 26
  | _ => bitsOf va 25 16

/-- The size of a level's table (R210). -/
def tableSize : Nat → Nat
  | 1 => 8192
  | 2 => 32768
  | 3 => 32768
  | _ => 16384

/-- The fields of an entry read as a leaf (R211). -/
def Leaf.ofEntry (e : Nat) : Leaf where
  frame := bitsOf e 103 60
  dev := bitsOf e 127 108
  key := bitsOf e 47 41
  tier := bitsOf e 40 38
  moving := e.testBit 37
  ace := e.testBit 36
  sonly := e.testBit 7
  x := e.testBit 6
  w := e.testBit 5
  r := e.testBit 4

/-- The first byte of a leaf's page. -/
def Leaf.pa (l : Leaf) : Nat := l.frame * 4096

/-- The reserved bits of an entry (R211), DEVICE aside. -/
def entryReserved (e : Nat) : Bool :=
  bitsOf e 107 104 != 0 || bitsOf e 59 48 != 0 || bitsOf e 35 8 != 0 || bitsOf e 3 2 != 0

/-- Whether a pointer entry at a level is well formed (R213). -/
def pointerOk (level e : Nat) : Bool :=
  let l := Leaf.ofEntry e
  !entryReserved e && bitsOf e 127 104 == 0 && bitsOf e 59 1 == 0 && level != 4 &&
    decide (l.pa + tableSize (level + 1) ≤ hbmEnd) && l.pa % tableSize (level + 1) == 0

/-- Whether a leaf at a level keeps R212 and R213 for an owner. -/
def leafOk (deviceId : Nat) (o : Owner) (level e : Nat) : Bool :=
  let l := Leaf.ofEntry e
  let size := 2 ^ levelBits level
  !entryReserved e && level != 1 && l.pa % size == 0 && (l.ace → l.tier = 1) && o.grant.contains l.key &&
    match l.tier with
    | 0 => l.dev == 0 && decide (l.pa + size ≤ hbmEnd)
    | 1 => l.dev == 0 && decide (hbmEnd ≤ l.pa) && decide (l.pa + size ≤ capEnd)
    | 2 => l.pa < 2 ^ 44 && l.dev != deviceId
    | 3 => l.dev == 0
    | 4 => l.dev == 0
    | _ => false

/-- Whether a leaf may be used on this module now: where the port has trained as a PCIe endpoint, TIER 3 is unavailable (R239).
Log entry 81, DESIGN CHOICE. -/
def State.leafLegal (s : State) (o : Owner) (level e : Nat) : Bool :=
  leafOk s.deviceId o level e && !(s.hk.pcieOnly && (Leaf.ofEntry e).tier == 3)

/-- The entry of an address in a table of a level, and where it lies (R210). Tables are read under the owner's key. -/
def State.entryAt (s : State) (o : Owner) (level table va : Nat) : Nat :=
  leValue (s.bytesAt .dev o.key (table + 16 * levelIndex level va) 16)

/-- The index path of an address down to a level, which tags a held pointer (R216). -/
def pathOf (level va : Nat) : Nat := va / 2 ^ levelBits level

/-- The table a held pointer of the die gives for an address below a level, deepest level first (R216). -/
def Die.pointer (d : Die) (owner va : Nat) : Option (Nat × Nat) :=
  let held (lv : Nat) := d.walk.find? fun e => e.owner = owner && e.level = lv && e.path = pathOf lv va
  match held 3, held 2, held 1 with
  | some e, _, _ => some (4, e.table)
  | none, some e, _ => some (3, e.table)
  | none, none, some e => some (2, e.table)
  | none, none, none => none

/-- Walk from a table of a level (R213). The pointers met are collected for the walk cache (R216). -/
def State.walkFrom (s : State) (own : Nat) (o : Owner) (va : Nat) :
    (fuel level table : Nat) → List WalkEnt → Xlat × List WalkEnt
  | 0, _, _, ps => (.pageFault, ps)
  | fuel + 1, level, table, ps =>
    let e := s.entryAt o level table va
    if !e.testBit 0 then (.pageFault, ps)
    else if e.testBit 1 then
      if s.leafLegal o level e then
        let l := Leaf.ofEntry e
        let bits := levelBits level
        if l.tier = 2 then
          -- a peer leaf is held as 64 KiB pieces (R236)
          let off := va % 2 ^ bits / 65536 * 65536
          (.ok ⟨own, va / 65536, 16, { l with frame := (l.pa + off) / 4096 }⟩, ps)
        else (.ok ⟨own, va / 2 ^ bits, bits, l⟩, ps)
      else (.violation .malformed, ps)
    else if pointerOk level e then
      let t := (Leaf.ofEntry e).pa
      s.walkFrom own o va fuel (level + 1) t (⟨own, level, pathOf level va, t⟩ :: ps)
    else (.violation .malformed, ps)

/-- A walk, from the deepest pointer the die holds (R215, R216). -/
def State.walk (s : State) (die own : Nat) (o : Owner) (va : Nat) : Xlat × List WalkEnt :=
  match (s.die die).pointer own va with
  | some (level, table) => s.walkFrom own o va 4 level table []
  | none => s.walkFrom own o va 4 1 o.root []

/-- Whether a held translation maps an address for an owner. -/
def Trans.maps (t : Trans) (own va : Nat) : Bool := t.owner == own && t.page == va / 2 ^ t.bits

/-- The 64 KiB page of a peer translation, as leases name it (R236). -/
def Trans.leasePage (t : Trans) : Nat := t.leaf.dev * 2 ^ 28 + t.leaf.pa / 65536

/-- A peer's answer to a lease request: granted, or refused with "moving" (R238). It is the peer's to give.
Log entry 57, DESIGN CHOICE. -/
def State.leaseRefused (s : State) (t : Trans) : Bool := Config.freeBit s.tick 1 t.leasePage

/-- What a walk's result becomes for a peer page the die holds no lease on (R236, R238). -/
def State.leased (s : State) (die : Nat) : Xlat → Xlat
  | .ok t =>
    if t.leaf.tier = 2 ∧ !(s.die die).leases.contains t.leasePage ∧ s.leaseRefused t then .moving else .ok t
  | x => x

/-- The translation of an address for a lane of a core: its last-page register, the core's TLB, else a walk (R217). -/
def State.xlate (s : State) (core die own lane va : Nat) : Xlat :=
  match ((s.core core).lastPage.get? lane).filter (·.maps own va) with
  | some t => .ok t
  | none =>
    match (s.core core).tlb.find? (·.maps own va) with
    | some t => .ok t
    | none =>
      match s.owners.get? own with
      | none => .pageFault
      | some o => s.leased die (s.walk die own o va).1

/-- Hold a translation in a list of at most 256, a full list losing one of its entries (R216). Log entry 55, DESIGN CHOICE. -/
def holdTrans (tick : Nat) (t : Trans) (l : List Trans) : List Trans :=
  if l.contains t then l
  else if l.length < 256 then t :: l
  else t :: l.eraseIdx (Config.freeNat tick 1 0 % 256)

/-- Hold pointer entries on a die, at most 4,096 (R216). Log entry 55, DESIGN CHOICE. -/
def holdWalk (tick : Nat) (ps l : List WalkEnt) : List WalkEnt :=
  ps.foldl (fun l p => if l.contains p then l
    else if l.length < 4096 then p :: l else p :: l.eraseIdx (Config.freeNat tick 2 0 % 4096)) l

/-- The holder's first step of R237: translations that rest on a lease are dropped on every core of the die, and the lease
with them. -/
def State.dropLease (s : State) (d page : Nat) : State :=
  let rests (t : Trans) : Bool := decide (t.leaf.tier = 2) && decide (t.leasePage = page)
  let clean (c : Core) : Core :=
    { c with tlb := c.tlb.filter fun t => !rests t, lastPage := c.lastPage.filter fun t => !rests t.2 }
  let s := { s with cores := s.cores.map fun (e : Nat × Core) => (e.1, if e.1 / 200 = d then clean e.2 else e.2) }
  s.updDie d fun x => { x with
    leases := x.leases.filter (· != page), recalls := page :: x.recalls.filter (· != page) }

/-- A die uses a lease, which then is its last used one; with 8,192 leases held the least recently used one goes first,
under R237 (R236). -/
def State.useLease (s : State) (d page : Nat) : State :=
  let ls := (s.die d).leases
  let s := if ls.contains page ∨ ls.length < 8192 then s
    else match ls.getLast? with
      | some old => s.dropLease d old
      | none => s
  s.updDie d fun x => { x with leases := page :: x.leases.filter (· != page) }

/-- The entries that a walk of an address reads, the last one first: of the table of a level it starts from, and of those whose
pointers it meets (R210, R213). -/
def entriesRead (va : Nat) (start : Nat × Nat) (ps : List WalkEnt) : List Nat :=
  (ps.map fun p => p.table + 16 * levelIndex (p.level + 1) va) ++ [start.2 + 16 * levelIndex start.1 va]

/-- The entries a walk of an address reads, as places of HBM4E, the last one first (R210, R213). -/
def State.walkReads (s : State) (die own : Nat) (o : Owner) (va : Nat) : List Nat :=
  entriesRead va (((s.die die).pointer own va).getD (1, o.root)) (s.walk die own o va).2

/-- The physical address a translation gives (R206, R212). -/
def Trans.phys (t : Trans) (va : Nat) : Phys :=
  let off := va % 2 ^ t.bits
  let l := t.leaf
  match l.tier with
  | 2 => ⟨.peer, l.dev * 2 ^ 44 + l.pa + off, l.key, 2, false⟩
  | 3 => ⟨.host, l.pa + off, l.key, 3, false⟩
  | 4 => ⟨.host, l.pa + off, l.key, 4, false⟩
  | k => ⟨.dev, l.pa + off, l.key, k, l.ace⟩

/-- Whether a leaf grants an access kind at a level (R214). -/
def Leaf.grants (l : Leaf) (k : AccKind) (lv : Level) : Bool :=
  (lv != .u || !l.sonly) &&
    match k with
    | .load => l.r
    | .engineRead => l.r
    | .store => l.w
    | .engineWrite => l.w
    | .atomic => l.r && l.w
    | .fetch => l.x
    | .walk => true

/-- How an access to a global virtual address ends: a physical address with its translation, or what stops it. -/
inductive Access where
  | ok (t : Trans) (p : Phys)
  | viol (v : Viol)
  | park (c : ParkCause)
  deriving DecidableEq, Repr

/-- The error response of a peer: it holds no key of the identifier (R235), or nothing lies at the address (R207). The
entry of the second names the global physical address (R206, R411). -/
def Trans.peerError (t : Trans) (k : AccKind) (va : Nat) : Option Viol :=
  if t.leaf.tier ≠ 2 then none
  else if !Config.peerHasKey t.leaf.dev t.leaf.key then some ⟨va, .keyAbsent, k, false⟩
  else if capEnd ≤ (t.phys va).addr % 2 ^ 44 then some ⟨(t.phys va).addr, .unusedRange, k, true⟩
  else none

/-- The checks of a translated access (R214, R223, R235, R207). Log entry 79, DESIGN CHOICE. -/
def Xlat.access (x : Xlat) (lv : Level) (k : AccKind) (va : Nat) : Access :=
  match x with
  | .ok t =>
    if !t.leaf.grants k lv then .viol ⟨va, .permission, k, false⟩
    else
      match t.peerError k va with
      | some v => .viol v
      | none => if t.leaf.moving then .park .migration else .ok t (t.phys va)
  | .pageFault => .park .page
  | .moving => .park .lease
  | .violation c => .viol ⟨va, c, .walk, false⟩

/-- Translate and check an access (R201, R213, R214, R223, R235). -/
def State.access (s : State) (core die own : Nat) (lv : Level) (k : AccKind) (lane va : Nat) : Access :=
  if va ≥ 2 ^ 57 then .viol ⟨va, .range, k, false⟩ else (s.xlate core die own lane va).access lv k va

/-- The front's and the rings' accesses through an owner's addresses: translated on the anchor die's side by a walk,
checked as level S, never waited for (R51, R57, R74). Log entry 76, DEDUCED. -/
def State.frontAccess (s : State) (own : Nat) (k : AccKind) (va : Nat) : Access :=
  if va ≥ 2 ^ 57 then .viol ⟨va, .range, k, false⟩
  else match s.owners.get? own with
    | none => .park .page
    | some o => (s.leased 16 (s.walkFrom own o va 4 1 o.root []).1).access .s k va

end Sys2Proof.Machine
end

