-- ==== Sys2Proof/Machine/Caches.lean ====
section
/-! DEFINITION. The caches and the directory (R208, R226, R329, R330): L2 slices, the lines the host-line agent holds (R240),
L1 sectors, instruction caches (R49, R101), and what an access leaves in them. -/

namespace Sys2Proof.Machine

/-- A home slice of a device line, as 64 × die + slice (R207 to R209). -/
def homeSlice (a : Nat) : Nat :=
  let x := if hbmEnd ≤ a then a - hbmEnd else a
  let die := if hbmEnd ≤ a then x / (192 * 2 ^ 30) else a / 2 ^ 37
  64 * die + (bitsOf x 12 7 ^^^ bitsOf x 18 13 ^^^ bitsOf x 24 19 ^^^ bitsOf x 30 25 ^^^ bitsOf x 36 31)

/-- A request reaches a capacity page's buffer: under ACE it is counted, and a page that crosses its owner's threshold is to
be posted (R220). -/
def State.countPage (s : State) (own key pa : Nat) : State :=
  let page := pa / 65536
  let n := min (s.accessCnt.get 0 page + 1) 65535
  let s := { s with accessCnt := s.accessCnt.set 0 page n }
  match s.owners.get? own with
  | none => s
  | some o =>
    if n < o.threshold ∨ (s.queuedPages.any fun e => e.2.1 = page) then s
    else { s with crossings := s.crossings ++ [⟨own, page, n, key⟩] }

/-- The Utino buffer of a capacity address (R209, R310): two per die of 192 GiB. -/
def bufferOf (a : Nat) : Nat := (a - hbmEnd) / (96 * 2 ^ 30)

/-- The rank of a capacity address on its buffer (R209). -/
def rankOf (a : Nat) : Nat := (a - hbmEnd) / 65536 % 4

/-- Whether a Utino buffer holds a key (R311). -/
def State.bufferHolds (s : State) (u key : Nat) : Bool := (s.bufKeys.get [] u).contains key

/-- A buffer uses a key: it becomes the most recently used of at most 16 (R311). -/
def State.useKey (s : State) (u key : Nat) : State :=
  { s with bufKeys := s.bufKeys.put u ((key :: (s.bufKeys.get [] u).filter (· != key)).take 16) }

/-- The act under way needs something it must wait for (R231, R311). Log entry 80, DEDUCED. -/
def State.need (s : State) (w : Want) : State := if s.wants.contains w then s else { s with wants := s.wants ++ [w] }

/-- A buffer reads or writes under a key: it uses one it holds, and needs another (R311). -/
def State.underKey (s : State) (u key : Nat) : State :=
  if s.bufferHolds u key then s.useKey u key else s.need (.key u key)

/-- A line's fill or write-back: on the capacity tier its buffer uses the key (R311) and may count it (R220). -/
def State.countLine (s : State) (own key line : Nat) (ace : Bool) : State :=
  let s := if hbmEnd ≤ 128 * line then s.underKey (bufferOf (128 * line)) key else s
  if ace then s.countPage own key (128 * line) else s

/-- The key that the buffer of a place lacks and its access needs: of a capacity line that its home slice does not hold
(R311). Log entry 80, DEDUCED. -/
def State.missingKey (s : State) (p : Phys) : Option (Nat × Nat) :=
  let cached := (s.l2.get [] (homeSlice p.addr)).any fun x => x.line == p.addr / 128 && x.key == p.key
  if p.sp = .dev ∧ hbmEnd ≤ p.addr ∧ !cached ∧ !s.bufferHolds (bufferOf p.addr) p.key then some (bufferOf p.addr, p.key) else none

/-- Buffers request keys of the anchor die (R311). -/
def State.wantKeys (s : State) (ks : List (Nat × Nat)) : State := { s with keyWants := (s.keyWants ++ ks).eraseDups }

/-- Whether a place waits for a key its buffer has requested already. -/
def State.keyComing (s : State) (p : Phys) : Bool := ((s.missingKey p).map s.keyWants.contains).getD false

/-- A slice writes a line back to DRAM. -/
def State.writeBack (s : State) (x : L2Line) : State :=
  match x.dirty with
  | some (own, ace) => s.countLine own x.key x.line ace
  | none => s

/-- Room for a line in a slice of 8,192 lines (R1): a full one loses one of its lines. Log entry 56, DESIGN CHOICE. -/
def State.l2Room (s : State) (sl : Nat) : State :=
  let ls := s.l2.get [] sl
  if ls.length < 8192 then s
  else
    let k := Config.freeNat s.tick 6 sl % ls.length
    match ls[k]? with
    | some x => { s.writeBack x with l2 := s.l2.set [] sl (ls.eraseIdx k) }
    | none => s

/-- A request at its home slice: it fills the line, and a line held under another key identifier is written back and read
again (R226, R329, R331 step 2). Log entry 56, DESIGN CHOICE. -/
def State.l2Touch (s : State) (own : Nat) (p : Phys) (write : Bool) : State :=
  let sl := homeSlice p.addr
  let line := p.addr / 128
  let new : L2Line := ⟨line, p.key, if write then some (own, p.ace) else none⟩
  match (s.l2.get [] sl).find? fun x => x.line == line with
  | some x =>
    let put (s : State) (y : L2Line) : State :=
      { s with l2 := s.l2.set [] sl ((s.l2.get [] sl).map fun z => if z.line = line then y else z) }
    if x.key ≠ p.key then put ((s.writeBack x).countLine own p.key line p.ace) new
    else if write then put s new
    else s
  | none =>
    let s := (s.l2Room sl).countLine own p.key line p.ace
    { s with l2 := s.l2.set [] sl (new :: s.l2.get [] sl) }

/-- Room for a pair of host lines at the host-line agent, which holds at most 16 MiB (R240): a full agent writes back and
loses a pair none of whose words is pending. Log entry 56, DESIGN CHOICE. -/
def State.agentRoom (s : State) : State :=
  if s.agentLines.length < 262144 then s
  else
    let ps := (s.agentLines.map fun e => e.1 / 2).eraseDups.filter fun l =>
      !s.pend.any fun e => match e.1 with
        | .mem .host w => w / 32 == l
        | _ => false
    match ps[Config.freeNat s.tick 7 0 % ps.length]? with
    | some l => { s with agentLines := s.agentLines.filter fun e => e.1 / 2 ≠ l }
    | none => s

/-- A host line held by the host-line agent, shared or owned, with its pair (R240). -/
def State.agentHold (s : State) (p : Phys) (owned : Bool) : State :=
  if p.tier = 3 then
    let l := p.addr / 128 * 2
    let s := if (s.agentLines.get? l).isSome || (s.agentLines.get? (l + 1)).isSome then s else s.agentRoom
    let put (t : Tbl Bool) (k : Nat) : Tbl Bool := t.put k (owned || (t.get? k).getD false)
    { s with agentLines := put (put s.agentLines l) (l + 1) }
  else s

/-- What the home of a place does for an access: the host's copy is taken back, the line is in the slice (R246, R329), or the
host-line agent holds it (R240). -/
def State.homeTouch (s : State) (own : Nat) (p : Phys) (write : Bool) : State :=
  match p.sp with
  | .dev => (s.hdmTouch write p.addr).l2Touch own p write
  | .host => s.agentHold p write
  | .peer => s

/-- A line of device or host memory as the directory names it. -/
def lineId (sp : Space) (a : Nat) : Nat := 2 * (a / 128) + (if sp = .host then 1 else 0)

/-- The line of a memory word; a peer's memory is in no cache and no directory of this device (R234). -/
def Loc.line : Loc → Option Nat
  | .mem .peer _ => none
  | .mem sp w => some (lineId sp (4 * w))
  | _ => none

/-- The lines of words. -/
def linesOfLocs (ls : List Loc) : List Nat := (ls.filterMap Loc.line).eraseDups

/-- Whether a wave's region has read a word of a line (R330). -/
def Wave.covers (w : Wave) (id : Nat) : Bool :=
  match w.region with
  | some r => r.reads.any fun l => l.line == some id
  | none => false

/-- Whether a region of a wave on certain cores has read a word of a line. -/
def State.covered (s : State) (on : Nat → Bool) (id : Nat) : Bool :=
  s.waves.any fun e => e.2.covers id && ((s.teams.get? e.2.tid).map fun t => on t.core).getD false

/-- Drop the sectors that satisfy a condition from the L1 caches of the cores of one die. -/
def State.dropL1 (s : State) (die : Nat) (p : Sector → Bool) : State :=
  { s with cores := s.cores.map fun e => if e.1 / 200 = die then (e.1, { e.2 with l1 := e.2.l1.filter fun x => !p x }) else e }

/-- A die's bit in the home's mask, the anchor die's at bit 16 (R330). -/
def dieBit (die : Nat) : BitVec 17 := BitVec.ofNat 17 (2 ^ die)

/-- A core's bit in its die's directory. -/
def coreBit (core : Nat) : BitVec 202 := BitVec.ofNat 202 (2 ^ (core % 200))

/-- An agent's bit in its die's directory: of a compute die's two Utino buffers, of the anchor die's launch front (0) and host-line
agent (1) (R330). -/
def agentBit (k : Nat) : BitVec 202 := BitVec.ofNat 202 (2 ^ (200 + k % 2))

/-- Put a line's mask in a die's directory, and with it the die's bit at the home (R330). -/
def State.setDir (s : State) (die id : Nat) (m : BitVec 202) : State :=
  let s := s.updDie die fun d => { d with dir := d.dir.set 0 id m }
  let h := s.homeDir.get 0 id
  { s with homeDir := s.homeDir.set 0 id (if m = 0#202 then h &&& ~~~dieBit die else h ||| dieBit die) }

/-- An agent of a die watches a line from now on (R330). Log entry 8, DEDUCED. -/
def State.watch (s : State) (die id k : Nat) : State := s.setDir die id ((s.die die).dir.get 0 id ||| agentBit k)

/-- A die directory evicts an entry: the sectors it tracks are invalidated first (R330). -/
def State.evictDir (s : State) (die id : Nat) : State :=
  (s.dropL1 die fun x => lineId x.sp (32 * x.n) == id).setDir die id 0

/-- A core may hold sectors of a line from now on. A die's directory has a size the rules do not give: a full one evicts an
entry that covers no word of a read set on the die and that no agent watches, none of which means that the fill waits (R330).
Log entry 11, DESIGN CHOICE. -/
def State.enlist (s : State) (core id : Nat) (keep : List Nat) : Option State :=
  let die := core / 200
  let dir := (s.die die).dir
  let join (s : State) : State := s.setDir die id (dir.get 0 id ||| coreBit core)
  if (dir.get? id).isSome ∨ dir.length < 64 + Config.dieDirMore then some (join s)
  else
    let cs := dir.filter fun e => !keep.contains e.1 && decide (e.2.toNat < 2 ^ 200) && !s.covered (fun c => c / 200 == die) e.1
    (cs[Config.freeNat s.tick 8 core % cs.length]?).map fun e => join (s.evictDir die e.1)

/-- The sector of a place under its key. -/
def Phys.sector (p : Phys) : Sector := ⟨p.sp, p.addr / 32, p.key⟩

/-- Room for a sector in an L1 cache of 4,096 sectors (R1): a full one loses a sector of a line with no word in a read set of
the core's waves; with no such line the load waits (R330). Log entry 11, DESIGN CHOICE. -/
def State.l1Room (s : State) (core : Nat) (keep : List Nat) : Option State :=
  let l1 := (s.core core).l1
  if l1.length < 4096 then some s
  else
    let cs := l1.filter fun x =>
      let id := lineId x.sp (32 * x.n)
      !keep.contains id && !s.covered (fun c => c == core) id
    (cs[Config.freeNat s.tick 9 core % cs.length]?).map fun x =>
      s.updCore core fun c => { c with l1 := c.l1.filter fun y => y ≠ x }

/-- Whether a sector has a pending word. -/
def State.sectorPending (s : State) (p : Phys) : Bool :=
  s.pend.any fun e => match e.1 with
    | .mem sp w => sp == p.sp && w / 8 == p.addr / 32
    | _ => false

/-- A load's access through its core's L1: a miss is counted and served at the home, and the sector is held from then on
unless one of its words is pending there (R329, R332, R333, R416). None while the directory or the cache has no room.
`keep` names the lines of the load itself. Log entry 11, DESIGN CHOICE; log entry 15, DEDUCED. -/
def State.fill (s : State) (core own : Nat) (p : Phys) (keep : List Nat) : Option State :=
  if p.tier = 2 ∨ p.tier = 4 then some s
  else
    (s.enlist core (lineId p.sp p.addr) keep).bind fun s =>
      if (s.core core).l1.contains p.sector then some s
      else
        let s := (s.count core 6).homeTouch own p false
        if s.sectorPending p then some s
        else
          (s.l1Room core keep).map fun s => s.updCore core fun c =>
            { c with l1 := p.sector :: c.l1.filter fun x => !(x.sp == p.sp && x.n == p.addr / 32) }

/-- What stands for the key that a request of a place is made under (R225, R235); host memory has none.
Log entry 6, DESIGN CHOICE. -/
def State.tagOf (s : State) (sp : Space) (key : Nat) : Nat :=
  match sp with
  | .dev => s.keyTag key
  | .peer => key + 1
  | .host => 0

/-- The key that a sector of a space was written under. -/
def State.heldTag (s : State) (sp : Space) (sec : Nat) : Nat :=
  match sp with
  | .dev => s.memKey.get 0 sec
  | .peer => s.peerKey.get 0 sec
  | .host => 0

/-- A word of a space as instruction caches name it. -/
def codeKey (sp : Space) (a : Nat) : Nat :=
  3 * (a / 4) + match sp with
    | .dev => 0
    | .peer => 1
    | .host => 2

/-- A core's instruction cache of 64 KiB takes a word (R1). Log entry 54, DESIGN CHOICE. -/
def putCode (tick core k : Nat) (e : Nat × Word) (t : Tbl (Tbl (Nat × Word))) : Tbl (Tbl (Nat × Word)) :=
  let l : Tbl (Nat × Word) := t.get [] core
  let l : Tbl (Nat × Word) := if l.length < 16384 ∨ (l.get? k).isSome then l else l.eraseIdx (Config.freeNat tick 10 0 % 16384)
  t.set [] core (l.put k e)

/-- A word of a space as it lies, with the key it was written under. -/
def State.oldCode (s : State) (sp : Space) (w : Nat) : Nat × Word :=
  (s.heldTag sp (w / 8), BitVec.ofNat 32 (leValue ((List.range 4).map fun i => s.rawByte sp (4 * w + i))))

/-- Each of the 3,200 cores may have fetched a word before it is written, and may go on fetching the old one until ICINV runs on
it: free for each core and word (R49, R101). A peer's memory is in no cache (R234). Log entry 54, DESIGN CHOICE. -/
def State.keepCode (s : State) (sp : Space) (bs : List (Nat × Byte)) : State :=
  if sp = .peer then s
  else
    let ws := (bs.map fun e => e.1 / 4).eraseDups
    { s with icache := (List.range 3200).foldl (fun t core => ws.foldl (fun t w =>
        if Config.freeBit s.tick 5 (3200 * codeKey sp (4 * w) + core) then
          putCode s.tick core (codeKey sp (4 * w)) (s.oldCode sp w) t
        else t) t) s.icache }

/-- The instruction caches of one core, or of every core, hold nothing (R414). -/
def State.clearCode (s : State) (core : Option Nat) : State :=
  { s with icache := match core with
      | some c => s.icache.del c
      | none => [] }

/-- Table entries are read at their homes, under their owner's key (R210, R246). -/
def State.entriesTouch (s : State) (own : Nat) (o : Owner) (es : List Nat) : State :=
  es.foldl (fun s a => s.homeTouch own ⟨.dev, a, o.key, 0, false⟩ false) s

/-- The reads of a walk from an owner's root at their homes (R210, R246). -/
def State.walkTouch (s : State) (own va : Nat) : State :=
  match s.owners.get? own with
  | none => s
  | some o => s.entriesTouch own o (entriesRead va (1, o.root) (s.walkFrom own o va 4 1 o.root []).2)

/-- The reads of a walk at their homes, and the pointers it met in the die's walk cache (R215, R216, R246). -/
def State.walked (s : State) (die own va : Nat) : State :=
  match s.owners.get? own with
  | none => s
  | some o =>
    let ps := (s.walk die own o va).2
    let rs := s.walkReads die own o va
    let s := s.entriesTouch own o rs
    if ps.isEmpty then s else s.updDie die fun d => { d with walk := holdWalk s.tick ps d.walk }

/-- What a successful translation leaves: nothing on a hit of the lane's register; else the register takes it, from the TLB or
a walk whose outcome the TLB takes; and the lease of a peer page is used (R216, R217, R236). An access that no lane makes (a
fetch, a literal, an engine element) names lane 64 and loads no register. -/
def State.held (s : State) (core die own lane va : Nat) (t : Trans) : State :=
  let s := if t.leaf.tier = 2 then s.useLease die t.leasePage else s
  if (((s.core core).lastPage.get? lane).filter (·.maps own va)).isSome then s
  else
    let hit := ((s.core core).tlb.find? (·.maps own va)).isSome
    let s := if hit then s else s.walked die own va
    s.updCore core fun c => { c with
      tlb := if hit then c.tlb else holdTrans s.tick t c.tlb
      lastPage := if lane < 64 then c.lastPage.put lane t else c.lastPage }

end Sys2Proof.Machine
end

