-- ==== Sys2Proof/Machine/Coherence.lean ====
section
/-! DEFINITION. Handles (R269, R270), timeline counters (R278, R327), speculation regions (R335 to R341), invalidations
(R331) and the place where a write takes effect. -/

namespace Sys2Proof.Machine

/-- A handle's word of the read sets (R327). -/
def handleLoc (core i : Nat) : Loc := .handle core i

/-- Completing a ticket: the counter advances over contiguous completions (R278, R327). -/
def Ctr.advance : (fuel : Nat) → Ctr → Ctr
  | 0, c => c
  | k + 1, c =>
    if c.early.contains (c.value + 1) then
      Ctr.advance k { c with value := c.value + 1, early := c.early.filter (· != c.value + 1) }
    else c

/-- A ticket is complete. -/
def Ctr.complete (c : Ctr) (n : Nat) : Ctr :=
  Ctr.advance (c.early.length + 1) { c with early := n :: c.early }

/-- A team's counter (R327); one it has not used is at 0. -/
def Team.ctr? (t : Team) (k : Nat) : Ctr := t.ctr.get Ctr.init k

/-- Complete a command's ticket on its team's counter. -/
def State.completeTicket (s : State) (tid : Nat) (c : Option (Nat × Nat)) : State :=
  match c with
  | none => s
  | some (k, n) => s.updTeam tid fun t => { t with ctr := t.ctr.set Ctr.init k ((t.ctr? k).complete n) }

/-- An inbound command on a handle completes (R270). -/
def Handle.fillDone (h : Handle) : Handle :=
  let h := { h with fills := h.fills - 1 }
  if h.fills = 0 ∧ h.auto ∧ h.st = .filling then { h with st := .full } else h

/-- An outbound command on a handle completes (R270). -/
def Handle.drainDone (h : Handle) : Handle :=
  let h := { h with refs := h.refs - 1 }
  if h.refs = 0 ∧ h.st = .draining then { h with st := .full } else h

/-- A change of a handle's entry is counted (R279). -/
def Core.changed (c : Core) (i : Nat) : Core := { c with changes := c.changes.set 0 i (c.changes.get 0 i + 1) }

/-- Put a handle entry and its generation. -/
def State.setHandle (s : State) (core i : Nat) (h : Handle) (gen : Nat) : State :=
  s.updCore core fun c => { c with handles := c.handles.put i h, gen := c.gen.set 0 i gen }.changed i

/-- The cluster's operand cache drops a handle's entries (R270, R306). Log entry 48, DEDUCED. -/
def State.dropTiles (s : State) (core i : Nat) : State :=
  s.updCluster (core / 4) fun c => { c with opCache := c.opCache.filter fun o => !(o.key.core == core && o.key.handle == i) }

/-- Put a handle entry with its next generation: the operand cache's entries of the old one are dropped (R270, R306). -/
def State.setHandleNext (s : State) (core i : Nat) (h : Handle) : State :=
  (s.setHandle core i h (((s.core core).gen.get 0 i + 1) % 2 ^ 32)).dropTiles core i

/-- Undo a void command's step on a handle (R279): back to the state before its issue if nothing has changed the handle
since, else it follows R270 from where it stands. Log entry 48, DEDUCED. -/
def State.undoHandle (s : State) (inb : List (Nat × Nat)) (u : Undo) : State :=
  let gen := (s.core u.core).gen.get 0 u.idx
  match (s.core u.core).handles.get? u.idx with
  | none => s
  | some h =>
    if (s.core u.core).changes.get 0 u.idx = u.changes then
      let t := s.setHandle u.core u.idx u.before u.genBefore
      if u.genBefore = gen then t else t.dropTiles u.core u.idx
    else s.setHandle u.core u.idx (if inb.contains (u.core, u.idx) then h.fillDone else h.drainDone) gen

/-- Set presence bits again (R268): lines by team. -/
def State.present (s : State) (ls : List (Nat × Nat)) : State :=
  ls.foldl (fun s e => s.updTeam e.1 fun t => { t with absent := t.absent.filter (· != e.2) }) s

/-- The words of R327 that a command's end writes. -/
def Cmd.locs (c : Cmd) : List Loc :=
  (match c.counter with
    | some (k, _) => [Loc.ctr c.tid k]
    | none => []) ++ (c.inb ++ c.outb).map fun e => handleLoc e.1 e.2

/-- A command completes void (R279). -/
def State.voidCmd (s : State) (cid : Nat) : State :=
  match s.cmds.get? cid with
  | none => s
  | some c =>
    let s := c.undo.foldl (fun s u => s.undoHandle c.inb u) s
    let s := s.present c.lines
    let s := s.completeTicket c.tid c.counter
    { s with cmds := s.cmds.del cid }

/-- Waves with an open region that has read one of the words, but for one wave (R340). -/
def State.readers (s : State) (ls : List Loc) (but : Option Nat) : List Nat :=
  (s.waves.filter fun e => some e.1 != but && e.2.hasRead ls).map (·.1)

/-- The held commands a wave issued in its region, latest first. -/
def State.heldOf (s : State) (wid seq : Nat) : List Nat :=
  ((s.cmds.filter fun e => e.2.wid = wid ∧ e.2.held ∧ seq ≤ e.2.seq).map (·.1)).reverse

/-- The wave of a rollback, back at its waymark (R341). Exited lanes stay exited; counters and sweep stand (R115). -/
def Wave.toWaymark (w : Wave) (r : Region) : Wave :=
  let w := r.shadow.foldl (fun w e => w.putLanes e.1 e.2) w
  let again := w.rollbacks + 1
  { w with
    pcs := pcsRemove (~~~w.live) r.pcs
    base := r.base
    fpmode := r.fpmode
    fflags := r.fflags
    srseed := r.srseed
    tsMark := r.tsMark
    sbuf := w.sbuf.filter fun e => e.seq < r.seq
    outst := (w.outst.filter fun o => o.seq < r.seq).map fun o => { o with toReg := true }
    sleep := none
    waiting := none
    absentWait := false
    stop := none
    parked := false
    spilling := none
    region := none
    rollbacks := if again = 4 then 0 else again
    cautious := if again = 4 then 1025 else w.cautious }

/-- One wave rolls back: its held commands complete void (R341, R279). -/
def State.rollbackOne (s : State) (wid : Nat) : State :=
  match s.waves.get? wid with
  | none => s
  | some w =>
    match w.region with
    | none => s
    | some r =>
      let core := ((s.teams.get? w.tid).map (·.core)).getD 0
      let s := s.setWave wid (w.toWaymark r)
      let s := s.count core 1
      let s := if w.rollbacks + 1 = 4 then s.count core 3 else s
      (s.heldOf wid r.seq).foldl (fun s c => s.voidCmd c) s

/-- Waves roll back, and with them those whose regions have read a word that a void completion writes (R279, R327,
R340). A wave rolls back at most once, since it then has no region. -/
def State.rollback : (fuel : Nat) → List Nat → State → State
  | 0, _, s => s
  | _, [], s => s
  | k + 1, wid :: rest, s =>
    let locs := match (s.waves.get? wid).bind (·.region) with
      | some r => ((s.heldOf wid r.seq).filterMap s.cmds.get?).flatMap Cmd.locs
      | none => []
    let s := s.rollbackOne wid
    State.rollback k (rest ++ s.readers locs (some wid)) s

/-- Roll back every region that has read one of the words, but for the writing wave's (R340). -/
def State.check (s : State) (ls : List Loc) (writer : Option Nat) : State :=
  let vs := s.readers ls writer
  if vs.isEmpty then s else State.rollback (vs.length + 64 * (s.waves.length + 1)) vs s

/-- A command is taken back, which writes the words its void completion writes (R279, R316, R340). -/
def State.withdraw (s : State) (cid : Nat) : State :=
  match s.cmds.get? cid with
  | some c => (s.check c.locs (some c.wid)).voidCmd cid
  | none => s

/-- A queue is unbound: its values are discarded (R360). -/
def State.unbind (s : State) (tid q : Nat) (writer : Option Nat) : State :=
  (s.check [.chan tid q] writer).updTeam tid fun t => { t with queues := t.queues.del q }

/-- A command held for a region that has committed goes on; a held QUNBIND takes effect (R338, R360). -/
def State.freeHeld (s : State) (wid cid : Nat) : State :=
  match s.cmds.get? cid with
  | none => s
  | some c =>
    match c.kind with
    | .qunbind q => { s with cmds := s.cmds.del cid }.unbind c.tid q (some wid)
    | _ => s.updCmd cid fun c => { c with held := false }

/-- A region commits (R338): its entries become ordinary, its commands are released in issue order. -/
def State.commit (s : State) (wid : Nat) : State :=
  match s.waves.get? wid with
  | none => s
  | some w =>
    let core := ((s.teams.get? w.tid).map (·.core)).getD 0
    let held := (s.heldOf wid 0).reverse
    let s := s.setWave wid
      { w with
        region := none
        rollbacks := 0
        outst := w.outst.map fun o => if o.toReg then o else { o with dst := none, toReg := true }
        sbuf := w.sbuf.map fun e => { e with held := false }
        spilling := w.spilling.map fun l => l.map fun e => { e with held := false } }
    held.foldl (fun s c => s.freeHeld wid c) (s.count core 2)

/-- Whether the wave's region may commit (R338). -/
def Wave.mayCommit (w : Wave) : Bool :=
  match w.region with
  | none => false
  | some r => (w.sbuf.all fun e => decide (r.seq ≤ e.seq)) && w.irrev.isNone

/-- The regions whose conditions hold commit at that instant (R338). -/
def State.commitAll (s : State) : State :=
  s.waves.foldl (fun s e => if ((s.waves.get? e.1).map (·.mayCommit)).getD false then s.commit e.1 else s) s

/-- The memory words of bytes. -/
def wordLocs (sp : Space) (bs : List (Nat × Byte)) : List Loc :=
  (bs.map fun e => e.1 / 4).eraseDups.map fun w => .mem sp w

/-- The local-store words of bytes. -/
def lsLocs (tid : Nat) (bs : List (Nat × Byte)) : List Loc := (bs.map fun e => e.1 / 4).eraseDups.map fun w => .ls tid w

/-- The regions of certain waves that have read one of the words roll back (R340). -/
def State.checkOn (s : State) (on : Team → Bool) (ls : List Loc) (writer : Option Nat) : State :=
  let vs := (s.readers ls writer).filter fun v =>
    (((s.waves.get? v).bind fun w => s.teams.get? w.tid).map on).getD false
  if vs.isEmpty then s else State.rollback (vs.length + 64 * (s.waves.length + 1)) vs s

/-- Whether a sector holds one of the words. -/
def sectorHit (ls : List Loc) (x : Sector) : Bool :=
  ls.any fun l => match l with
    | .mem sp w => x.sp == sp && x.n == w / 8
    | _ => false

/-- The cores of a die that hold a sector of a line or have read a word of it. -/
def State.holders (s : State) (die id : Nat) : BitVec 202 :=
  let caches := (s.cores.filter fun e => e.2.l1.any fun x => lineId x.sp (32 * x.n) == id).map (·.1)
  let regions := s.waves.filterMap fun e => if e.2.covers id then (s.teams.get? e.2.tid).map (·.core) else none
  ((caches ++ regions).filter fun c => c / 200 == die).foldl (fun m c => m ||| coreBit c) 0#202

/-- Whether the launch front holds something of a line: a tail word (R56), or words of an image (R49). -/
def State.frontWatches (s : State) (id : Nat) : Bool :=
  (s.owners.any fun o => o.2.queues.any fun q => match q.2.copy with
    | some (sp, a) => lineId sp a == id
    | none => false) ||
  s.imgCache.any fun i => i.extents.any fun (sp, a, n) =>
    decide (n ≠ 0) && decide (lineId sp a ≤ id) && decide (id ≤ lineId sp (a + n - 1)) && id % 2 == lineId sp a % 2

/-- Whether the host may hold something of a line of the HDM range, for which the host-line agent watches it (R246). -/
def State.hostWatches (s : State) (id : Nat) : Bool := s.hostLines.any fun e => lineId .dev (64 * e.1) == id

/-- The Utino buffers that hold the HEAD word of a line: those which have posted pages that are still queued (R222). -/
def State.headBuffers (s : State) (id : Nat) : List Nat :=
  s.owners.flatMap fun o => match o.2.migQ.bind (·.place) with
    | some p =>
      if lineId p.sp p.addr = id ∧ p.sp ≠ .peer then
        (s.queuedPages.filter fun e => e.1 = o.1).map fun e => bufferOf (65536 * e.2.1)
      else []
    | none => []

/-- The bits of the agents of a die that hold something of a line (R330). -/
def State.agents (s : State) (die id : Nat) : BitVec 202 :=
  if die = 16 then
    (if s.frontWatches id then agentBit 0 else 0) ||| (if s.hostWatches id then agentBit 1 else 0)
  else ((s.headBuffers id).filter fun u => u / 2 = die).foldl (fun m u => m ||| agentBit u) 0#202

/-- The dies an invalidation of some words goes to: those of the home's masks, the writer's own die only if another core or an
agent there holds sectors of a line (R331 step 3). -/
def State.sharers (s : State) (ls : List Loc) (writer : Option Nat) : List Nat :=
  let own (d id : Nat) : Bool := match writer with
    | some c => decide (c / 200 = d ∧ (s.die d).dir.get 0 id &&& ~~~coreBit c = 0#202)
    | none => false
  (List.range 17).filter fun d => (linesOfLocs ls).any fun id => (s.homeDir.get 0 id).getLsbD d && !own d id

/-- The verified images a write leaves in the cache (R49). -/
def imagesLeft (sp : Space) (bs : List (Nat × Byte)) (l : List ImgEnt) : List ImgEnt :=
  l.filter fun i => !i.extents.any fun (q, a, n) => q == sp && bs.any fun e => decide (a ≤ e.1) && decide (e.1 < a + n)

/-- The front's copies of tail words that a write touches are invalid (R56). -/
def State.dropCopies (s : State) (ls : List Loc) : State :=
  { s with owners := s.owners.map fun e => (e.1, { e.2 with queues := e.2.queues.map fun x =>
      (x.1, match x.2.copy with
        | some (sp, a) => if touches8 ls sp a then { x.2 with copy := none } else x.2
        | none => x.2) }) }

/-- One die takes an invalidation and acknowledges it (R331 step 4): its sectors are dropped, the regions of its waves checked,
and the agents' copies with them; who still holds something of a line stays in the directory. -/
def State.invalidateDie (s : State) (d : Nat) (ls : List Loc) (writer : Option Nat) : State :=
  let s := (s.dropL1 d (sectorHit ls)).checkOn (fun t => t.die == d) ls writer
  let s := if d = 16 then s.dropCopies ls else s
  (linesOfLocs ls).foldl (fun s id =>
    if (s.die d).dir.get 0 id = 0#202 then s else s.setDir d id (s.holders d id ||| s.agents d id)) s

/-- A 64-bit word of a space, read under a key identifier. -/
def State.word64 (s : State) (sp : Space) (key a : Nat) : Nat := leValue (s.bytesAt sp key a 8)

/-- A new HEAD of an owner's migration queue clears the marks and counters of the pages it passes (R222). -/
def State.passHead (s : State) (own head : Nat) : State :=
  let passed := s.queuedPages.filter fun e => e.1 = own ∧ e.2.2 < head
  { s with
    queuedPages := s.queuedPages.filter fun e => !(e.1 = own ∧ e.2.2 < head)
    accessCnt := passed.foldl (fun t e => t.del e.2.1) s.accessCnt }

/-- A write to the HEAD word of a migration queue (R222). -/
def State.migrationHead (s : State) (ls : List Loc) : State :=
  s.owners.foldl (fun s e => match e.2.migQ.bind (·.place) with
    | some p => if touches8 ls p.sp p.addr then s.passHead e.1 (s.word64 p.sp p.key p.addr) else s
    | none => s) s

/-- A write takes effect at its home: bytes under a key identifier. A plain store writes nothing to the bias table
(R245); host copies of the HDM range are back-invalidated first (R246); what watches the words notices (R49, R56, R222). -/
def State.land (s : State) (sp : Space) (key : Nat) (bs : List (Nat × Byte)) (atomic : Bool := false) : State :=
  let bs := if sp = .dev ∧ !atomic then bs.filter fun e => !s.inBias e.1 else bs
  let ls := wordLocs sp bs
  let s := if sp = .dev then bs.foldl (fun s e => s.hdmTouch true e.1) s else s
  let t := (s.keepCode sp bs).writeBytes sp key bs
  let t := ({ t with imgCache := imagesLeft sp bs t.imgCache }).dropCopies ls
  (t.keepStatus s ls).migrationHead ls

/-- Every die with a copy of some words is told of a write and every region that has read one is checked (R331, R340). -/
def State.told (s : State) (ls : List Loc) (writer : Option Nat) : State :=
  ((s.sharers ls none).foldl (fun s d => s.invalidateDie d ls writer) s).check ls writer

/-- A write performed at once by an agent: the dies are told, then it takes effect (R331, R340). Log entry 8, DEDUCED. -/
def State.performNow (s : State) (sp : Space) (key : Nat) (bs : List (Nat × Byte)) (writer : Option Nat)
    (atomic : Bool := false) : State := (s.told (wordLocs sp bs) writer).land sp key bs atomic

/-- The barrier at a local address, with its phase completed if LEFT = 0 and BYTES = 0 (R346). -/
def Team.barrierSettled (t : Team) (a : Nat) : Team :=
  let w := (t.lsWord a).toNat
  if w % 2 ^ 11 = 0 ∧ t.lsWord (a + 4) = 0 then
    t.lsPutWord a (BitVec.ofNat 32 ((w / 2 ^ 31 + 1) % 2 * 2 ^ 31 + w % 2 ^ 31 / 2 ^ 11 * 2 ^ 11 + bitsOf w 26 16))
  else t

/-- Whether the barrier at a local address awaits arrivals (R346: INIT of 1 or more). Log entry 69, DEDUCED. -/
def Team.barrierLive (t : Team) (a : Nat) : Bool := bitsOf (t.lsWord a).toNat 26 16 != 0

/-- Whether a write that leaves the local store so completes a phase of the barrier at an address (R346). -/
def Team.completes (t : Team) (a : Nat) : Bool := (t.lsWord a).toNat % 2 ^ 11 == 0 && t.lsWord (a + 4) == 0

/-- The barriers named by the team's instructions and commands that a write of bytes has touched, as it leaves them (R346). -/
def Team.touched (t : Team) (bs : List (Nat × Byte)) : List Nat :=
  t.barriers.filter fun a => t.barrierLive a && bs.any fun e => e.1 / 8 = a / 8

/-- An address is one of the team's barriers. -/
def Team.name (t : Team) (as : List Nat) : Team := { t with barriers := (t.barriers ++ as).eraseDups }

/-- A local-store write is performed: other waves' regions are checked, a barrier phase may complete, which writes word 0 as
well (R334, R340, R346). Log entry 69, DEDUCED. -/
def State.performLs (s : State) (tid : Nat) (bs : List (Nat × Byte)) (writer : Option Nat) : State :=
  let flips := match s.teams.get? tid with
    | some t => ((t.lsPut bs).touched bs).filter (t.lsPut bs).completes
    | none => []
  let s := s.check (lsLocs tid bs ++ flips.map fun a => .ls tid (a / 4)) writer
  s.updTeam tid fun t => flips.foldl Team.barrierSettled (t.lsPut bs)

/-- BYTES of a barrier after an addition modulo 2^32 (R348). -/
def Team.credited (t : Team) (a : Nat) (n : Int) : Team := t.lsPutWord (a + 4) (BitVec.ofInt 32 ((t.lsWord (a + 4)).toInt + n))

/-- Add to BYTES of a barrier as one write, with the completion it causes (R346, R348). -/
def State.creditBarrier (s : State) (tid a : Nat) (n : Int) (writer : Option Nat) : State :=
  let flips := match s.teams.get? tid with
    | some t => (t.credited a n).completes a
    | none => false
  let s := s.check (.ls tid (a / 4 + 1) :: if flips then [.ls tid (a / 4)] else []) writer
  s.updTeam tid fun t => (((t.credited a n).barrierSettled a).name [a])

/-- A bulletin word (R202). -/
def State.bulletin (s : State) : Loc → Word
  | .cb c i => (s.cluster c).bull.get 0 i
  | .db d i => (s.die d).bull.get 0 i
  | _ => 0

/-- A bulletin word's new value is released at every copy (R334). -/
def State.performBulletin (s : State) (l : Loc) (v : Word) (writer : Option Nat) : State :=
  let s := s.check [l] writer
  match l with
  | .cb c i => s.updCluster c fun x => { x with bull := x.bull.set 0 i v }
  | .db d i => s.updDie d fun x => { x with bull := x.bull.set 0 i v }
  | _ => s

end Sys2Proof.Machine
end

