-- ==== Sys2Proof/Machine/AtomOps.lean ====
section
/-! DEFINITION. What an access reads and writes: sizes (R34, R256), the words it touches, and the operations of atomics
(R261 to R263). -/

namespace Sys2Proof.Machine

/-- Access bytes of a size (R34). -/
def Size.bytes : Size → Nat
  | .ub => 1
  | .sb => 1
  | .uh => 2
  | .sh => 2
  | .word => 4
  | .pr => 8
  | .qd => 16

/-- The register words loaded bytes become (R256). -/
def Size.words (z : Size) (bs : List Byte) : List Word :=
  let v := leValue bs
  match z with
  | .sb => [BitVec.ofInt 32 (signOf 8 v)]
  | .sh => [BitVec.ofInt 32 (signOf 16 v)]
  | .pr => [BitVec.ofNat 32 v, BitVec.ofNat 32 (v / 2 ^ 32)]
  | .qd => (List.range 4).map fun i => BitVec.ofNat 32 (v / 2 ^ (32 * i))
  | _ => [BitVec.ofNat 32 v]

/-- The bytes register words store (R256). -/
def Size.store (z : Size) (ws : List Word) : List Byte :=
  (ws.flatMap fun w => leBytes 4 w.toNat).take (Size.bytes z)

/-- The words of the read sets that n bytes at a place touch. -/
def AtomTgt.locs (tid n : Nat) : AtomTgt → List Loc
  | .mem p => (List.range (ceilDiv (p.addr % 4 + n) 4)).map fun i => .mem p.sp (p.addr / 4 + i)
  | .ls a => (List.range (ceilDiv (a % 4 + n) 4)).map fun i => .ls tid (a / 4 + i)
  | .bull l => [l]

/-- The bytes of a place at its home. -/
def State.homeBytes (s : State) (tid : Nat) (tgt : AtomTgt) (n : Nat) : List Byte :=
  match tgt with
  | .mem p => s.bytesAt p.sp p.key p.addr n
  | .ls a =>
    match s.teams.get? tid with
    | some t => (List.range n).map fun i => t.lsByte (a + i)
    | none => List.replicate n 0
  | .bull l => leBytes n (s.bulletin l).toNat

/-- The integer operations of R261 at a width (R263). -/
def AtomOp.int {n : Nat} (op : AtomOp) (old x y : BitVec n) : BitVec n :=
  match op with
  | .add => old + x
  | .and => old &&& x
  | .or => old ||| x
  | .xor => old ^^^ x
  | .min => if old.toInt < x.toInt then old else x
  | .max => if old.toInt > x.toInt then old else x
  | .umin => if old.toNat < x.toNat then old else x
  | .umax => if old.toNat > x.toNat then old else x
  | .xchg => x
  | .cas => if old = x then y else old
  | .inc => if x.toNat ≤ old.toNat then 0 else old + 1
  | _ => old

/-- Each half added and rounded with RNE (R262). -/
def haddWord (k : Kind) (old x : Word) : Word :=
  let one (h : Nat) : Nat := (k.round false .rne 0 ((k.decode (half old h)).add .rne (k.decode (half x h))).1).code
  BitVec.ofNat 32 (one 1 * 65536 + one 0)

/-- The operations of R261 and R262 on a word. -/
def AtomOp.word (op : AtomOp) (old x y : Word) : Word :=
  match op with
  | .fadd => rne32 ((f32 old).add .rne (f32 x)).1
  | .hadd2b => haddWord .bf16 old x
  | .hadd2h => haddWord .fp16 old x
  | .fmin => (minMax32 false false old x).1
  | .fmax => (minMax32 true false old x).1
  | _ => op.int old x y

/-- The new value of an atomic's word or doubleword. -/
def AtomOp.new (op : AtomOp) (wide : Bool) (old x y : DWord) : DWord :=
  if wide then op.int old x y else (op.word (loWord old) (loWord x) (loWord y)).setWidth 64

end Sys2Proof.Machine
end

