-- ==== Sys2Proof/Machine/Home.lean ====
section
/-! DEFINITION. Accesses at their homes: the store buffer's entries (R254, R331), the pending state (R332), atomics (R260),
requests of the fabric (R231), and the writes of agents, which wait for what is pending. -/

namespace Sys2Proof.Machine

/-- Entries in use of a store buffer: one per instruction and line (R254). Log entry 63, DEDUCED. -/
def entriesOf (es : List SbEntry) : Nat := ((es.map fun e => (e.seq, e.line)).eraseDups).length

/-- Whether a spilled part has its entry already, or a free one to take (R254). -/
def entryFits (es : List SbEntry) (e : SbEntry) : Bool :=
  (es.any fun x => x.seq == e.seq && x.line == e.line) || decide (entriesOf es < 32)

/-- Spilled entries of one store move into the buffer in order while there is room: the buffer and what is left. -/
def moveUp (es : List SbEntry) : List SbEntry → List SbEntry × List SbEntry
  | [] => (es, [])
  | e :: l => if entryFits es e then moveUp (es ++ [e]) l else (es, e :: l)

/-- Spilled entries enter as room frees (R254). -/
def Wave.refill (w : Wave) : Wave :=
  match w.spilling with
  | none => w
  | some l =>
    let r := moveUp w.sbuf l
    { w with sbuf := r.1, spilling := if r.2.isEmpty then none else some r.2 }

/-- Writes of one instruction, each with its line, enter the store buffer, held while a region is open (R254, R338). -/
def Wave.enter (w : Wave) (seq : Nat) (ops : List (Nat × SbOp)) : Wave :=
  let es : List SbEntry := ops.map fun o => ⟨o.2, seq, o.1, w.region.isSome, false, []⟩
  { w with spilling := if es.isEmpty then w.spilling else some (w.spilling.getD [] ++ es) }.refill

/-- Consecutive lanes' writes in maximal runs that may be performed at one point. Log entry 63, DEDUCED. -/
def runs {α : Type} (join : List α → α → Bool) : List α → List (List α)
  | [] => []
  | x :: xs =>
    match runs join xs with
    | [] => [[x]]
    | r :: rs => if join r x then (x :: r) :: rs else [x] :: r :: rs

/-- The next entry of a wave's store buffer (R331 step 1). -/
def Wave.head (w : Wave) : Option SbEntry := w.sbuf.head?

/-- The memory words of an entry. -/
def SbOp.locs : SbOp → List Loc
  | .mem sp _ _ _ bs => wordLocs sp bs
  | _ => []

/-- The first physical address of an entry of global memory. -/
def SbOp.phys? : SbOp → Option Phys
  | .mem sp tier key ace ((a, _) :: _) => some ⟨sp, a, key, tier, ace⟩
  | _ => none

/-- The entry leaves the buffer, and spilled entries move up (R254). -/
def State.popEntry (s : State) (x : Nat) : State := s.updWave x fun w => { w with sbuf := w.sbuf.drop 1 }.refill

/-- Put the head entry of a wave. -/
def State.setHead (s : State) (x : Nat) (e : SbEntry) : State := s.updWave x fun w => { w with sbuf := e :: w.sbuf.drop 1 }

/-- A fabric port; one the table does not list is up and has sent nothing. -/
def State.link (s : State) (p : Nat) : Link := s.links.get ⟨false, 0, 0, 0⟩ p

/-- Put a fabric port. -/
def State.setLink (s : State) (p : Nat) (l : Link) : State := { s with links := s.links.set ⟨false, 0, 0, 0⟩ p l }

/-- Flits that carry a number of payload bytes, 56 in each (R229). -/
def flitsOf (bytes : Nat) : Nat := ceilDiv bytes 56

/-- Whether a port may take a message: it is up, and its replay buffer of 256 flits has room (R230). -/
def Link.takes (l : Link) (bytes : Nat) : Bool := !l.down && decide (flitsOf (l.bytes + bytes) - l.acked ≤ 256)

/-- How many messages of a size the replay buffer of a port still takes, none while it is down (R230). -/
def Link.room (l : Link) (bytes : Nat) : Nat := if l.down then 0 else (56 * (256 + l.acked) - l.bytes) / bytes

/-- How many messages of a size the ports still take (R230). -/
def State.portRoom (s : State) (bytes : Nat) : Nat := ((List.range 32).map fun p => (s.link p).room bytes).sum

/-- The ports that may take a message, but for one. -/
def State.openPorts (s : State) (bytes : Nat) (but : Option Nat) : List Nat :=
  (List.range 32).filter fun p => some p != but && (s.link p).takes bytes

/-- The streams a die sends on: its own four, for the anchor die any of the 64 (R231). Log entry 57, DESIGN CHOICE. -/
def streamsOf (die : Nat) : List Nat := if die = 16 then List.range 64 else (List.range 4).map (4 * die + ·)

/-- Requests that a stream still carries: 1,024 are outstanding at most (R231). -/
def State.streamRoom (s : State) (st : Nat) : Nat := 1024 - (s.fabOut.filter fun r => r.stream == st).length

/-- The streams of a die that may carry another request (R231). -/
def State.openStreams (s : State) (die : Nat) : List Nat := (streamsOf die).filter fun st => 0 < s.streamRoom st

/-- Requests with some bytes of data that a die may still send, by its streams and the ports (R230, R231). -/
def State.fabRoom (s : State) (die bytes : Nat) : Nat :=
  min ((streamsOf die).map s.streamRoom).sum (s.portRoom (16 + bytes))

/-- A message goes out by a port. -/
def State.onPort (s : State) (p : Option Nat) (bytes : Nat) : State :=
  match p with
  | some p => s.setLink p { s.link p with bytes := (s.link p).bytes + bytes }
  | none => s

/-- The number of the last flit a port has sent. -/
def State.flitOn (s : State) (p : Option Nat) : Nat :=
  match p with
  | some p => flitsOf (s.link p).bytes
  | none => 0

/-- A member of a list, by a free choice. -/
def State.pick (s : State) (q k : Nat) (l : List Nat) : Option Nat := l[Config.freeNat s.tick q k % l.length]?

/-- A request of this device to a peer, a 16-byte header with its data, goes out on one of its die's streams by one of the
ports, and is outstanding until its response (R229, R231, R232); nothing goes out without a stream and a port.
Log entry 57, DESIGN CHOICE. -/
def State.fabSend (s : State) (die own : Nat) (who : Asker) (p : Phys) (bytes : Nat) : State :=
  if p.tier ≠ 2 then s
  else
    match s.pick 3 p.addr (s.openStreams die), s.pick 11 p.addr (s.openPorts (16 + bytes) none) with
    | some st, some port =>
      let n := s.fabSeq.get 0 st
      let s := s.onPort (some port) (16 + bytes)
      { s with
        fabOut := s.fabOut ++
          [⟨st, n, p.addr / 2 ^ 44, own, who, 16 + bytes, some port, s.flitOn (some port), 0, s.clock.toNat, s.clock.toNat⟩]
        fabSeq := s.fabSeq.set 0 st ((n + 1) % 2 ^ 32) }
    | _, _ => s

/-- The responses to some requests have arrived: their targets were last heard from now (R233), and the flits that carried
the requests are acknowledged (R230). -/
def State.fabAnswered (s : State) (p : OutReq → Bool) : State :=
  let got := s.fabOut.filter p
  let s := got.foldl (fun s r => match r.port with
    | some k => s.setLink k { s.link k with acked := max (s.link k).acked (min r.flit (s.flitOn (some k))) }
    | none => s) s
  { s with
    fabHeard := got.foldl (fun t r => t.put r.device s.clock.toNat) s.fabHeard
    fabOut := s.fabOut.filter fun r => !p r }

/-- The responses for a waiting wave. -/
def State.fabDone (s : State) (who : Nat) : State := s.fabAnswered fun r => r.who == .wave who

/-- Send an entry of global memory: its words become pending and every die with a copy is told (R331 steps 2 and 3). -/
def State.sendMem (s : State) (x : Nat) (w : Wave) (e : SbEntry) (p : Phys) : State :=
  let ls := e.op.locs
  let t := s.teams.get? w.tid
  let own := (t.map (·.owner)).getD 0
  let s := { s with pend := s.pend ++ ls.map fun l => (l, x) }
  let s := (s.homeTouch own p true).fabSend ((t.map (·.die)).getD 0) own (.wave x) p 128
  s.setHead x { e with sent := true, await := s.sharers ls (t.map (·.core)) }

/-- Whether a die still owes the acknowledgement of what wave x has sent (R331 step 4, R332). -/
def State.canInvalidate (s : State) (x y : Nat) : Bool :=
  match s.waves.get? x with
  | none => false
  | some w =>
    match w.irrev with
    | some (.atom _ _ _ _ (some (_, ds))) => ds.contains y
    | _ => match w.head with
      | some e => e.sent && e.await.contains y
      | none => false

/-- The words that a lane of an atomic names. -/
def AtomLane.locs (l : AtomLane) (tid : Nat) (wide : Bool) : List Loc := l.tgt.locs tid (if wide then 8 else 4)

/-- The words of the place that a lane of an atomic names. -/
def atomLocs (tid y : Nat) (wide : Bool) (ls : List AtomLane) : List Loc :=
  match ls.find? fun l => l.lane = y with
  | some l => l.locs tid wide
  | none => []

/-- A die takes an invalidation of what wave x has sent and acknowledges it (R331 step 4). -/
def State.doInvalidate (s : State) (x y : Nat) : State :=
  match s.waves.get? x with
  | none => s
  | some w =>
    match w.irrev with
    | some (.atom seq op wide ls (some (l, ds))) =>
      (s.invalidateDie y (atomLocs w.tid l wide ls) (some x)).updWave x fun w =>
        { w with irrev := some (.atom seq op wide ls (some (l, ds.filter (· != y)))) }
    | _ =>
      match w.head with
      | some e => (s.invalidateDie y e.op.locs (some x)).setHead x { e with await := e.await.filter (· != y) }
      | none => s

/-- Words of a wave are pending no longer. -/
def State.unpend (s : State) (x : Nat) (ls : List Loc) : State :=
  { s with pend := s.pend.filter fun p => !(p.2 == x && ls.contains p.1) }

/-- The entry is performed: this is its place in the single order (R331 step 5). The regions of the writer's own core are
checked with it. Log entry 8, DEDUCED. -/
def State.doAck (s : State) (x : Nat) : State :=
  match (s.waves.get? x).bind Wave.head with
  | none => s
  | some e =>
    match e.op with
    | .mem sp _ key _ bs => ((((s.unpend x e.op.locs).check e.op.locs (some x)).land sp key bs).fabDone x).popEntry x
    | _ => s

/-- The bits of the bias table that go from 0 to 1 in a word, as granules (R247). -/
def State.flips (s : State) (p : Phys) (n old new : Nat) : List Nat :=
  if p.sp ≠ .dev ∨ !s.inBias p.addr then []
  else ((List.range (8 * n)).filter fun i => !old.testBit i && new.testBit i).map fun i => (p.addr - s.biasBase) * 8 + i

/-- The lines of a granule that the host may hold. -/
def State.granuleLines (s : State) (g : Nat) : List Nat :=
  let first := (s.hdm.base * 2 ^ 30 + g * 4096) / 64
  (s.hostLines.filter fun e => decide (first ≤ e.1) && decide (e.1 < first + 64)).map (·.1)

/-- The lines of the granules that a change of a bias word flips to device bias are back-invalidated (R247). -/
def State.flipBias (s : State) (p : Phys) (n old new : Nat) : State :=
  ((s.flips p n old new).flatMap s.granuleLines).foldl (fun s l => s.backInvalidate l) s

/-- One lane's atomic on a place at its home: the old value, and the state with the new one written where it differs
(R260). -/
def State.atomicAt (s : State) (own tid wid : Nat) (op : AtomOp) (wide : Bool) (l : AtomLane) : DWord × State :=
  let n := if wide then 8 else 4
  let s := match l.tgt with
    | .mem p => s.homeTouch own p true
    | _ => s
  let old := BitVec.ofNat 64 (leValue (s.homeBytes tid l.tgt n))
  let new := op.new wide old l.x l.y
  if new = old then (old, s)
  else
    let bs := leBytes n new.toNat
    (old, match l.tgt with
      | .mem p => (s.flipBias p n old.toNat new.toNat).performNow p.sp p.key (placed p.addr bs) (some wid) true
      | .ls a => s.performLs tid (placed a bs) (some wid)
      | .bull k => s.performBulletin k (BitVec.ofNat 32 new.toNat) (some wid))

/-- The lanes of one atomic on one place, adjacent and in lane order (R260). -/
def State.atomicGroup (s : State) (own tid wid seq : Nat) (op : AtomOp) (wide : Bool) (ls : List AtomLane) : State :=
  ls.foldl (fun s l =>
    let r := s.atomicAt own tid wid op wide l
    r.2.updWave wid fun w => w.answer seq l.lane [loWord r.1, hiWord r.1]) s

/-- The lanes of an unperformed atomic that name the place of its lane `k`, and the others. -/
def samePlace (ls : List AtomLane) (k : Nat) : List AtomLane × List AtomLane :=
  match ls.find? fun l => l.lane = k with
  | some a => (ls.filter fun l => l.tgt = a.tgt, ls.filter fun l => l.tgt ≠ a.tgt)
  | none => ([], ls)

/-- The values a place takes through the operations of some lanes on it, from a value on. -/
def AtomOp.through (op : AtomOp) (wide : Bool) (old : DWord) : List AtomLane → List DWord
  | [] => []
  | l :: ls => op.new wide old l.x l.y :: op.through wide (op.new wide old l.x l.y) ls

/-- The value of the place that an atomic's lanes name, at its home. -/
def State.atomOld (s : State) (tid : Nat) (wide : Bool) (l : AtomLane) : DWord :=
  BitVec.ofNat 64 (leValue (s.homeBytes tid l.tgt (if wide then 8 else 4)))

/-- The lines the host may hold of the granules that an atomic's lanes flip to device bias (R247). -/
def State.flipLines (s : State) (tid : Nat) (op : AtomOp) (wide : Bool) (ls : List AtomLane) : List Nat :=
  match ls with
  | ⟨k, .mem p, x, y⟩ :: _ =>
    let old := s.atomOld tid wide ⟨k, .mem p, x, y⟩
    ((op.through wide old ls).flatMap fun v => s.flips p (if wide then 8 else 4) old.toNat v.toNat).flatMap s.granuleLines
  | _ => []

/-- What the home must do before it performs an atomic's lanes on one word of memory: whether they change the word, and then
the dies to tell and whether host lines come back for a bias flip (R247, R260, R332). -/
def State.atomShares (s : State) (tid : Nat) (op : AtomOp) (wide : Bool) (ls : List AtomLane) : Option (List Nat) :=
  match ls with
  | [] => none
  | l :: _ =>
    match l.tgt with
    | .mem _ =>
      let old := s.atomOld tid wide l
      if (op.through wide old ls).all (· == old) then none
      else
        let ds := s.sharers (l.locs tid wide) ((s.teams.get? tid).map (·.core))
        if ds.isEmpty ∧ (s.flipLines tid op wide ls).isEmpty then none else some ds
    | _ => none

/-- Whether an atomic's or irrevocable load's place is free of pending words (R332). -/
def State.placeFree (s : State) (tid n : Nat) (t : AtomTgt) : Bool :=
  !(t.locs tid n).any fun l => s.pend.any fun e => e.1 = l

/-- The wave's irrevocable access goes on with what is left of it. -/
def State.irrevLeft (s : State) (wid : Nat) (r : Option Irrev) : State :=
  let s := s.updWave wid fun w => { w with irrev := r }
  if r.isNone then s.fabDone wid else s

/-- The lanes of an unperformed remote load that read with lane `k`: those of its 32-byte sector (R253), and the others. -/
def sameSector (ls : List (Nat × Phys)) (k : Nat) : List (Nat × Phys) × List (Nat × Phys) :=
  match ls.find? fun e => e.1 = k with
  | some a =>
    let same (e : Nat × Phys) : Bool := e.2.sp == a.2.sp && e.2.addr / 32 == a.2.addr / 32
    (ls.filter same, ls.filter fun e => !same e)
  | none => ([], ls)

/-- The place of memory that an access names. -/
def AtomTgt.phys? : AtomTgt → Option Phys
  | .mem p => some p
  | _ => none

/-- The place of memory that lanes of an atomic name together. -/
def atomPlace (ls : List AtomLane) : Option Phys := ls.head?.bind fun l => l.tgt.phys?

/-- Whether the share of lane y of wave x's irrevocable access may go on now: an atomic's place is free of other pending words
and acknowledged everywhere, a load's sector is free (R332, R234). -/
def State.canAtomic (s : State) (x y : Nat) : Bool :=
  match s.waves.get? x with
  | none => false
  | some w =>
    match w.irrev with
    | none => false
    | some (.atom _ _ _ ls (some (l, ds))) => ds.isEmpty && (samePlace ls l).1.any fun e => e.lane == y
    | some (.atom _ _ wide ls none) =>
      match (samePlace ls y).1 with
      | [] => false
      | l :: _ => s.placeFree w.tid (if wide then 8 else 4) l.tgt && (l.tgt.phys?.map s.keyComing) != some true
    | some (.load _ z ls) =>
      !(sameSector ls y).1.isEmpty && (sameSector ls y).1.all fun e => s.placeFree 0 (Size.bytes z) (.mem e.2)

/-- Perform the lanes of wave x's atomic that name one place, and go on with the rest. -/
def State.performAtomic (s : State) (x : Nat) (w : Wave) (seq : Nat) (op : AtomOp) (wide : Bool)
    (g : List AtomLane × List AtomLane) : State :=
  let own := ((s.teams.get? w.tid).map (·.owner)).getD 0
  let s := s.unpend x (g.1.flatMap fun l => l.locs w.tid wide)
  (s.atomicGroup own w.tid x seq op wide g.1).irrevLeft x
    (if g.2.isEmpty then none else some (.atom seq op wide g.2 none))

/-- Go on with lane y's share of wave x's irrevocable access. An atomic waits for its line's key (R311).
One that changes a shared word first makes it pending and tells the dies (R332, R247); performed, it answers its lanes. A load reads one sector. -/
def State.doAtomic (s : State) (x y : Nat) : State :=
  match s.waves.get? x with
  | none => s
  | some w =>
    match w.irrev with
    | none => s
    | some (.atom seq op wide ls await) =>
      let g := samePlace ls y
      match await, (await.map fun _ => none).getD ((atomPlace g.1).bind s.missingKey), s.atomShares w.tid op wide g.1 with
      | none, some k, _ => s.wantKeys [k]
      | none, none, some ds =>
        let s := (s.flipLines w.tid op wide g.1).foldl (fun s l => s.backInvalidate l) s
        { s with pend := s.pend ++ (atomLocs w.tid y wide ls).map fun l => (l, x) }.updWave x fun w =>
          { w with irrev := some (.atom seq op wide ls (some (y, ds))) }
      | _, _, _ => s.performAtomic x w seq op wide g
    | some (.load seq z ls) =>
      let g := sameSector ls y
      (g.1.foldl (fun t e => t.updWave x fun w =>
        w.answer seq e.1 (Size.words z (s.homeBytes w.tid (.mem e.2) (Size.bytes z)))) s).irrevLeft x
          (if g.2.isEmpty then none else some (.load seq z g.2))

/-- Bring what a wave has pending at a home to its end: the dies still to acknowledge do, then it is performed. -/
def State.finishPending (s : State) (x : Nat) : State :=
  match s.waves.get? x with
  | none => s
  | some w =>
    match w.irrev with
    | some (.atom _ _ _ _ (some (y, ds))) => (ds.foldl (fun s d => s.doInvalidate x d) s).doAtomic x y
    | _ =>
      match w.head with
      | some e => if e.sent then (e.await.foldl (fun s d => s.doInvalidate x d) s).doAck x else s
      | none => s

/-- What is pending on some words is performed: an agent's access to them waits for it (R332), and regions whose conditions hold by
then commit (R338). Log entry 8, DEDUCED. -/
def State.quiet (s : State) (ls : List Loc) : State :=
  (((s.pend.filter fun p => ls.contains p.1).map (·.2)).eraseDups).foldl (fun s x => (s.finishPending x).commitAll) s

/-- A write of an agent performed as one act, after what is pending on its words (R331, R332). Log entry 8, DEDUCED. -/
def State.perform (s : State) (sp : Space) (key : Nat) (bs : List (Nat × Byte)) (writer : Option Nat)
    (atomic : Bool := false) : State :=
  (s.quiet (wordLocs sp bs)).performNow sp key bs writer atomic

/-- The home takes an access of n bytes of an agent, line by line (R240, R246, R329). -/
def State.homeTouches (s : State) (own : Nat) (p : Phys) (n : Nat) (write : Bool) : State :=
  (List.range (ceilDiv (p.addr % 64 + n) 64)).foldl
    (fun s i => s.homeTouch own { p with addr := p.addr / 64 * 64 + 64 * i } write) s

/-- An access of the device itself to a peer needs an answer for each line of its n bytes (R231, R252); `bytes` is the data that
goes with each request. -/
def State.askLines (s : State) (die own : Nat) (p : Phys) (n bytes : Nat) : State :=
  if p.tier ≠ 2 then s
  else (List.range (ceilDiv (p.addr % 128 + n) 128)).foldl
    (fun s i => s.need (.line die own { p with addr := p.addr / 128 * 128 + 128 * i } bytes)) s

/-- A read of an agent at its home: what is pending on its words is performed, and the home takes the access (R332). -/
def State.agentReads (s : State) (own : Nat) (p : Phys) (n : Nat) (die : Nat := 16) : State :=
  ((s.askLines die own p n 0).quiet ((AtomTgt.mem p).locs 0 n)).homeTouches own p n false

/-- A write of an agent at its home. -/
def State.agentWrites (s : State) (own : Nat) (p : Phys) (bs : List Byte) (die : Nat := 16) : State :=
  ((s.askLines die own p bs.length 128).homeTouches own p bs.length true).perform p.sp p.key (placed p.addr bs) none

end Sys2Proof.Machine
end

