-- ==== Sys2Proof/Machine/Rings.lean ====
section
/-! DEFINITION. The device's own accesses through an owner's addresses (R51), the rings it appends to (R74, R221, R399,
R411), the access counters (R220 to R222) and MSI-X (R72). -/

namespace Sys2Proof.Machine

/-- Bytes as the front reads them (R51), or what stops the read. -/
def State.frontRead (s : State) (own va n : Nat) : Except Access (List Byte) :=
  match s.frontAccess own .load va with
  | .ok _ p => .ok (s.bytesAt p.sp p.key p.addr n)
  | a => .error a

/-- A store of the front (R51), one of the single order; nothing if the access is stopped. -/
def State.frontWrite (s : State) (own va : Nat) (bs : List Byte) : Except Access State :=
  let s := s.walkTouch own va
  match s.frontAccess own .store va with
  | .ok _ p => .ok (s.agentWrites own p bs)
  | a => .error a

/-- A doubleword as the front reads it. -/
def State.frontWord (s : State) (own va : Nat) : Except Access Nat :=
  match s.frontRead own va 8 with
  | .ok bs => .ok (leValue bs)
  | .error a => .error a

/-- What became of an entry a ring was to take. -/
inductive Posted where
  | done (s : State)
  | full
  | blocked (s : State) (a : Access)

/-- The homes serve the walk and the read of the front: what is pending on its words is performed first (R332), a host's copy
comes back (R246), the line is filled (R329). -/
def State.frontReady (s : State) (own va n : Nat) : State :=
  let s := s.walkTouch own va
  match s.frontAccess own .load va with
  | .ok _ p => s.agentReads own p n
  | _ => s

/-- The device uses a ring's control block: HEAD, TAIL and STATUS are read at their homes, and their place is watched from then
on (R222). -/
def State.ringReady (s : State) (own : Nat) (r : Ring) (put : Option Ring → Owner → Owner) : State :=
  let s := ((s.frontReady own r.block 8).frontReady own (r.block + 8) 8).frontReady own (r.block + 16) 8
  match s.frontAccess own .load r.block with
  | .ok _ p => s.updOwner own (put (some { r with place := some p }))
  | _ => s

/-- The completion event ring of an owner. -/
def Owner.withRing (r : Option Ring) (o : Owner) : Owner := { o with ring := r }

/-- The migration queue of an owner. -/
def Owner.withMigQ (r : Option Ring) (o : Owner) : Owner := { o with migQ := r }

/-- The fault queue of an owner. -/
def Owner.withFaultQ (r : Option Ring) (o : Owner) : Owner := { o with faultQ := r }

/-- The violation log of an owner. -/
def Owner.withVlog (r : Option Ring) (o : Owner) : Owner := { o with vlog := r }

/-- Append an entry: its stores, then TAIL + 1 (R74, R222, R399). Log entry 36, DESIGN CHOICE. -/
def State.append (s : State) (own : Nat) (r : Ring) (size : Nat) (entry : Nat → List Byte) : Posted :=
  match s.frontWord own r.block, s.frontWord own (r.block + 8) with
  | .ok head, .ok tail =>
    if tail - head ≥ 2 ^ r.logSize then .full
    else
      match s.frontWrite own (r.block + 256 + size * (tail % 2 ^ r.logSize)) (entry tail) with
      | .error a => .blocked s a
      | .ok s1 =>
        match s1.frontWrite own (r.block + 8) (leBytes 8 (tail + 1)) with
        | .error a => .blocked s1 a
        | .ok s2 => .done s2
  | .error a, _ => .blocked s a
  | _, .error a => .blocked s a

/-- STATUS after `n` more dropped entries: OVF set, DROPPED saturating (R221, R222). -/
def statusAfter (v n : Nat) : Nat := 2 ^ 63 + min (v % 2 ^ 32 + n) 0xFFFFFFFF

/-- Count dropped entries in STATUS. -/
def State.bumpStatus (s : State) (own : Nat) (r : Ring) (n : Nat) : Except Access State :=
  match s.frontWord own (r.block + 16) with
  | .ok v => s.frontWrite own (r.block + 16) (leBytes 8 (statusAfter v n))
  | .error a => .error a

/-- The code of an access kind in a fault or violation entry (R399, R411). -/
def AccKind.code : AccKind → Nat
  | .load => 0
  | .store => 1
  | .atomic => 2
  | .fetch => 3
  | .engineRead => 4
  | .engineWrite => 5
  | .walk => 6

/-- The code of a violation's cause (R411). -/
def ViolCause.code : ViolCause → Nat
  | .permission => 1
  | .malformed => 2
  | .range => 3
  | .bulletinTag => 4
  | .keyAbsent => 5
  | .unusedRange => 6

/-- A violation log entry (R411). -/
def violEntry (v : Viol) (pc launch core seq : Nat) : List Byte :=
  leBytes 8 v.addr ++ leBytes 8 pc ++ leBytes 4 launch ++ leBytes 1 v.cause.code ++ leBytes 1 v.kind.code ++
    leBytes 2 core ++ leBytes 1 (if v.phys then 1 else 0) ++ leBytes 3 0 ++ leBytes 4 seq

/-- Log a protection violation of an owner (R411): instruction PC, $launch and core, or 0, 0 and 0xFFFF for an agent.
Log entry 77, DESIGN CHOICE. -/
def State.logViol (s : State) (own : Nat) (v : Viol) (pc launch core : Nat) : State :=
  match s.owners.get? own with
  | none => s
  | some o =>
    match o.vlog with
    | none => s
    | some r =>
      let s := s.ringReady own r .withVlog
      match s.append own r 32 (fun _ => violEntry v pc launch core o.vlogSeq) with
      | .done s => s.updOwner own fun o => { o with vlogSeq := o.vlogSeq + 1 }
      | .full =>
        match s.bumpStatus own r 1 with
        | .ok s => s
        | .error _ => s
      | .blocked s _ => s

/-- Log what stopped an access of an agent, if it was a violation. -/
def State.logAccess (s : State) (own : Nat) (a : Access) : State :=
  match a with
  | .viol v => s.logViol own v 0 0 0xFFFF
  | _ => s

/-- Add dropped events to STATUS of the completion event ring; a count that cannot be stored is held, and a violation that
stops the store is logged (R74, R411). -/
def State.dropEvents (s : State) (own : Nat) (r : Ring) (n : Nat) : State :=
  match s.bumpStatus own r n with
  | .ok s => s.updOwner own fun o => { o with ringDropped := 0 }
  | .error a => (s.logAccess own a).updOwner own fun o => { o with ringDropped := n }

/-- Post an entry on the owner's completion event ring and signal MSI-X (R72, R74). A held count of dropped events is stored
after the next entry that is posted. Log entry 77, DESIGN CHOICE; log entry 78, DESIGN CHOICE. -/
def State.postEvent (s : State) (own ident value : Nat) : State :=
  match s.owners.get? own with
  | none => s
  | some o =>
    match o.ring with
    | none => s.updOwner own fun o => { o with ringDropped := o.ringDropped + 1 }
    | some r =>
      let s := s.ringReady own r .withRing
      let s :=
        match s.append own r 16 (fun _ => leBytes 8 ident ++ leBytes 8 value) with
        | .done s => if o.ringDropped = 0 then s else s.dropEvents own r o.ringDropped
        | .full => s.dropEvents own r (o.ringDropped + 1)
        | .blocked s a => (s.logAccess own a).dropEvents own r (o.ringDropped + 1)
      { s with msix := s.msix ++ [(own, r.vector)] }

/-- A fault entry (R399). -/
def faultEntry (f : FaultEnt) : List Byte :=
  leBytes 8 f.va ++ leBytes 8 f.pc ++ leBytes 4 (f.slot.getD 0xFFFFFFFF) ++
    leBytes 1 (match f.cause with
      | .page => 1
      | .migration => 2
      | .lease => 3) ++
    leBytes 1 f.kind.code ++ leBytes 2 f.core ++ leBytes 4 f.launch ++ leBytes 4 f.seq

/-- A fault waits for room in the owner's fault queue (R399). -/
def State.queueFault (s : State) (own : Nat) (f : FaultEnt) : State × Nat :=
  match s.owners.get? own with
  | none => (s, 0)
  | some o =>
    (s.updOwner own fun o => { o with
        faults := o.faults ++ [{ f with seq := o.faultSeq, posted := false }], faultSeq := o.faultSeq + 1 }, o.faultSeq)

/-- A migration queue entry (R221): page, count, key, buffer, rank, sequence number. -/
def migEntry (page count key seq : Nat) : List Byte :=
  leBytes 8 page ++ leBytes 4 count ++ leBytes 1 key ++ leBytes 1 (bufferOf page) ++ leBytes 1 (rankOf page) ++ leBytes 1 seq

/-- The buffers with queued pages of an owner watch the HEAD word of its migration queue (R222, R330). -/
def State.watchHead (s : State) (own : Nat) : State :=
  match ((s.owners.get? own).bind (·.migQ)).bind (·.place) with
  | some p =>
    if p.sp = .peer then s
    else (s.queuedPages.filter fun e => e.1 = own).foldl (fun s e =>
      let u := bufferOf (65536 * e.2.1)
      s.watch (u / 2) (lineId p.sp p.addr) u) s
  | none => s

/-- A page that has crossed its owner's threshold is posted on the owner's queue and marked, or its posting is counted as
dropped (R222). A queued page is never posted again. -/
def State.postCrossing (s : State) (x : Crossing) : State :=
  match (s.owners.get? x.own).bind (·.migQ) with
  | none => s
  | some r =>
    if s.queuedPages.any fun e => e.2.1 = x.page then s
    else
      let s := s.ringReady x.own r .withMigQ
      match s.frontWord x.own r.block, s.frontWord x.own (r.block + 8) with
      | .ok head, .ok tail =>
        let s := s.passHead x.own head
        match s.append x.own r 16 (fun i => migEntry (65536 * x.page) x.count x.key i) with
        | .done s => { s with queuedPages := s.queuedPages ++ [(x.own, x.page, tail)] }.watchHead x.own
        | .full =>
          match s.bumpStatus x.own r 1 with
          | .ok s => s
          | .error a => s.logAccess x.own a
        | .blocked s a => s.logAccess x.own a
      | .error a, _ => s.logAccess x.own a
      | _, .error a => s.logAccess x.own a

/-- The pages that have crossed a threshold are posted (R222). -/
def State.postCrossings (s : State) : State := s.crossings.foldl State.postCrossing { s with crossings := [] }

end Sys2Proof.Machine
end

