-- ==== Sys2Proof/Machine/Ops.lean ====
section
/-! DEFINITION. Taking a trap and returning from one (R387 to R396), exits (R15, R173, R431), failing a launch (R410), and
the movement of a wave's lanes when an instruction has issued (R109 to R115). -/

namespace Sys2Proof.Machine

/-- Cause codes of R388. -/
def Cause.code : Cause → Nat
  | .illegal => 0x01
  | .privileged => 0x02
  | .window => 0x03
  | .misaligned => 0x04
  | .uniformity => 0x05
  | .formatDivergence => 0x06
  | .collectiveDivergence => 0x07
  | .format => 0x08
  | .alignment => 0x09
  | .bounds => 0x0A
  | .protection => 0x0B
  | .hostAtomic => 0x0C
  | .handle => 0x0D
  | .bank => 0x0E
  | .engineOperand => 0x0F
  | .multicast => 0x10
  | .layout => 0x11
  | .index => 0x12
  | .barrier => 0x13
  | .queue => 0x14
  | .orphanedQueue => 0x15
  | .claimDeadlock => 0x16
  | .task => 0x17
  | .breakpoint => 0x18
  | .software => 0x19

/-- A launch fails with a status and detail (R410): its waves stop issuing, and the discard follows. The first failure
stands. -/
def State.failLaunch (s : State) (lid status detail : Nat) : State :=
  s.updLaunch lid fun l => if l.fail.isNone then { l with fail := some (status, detail) } else l

/-- Every launch of an owner that has placed a team takes a fatal error (R409). -/
def State.failOwner (s : State) (own detail : Nat) : State :=
  { s with launches := s.launches.map fun e =>
      if e.2.owner = own ∧ e.2.stage = .running ∧ e.2.fail.isNone then (e.1, { e.2 with fail := some (8, detail) }) else e }

/-- Whether a launch has failed. -/
def State.failed (s : State) (lid : Nat) : Bool :=
  match s.launches.get? lid with
  | some l => l.fail.isSome
  | none => false

/-- The handler entry of a team (R387): the image's, else its owner's default. -/
def State.handlerOf (s : State) (t : Team) : Option Nat :=
  match t.handler with
  | some h => some h
  | none => (s.owners.get? t.owner).bind (·.handler)

/-- The trap registers at entry (R388, R389). The count of retries goes on at the same PC and cause. -/
def trapRegs (w : Wave) (i : TrapInfo) (pc : PC) (word : Word) : TrapRegs where
  cause := i.cause.code
  pc := pc
  word := word
  lanes := i.lanes
  addr := i.addr
  val := i.val
  prevLevel := w.level
  prevBase := w.base
  depth := 1
  retries := if w.trap.pc = pc ∧ w.trap.cause = i.cause.code then w.trap.retries else 0

/-- The wave in its handler (R390 to R392). -/
def Wave.inHandler (w : Wave) (i : TrapInfo) (set : Mask) (pc : PC) (word : Word) (entry : PC) : Wave :=
  { w with
    recd := some ⟨w.pcs, w.base, w.level, w.fpmode, w.fflags, w.srseed, set⟩
    trap := trapRegs w i pc word
    pcs := [(entry, w.live)]
    level := .s
    fpmode := 0
    fflags := 0
    brCount := 0
    qCount := 0
    sweep := none
    parked := false
    waiting := none
    absentWait := false
    sleep := none
    claiming := none
    stop := none }

/-- Taking a trap (R390): the one shared operation. At S it is a double trap, without a handler an unhandled one (R393,
R396). The violation behind it is logged (R411). -/
def State.takeTrap (s : State) (wid : Nat) (i : TrapInfo) (set : Mask) (pc : PC) (word : Word) : State :=
  match s.waves.get? wid with
  | none => s
  | some w =>
    match s.teams.get? w.tid with
    | none => s
    | some t =>
      let short := ((s.launches.get? t.lid).map (·.short)).getD 0
      let s := match i.viol with
        | some v => s.logViol t.owner v pc.toNat short t.core
        | none => s
      if w.level ≠ .u then s.failLaunch t.lid 8 (0x200 + i.cause.code)
      else
        match s.handlerOf t with
        | none => s.failLaunch t.lid 8 (0x100 + i.cause.code)
        | some h => (s.count t.core 5).setWave wid (w.inHandler i set pc word (BitVec.ofNat 57 h))

/-- Whether a wave may take a trap now (R343, R390): no region open, every class V result returned, nothing
unperformed. -/
def Wave.clean (w : Wave) : Bool := w.region.isNone && w.outst.isEmpty && !w.unperformed

/-- An instruction raises a trap: it is taken at once if the wave is clean, else the wave stops issuing until it is. -/
def State.raise (s : State) (wid : Nat) (i : TrapInfo) (set : Mask) (pc : PC) (word : Word) : State :=
  match s.waves.get? wid with
  | none => s
  | some w =>
    if w.clean then s.takeTrap wid i set pc word
    else s.setWave wid { w with stop := some ⟨.trap i, set, pc, word⟩, waiting := none }

/-- Threads of a team's wave are counted for R63 and its tasks end when they exit (R431, R367). -/
def State.endTasks (s : State) (wid : Nat) (lanes : Mask) : State :=
  match s.waves.get? wid with
  | none => s
  | some w =>
    match s.teams.get? w.tid with
    | none => s
    | some t =>
      let n := (lanesOf (w.holds &&& lanes)).length
      if n = 0 then s
      else
        ((s.check [.task t.lid] (some wid)).updWave wid fun w => { w with holds := w.holds &&& ~~~lanes }).updLaunch t.lid
          fun l => { l with inFlight := l.inFlight - n }

/-- The lanes that leave when a set exits (R15): its threads, and every helper lane of a quad with no thread left. A helper
lane whose quad still has a thread stays live. Log entry 19, DEDUCED. -/
def Wave.exiting (w : Wave) (lanes : Mask) : Mask :=
  let left := w.counted &&& ~~~lanes
  (lanes &&& w.counted) ||| (w.helper &&& w.live &&& maskOf ((List.range 64).filter fun l =>
    (List.range 4).all fun i => !hasLane left (l / 4 * 4 + i)))

/-- Lanes leave the wave (R173, R431). -/
def Wave.without (w : Wave) (lanes : Mask) : Wave :=
  { w with live := w.live &&& ~~~lanes, exited := w.exited ||| (lanes &&& w.threads), pcs := pcsRemove lanes w.pcs }

/-- The threads of a launch (R63). -/
def Launch.threads (l : Launch) : Nat :=
  match l.shape with
  | some x => l.gangs * x.nTeams * x.nThreads
  | none => 0

/-- Whether every thread of a launch has triggered or exited (R63). Log entry 70, DEDUCED. -/
def Launch.allTriggered (l : Launch) : Bool := l.shape.isSome && l.trigDone == l.threads

/-- Whether a predecessor field names a launch. -/
def Pred.names (p : Pred) (l : Launch) : Bool := p.queue == l.queue && p.seq == l.seq

/-- Dependants of a launch of its owner become satisfied by a condition on their predecessor field (R63, R64).
Log entry 70, DEDUCED. -/
def State.satisfy (s : State) (l : Launch) (by_ : Pred → Bool) : State :=
  let ok (p : Option Pred) : Bool := match p with
    | some p => p.names l && by_ p
    | none => false
  { s with launches := s.launches.map fun e =>
      if e.2.owner = l.owner then
        (e.1, { e.2 with sat0 := e.2.sat0 || ok e.2.pred0, sat1 := e.2.sat1 || ok e.2.pred1 })
      else e }

/-- Threads of a wave trigger or exit, each counted once; the last one satisfies the "after trigger" dependants of a launch that has
not failed (R63, R64, R353, R431). Log entry 70, DEDUCED. -/
def State.markTriggered (s : State) (wid : Nat) (lanes : Mask) : State :=
  match s.waves.get? wid with
  | none => s
  | some w =>
    match s.teams.get? w.tid with
    | none => s
    | some t =>
      let n := (lanesOf (lanes &&& w.threads &&& ~~~w.triggered)).length
      let s := s.setWave wid { w with triggered := w.triggered ||| (lanes &&& w.threads) }
      let s := s.updLaunch t.lid fun l => { l with trigDone := l.trigDone + n }
      match s.launches.get? t.lid with
      | some l => if l.allTriggered ∧ l.fail.isNone then s.satisfy l (·.trigger) else s
      | none => s

/-- The threads of lanes exit: their tasks are completed and the helper lanes of emptied quads go with them. -/
def State.exitLanes (s : State) (wid : Nat) (lanes : Mask) : State :=
  ((s.endTasks wid lanes).markTriggered wid lanes).updWave wid fun w => w.without (w.exiting lanes)

/-- Whether a command is an EMBAG. -/
def CmdKind.isBag : CmdKind → Bool
  | .embag _ _ _ _ _ _ => true
  | _ => false

/-- The embedding commands of a team that have taken their index list and not issued yet (R316 step 2). -/
def State.begun (s : State) (tid : Nat) : List Nat :=
  (s.cmds.filter fun e => e.2.tid == tid && !e.2.queued && e.2.kind.isBag).map (·.1)

/-- A team's waves wait for nothing any more: claims of registers and banks are withdrawn, begun embedding commands taken
back. -/
def State.dropClaims (s : State) (tid : Nat) : State :=
  let s := (s.begun tid).foldl (fun s c => s.withdraw c) s
  let s := s.updTeam tid fun t => { t with claims := [] }
  match s.teams.get? tid with
  | some t => s.updCluster t.cluster fun c => { c with abq := c.abq.filter fun e => e.1 / 16 != tid }
  | none => s

/-- Every thread of a team exits (R395, TRET 3). -/
def State.killTeam (s : State) (tid : Nat) : State :=
  ((s.teamWaves tid).foldl (fun s e =>
    (s.exitLanes e.1 e.2.live).updWave e.1 fun w =>
      { w with stop := none, waiting := none, sleep := none, claiming := none }) s).dropClaims tid

/-- A lane's target in hidden registers 14 and 15 (R395). Log entry 17, DEDUCED. -/
def Wave.fixedPc (w : Wave) (l : Nat) : DWord := pair (w.read ⟨true, 14⟩ l) (w.read ⟨true, 15⟩ l)

/-- Where the lanes stand after TRET 0, 1 or 2: trapped lanes by the action, the others where they were recorded. -/
def Wave.returnPcs (w : Wave) (r : Recorded) (k : TretAct) : List (PC × Mask) :=
  pcsMove (r.trapped &&& w.live) (fun l =>
    match k with
    | .retry => some w.trap.pc
    | .skip => some (w.trap.pc + 4)
    | _ => some (if hasLane w.helper l ∧ (w.fixedPc l).toNat % 4 ≠ 0 then w.trap.pc + 4
        else (w.fixedPc l).setWidth 57)) (pcsRemove (~~~w.live) r.pcs)

/-- The wave back at U (R391, R395). Flags of results still to return are the handler's own, which end with it. -/
def Wave.returned (w : Wave) (r : Recorded) (k : TretAct) : Wave :=
  { w with
    pcs := w.returnPcs r k
    level := .u
    base := r.base
    fpmode := r.fpmode
    fflags := r.fflags
    srseed := r.srseed
    recd := none
    outst := w.outst.map fun o => { o with flags := 0 }
    trap := { w.trap with depth := 0, retries := if k = .retry then min (w.trap.retries + 1) 255 else 0 } }

/-- Leaving a handler by TRET 0, 1 or 2 (R395), the return beside `takeTrap`. Log entry 17, DEDUCED. -/
def State.leaveTrap (s : State) (wid : Nat) (k : TretAct) : State :=
  match s.waves.get? wid with
  | none => s
  | some w =>
    match w.recd with
    | none => s
    | some r => s.setWave wid (w.returned r k)

/-- Where lanes go next: their next PC, or none where they leave. -/
abbrev Next := Nat → Option PC

/-- All lanes go to one PC. -/
def toPc (p : PC) : Next := fun _ => some p

/-- Whether a wave has threads at more than one PC. Log entry 46, DEDUCED. -/
def Wave.divided (w : Wave) : Bool := decide (1 < w.pcs.length)

/-- Whether every lane of one PC set of the list is a lane of the mask. -/
def aloneAt (pcs : List (PC × Mask)) (m : Mask) : Bool :=
  pcs.any fun e => e.2 &&& m ≠ 0#64 ∧ e.2 &&& ~~~m = 0#64

/-- The turning set after an issue (R113): the part at the lowest PC, and none when the turn ends. Log entry 45, DEDUCED. -/
def Sweep.step (sw : Sweep) (pcs : List (PC × Mask)) (back : Bool) : Sweep :=
  match pcs.find? fun e => e.2 &&& sw.turn ≠ 0#64 with
  | none => { sw with had := sw.had ||| sw.turn, turn := 0, count := 0 }
  | some e =>
    let part := e.2 &&& sw.turn
    let merged := e.2 &&& ~~~part ≠ 0#64
    if back ∨ merged ∨ 64 ≤ sw.count + 1 then { sw with had := sw.had ||| part, turn := 0, count := 0 }
    else { sw with turn := part, count := sw.count + 1 }

/-- The schedule's books after an issue (R112, R113): the counters while other sets exist, or the turn of a sweep. -/
def Wave.issued (w : Wave) (divided : Bool) (pcs : List (PC × Mask)) (back : Bool) : Wave :=
  let w := { w with pcs := pcs, waiting := none, absentWait := false, cautious := if 1 < w.cautious then w.cautious - 1 else w.cautious }
  match w.sweep with
  | some sw =>
    let w := { w with sweep := some (sw.step pcs back) }
    if pcs.length ≤ 1 then { w with brCount := 0, qCount := 0 } else w
  | none =>
    if pcs.length ≤ 1 ∨ !divided then { w with brCount := 0, qCount := 0 }
    else { w with qCount := w.qCount + 1, brCount := if back then w.brCount + 1 else w.brCount }

/-- An S-marked instruction parks the wave until its outstanding results have returned (R91). -/
def Wave.marked (w : Wave) (word : Word) : Wave :=
  if word.getLsbD 31 ∧ (!w.outst.isEmpty ∨ w.irrev.isSome) then { w with parked := true } else w

/-- An instruction has issued for the set named by `cur`: lanes move, the schedule's books are kept, the switch marker
acts, and the issue is counted (R110, R416). -/
def State.finish (s : State) (next : Next) (back : Bool := false) : State :=
  match s.waves.get? s.cur.wid with
  | none => s
  | some w =>
    let core := ((s.teams.get? w.tid).map (·.core)).getD 0
    let pcs := pcsMove (s.cur.set &&& w.live) next w.pcs
    let w := (w.issued w.divided pcs back).marked s.cur.word
    { (s.setWave s.cur.wid w).count core 0 with seq := s.seq + 1 }

/-- The set of `cur` waits under "wait until": every set of the wave waits (R9, R109). -/
def State.wait (s : State) : State := s.updWave s.cur.wid fun w => { w with waiting := some s.cur.set }

end Sys2Proof.Machine
end

