-- ==== Sys2Proof/Machine/Queue.lean ====
section
/-! DEFINITION. Entries of the store buffer (R254, R338) and the queue registers: channels and the embedding result port
(R356 to R361, R320). -/

namespace Sys2Proof.Machine

/-- Values a channel holds for a lane (R361 COUNT); a port's for a port. -/
def Binding.count (b : Binding) (l : Nat) : Nat :=
  if b.port then (b.vals.get [] l).length else b.pushed.get 0 l - b.popped.get 0 l

/-- The local address of a channel's slot for a lane's n-th value (R357). -/
def Binding.slot (b : Binding) (l n : Nat) : Nat := b.base + 256 * (n % 2 ^ b.logCap) + 4 * l

/-- Pushes to a queue for a lane, still unperformed, in some store buffers. -/
def pendingPushes (ws : List (Nat × Wave)) (q l : Nat) : Nat :=
  (ws.map fun e => ((e.2.sbuf ++ e.2.spilling.getD []).filter fun x => match x.op with
    | .push k vs => k == q && vs.any fun v => v.1 == l
    | _ => false).length).sum

/-- Whether some push to a queue is unperformed. -/
def anyPush (ws : List (Nat × Wave)) (q : Nat) : Bool :=
  ws.any fun e => (e.2.sbuf ++ e.2.spilling.getD []).any fun x => match x.op with
    | .push k _ => k == q
    | _ => false

/-- Whether a push has room in a lane's FIFO, counting the pushes not yet performed (R358). -/
def State.hasRoom (s : State) (tid q : Nat) (b : Binding) (l : Nat) : Bool :=
  decide (b.count l + pendingPushes (s.teamWaves tid) q l < 2 ^ b.logCap)

/-- Whether an embedding command still has values for a lane of a port (R359, R320). -/
def Cmd.owesLane (c : Cmd) (q l : Nat) : Bool :=
  match c.kind with
  | .embag r _ _ none k bags =>
    k == q && bags.any fun b => b.lane == l &&
      (List.range r.dim).any fun e => !c.done.contains (4096 * l + e)
  | _ => false

/-- Whether no value can ever arrive for a lane of a queue (R359). Log entry 95, DEDUCED. -/
def State.noneComing (s : State) (tid q : Nat) (b : Binding) (l : Nat) : Bool :=
  if b.port then !s.cmds.any fun e => e.2.tid == tid && e.2.owesLane q l
  else
    let ws := s.teamWaves tid
    !anyPush ws q && ws.all fun e => e.2.live == 0#64 || !b.prod.testBit e.2.idx

/-- Whether a pop by a lane would raise the orphaned-queue trap now (R359, R361). -/
def State.orphaned (s : State) (tid q : Nat) (b : Binding) (l : Nat) : Bool :=
  b.count l == 0 && s.noneComing tid q b l

/-- The oldest value of a lane's FIFO. -/
def Team.front (t : Team) (b : Binding) (l : Nat) : Word :=
  if b.port then ((b.vals.get [] l).head?).getD 0 else t.lsWord (b.slot l (b.popped.get 0 l))

/-- One value popped in each of the lanes. -/
def Binding.pop (b : Binding) (lanes : Mask) : Binding :=
  if b.port then
    { b with vals := (lanesOf lanes).foldl (fun v l => v.set [] l ((v.get [] l).drop 1)) b.vals }
  else { b with popped := (lanesOf lanes).foldl (fun p l => p.set 0 l (p.get 0 l + 1)) b.popped }

/-- A push is performed: the values go to the next slots and become poppable (R358). -/
def State.performPush (s : State) (tid q : Nat) (vs : List (Nat × Word)) (writer : Option Nat) : State :=
  match (s.teams.get? tid).bind fun t => t.queues.get? q with
  | none => s
  | some b =>
    let bs := vs.flatMap fun (l, v) => placed (b.slot l (b.pushed.get 0 l)) (leBytes 4 v.toNat)
    let s := (s.check [.chan tid q] writer).performLs tid bs writer
    s.updTeam tid fun t => { t with queues := t.queues.upd q fun b =>
      { b with pushed := vs.foldl (fun p e => p.set 0 e.1 (p.get 0 e.1 + 1)) b.pushed } }

/-- Lanes pop a value each from a queue. -/
def State.popQueue (s : State) (tid q : Nat) (lanes : Mask) (reader : Option Nat) : State :=
  (s.check [.chan tid q] reader).updTeam tid fun t => { t with queues := t.queues.upd q fun b => b.pop lanes }

end Sys2Proof.Machine
end

