-- ==== Sys2Proof/Machine/Operands.lean ====
section
/-! DEFINITION. Every operand form: window registers and units (R95 to R98), queue registers (R99, R100), hidden registers
(R392), helper lanes (R15, R108), the decode checks 3 to 5 (R106), uniform operands (R117), and the issue of an instruction
for the set named by `cur`. -/

namespace Sys2Proof.Machine

/-- The issuing wave, its team and set, as an instruction's meaning sees them. -/
structure Ctx where
  s : State
  wid : Nat
  w : Wave
  t : Team
  set : Mask
  pc : PC
  word : Word

/-- The context of `cur`, when it names a wave. Log entry 52, DESIGN CHOICE. -/
def State.ctx (s : State) : Option Ctx :=
  match s.waves.get? s.cur.wid with
  | none => none
  | some w =>
    match s.teams.get? w.tid with
    | none => none
    | some t => some ⟨s, s.cur.wid, w, t, s.cur.set &&& w.live, s.cur.pc, s.cur.word⟩

/-- Whether the issuing wave runs at S. -/
def State.atS (s : State) : Bool :=
  match s.ctx with
  | some c => c.w.level == .s
  | none => false

/-- The counted lanes of the set: live and no helper lanes (R249). -/
def Ctx.cnt (c : Ctx) : Mask := c.set &&& ~~~c.w.helper

/-- Whether the set is made only of helper lanes (R118). -/
def Ctx.onlyHelpers (c : Ctx) : Bool := c.cnt == 0#64

/-- The lowest counted lane. -/
def Ctx.first (c : Ctx) : Nat := lowestLane c.cnt

/-- The PC of the following word. -/
def Ctx.pc4 (c : Ctx) : PC := c.pc + 4

/-- What an instruction's fields name, and the decode checks that need more than the word. -/
structure Form where
  /-- destinations with their units, as register fields -/
  dst : List (Reg × Nat) := []
  /-- sources with their units -/
  src : List (Reg × Nat) := []
  /-- check 3 of R106 fails for a reason outside the word's own fields -/
  illegal : Bool := false
  /-- check 4 of R106 fails -/
  priv : Bool := false

/-- A trap of the issuing set that reports its counted lanes (R389). -/
def Ctx.trapOf (c : Ctx) (cause : Cause) (val : Word := 0) (addr : DWord := 0) : TrapInfo :=
  ⟨cause, c.cnt, val, addr, none⟩

/-- Whether a unit reaches past the allocation from the window base (R97). -/
def Ctx.past (c : Ctx) (e : Reg × Nat) : Bool :=
  match e.1 with
  | .v n => decide (c.w.alloc < n + e.2 + c.w.base)
  | .q _ => false

/-- The number of a register field (R95). -/
def fieldOf : Reg → Nat
  | .v n => n
  | .q n => 120 + n

/-- Decode checks 3 to 5 (R106): the queue registers of a handler (R392), privilege, the window (R97). Log entry 84, DEDUCED. -/
def Ctx.check (c : Ctx) (f : Form) : Option TrapInfo :=
  if c.w.level = .s ∧ ((f.dst ++ f.src).any fun e => e.1.isQ) then some (c.trapOf .illegal)
  else if f.illegal then some (c.trapOf .illegal)
  else if f.priv then some (c.trapOf .privileged)
  else if c.w.level = .s then none
  else
    match (f.dst ++ f.src).find? c.past with
    | some e => some (c.trapOf .window (BitVec.ofNat 32 (fieldOf e.1)))
    | none => none

/-- The registers of a window unit. -/
def Ctx.unit (c : Ctx) (e : Reg × Nat) : List PReg :=
  match e.1 with
  | .v n => (List.range e.2).map fun i => c.w.phys (n + i)
  | .q _ => []

/-- The registers an instruction writes. -/
def Ctx.targets (c : Ctx) (f : Form) : List PReg := f.dst.flatMap c.unit

/-- How an instruction ends. -/
inductive Res where
  /-- it raises a trap -/
  | trap (i : TrapInfo)
  /-- it raises a trap after taking back what it had begun -/
  | trapFrom (s : State) (i : TrapInfo)
  /-- it meets a parking fault -/
  | park (p : ParkInfo)
  /-- it meets a parking fault after translations that succeeded -/
  | parkFrom (s : State) (p : ParkInfo)
  /-- it waits and is executed again -/
  | wait
  /-- it waits, with an effect that has begun -/
  | hold (s : State)
  /-- it has issued; every lane of the set goes on to pc + 4 -/
  | go (s : State)
  /-- it has issued; each lane goes to its own next PC; whether R112 counts a backward branch -/
  | jump (s : State) (n : Next) (back : Bool)
  /-- it has issued; lanes as for `jump`; then the schedule itself is acted on (R114, R395) -/
  | after (s : State) (n : Next) (f : State → State)

/-- The context with the destinations' first write in a region copied to shadow storage (R336). -/
def Ctx.shadow (c : Ctx) (f : Form) : Ctx :=
  if c.w.region.isNone then c
  else
    let w := c.w.shadowed (c.targets f)
    { c with s := c.s.setWave c.wid w, w := w }

/-- Write 0 into an instruction's destinations in every lane of the set (R15). -/
def Ctx.zeroed (c : Ctx) (f : Form) : State :=
  c.s.setWave c.wid ((c.targets f).foldl (fun w p => w.writeLanes p c.set fun _ => 0) c.w)

/-- A fault or trap caused by helper lanes alone is not raised (R15); the zeros it leaves in the destinations are writes
like any other (R336). -/
def Ctx.suppressed (c : Ctx) (f : Form) : State := ((c.shadow f).zeroed f).finish (toPc c.pc4)

/-- The wave of the set stops to park its team (R398). -/
def State.parks (s : State) (wid : Nat) (p : ParkInfo) (set : Mask) (pc : PC) (word : Word) : State :=
  s.updWave wid fun w => { w with stop := some ⟨.park p, set, pc, word⟩, waiting := none }

/-- Put an instruction's end into effect. `c` holds the state before it. -/
def Ctx.settle (c : Ctx) (f : Form) (r : Res) : State :=
  match r with
  | .trap i => if c.onlyHelpers then c.suppressed f else c.s.raise c.wid i c.set c.pc c.word
  | .trapFrom s i => s.raise c.wid i c.set c.pc c.word
  | .park p =>
    if c.onlyHelpers then c.suppressed f
    else c.s.setWave c.wid { c.w with stop := some ⟨.park p, c.set, c.pc, c.word⟩, waiting := none }
  | .parkFrom s p => s.parks c.wid p c.set c.pc c.word
  | .wait => c.s.wait
  | .hold s => s.wait
  | .go s => s.finish (toPc c.pc4)
  | .jump s n b => s.finish n b
  | .after s n f => f (s.finish n)

/-- The issue of an instruction for the set named by `cur`: decode checks 3 to 5, for helper lanes alone without a trap
(R107, R108); room in shadow storage (R336); then its own execution. -/
def issue (f : Form) (body : Ctx → Res) (s : State) : Out :=
  match s.ctx with
  | none => .refused .noIssuingWave
  | some c =>
    match c.check f with
    | some i => .next (if c.onlyHelpers then s.finish (toPc c.pc4) else s.raise c.wid i c.set c.pc c.word)
    | none =>
      if c.w.shadowRoom (c.targets f) then .next (c.settle f (body (c.shadow f)))
      else .next s.wait

/-- Word i of a window unit in a lane. -/
def Ctx.reg (c : Ctx) (r : Reg) (l : Nat) (i : Nat := 0) : Word :=
  match r with
  | .v n => c.w.read (c.w.phys (n + i)) l
  | .q _ => 0

/-- A pair in a lane (R8). -/
def Ctx.regW (c : Ctx) (r : Reg) (l : Nat) (i : Nat := 0) : DWord := pair (c.reg r l i) (c.reg r l (i + 1))

/-- The distinct queue registers among source fields, a's before b's (R100). -/
def queuesOf (rs : List Reg) : List Nat :=
  (rs.filterMap fun r => match r with
    | .q n => some n
    | .v _ => none).eraseDups

/-- Why a queue read cannot pop now: a trap, or values still to come (R356, R359). Log entry 21, DEDUCED. -/
def Ctx.popStop (c : Ctx) (q : Nat) : Option Res :=
  match c.t.queues.get? q with
  | none => some (.trap (c.trapOf .queue (BitVec.ofNat 32 q)))
  | some b =>
    let orphans := (lanesOf c.cnt).filter fun l => c.s.orphaned c.w.tid q b l
    if !orphans.isEmpty then
      some (.trap { c.trapOf .orphanedQueue (BitVec.ofNat 32 q) with lanes := maskOf orphans })
    else if (lanesOf c.cnt).all fun l => decide (0 < b.count l) then none
    else some .wait

/-- A source operand in a lane: a window register's word, or the value the lane pops; a helper lane pops nothing and
reads 0 (R100). -/
def Ctx.operand (c : Ctx) (r : Reg) (l : Nat) : Word :=
  match r with
  | .v _ => c.reg r l
  | .q q =>
    if hasLane c.w.helper l then 0
    else
      match c.t.queues.get? q with
      | some b => c.t.front b l
      | none => 0

/-- What one lane of an instruction produces: the words of its destination and the flags it raises. -/
structure LaneOut where
  vals : List Word
  flags : FpFlags := {}

/-- The words of a lane. -/
def LaneOut.word (o : LaneOut) (i : Nat) : Word := o.vals.getD i 0

/-- The flags the counted lanes raise together (R148). -/
def Ctx.flagsOf (c : Ctx) (out : Nat → LaneOut) : Word :=
  (lanesOf c.cnt).foldl (fun f l => f ||| (out l).flags.word) 0#32

/-- Write results of class F in every lane of the set and merge their flags (R120, R148). -/
def Ctx.writeF (c : Ctx) (d : Reg) (u : Nat) (out : Nat → LaneOut) (s : State) : State :=
  s.updWave c.wid fun w =>
    ((c.unit (d, u)).mapIdx (fun i p => (i, p))).foldl (fun w e => w.writeLanes e.2 c.set fun l => (out l).word e.1) w
      |>.orFlags (c.flagsOf out)

/-- The results of a unit in the lanes of a mask, as they go outstanding; flags come with the first word of a counted
lane (R120, R121, R148). -/
def Ctx.owed (c : Ctx) (m : Mask) (d : Reg) (u : Nat) (out : Nat → LaneOut) (ready : Bool) : List Outst :=
  (lanesOf m).flatMap fun l => (c.unit (d, u)).mapIdx fun i p =>
    ⟨c.s.seq, i, some p, true, l, (out l).word i, if i = 0 ∧ hasLane c.cnt l then (out l).flags.word else 0, ready⟩

/-- Results of class V of the lanes of a mask are outstanding. -/
def Ctx.oweLanes (c : Ctx) (m : Mask) (d : Reg) (u : Nat) (out : Nat → LaneOut) (s : State) : State :=
  s.updWave c.wid fun w => { w with outst := w.outst ++ c.owed m d u out true }

/-- Results of the lanes of a mask whose values are not there yet. -/
def Ctx.awaitLanes (c : Ctx) (m : Mask) (d : Reg) (u : Nat) (s : State) : State :=
  s.updWave c.wid fun w => { w with outst := w.outst ++ c.owed m d u (fun _ => ⟨[], {}⟩) false }

/-- Results of class V of every lane of the set. -/
def Ctx.writeV (c : Ctx) (d : Reg) (u : Nat) (out : Nat → LaneOut) (s : State) : State := c.oweLanes c.set d u out s

/-- Why a push cannot be made now (R356, R358). Log entry 21, DEDUCED. -/
def Ctx.pushStop (c : Ctx) (q : Nat) : Option Res :=
  match c.t.queues.get? q with
  | none => some (.trap (c.trapOf .queue (BitVec.ofNat 32 q)))
  | some b =>
    if b.port ∨ !b.prod.testBit c.w.idx then some (.trap (c.trapOf .queue (BitVec.ofNat 32 q)))
    else if (lanesOf c.cnt).all fun l => c.s.hasRoom c.w.tid q b l then none
    else some .wait

/-- The line of the local store that a lane's next value will lie in. -/
def Ctx.pushLine (c : Ctx) (q l : Nat) : Nat :=
  match c.t.queues.get? q with
  | some b => 8 * (b.slot l (b.pushed.get 0 l + pendingPushes (c.s.teamWaves c.w.tid) q l) / 128) + 3
  | none => 3

/-- What a push puts into the store buffer, in lane order: an entry for each line of the local store (R254). -/
def Ctx.pushEntries (c : Ctx) (q : Nat) (vals : List (Nat × Word)) : List (Nat × SbOp) :=
  (runs (fun r x => r.all fun y => c.pushLine q y.1 == c.pushLine q x.1) vals).map fun r =>
    (((r.head?).map fun v => c.pushLine q v.1).getD 0, .push q r)

/-- Push one value per counted lane (R100, R358), merging the flags of the operation. -/
def Ctx.push (c : Ctx) (q : Nat) (out : Nat → LaneOut) (s : State) : State :=
  s.updWave c.wid fun w =>
    (w.enter s.seq (c.pushEntries q ((lanesOf c.cnt).map fun l => (l, (out l).word 0)))).orFlags (c.flagsOf out)

/-- The first of some results that stops an instruction. Log entry 21, DEDUCED. -/
def firstStop : List (Option Res) → Option Res
  | [] => none
  | some r :: _ => some r
  | none :: t => firstStop t

/-- A lane-wise instruction on single registers: its sources, queue registers included; its own execution trap; its
result per lane, which may step the wave first (R155, R156, R179). -/
structure LaneOp where
  d : Reg
  srcs : List Reg
  /-- class V by itself (R120) -/
  classV : Bool := false
  /-- the execution trap, from the operands -/
  stop : Ctx → Option TrapInfo := fun _ => none
  /-- the wave before the lanes act (the stochastic generator of R144) -/
  pre : Ctx → Wave := fun c => c.w
  /-- what a lane produces -/
  out : Ctx → Nat → LaneOut

/-- What stops an instruction with queue fields: the first trap, else the first wait (R100). -/
def queueStop (stops : List (Option Res)) : Option Res :=
  let traps (r : Option Res) : Option Res := match r with
    | some (.trap i) => some (.trap i)
    | _ => none
  match firstStop (stops.map traps) with
  | some r => some r
  | none => firstStop stops

/-- Stops of a lane-wise instruction in their order: queue traps, then room and values, then its own trap (R100). -/
def LaneOp.stops (o : LaneOp) (c : Ctx) : Option Res :=
  let push := match o.d with
    | .q q => c.pushStop q
    | .v _ => none
  match queueStop ((queuesOf o.srcs).map c.popStop ++ [push]) with
  | some r => some r
  | none => (o.stop c).map .trap

/-- The execution of a lane-wise instruction. -/
def LaneOp.run (o : LaneOp) (c : Ctx) : Res :=
  match o.stops c with
  | some r => r
  | none =>
    let c1 := { c with w := o.pre c }
    let s := if (o.pre c).srseed = c.w.srseed then c.s else c.s.updWave c.wid fun w => { w with srseed := c1.w.srseed }
    let s := (queuesOf o.srcs).foldl (fun s q => s.popQueue c.w.tid q c.cnt (some c.wid)) s
    match o.d with
    | .q q => .go (c.push q (o.out c1) s)
    | .v _ =>
      if o.classV ∨ !(queuesOf o.srcs).isEmpty then .go (c.writeV o.d 1 (o.out c1) s)
      else .go (c.writeF o.d 1 (o.out c1) s)

/-- Issue a lane-wise instruction; `reads` names a destination read as a source too. -/
def LaneOp.exec (o : LaneOp) (s : State) : Out :=
  issue { dst := [(o.d, 1)], src := o.srcs.map fun r => (r, 1) } o.run s

/-- A lane-wise operation of one operand. -/
def alu1 (d a : Reg) (f : Word → Word) (s : State) : Out :=
  LaneOp.exec { d := d, srcs := [a], out := fun c l => ⟨[f (c.operand a l)], {}⟩ } s

/-- A lane-wise operation of two operands. -/
def alu2 (d a b : Reg) (f : Word → Word → Word) (s : State) : Out :=
  LaneOp.exec { d := d, srcs := [a, b], out := fun c l => ⟨[f (c.operand a l) (c.operand b l)], {}⟩ } s

/-- A lane-wise operation of two operands and the old destination. -/
def alu3 (d a b : Reg) (f : Word → Word → Word → Word) (s : State) : Out :=
  LaneOp.exec { d := d, srcs := [a, b], out := fun c l => ⟨[f (c.operand a l) (c.operand b l) (c.reg d l)], {}⟩ } s

/-- The execution of a lane-wise instruction on window units, class F (R98). -/
def Ctx.runF (c : Ctx) (d : Reg) (u : Nat) (out : Ctx → Nat → LaneOut) : Res := .go (c.writeF d u (out c) c.s)

/-- The two words of a 64-bit result. -/
def wide (x : DWord) : LaneOut := ⟨[loWord x, hiWord x], {}⟩

/-- A lane-wise pair operation of one pair operand (R98). -/
def aluW1 (d a : Reg) (f : DWord → DWord) (s : State) : Out :=
  issue { dst := [(d, 2)], src := [(a, 2)] } (fun c => c.runF d 2 fun c l => wide (f (c.regW a l))) s

/-- A lane-wise pair operation of two pair operands. -/
def aluW2 (d a b : Reg) (f : DWord → DWord → DWord) (s : State) : Out :=
  issue { dst := [(d, 2)], src := [(a, 2), (b, 2)] }
    (fun c => c.runF d 2 fun c l => wide (f (c.regW a l) (c.regW b l))) s

/-- A lane-wise operation with a pair result, some of whose single sources may be queue registers (R99, R100): it pops
them, and is of class V then (R120). -/
def popPair (f : Form) (d : Reg) (singles : List Reg) (out : Ctx → Nat → LaneOut) (s : State) : Out :=
  issue f
    (fun c =>
      match queueStop ((queuesOf singles).map c.popStop) with
      | some r => r
      | none =>
        let s := (queuesOf singles).foldl (fun s q => s.popQueue c.w.tid q c.cnt (some c.wid)) c.s
        if (queuesOf singles).isEmpty then .go (c.writeF d 2 (out c) s) else .go (c.writeV d 2 (out c) s)) s

/-- A lane-wise shift of a pair by a single register, which may be a queue register (R99). -/
def aluWS (d a b : Reg) (f : DWord → Word → DWord) (s : State) : Out :=
  popPair { dst := [(d, 2)], src := [(a, 2), (b, 1)] } d [b] (fun c l => wide (f (c.regW a l) (c.operand b l))) s

/-- A product of two single registers into a pair; its sources may be queue registers only where
R99 allows them, as single registers of the INT group. -/
def aluWP (d a b : Reg) (f : Word → Word → DWord) (s : State) : Out :=
  popPair { dst := [(d, 2)], src := [(a, 1), (b, 1)] } d [a, b]
    (fun c l => wide (f (c.operand a l) (c.operand b l))) s

/-- Whether the counted lanes agree in a word (R117). -/
def Ctx.uniform (c : Ctx) (f : Nat → Word) : Bool := (lanesOf c.cnt).all fun l => f l == f c.first

/-- The checks of R117 in order: format words first to differ raise the format-divergence trap, other words the
uniformity trap. Log entry 93, DESIGN CHOICE. -/
def Ctx.uniformStop (c : Ctx) (words : List (Nat → Word)) (fmt : List (Nat → Word) := []) : Option TrapInfo :=
  if !(fmt.all c.uniform) then some (c.trapOf .formatDivergence)
  else if !(words.all c.uniform) then some (c.trapOf .uniformity)
  else none

/-- The words of a unit as per-lane functions. -/
def Ctx.words (c : Ctx) (r : Reg) (n : Nat) : List (Nat → Word) := (List.range n).map fun i l => c.reg r l i

/-- A collective: helper lanes alone pass with 0 in their destinations and no other effect (R118); else the uniform
operands are checked and the instruction acts once (R116, R117). -/
def collective (f : Form) (dst : Option (Reg × Nat)) (uni fmt : Ctx → List (Nat → Word)) (body : Ctx → Res) (s : State) :
    Out :=
  issue f
    (fun c =>
      if c.onlyHelpers then
        match dst with
        | none => .go c.s
        | some (d, n) => .go (c.writeV d n (fun _ => ⟨[], {}⟩) c.s)
      else
        match c.uniformStop (uni c) (fmt c) with
        | some i => .trap i
        | none => body c) s

/-- The same word written to every lane of the set as a class V result. -/
def Ctx.answer (c : Ctx) (d : Reg) (ws : List Word) (s : State) : State := c.writeV d ws.length (fun _ => ⟨ws, {}⟩) s

/-- The signed readings of the sources (R155). -/
def sgn (x : Word) : Int := x.toInt

end Sys2Proof.Machine
end

