-- ==== Sys2Proof/Machine/Float.lean ====
section
/-! DEFINITION. FP32 arithmetic (R180 to R182), one-operand functions but for the transcendental ones (R183, R184), and
packed halves (R187). -/

namespace Sys2Proof.Machine

/-- The wave with its generator stepped once, when the rounding mode is stochastic (R144). Log entry 9, DEDUCED. -/
def Wave.draw (w : Wave) (rm : Rm) : Wave := if rm = .stoch then { w with srseed := seedStep w.srseed } else w

/-- The random number of a lane and element under the wave's generator as it now stands (R144). -/
def Wave.rand (w : Wave) (l j : Nat) : Nat := stochBits w.srseed l j

/-- An FP32 operand as arithmetic reads it (R180). -/
def Ctx.fop (c : Ctx) (r : Reg) (l : Nat) : Num := f32 (flush c.w.ftz (c.operand r l))

/-- A correctly rounded FP32 operation on the exact values of a, b and d (R181). -/
def fpRounded (d a b : Reg) (f : Rm → Num → Num → Num → Num × Bool) (s : State) : Out :=
  LaneOp.exec
    { d := d, srcs := [a, b], pre := fun c => c.w.draw c.w.rm
      out := fun c l =>
        let x := f c.w.rm (c.fop a l) (c.fop b l) (f32 (flush c.w.ftz (c.reg d l)))
        let r := round32 c.w.rm c.w.ftz (c.w.rand l 0) x.1 x.2
        ⟨[r.1], r.2⟩ } s

/-- An FP32 comparison: NV for any NaN when `quiet` is false, else only for a signalling one (R181). -/
def fpCompare (d a b : Reg) (quiet : Bool) (onNan : Bool) (f : Int → Bool) (s : State) : Out :=
  LaneOp.exec
    { d := d, srcs := [a, b]
      out := fun c l =>
        let x := c.fop a l
        let y := c.fop b l
        let nan := x.isNan || y.isNan
        ⟨[boolWord (if nan then onNan else f (x.cmp y))],
          { nv := if quiet then x.signals || y.signals else nan }⟩ } s

/-- FMIN and FMAX (R182). -/
def fpMinMax (d a b : Reg) (max : Bool) (s : State) : Out :=
  LaneOp.exec
    { d := d, srcs := [a, b]
      out := fun c l =>
        let r := minMax32 max c.w.ftz (c.operand a l) (c.operand b l)
        ⟨[r.1], r.2⟩ } s

/-- FADD (R181). -/
def execFadd (d a b : Reg) (s : State) : Out := fpRounded d a b (fun rm x y _ => x.add rm y) s

/-- FSUB (R181). -/
def execFsub (d a b : Reg) (s : State) : Out := fpRounded d a b (fun rm x y _ => x.add rm y.neg) s

/-- FMUL (R181). -/
def execFmul (d a b : Reg) (s : State) : Out := fpRounded d a b (fun _ x y _ => x.mul y) s

/-- FFMA (R181). -/
def execFfma (d a b : Reg) (s : State) : Out := fpRounded d a b (fun rm x y z => Num.fma rm x y z) s

/-- FFMS (R181). -/
def execFfms (d a b : Reg) (s : State) : Out := fpRounded d a b (fun rm x y z => Num.fma rm x y z.neg) s

/-- FNFMA (R181). -/
def execFnfma (d a b : Reg) (s : State) : Out := fpRounded d a b (fun rm x y z => Num.fma rm x.neg y z) s

/-- FMIN (R182). -/
def execFmin (d a b : Reg) (s : State) : Out := fpMinMax d a b false s

/-- FMAX (R182). -/
def execFmax (d a b : Reg) (s : State) : Out := fpMinMax d a b true s

/-- FCOPYSIGN (R181): a bit operation. -/
def execFcopysign (d a b : Reg) (s : State) : Out :=
  alu2 d a b (fun x y => (x &&& 0x7FFFFFFF#32) ||| (y &&& 0x80000000#32)) s

/-- FCMPEQ (R181). -/
def execFcmpeq (d a b : Reg) (s : State) : Out := fpCompare d a b true false (fun k => k = 0) s

/-- FCMPLT (R181). -/
def execFcmplt (d a b : Reg) (s : State) : Out := fpCompare d a b false false (fun k => k < 0) s

/-- FCMPLE (R181). -/
def execFcmple (d a b : Reg) (s : State) : Out := fpCompare d a b false false (fun k => k ≤ 0) s

/-- FCMPUN (R181). -/
def execFcmpun (d a b : Reg) (s : State) : Out := fpCompare d a b true true (fun _ => false) s

/-- FABS (R183). -/
def execFabs (d a : Reg) (s : State) : Out := alu1 d a (fun x => x &&& 0x7FFFFFFF#32) s

/-- FNEG (R183). -/
def execFneg (d a : Reg) (s : State) : Out := alu1 d a (fun x => x ^^^ 0x80000000#32) s

/-- A value rounded to an integer, which may set NX (R183): canonical NaN, infinities and zeros as they are, the sign
kept. -/
def toIntegral (rm : Rm) (u : Nat) (nx : Bool) (x : Num) : Num × FpFlags :=
  match x with
  | .nan q => (.nan false, { nv := q })
  | .inf n => (.inf n, {})
  | .fin n m => (.fin n ⟨roundNat rm n u m.n m.d, 1⟩, { nx := nx && m.n % m.d != 0 })

/-- FFLOOR, FCEIL, FTRUNC and FRINT (R183). -/
def fpIntegral (d a : Reg) (rm : Wave → Rm) (rint : Bool) (s : State) : Out :=
  LaneOp.exec
    { d := d, srcs := [a], pre := fun c => if rint then c.w.draw (rm c.w) else c.w
      out := fun c l =>
        let r := toIntegral (rm c.w) (c.w.rand l 0) rint (c.fop a l)
        ⟨[(round32 .rne false 0 r.1 false).1], r.2⟩ } s

/-- FFLOOR (R183). -/
def execFfloor (d a : Reg) (s : State) : Out := fpIntegral d a (fun _ => .rdn) false s

/-- FCEIL (R183). -/
def execFceil (d a : Reg) (s : State) : Out := fpIntegral d a (fun _ => .rup) false s

/-- FTRUNC (R183). -/
def execFtrunc (d a : Reg) (s : State) : Out := fpIntegral d a (fun _ => .rtz) false s

/-- FRINT (R183). -/
def execFrint (d a : Reg) (s : State) : Out := fpIntegral d a Wave.rm true s

/-- The class bit of a code (R184). -/
def fclass (x : Word) : Nat :=
  match f32 x with
  | .nan q => if q then 8 else 9
  | .inf n => if n then 0 else 7
  | .fin n m =>
    if m.n = 0 then (if n then 3 else 4)
    else if isSub32 x then (if n then 2 else 5) else (if n then 1 else 6)

/-- FCLASS (R184). -/
def execFclass (d a : Reg) (s : State) : Out := alu1 d a (fun x => BitVec.ofNat 32 (2 ^ fclass x)) s

/-- One rounded half of a packed operation (R187). -/
def halfRounded (k : Kind) (rm : Rm) (u : Nat) (x : Num × Bool) : Coded :=
  let r := k.round false rm u x.1
  ⟨r.code, { r.flags with nv := r.flags.nv || x.2 }⟩

/-- Two halves in one register with the flags of both. -/
def packHalves (lo hi : Coded) : LaneOut := ⟨[BitVec.ofNat 32 (hi.code * 65536 + lo.code)], lo.flags.or hi.flags⟩

/-- A packed-half operation on the halves' exact values (R187): FTZ never applies. -/
def halfOp (k : Kind) (d a b : Reg) (f : Rm → Num → Num → Num → Num × Bool) (s : State) : Out :=
  LaneOp.exec
    { d := d, srcs := [a, b], pre := fun c => c.w.draw c.w.rm
      out := fun c l =>
        let one (h : Nat) : Coded := halfRounded k c.w.rm (c.w.rand l h)
          (f c.w.rm (k.decode (half (c.operand a l) h)) (k.decode (half (c.operand b l) h)) (k.decode (half (c.reg d l) h)))
        packHalves (one 0) (one 1) } s

/-- A packed minimum or maximum (R187, R182). -/
def halfMinMax (k : Kind) (d a b : Reg) (max : Bool) (s : State) : Out :=
  LaneOp.exec
    { d := d, srcs := [a, b]
      out := fun c l =>
        let one (h : Nat) : Coded :=
          let x := half (c.operand a l) h
          let y := half (c.operand b l) h
          let r := minMaxNum max k.nanOr0 x y (k.decode x) (k.decode y)
          ⟨r.1, r.2⟩
        packHalves (one 0) (one 1) } s

/-- HADD2.B (R187). -/
def execHadd2B (d a b : Reg) (s : State) : Out := halfOp .bf16 d a b (fun rm x y _ => x.add rm y) s

/-- HSUB2.B (R187). -/
def execHsub2B (d a b : Reg) (s : State) : Out := halfOp .bf16 d a b (fun rm x y _ => x.add rm y.neg) s

/-- HMUL2.B (R187). -/
def execHmul2B (d a b : Reg) (s : State) : Out := halfOp .bf16 d a b (fun _ x y _ => x.mul y) s

/-- HFMA2.B (R187). -/
def execHfma2B (d a b : Reg) (s : State) : Out := halfOp .bf16 d a b (fun rm x y z => Num.fma rm x y z) s

/-- HMIN2.B (R187). -/
def execHmin2B (d a b : Reg) (s : State) : Out := halfMinMax .bf16 d a b false s

/-- HMAX2.B (R187). -/
def execHmax2B (d a b : Reg) (s : State) : Out := halfMinMax .bf16 d a b true s

/-- HADD2.H (R187). -/
def execHadd2H (d a b : Reg) (s : State) : Out := halfOp .fp16 d a b (fun rm x y _ => x.add rm y) s

/-- HSUB2.H (R187). -/
def execHsub2H (d a b : Reg) (s : State) : Out := halfOp .fp16 d a b (fun rm x y _ => x.add rm y.neg) s

/-- HMUL2.H (R187). -/
def execHmul2H (d a b : Reg) (s : State) : Out := halfOp .fp16 d a b (fun _ x y _ => x.mul y) s

/-- HFMA2.H (R187). -/
def execHfma2H (d a b : Reg) (s : State) : Out := halfOp .fp16 d a b (fun rm x y z => Num.fma rm x y z) s

/-- HMIN2.H (R187). -/
def execHmin2H (d a b : Reg) (s : State) : Out := halfMinMax .fp16 d a b false s

/-- HMAX2.H (R187). -/
def execHmax2H (d a b : Reg) (s : State) : Out := halfMinMax .fp16 d a b true s

end Sys2Proof.Machine
end

