-- ==== Sys2Proof/Machine/Convert.lean ====
section
/-! DEFINITION. Conversions (R188 to R191) and the quantiser (R150, R151) with QSCALE (R192). -/

namespace Sys2Proof.Machine

/-- A value times 2^k. -/
def Num.scale (x : Num) (k : Int) : Num :=
  match x with
  | .fin n m => .fin n (m.scale k)
  | y => y

/-- What a CVT-group instruction accepts in a format word (R189): source and destination kinds, the block sizes each half
may name. -/
structure CvtFmt where
  src : Kind → Bool := fun _ => true
  dst : Kind → Bool := fun _ => true
  srcBlk : Nat → Bool := fun b => b == 0
  dstBlk : Nat → Bool := fun b => b == 0

/-- The source half of a format word, if it passes every check of R140 and R189. -/
def CvtFmt.srcHalf (f : CvtFmt) (w : Word) : Option Half :=
  (Half.ofBits (w.toNat % 65536)).filter fun a => bitsOf w.toNat 11 8 == 0 && f.src a.kind && f.srcBlk a.blk

/-- The destination half of a format word, if it passes every check. -/
def CvtFmt.dstHalf (f : CvtFmt) (w : Word) : Option Half :=
  (Half.ofBits (w.toNat / 65536)).filter fun b => f.dst b.kind && f.dstBlk b.blk

/-- The halves of a format word, if no check of R140 and R189 fails. -/
def CvtFmt.halves (f : CvtFmt) (w : Word) : Option (Half × Half) :=
  match f.srcHalf w, f.dstHalf w with
  | some a, some b => some (a, b)
  | _, _ => none

/-- The failing half that $tval reports (R388): the low half if it fails, else the high half. -/
def CvtFmt.failing (f : CvtFmt) (w : Word) : Word :=
  BitVec.ofNat 32 (if (f.srcHalf w).isNone then w.toNat % 65536 else w.toNat / 65536)

/-- Kinds of one byte. -/
def Kind.isByte (k : Kind) : Bool := k.bits == 8

/-- Kinds 1, 2 and 7 of two bytes. -/
def Kind.isHalf (k : Kind) : Bool := k.bits == 16

/-- A conversion's code without NV where its source is a NaN of the binary8 family, which never sets NV (R134).
Log entry 60, DEDUCED. -/
def Coded.quiet (r : Coded) (src : Kind) (x : Num) : Coded :=
  if src.is8 ∧ x.isNan then { r with flags := { r.flags with nv := false } } else r

/-- One conversion: its code and flags (R190). Log entry 60, DEDUCED. -/
def Half.conv (dst : Half) (src : Kind) (u a : Nat) : Coded :=
  (dst.kind.round dst.sat dst.rm u (src.decode a)).quiet src (src.decode a)

/-- The format trap of R140: some counted lane's format word fails. -/
def Ctx.formatStop (c : Ctx) (f : CvtFmt) (fmt : Nat → Word) : Option TrapInfo :=
  match (lanesOf c.cnt).find? fun l => (f.halves (fmt l)).isNone with
  | none => none
  | some l => some (c.trapOf .format (f.failing (fmt l)))

/-- The generator steps once if some lane rounds stochastically (R144). -/
def Ctx.drawFor (c : Ctx) (f : CvtFmt) (fmt : Nat → Word) : Wave :=
  if (lanesOf c.set).any fun l => ((f.halves (fmt l)).map fun h => decide (h.2.rm = .stoch)).getD false then
    c.w.draw .stoch
  else c.w

/-- Elements of one lane together in one register, each in a field of a width. -/
def packed (width : Nat) (es : List Coded) : LaneOut :=
  ⟨[BitVec.ofNat 32 (es.foldr (fun e n => e.code % 2 ^ width + 2 ^ width * n) 0)],
    es.foldl (fun f e => f.or e.flags) {}⟩

/-- Elements of one lane in registers of their own (R188). -/
def unpacked (k : Kind) (es : List Coded) : LaneOut :=
  ⟨es.map fun e => k.toWord e.code, es.foldl (fun f e => f.or e.flags) {}⟩

/-- A CVT-group instruction other than CVT and QSCALE: units of d and a, what a lane's words become. -/
def cvtBlock (f : CvtFmt) (d : Reg) (du : Nat) (a : Reg) (au : Nat) (b : Reg) (classV : Bool)
    (out : Half → Half → Word → (Nat → Nat) → (Nat → Nat) → LaneOut) (s : State) : Out :=
  issue { dst := [(d, du)], src := [(a, au), (b, 1)] }
    (fun c =>
      match c.formatStop f (c.reg b) with
      | some i => .trap i
      | none =>
        let w := c.drawFor f (c.reg b)
        let s := c.s.updWave c.wid fun x => { x with srseed := w.srseed }
        let lane (l : Nat) : LaneOut :=
          match f.halves (c.reg b l) with
          | none => ⟨[], {}⟩
          | some (x, y) => out x y (c.reg d l) (fun i => (c.reg a l i).toNat) (w.rand l)
        .go (if classV then c.writeV d du lane s else c.writeF d du lane s)) s

/-- CVT (R190). -/
def execCvt (d a b : Reg) (s : State) : Out :=
  LaneOp.exec
    { d := d, srcs := [a, b]
      stop := fun c => c.formatStop {} (c.operand b)
      pre := fun c => c.drawFor {} (c.operand b)
      out := fun c l =>
        match CvtFmt.halves {} (c.operand b l) with
        | none => ⟨[], {}⟩
        | some (x, y) => unpacked y.kind [y.conv x.kind (c.w.rand l 0) (c.operand a l).toNat] } s

/-- CVT.PACK (R190). -/
def execCvtPack (d a b : Reg) (s : State) : Out :=
  cvtBlock { dst := Kind.isByte } d 1 a 4 b false
    (fun x y _ v u => packed 8 ((List.range 4).map fun i => y.conv x.kind (u i) (v i))) s

/-- CVT.UNPK (R190): a is read at issue. -/
def execCvtUnpk (d a b : Reg) (s : State) : Out :=
  cvtBlock { src := Kind.isByte } d 4 a 1 b false
    (fun x y _ v u => unpacked y.kind ((List.range 4).map fun i => y.conv x.kind (u i) (v 0 / 2 ^ (8 * i)))) s

/-- CVT.PACK2 (R190). -/
def execCvtPack2 (d a b : Reg) (s : State) : Out :=
  cvtBlock { dst := Kind.isHalf } d 1 a 2 b false
    (fun x y _ v u => packed 16 ((List.range 2).map fun i => y.conv x.kind (u i) (v i))) s

/-- CVT.UNPK2 (R190). -/
def execCvtUnpk2 (d a b : Reg) (s : State) : Out :=
  cvtBlock { src := Kind.isHalf } d 2 a 1 b false
    (fun x y _ v u => unpacked y.kind ((List.range 2).map fun i => y.conv x.kind (u i) (v 0 / 2 ^ (16 * i)))) s

/-- One element of CVT.PACKS under a scale code (R191). -/
def Half.packScaled (y : Half) (c : Nat) (u : Nat) (x : Num) : Coded :=
  if c = 0xFF then ⟨y.kind.nanOr0, {}⟩
  else if c = 0 then ⟨0, {}⟩
  else y.kind.round y.sat y.rm u (x.scale (128 - (c : Int)))

/-- CVT.PACKS (R191): the scale code is read from d at issue. -/
def execCvtPacks (d a b : Reg) (s : State) : Out :=
  cvtBlock { src := fun k => k = .fp32, dst := Kind.isByte, dstBlk := fun _ => true } d 1 a 4 b true
    (fun x y old v u => packed 8 ((List.range 4).map fun i =>
      y.packScaled (old.toNat % 256) (u i) (x.kind.decode (v i)))) s

/-- The value of an element under a scale code, and whether the scale made it a NaN (R191). -/
def unscaled (c : Nat) (x : Num) : Num × Bool :=
  if x.isNan then (.nan false, false)
  else if c = 0xFF then (.nan false, true)
  else if c = 0 then (if x.isInf then (.nan false, true) else (.zero, false))
  else (x.scale ((c : Int) - 128), false)

/-- One element of CVT.UNPKS under a scale code: a NaN element sets no flag, a NaN that the scale made sets NV (R191). -/
def Half.unpackScaled (y : Half) (c : Nat) (u : Nat) (x : Num) : Coded :=
  let e := unscaled c x
  let r := y.kind.round y.sat y.rm u e.1
  if e.1.isNan then ⟨r.code, { nv := e.2 }⟩ else r

/-- CVT.UNPKS (R191): the scale code is read from d at issue. -/
def execCvtUnpks (d a b : Reg) (s : State) : Out :=
  cvtBlock { src := Kind.isByte, srcBlk := fun _ => true } d 4 a 1 b true
    (fun x y old v u => unpacked y.kind ((List.range 4).map fun i =>
      y.unpackScaled (old.toNat % 256) (u i) (x.kind.decode (v 0 / 2 ^ (8 * i))))) s

/-- The exact error of one element under a candidate, added to an error sum in FP32 (R151). -/
def errStep (y : Half) (rm : Rm) (c : Int) (err x : Num) : Num :=
  let q := y.kind.decode (y.kind.round y.sat rm 0 (x.scale (128 - c))).code
  if q.isNan ∨ q.isInf then .inf false
  else
    let d := f32 (rne32 (x.add .rne (q.scale (c - 128)).neg).1)
    f32 (rne32 (err.add .rne (f32 (rne32 (d.mul d).1))).1)

/-- A scale code between 1 and 254. -/
def clampCode (c : Int) : Int := max 1 (min 254 c)

/-- The result of the quantiser's search: scale code, NONFINITE, UNDERSCALE. -/
structure Scale where
  code : Nat
  nonfinite : Bool
  underscale : Bool
  deriving DecidableEq, Repr

/-- The largest magnitude among values. -/
def amax (xs : List Num) : Mag :=
  xs.foldl (fun m x => match x with
    | .fin _ n => if m.lt n then n else m
    | _ => m) ⟨0, 1⟩

/-- The quantiser's search for a scale code (R151). -/
def quantScale (y : Half) (xs : List Num) : Scale :=
  if xs.any fun x => x.isNan || x.isInf then ⟨0xFF, true, false⟩
  else if (amax xs).n = 0 then ⟨1, false, false⟩
  else
    let k := (amax xs).log2 - y.kind.emax + 128
    let c0 := clampCode k
    let rm := if y.rm = .stoch then .rne else y.rm
    let cands := [clampCode (c0 + 1), c0, clampCode (c0 - 1)].eraseDups
    let best : Option (Int × Num) := cands.foldl (fun (b : Option (Int × Num)) c =>
      let e := xs.foldl (errStep y rm c) .zero
      match b with
      | none => some (c, e)
      | some (_, f) => if e.cmp f < 0 then some (c, e) else b) none
    ⟨(best.getD (1, .zero)).1.toNat, false, decide (k < 1)⟩

/-- The flags of a quantiser's search (R151, R192). -/
def Scale.flags (q : Scale) : FpFlags := { nonfinite := q.nonfinite, underscale := q.underscale }

/-- The final conversion of one element (R151). -/
def Half.element (y : Half) (q : Scale) (zero : Bool) (u : Nat) (x : Num) : Coded :=
  if q.nonfinite then ⟨y.kind.nanOr0, {}⟩
  else if zero then ⟨0, {}⟩
  else y.kind.round y.sat y.rm u (x.scale (128 - (q.code : Int)))

/-- The formats of QSCALE (R189). -/
def qscaleFmt : CvtFmt := { src := fun k => k = .fp32, dst := Kind.isByte, dstBlk := fun n => n == 2 }

/-- QSCALE (R192): one scale code for each aligned group of 8 lanes. -/
def execQscale (d a b : Reg) (s : State) : Out :=
  collective { dst := [(d, 1)], src := [(a, 4), (b, 1)] } (some (d, 1)) (fun _ => []) (fun c => c.words b 1)
    (fun c =>
      match qscaleFmt.halves (c.reg b c.first) with
      | none => .trap (c.trapOf .format (qscaleFmt.failing (c.reg b c.first)))
      | some (_, y) =>
        let elems (g : Nat) : List Num := (List.range 32).map fun i =>
          let l := 8 * g + i / 4
          if hasLane c.cnt l then f32 (c.reg a l (i % 4)) else .zero
        let codes := (List.range 8).map fun g => quantScale y (elems g)
        let at_ (l : Nat) : Scale := codes.getD (l / 8) ⟨0, false, false⟩
        let takes := maskOf ((lanesOf c.set).filter fun l =>
          (List.range 8).any fun i => hasLane c.cnt (l / 8 * 8 + i))
        .go (c.oweLanes takes d 1 (fun l => ⟨[BitVec.ofNat 32 (at_ l).code], (at_ l).flags⟩) c.s)) s

end Sys2Proof.Machine
end

