-- ==== Sys2Proof/Machine/Fetch.lean ====
section
/-! DEFINITION. Instruction fetch and literal reads (R49, R101, R106 check 1). -/

namespace Sys2Proof.Machine

/-- Whether an instruction cache may hold words of a place: none of a peer's memory (R234), none of an uncached page (R242). -/
def Phys.cacheable (p : Phys) : Bool := p.tier != 2 && p.tier != 4

/-- What a core's instruction cache holds. -/
def State.codeOf (s : State) (core : Nat) : Tbl (Nat × Word) := s.icache.get [] core

/-- The word that a core's instruction cache holds of a place under a request's key. -/
def State.cachedCode (s : State) (core : Nat) (p : Phys) : Option Word :=
  if p.cacheable then
    (((s.codeOf core).get? (codeKey p.sp p.addr)).filter fun e => e.1 == 0 || e.1 == s.tagOf p.sp p.key).map (·.2)
  else none

/-- A word as a fetch of a page of any tier reads it: memory's, or one that the core's instruction cache holds, which may be
older until ICINV (R49, R101). Log entry 22, DESIGN CHOICE; log entry 54, DESIGN CHOICE. -/
def State.fetchPhys (s : State) (core : Nat) (p : Phys) : Word :=
  let now := BitVec.ofNat 32 (leValue (s.bytesAt p.sp p.key p.addr 4))
  match s.cachedCode core p with
  | some old => if Config.freeBit s.tick 2 (codeKey p.sp p.addr) then old else now
  | none => now

/-- A fetched word comes from its home where the core's instruction cache does not hold it, a peer's word with an answer of the peer
(R231); the cache holds it then, where it may (R329). -/
def State.holdCode (s : State) (core own : Nat) (p : Phys) (w : Word) : State :=
  let s := if (s.cachedCode core p).isSome then s else (s.askLines (core / 200) own p 4 0).homeTouch own p false
  if p.cacheable then
    { s with icache := putCode s.tick core (codeKey p.sp p.addr) (s.tagOf p.sp p.key, w) s.icache }
  else s

/-- The address check of a fetch or literal read of a team at a level (R214). -/
def State.fetchAccess (s : State) (t : Team) (lv : Level) (va : Nat) : Access :=
  s.access t.core t.die t.owner lv .fetch 64 va

/-- A fetched word and the state with what the fetch holds. -/
def State.fetchWord (s : State) (t : Team) (va : Nat) (tr : Trans) (p : Phys) : Word × State :=
  let w := s.fetchPhys t.core p
  (w, (s.held t.core t.die t.owner 64 va tr).holdCode t.core t.owner p w)

/-- A trap of the issuing set for a protection violation at a virtual address, to be logged (R411). -/
def Ctx.protection (c : Ctx) (va : Nat) (v : Viol) : TrapInfo :=
  { c.trapOf .protection 0 (BitVec.ofNat 64 va) with viol := some v }

/-- The address of a literal (R101). -/
def Ctx.literal (c : Ctx) (i : Int) : PC := c.pc + 4 + BitVec.ofInt 57 (4 * i)

/-- LDLIT and LDLIT.W of n words (R101, R167). -/
def loadLiteral (d : Reg) (i : Int) (n : Nat) (s : State) : Out :=
  let bad := match s.ctx with
    | some c => n == 2 && (c.literal i).toNat % 8 != 0
    | none => false
  issue { dst := [(d, n)], illegal := bad }
    (fun c =>
      let va := (c.literal i).toNat
      match c.s.fetchAccess c.t c.w.level va with
      | .viol v => .trap (c.protection va v)
      | .park k => .park ⟨k, .fetch, va⟩
      | .ok tr p =>
        let a := c.s.fetchWord c.t va tr p
        let b := a.2.fetchWord c.t (va + 4) tr { p with addr := p.addr + 4 }
        .go (c.writeV d n (fun _ => ⟨[a.1, b.1], {}⟩) (if n = 2 then b.2 else a.2))) s

/-- LDLIT (R167). -/
def execLdlit (d : Reg) (i : Int) (s : State) : Out := loadLiteral d i 1 s

/-- LDLIT.W (R167). -/
def execLdlitW (d : Reg) (i : Int) (s : State) : Out := loadLiteral d i 2 s

/-- ILLEGAL_INSTRUCTION (R105 to R108): the word at `cur` fails decode check 2 or 3. -/
def execIllegalInstruction (s : State) : Out :=
  match s.ctx with
  | none => .refused .noIssuingWave
  | some c =>
    .next (if c.onlyHelpers then s.finish (toPc c.pc4) else s.raise c.wid (c.trapOf .illegal) c.set c.pc c.word)

/-- INSTRUCTION_FETCH_FAULT (R106 check 1, R398): the fetch at `cur` meets a protection violation or a parking fault. -/
def execInstructionFetchFault (s : State) : Out :=
  match s.ctx with
  | none => .refused .noIssuingWave
  | some c =>
    match c.s.fetchAccess c.t c.w.level c.pc.toNat with
    | .ok _ _ => .refused (.notEnabled "the fetch meets no fault")
    | .viol v =>
      .next (if c.onlyHelpers then s.finish (toPc c.pc4) else s.raise c.wid (c.protection c.pc.toNat v) c.set c.pc c.word)
    | .park k =>
      .next (if c.onlyHelpers then s.finish (toPc c.pc4)
        else s.setWave c.wid { c.w with stop := some ⟨.park ⟨k, .fetch, c.pc.toNat⟩, c.set, c.pc, c.word⟩, waiting := none })

end Sys2Proof.Machine
end

