-- ==== Sys2Proof/Machine/LoadStore.lean ====
section
/-! DEFINITION. Loads, stores, gathers and scatters (R248 to R258), what they forward from the store buffer (R255), and
speculative loads (R335 to R338). -/

namespace Sys2Proof.Machine

/-- Why an access to a local address is a protection violation, or what it reaches (R202, R204, R205). Log entry 10, DEDUCED. -/
def Ctx.localPlace (c : Ctx) (word : Bool) (ea : Nat) : Except ViolCause AtomTgt :=
  if ea < c.t.localBytes then .ok (.ls ea)
  else if 0x80000 ≤ ea ∧ ea < 0x80080 then
    if word then .ok (.bull (.cb c.t.cluster ((ea - 0x80000) / 4))) else .error .permission
  else if 0x80400 ≤ ea ∧ ea < 0x80600 then
    let i := (ea - 0x80400) / 4
    let tag := (c.s.die c.t.die).tag.get 0 i
    if !word then .error .permission
    else if tag.testBit 7 && tag % 64 == c.t.owner then .ok (.bull (.db c.t.die i))
    else .error .bulletinTag
  else .error .range

/-- One lane's access after the checks: lane, place, translation. -/
structure LaneAcc where
  lane : Nat
  tgt : AtomTgt
  tr : Option Trans

/-- What stops a lane's access, by the step of R251 that it fails. -/
inductive AccStop where
  | range (v : Viol)
  | align
  | viol (v : Viol)
  | park (k : ParkCause)
  | host
  deriving DecidableEq

/-- The order in which the steps of R251 decide: within step 4 a violation, the migration fault, which a refused lease also is
(R238), the page fault; then host atomics. -/
def AccStop.step : AccStop → Nat
  | .range _ => 2
  | .align => 3
  | .viol _ => 4
  | .park .migration => 5
  | .park .lease => 5
  | .park .page => 6
  | .host => 7

/-- Steps 2 to 5 of R251 for a lane's global access. -/
def Ctx.globalLane (c : Ctx) (k : AccKind) (n l : Nat) (ea : DWord) : Except AccStop LaneAcc :=
  if 2 ^ 57 ≤ ea.toNat then .error (.range ⟨ea.toNat, .range, k, false⟩)
  else if ea.toNat % n ≠ 0 then .error .align
  else
    match c.s.access c.t.core c.t.die c.t.owner c.w.level k l ea.toNat with
    | .viol v => .error (.viol v)
    | .park p => .error (.park p)
    | .ok tr p => if k = .atomic ∧ p.tier = 4 then .error .host else .ok ⟨l, .mem p, some tr⟩

/-- Steps 2 and 3 of R251 for a lane's local access. Log entry 10, DEDUCED. -/
def Ctx.localLane (c : Ctx) (k : AccKind) (n l : Nat) (ea : Word) : Except AccStop LaneAcc :=
  match c.localPlace (n == 4) ea.toNat with
  | .error v => .error (.range ⟨ea.toNat, v, k, false⟩)
  | .ok p => if ea.toNat % n ≠ 0 then .error .align else .ok ⟨l, p, none⟩

/-- The trap or parking fault of a stopped access: the reported lanes, the address of the lowest (R251, R388). -/
def accRes (k : AccKind) (lanes : List Nat) (ea : Nat → DWord) (stop : AccStop) : Res :=
  let first := ea ((lanes.head?).getD 0)
  let t (cause : Cause) (v : Option Viol) : Res := .trap ⟨cause, maskOf lanes, 0, first, v⟩
  match stop with
  | .range v => t .protection (some v)
  | .align => t .alignment none
  | .viol v => t .protection (some v)
  | .park p => .park ⟨p, k, first.toNat⟩
  | .host => t .hostAtomic none

/-- A stop that leaves what succeeded before it. -/
def Res.from (s : State) : Res → Res
  | .trap i => .trapFrom s i
  | .park p => .parkFrom s p
  | r => r

/-- Whether a lane's global address is translated: the steps of R251 before step 4 pass. -/
def translated (r : Except AccStop LaneAcc) : Bool :=
  match r with
  | .ok a => a.tr.isSome
  | .error e => decide (4 ≤ e.step)

/-- What the lookups of step 4 leave: each lane of the set that found a translation holds it, a helper lane too, whether or not it
passes the checks that follow (R217). -/
def Ctx.lookedUp (c : Ctx) (ea : Nat → DWord) (one : Nat → Except AccStop LaneAcc) : State :=
  ((lanesOf c.set).filter fun l => translated (one l)).foldl (fun s l =>
    match s.xlate c.t.core c.t.die c.t.owner l (ea l).toNat with
    | .ok t => s.held c.t.core c.t.die c.t.owner l (ea l).toNat t
    | _ => s) c.s

/-- The checks of R251 over the counted lanes: the first step any of them fails decides. -/
def Ctx.accStop (c : Ctx) (k : AccKind) (ea : Nat → DWord) (one : Nat → Except AccStop LaneAcc) : Option Res :=
  let bad := (lanesOf c.cnt).filterMap fun l => match one l with
    | .error e => some (l, e)
    | .ok _ => none
  match bad.foldl (fun (m : Option (Nat × AccStop)) e => match m with
      | some b => if e.2.step < b.2.step then some e else some b
      | none => some e) none with
  | none => none
  | some (_, e) =>
    let r := accRes k ((bad.filter fun x => x.2.step = e.step).map (·.1)) ea e
    some (if e.step < 4 then r else r.from (c.lookedUp ea one))

/-- The lanes of a set that pass the checks, in lane order. Only counted lanes can be waited for or trap. -/
def passing (m : Mask) (one : Nat → Except AccStop LaneAcc) : List LaneAcc :=
  (lanesOf m).filterMap fun l => match one l with
    | .ok a => some a
    | .error _ => none

/-- The last byte a list of writes gives an address. -/
def lastByte (bs : List (Nat × Byte)) (a : Nat) : Option Byte := (bs.reverse.find? fun e => e.1 = a).map (·.2)

/-- Bytes of a BINIT (R347). -/
def binitBytes (bs : List (Nat × Nat)) : List (Nat × Byte) :=
  bs.flatMap fun (a, n) => placed a (leBytes 4 (n * 65536 + n)) ++ placed (a + 4) (leBytes 4 0)

/-- The known bytes of the local store that a wave's unperformed entries write, oldest first. A push forwards to the slot
it would take (R255). -/
def Wave.lsKnown (w : Wave) (t : Team) : List (Nat × Byte) :=
  (w.sbuf.foldl (fun (acc : List (Nat × Byte) × Tbl Nat) e => match e.op with
    | .ls bs => (acc.1 ++ bs, acc.2)
    | .binit bs => (acc.1 ++ binitBytes bs, acc.2)
    | .push q vs =>
      match t.queues.get? q with
      | none => acc
      | some b =>
        vs.foldl (fun acc v =>
          let n := acc.2.get 0 (64 * q + v.1)
          (acc.1 ++ placed (b.slot v.1 (b.pushed.get 0 v.1 + n)) (leBytes 4 v.2.toNat),
            acc.2.set 0 (64 * q + v.1) (n + 1))) acc
    | _ => acc) ([], [])).1

/-- The bytes of a space that a wave's unperformed entries write, oldest first. -/
def Wave.memKnown (w : Wave) (sp : Space) : List (Nat × Byte) :=
  w.sbuf.flatMap fun e => match e.op with
    | .mem q _ _ _ bs => if q = sp then bs else []
    | _ => []

/-- The bulletin value a wave's youngest unperformed entry gives a word. -/
def Wave.bullKnown (w : Wave) (l : Loc) : Option Word :=
  w.sbuf.reverse.findSome? fun e => match e.op with
    | .bull k v => if k = l then some v else none
    | _ => none

/-- Words whose bytes an unperformed read-modify-write of the wave will decide: of a barrier both, since a completion flips
word 0 with it (R255, R259, R348). Log entry 64, DEDUCED. -/
def Wave.undecided (w : Wave) : List Loc :=
  (w.sbuf.flatMap fun e => match e.op with
    | .owed bs => bs.flatMap fun b => [.ls w.tid (b.1 / 4), .ls w.tid (b.1 / 4 + 1)]
    | _ => []) ++
  (match w.irrev with
    | some (.atom _ _ wide ls _) => ls.flatMap fun l => l.tgt.locs w.tid (if wide then 8 else 4)
    | _ => [])

/-- The bytes forwarded to a read of a place, where known. -/
def Wave.forwarded (w : Wave) (t : Team) (tgt : AtomTgt) (n : Nat) : List (Option Byte) :=
  match tgt with
  | .mem p => (List.range n).map fun i => lastByte (w.memKnown p.sp) (p.addr + i)
  | .ls a => (List.range n).map fun i => lastByte (w.lsKnown t) (a + i)
  | .bull l =>
    match w.bullKnown l with
    | some v => (leBytes n v.toNat).map some
    | none => List.replicate n none

/-- Whether a read of a place must wait for its home: one of its words is pending and the core holds no copy (R332). -/
def State.heldAtHome (s : State) (core tid n : Nat) (tgt : AtomTgt) : Bool :=
  (match tgt with
    | .mem p => !(s.core core).l1.contains p.sector
    | _ => true) && (tgt.locs tid n).any fun l => s.pend.any fun e => e.1 = l

/-- What a read of the wave receives: forwarded bytes over the home's; none while it must wait (R253, R255, R332).
Log entry 64, DEDUCED. -/
def Ctx.readBytes (c : Ctx) (tgt : AtomTgt) (n : Nat) : Option (List Byte) :=
  let ls := tgt.locs c.w.tid n
  let fw := c.w.forwarded c.t tgt n
  if ls.any c.w.undecided.contains then none
  else if fw.all Option.isSome then some (fw.map fun b => b.getD 0)
  else if c.s.heldAtHome c.t.core c.w.tid n tgt then none
  else some ((fw.zip (c.s.homeBytes c.w.tid tgt n)).map fun e => e.1.getD e.2)

/-- Whether a local address's line is absent (R257, R268). -/
def Team.absentAt (t : Team) (a : Nat) : Bool := t.absent.contains (a / 128)

/-- Whether a place is a local-store byte of an absent line. -/
def Ctx.isAbsent (c : Ctx) (tgt : AtomTgt) : Bool :=
  match tgt with
  | .ls a => c.t.absentAt a
  | _ => false

/-- The wave is parked on an absent line (R257, R416). -/
def Ctx.parkAbsent (c : Ctx) : Res := .hold (c.s.updWave c.wid fun w => { w with absentWait := true })

/-- The lines that a load's lanes read. -/
def accLines (as : List LaneAcc) : List Nat :=
  (as.filterMap fun a => match a.tgt with
    | .mem p => some (lineId p.sp p.addr)
    | _ => none).eraseDups

/-- What a performed read of one lane leaves: the sector in the core's L1, unless its own wave's stores give every byte (R255);
none while there is no room (R330). `keep` names the lines of the load. Log entry 11, DESIGN CHOICE; log entry 15, DEDUCED. -/
def Ctx.touch (c : Ctx) (n : Nat) (keep : List Nat) (s : State) (a : LaneAcc) : Option State :=
  match a.tgt with
  | .mem p =>
    if (c.w.forwarded c.t a.tgt n).all Option.isSome then
      if p.tier = 2 ∨ p.tier = 4 then some s else s.enlist c.t.core (lineId p.sp p.addr) keep
    else s.fill c.t.core c.t.owner p keep
  | _ => some s

/-- The reads of a load's lanes, one after the other. -/
def Ctx.touches (c : Ctx) (n : Nat) (as : List LaneAcc) (s : State) : Option State :=
  as.foldl (fun s a => s.bind fun s => c.touch n (accLines as) s a) (some s)

/-- The peers' lines that accesses name: one request each (R252). -/
def remoteLines (ps : List Phys) : List Phys :=
  ((ps.filter fun p => p.tier = 2).map fun p => { p with addr := p.addr / 128 * 128 }).eraseDups

/-- The places of memory that accesses name. -/
def accPlaces (as : List LaneAcc) : List Phys :=
  as.filterMap fun a => match a.tgt with
    | .mem p => some p
    | _ => none

/-- Whether the die's streams and the ports have room for the requests of accesses, with some bytes of data each (R230, R231). -/
def Ctx.canSendAll (c : Ctx) (as : List LaneAcc) (bytes : Nat) : Bool :=
  decide ((remoteLines (accPlaces as)).length ≤ c.s.fabRoom c.t.die bytes)

/-- Requests of the wave for peers' lines go out (R231). -/
def Ctx.sendAll (c : Ctx) (as : List LaneAcc) (bytes : Nat) (s : State) : State :=
  (remoteLines (accPlaces as)).foldl (fun s p => s.fabSend c.t.die c.t.owner (.wave c.wid) p bytes) s

/-- Open a region at the state before the load (R335). -/
def Wave.openRegion (w : Wave) (seq : Nat) : Wave :=
  { w with region := some ⟨seq, w.pcs, w.base, w.fpmode, w.fflags, w.srseed, w.tsMark, [], []⟩ }

/-- A read issued by the wave joins the open region, or opens one behind an unperformed access (R335 to R337).
Log entry 68, DEDUCED. -/
def Ctx.joinRegion (c : Ctx) (f : Form) (ls : List Loc) (s : State) : State :=
  s.updWave c.wid fun w =>
    if w.region.isSome then w.addReads ls
    else if c.w.unperformed then ((w.openRegion c.s.seq).shadowed (c.targets f)).addReads ls
    else w

/-- Whether a load that would be speculative must wait: cautious mode (R341) and level S (R393). -/
def Ctx.mustNotSpeculate (c : Ctx) : Bool := c.w.unperformed && (c.w.cautious != 0 || c.w.level != .u)

/-- A place of a TIER 2 or TIER 4 page (R234, R342). -/
def AtomTgt.remote : AtomTgt → Bool
  | .mem p => p.tier == 2 || p.tier == 4
  | _ => false

/-- An irrevocable load issues: it counts as unperformed until it returns (R234). Helper lanes the checks stopped receive
0. -/
def Ctx.startRemote (c : Ctx) (d : Reg) (z : Size) (as : List LaneAcc) (s : State) : State :=
  let lanes := as.filterMap fun a => match a.tgt with
    | .mem p => some (a.lane, p)
    | _ => none
  let rest := c.set &&& ~~~(maskOf (as.map (·.lane)))
  let s := c.oweLanes rest d z.regs (fun _ => ⟨[], {}⟩) s
  let s := c.sendAll as 0 s
  (c.awaitLanes (maskOf (lanes.map (·.1))) d z.regs s).updWave c.wid fun w =>
    { w with irrev := some (.load c.s.seq z lanes) }

/-- The keys that buffers lack for the sectors that a load's lanes miss in the core's L1 (R311). -/
def Ctx.missingKeys (c : Ctx) (n : Nat) (as : List LaneAcc) : List (Nat × Nat) :=
  (accPlaces (as.filter fun a => !(c.w.forwarded c.t a.tgt n).all Option.isSome)).filterMap fun p =>
    if (c.s.core c.t.core).l1.contains p.sector then none else c.s.missingKey p

/-- A load of the lanes that passed the checks, from the state that the lookups leave. -/
def Ctx.loadLanes (c : Ctx) (f : Form) (d : Reg) (z : Size) (found : State) (as : List LaneAcc) : Res :=
  let n := Size.bytes z
  if as.any fun a => a.tgt.remote then
    if c.w.region.isSome ∨ c.w.unperformed ∨ !c.canSendAll as 0 then .wait
    else .go (c.startRemote d z as found)
  else if c.mustNotSpeculate then .wait
  else if c.w.sbuf.any (·.held) then .wait
  else if as.any fun a => c.isAbsent a.tgt then c.parkAbsent
  else
    let got := as.map fun a => (a, c.readBytes a.tgt n)
    let keys := c.missingKeys n as
    if got.any fun e => e.2.isNone then .wait
    else if !keys.isEmpty then .hold (c.s.wantKeys keys)
    else
      let out (l : Nat) : LaneOut :=
        match got.find? fun e => e.1.lane = l with
        | some (_, some bs) => ⟨Size.words z bs, {}⟩
        | _ => ⟨[], {}⟩
      match c.touches n as found with
      | none => .wait
      | some s =>
        .go (c.writeV d z.regs out (c.joinRegion f (as.flatMap fun a => a.tgt.locs c.w.tid n).eraseDups s))

/-- A load: address per lane, checks per lane. -/
def Ctx.load (c : Ctx) (f : Form) (d : Reg) (z : Size) (ea : Nat → DWord) (one : Nat → Except AccStop LaneAcc) : Res :=
  match c.accStop .load ea one with
  | some r => r
  | none => c.loadLanes f d z (c.lookedUp ea one) (passing c.set one)

/-- The line an access's bytes lie in, as store-buffer entries are counted (R254): a number for each line of each place.
Log entry 63, DEDUCED. -/
def AtomTgt.line : AtomTgt → Nat
  | .mem p => 8 * (p.addr / 128) + match p.sp with
    | .dev => 0
    | .peer => 1
    | .host => 2
  | .ls a => 8 * (a / 128) + 3
  | .bull (.cb _ i) => 8 * i + 4
  | .bull (.db _ i) => 8 * i + 5
  | .bull _ => 6

/-- Whether two accesses share a byte. -/
def AtomTgt.clash (x y : AtomTgt × List Byte) : Bool :=
  let near (a b : Nat) : Bool := decide (a < b + y.2.length) && decide (b < a + x.2.length)
  match x.1, y.1 with
  | .mem p, .mem q => near p.addr q.addr
  | .ls a, .ls b => near a b
  | _, _ => true

/-- Whether a lane's bytes may be performed at one point with those of the next lanes: one line, no byte of another lane. -/
def joinsLine (r : List (AtomTgt × List Byte)) (x : AtomTgt × List Byte) : Bool :=
  r.all fun y => y.1.line == x.1.line && !AtomTgt.clash x y &&
    match x.1, y.1 with
    | .mem p, .mem q => p.tier == q.tier && p.key == q.key && p.ace == q.ace
    | _, _ => true

/-- The write that a run of lanes' bytes of one line makes. -/
def lineWrite (bs : List (AtomTgt × List Byte)) : SbOp :=
  match bs with
  | (.mem p, _) :: _ => .mem p.sp p.tier p.key p.ace (bs.flatMap fun e => match e.1 with
      | .mem q => placed q.addr e.2
      | _ => [])
  | (.bull l, v) :: _ => .bull l (BitVec.ofNat 32 (leValue v))
  | _ => .ls (bs.flatMap fun e => match e.1 with
      | .ls a => placed a e.2
      | _ => [])

/-- What one store puts into the store buffer, in lane order: each line's bytes one entry, performed as far as the lanes'
order lets them be at one point (R254, R325). Log entry 63, DEDUCED. -/
def storeEntries (bs : List (AtomTgt × List Byte)) : List (Nat × SbOp) :=
  (runs joinsLine bs).map fun r => (((r.head?).map fun e => e.1.line).getD 0, lineWrite r)

/-- Whether a local address lies in a draining handle of the team (R257). -/
def Ctx.draining (c : Ctx) (a : Nat) : Bool :=
  (c.s.core c.t.core).handles.any fun e =>
    e.2.tid == c.w.tid && e.2.st == .draining && decide (e.2.base ≤ a) && decide (a < e.2.base + e.2.len)

/-- A store of the counted lanes: it enters the store buffer (R254). -/
def Ctx.store (c : Ctx) (d : Reg) (z : Size) (ea : Nat → DWord) (one : Nat → Except AccStop LaneAcc) : Res :=
  match c.accStop .store ea one with
  | some r => r
  | none =>
    let as := passing c.cnt one
    if as.any fun a => c.isAbsent a.tgt then c.parkAbsent
    else if as.any fun a => match a.tgt with
      | .ls x => c.draining x
      | _ => false then .wait
    else
      let ws (l : Nat) : List Word := (List.range z.regs).map fun i => c.reg d l i
      .go ((c.lookedUp ea one).updWave c.wid fun w =>
        w.enter c.s.seq (storeEntries (as.map fun a => (a.tgt, Size.store z (ws a.lane)))))

/-- The address of LD and ST (R250). -/
def Ctx.eaM (c : Ctx) (a : Reg) (z : Size) (off : Int) (l : Nat) : DWord :=
  c.regW a l + BitVec.ofInt 64 (off * Size.bytes z)

/-- The address of LDL and STL (R250). -/
def Ctx.eaL (c : Ctx) (a : Reg) (z : Size) (off : Int) (l : Nat) : Word :=
  c.reg a l + BitVec.ofInt 32 (off * Size.bytes z)

/-- The address of LDX and STX (R250). -/
def Ctx.eaX (c : Ctx) (a b : Reg) (z : Size) (l : Nat) : DWord :=
  c.regW a l + BitVec.ofNat 64 ((c.reg b l).toNat * Size.bytes z)

/-- LD (R256). -/
def execLd (d a : Reg) (z : Size) (off : Int) (s : State) : Out :=
  let f : Form := { dst := [(d, z.regs)], src := [(a, 2)] }
  issue f (fun c => c.load f d z (c.eaM a z off) fun l => c.globalLane .load (Size.bytes z) l (c.eaM a z off l)) s

/-- ST (R256). -/
def execSt (d a : Reg) (z : Size) (off : Int) (s : State) : Out :=
  issue { src := [(d, z.regs), (a, 2)] }
    (fun c => c.store d z (c.eaM a z off) fun l => c.globalLane .store (Size.bytes z) l (c.eaM a z off l)) s

/-- LDL (R257). -/
def execLdl (d a : Reg) (z : Size) (off : Int) (s : State) : Out :=
  let f : Form := { dst := [(d, z.regs)], src := [(a, 1)] }
  issue f
    (fun c => c.load f d z (fun l => (c.eaL a z off l).setWidth 64)
      fun l => c.localLane .load (Size.bytes z) l (c.eaL a z off l)) s

/-- STL (R257). -/
def execStl (d a : Reg) (z : Size) (off : Int) (s : State) : Out :=
  issue { src := [(d, z.regs), (a, 1)] }
    (fun c => c.store d z (fun l => (c.eaL a z off l).setWidth 64)
      fun l => c.localLane .store (Size.bytes z) l (c.eaL a z off l)) s

/-- Whether a lane's index is at or above its bound (R251 step 1). -/
def Ctx.outOfBounds (c : Ctx) (b : Reg) (l : Nat) : Bool := decide ((c.reg b l 1).toNat ≤ (c.reg b l).toNat)

/-- The bounds trap of LDX and STX (R251 step 1). -/
def Ctx.boundsStop (c : Ctx) (a b : Reg) (z : Size) : Option Res :=
  match (lanesOf c.cnt).filter (c.outOfBounds b) with
  | [] => none
  | l :: ls => some (.trap ⟨.bounds, maskOf (l :: ls), c.reg b l, c.eaX a b z l, none⟩)

/-- The checks of a lane of LDX and STX; a helper lane out of its bound makes no access (R15). -/
def Ctx.boundedLane (c : Ctx) (k : AccKind) (a b : Reg) (z : Size) (l : Nat) : Except AccStop LaneAcc :=
  if c.outOfBounds b l then .error .align else c.globalLane k (Size.bytes z) l (c.eaX a b z l)

/-- LDX (R258). -/
def execLdx (d a b : Reg) (z : Size) (s : State) : Out :=
  let f : Form := { dst := [(d, z.regs)], src := [(a, 2), (b, 2)] }
  issue f
    (fun c =>
      match c.boundsStop a b z with
      | some r => r
      | none => c.load f d z (c.eaX a b z) (c.boundedLane .load a b z)) s

/-- STX (R258). -/
def execStx (d a b : Reg) (z : Size) (s : State) : Out :=
  issue { src := [(d, z.regs), (a, 2), (b, 2)] }
    (fun c =>
      match c.boundsStop a b z with
      | some r => r
      | none => c.store d z (c.eaX a b z) (c.boundedLane .store a b z)) s

end Sys2Proof.Machine
end

