-- ==== Sys2Proof/Machine/Handle.lean ====
section
/-! DEFINITION. Handles: the HANDLE group (R269 to R274). -/

namespace Sys2Proof.Machine

/-- The entry a handle word names for a team (R269): its index and entry, or none where the word is invalid. -/
def State.handleOf (s : State) (core tid : Nat) (w : Word) : Option (Nat × Handle) :=
  if 64 ≤ w.toNat then none
  else ((s.core core).handles.get? w.toNat).bind fun h => if h.tid = tid then some (w.toNat, h) else none

/-- A handle word of the issuing team. -/
def Ctx.handle? (c : Ctx) (w : Word) : Option (Nat × Handle) := c.s.handleOf c.t.core c.w.tid w

/-- The handle trap of a word (R269, R388). -/
def Ctx.badHandle (c : Ctx) (w : Word) : Res := .trap (c.trapOf .handle w)

/-- The entry of a handle named by core and index. -/
def State.entry (s : State) (h : Nat × Nat) : Option Handle := (s.core h.1).handles.get? h.2

/-- A transition of a handle, a write to its state (R270, R327): from the entry as the rollbacks of the regions that have read it
leave it (R279, R340). `next` says whether it also raises GEN. -/
def State.changeHandle (s : State) (core i : Nat) (writer : Option Nat) (f : Handle → Handle)
    (next : Handle → Bool := fun _ => false) : State :=
  let s := s.check [handleLoc core i] writer
  match s.entry (core, i) with
  | none => s
  | some h => if next h then s.setHandleNext core i (f h) else s.setHandle core i (f h) ((s.core core).gen.get 0 i)

/-- A handle's entry is taken, with its next generation (R274). -/
def State.newHandle (s : State) (core i : Nat) (h : Handle) (writer : Option Nat) : State :=
  (s.check [handleLoc core i] writer).setHandleNext core i h

/-- A handle entry goes, and the operand cache's entries of it (R272, R306). -/
def State.clearHandle (s : State) (core i : Nat) : State :=
  (s.updCore core fun c => { c with handles := c.handles.del i }.changed i).dropTiles core i

/-- A handle's entry is freed; the operand cache's entries go with it (R270, R306). -/
def State.freeHandle (s : State) (core i : Nat) (writer : Option Nat) : State :=
  (s.check [handleLoc core i] writer).clearHandle core i

/-- An instruction that reads state words as a load: it waits in cautious mode, at S behind unperformed stores, and behind
held entries (R338, R341, R393), and joins the region (R327, R337). Log entry 68, DEDUCED. -/
def Ctx.asLoad (c : Ctx) (f : Form) (ls : List Loc) (go : State → Res) : Res :=
  if c.mustNotSpeculate ∨ (c.w.sbuf.any (·.held)) then .wait else go (c.joinRegion f ls c.s)

/-- The bytes of a bound queue channel (R357). -/
def Binding.footprint (b : Binding) : Nat := 256 * 2 ^ b.logCap

/-- Whether two ranges of bytes overlap. -/
def overlaps (a n b m : Nat) : Bool := decide (a < b + m) && decide (b < a + n)

/-- Whether a local range overlaps a handle of the team that is not free (R274, R357). -/
def State.overHandle (s : State) (core tid a n : Nat) : Bool :=
  (s.core core).handles.any fun e => e.2.tid == tid && overlaps a n e.2.base e.2.len

/-- Whether a local range overlaps a channel the team has bound (R274). -/
def Team.overChannel (t : Team) (a n : Nat) : Bool :=
  t.queues.any fun e => !e.2.port && overlaps a n e.2.base e.2.footprint

/-- The lowest free index of a core's handle table (R274). -/
def Core.freeIndex (c : Core) : Option Nat := (List.range 64).find? fun i => (c.handles.get? i).isNone

/-- An instruction of the HANDLE group: collective, its operands uniform, its result class V (R273). -/
def handleOp (d : Option Reg) (srcs : List Reg) (body : Ctx → Res) (s : State) : Out :=
  collective { dst := (d.map fun r => (r, 1)).toList, src := srcs.map fun r => (r, 1) } (d.map fun r => (r, 1))
    (fun c => srcs.map fun r => c.reg r) (fun _ => []) body s

/-- An instruction of the group on a handle word in a. -/
def handleWord (d : Option Reg) (a : Reg) (body : Ctx → Nat → Handle → Res) (s : State) : Out :=
  handleOp d [a] (fun c =>
    let w := c.reg a c.first
    match c.handle? w with
    | none => c.badHandle w
    | some (i, h) => body c i h) s

/-- HALLOC (R274). -/
def execHalloc (d a b : Reg) (s : State) : Out :=
  handleOp (some d) [a, b]
    (fun c =>
      let base := (c.reg a c.first).toNat
      let len := (c.reg b c.first).toNat
      if base % 128 ≠ 0 ∨ len % 128 ≠ 0 ∨ len = 0 ∨ c.t.localBytes < base + len ∨
          c.s.overHandle c.t.core c.w.tid base len ∨ c.t.overChannel base len then c.badHandle (c.reg a c.first)
      else
        match (c.s.core c.t.core).freeIndex with
        | none => .go (c.answer d [0xFFFFFFFF#32] c.s)
        | some i =>
          .go (c.answer d [BitVec.ofNat 32 i]
            (c.s.newHandle c.t.core i ⟨c.w.tid, base, len, .filling, 0, 0, false⟩ (some c.wid)))) s

/-- Whether a handle may be freed (R270). -/
def Handle.freeable (h : Handle) : Bool := h.st == .full || (h.st == .filling && h.fills == 0)

/-- HFREE (R270, R273). -/
def execHfree (a : Reg) (s : State) : Out :=
  handleWord none a (fun c i h => if h.freeable then .go (c.s.freeHandle c.t.core i (some c.wid)) else .wait) s

/-- HSEAL (R270, R273). -/
def execHseal (a : Reg) (s : State) : Out :=
  handleWord none a (fun c i h =>
    if h.st ≠ .filling then .go c.s
    else if h.fills = 0 then .go (c.s.changeHandle c.t.core i (some c.wid) fun h => { h with st := .full })
    else .wait) s

/-- HWAIT (R273). -/
def execHwait (a : Reg) (s : State) : Out :=
  handleWord none a (fun c i h =>
    if h.st = .filling then .wait else c.asLoad { src := [(a, 1)] } [handleLoc c.t.core i] .go) s

/-- A handle state's code in HSTAT (R274). -/
def HState.code : HState → Nat
  | .filling => 1
  | .full => 2
  | .draining => 3

/-- The status word of a handle (R274). -/
def Handle.status (h : Handle) : Word :=
  BitVec.ofNat 32 (min h.refs 255 * 65536 + min h.fills 255 * 256 + h.st.code)

/-- HSTAT (R274): an index the team does not hold reads 0. -/
def execHstat (d a : Reg) (s : State) : Out :=
  handleOp (some d) [a]
    (fun c =>
      let w := c.reg a c.first
      if 64 ≤ w.toNat then c.badHandle w
      else
        let v := match c.handle? w with
          | some (_, h) => h.status
          | none => 0
        c.asLoad { dst := [(d, 1)], src := [(a, 1)] } [handleLoc c.t.core w.toNat] fun s => .go (c.answer d [v] s)) s

/-- HGEN (R273). -/
def execHgen (d a : Reg) (s : State) : Out :=
  handleWord (some d) a (fun c i _ =>
    c.asLoad { dst := [(d, 1)], src := [(a, 1)] } [handleLoc c.t.core i] fun s =>
      .go (c.answer d [BitVec.ofNat 32 ((c.s.core c.t.core).gen.get 0 i)] s)) s

/-- LSFENCE (R270, R273). -/
def execLsfence (a : Reg) (s : State) : Out :=
  handleWord none a (fun c i h =>
    if h.st = .filling then .go c.s else .go (c.s.changeHandle c.t.core i (some c.wid) id fun _ => true)) s

end Sys2Proof.Machine
end

