-- ==== Sys2Proof/Machine/Engine.lean ====
section
/-! DEFINITION. The common course of engine commands: issue (R278), element accesses (R280, R281), release (R326),
completion (R280) and the credit of barriers. -/

namespace Sys2Proof.Machine

/-- What a command's own rules say of it before it issues. -/
structure Plan where
  kind : CmdKind
  /-- the timeline counter it takes a ticket on (R277, R296) -/
  ctr : Option Nat
  /-- handles it writes, as core and index (R271) -/
  inb : List (Nat × Nat) := []
  /-- handles it reads -/
  outb : List (Nat × Nat) := []
  /-- barriers to credit, as team and address -/
  barriers : List (Nat × Nat) := []
  /-- its footprint's lines, as team and line (R268) -/
  lines : List (Nat × Nat) := []
  /-- array slots (R303) -/
  slots : Nat := 0

/-- The lines of a footprint of n bytes at a local address. -/
def linesOf (tid a n : Nat) : List (Nat × Nat) :=
  if n = 0 then [] else (List.range ((a + n - 1) / 128 + 1 - a / 128)).map fun i => (tid, a / 128 + i)

/-- No barrier is named. -/
def noBarrier : Word := 0xFFFFFFFF#32

/-- The barrier check of R278. -/
def Ctx.barrierOk (c : Ctx) (b : Word) : Bool :=
  b == noBarrier || (b.toNat % 8 == 0 && decide (b.toNat + 8 ≤ c.t.localBytes))

/-- The barrier a command credits in a team. -/
def barrierOf (tid : Nat) (b : Word) : List (Nat × Nat) := if b = noBarrier then [] else [(tid, b.toNat)]

/-- The engine operand trap (R278, R388). -/
def Ctx.badOperand (c : Ctx) : Res := .trap (c.trapOf .engineOperand)

/-- Whether a handle admits an inbound command (R270). Log entry 72, DEDUCED. -/
def State.admitsIn (s : State) (h : Nat × Nat) : Bool :=
  match s.entry h with
  | some e => e.st != .draining
  | none => false

/-- Whether a handle admits an outbound command (R270). Log entry 72, DEDUCED. -/
def State.admitsOut (s : State) (h : Nat × Nat) : Bool :=
  match s.entry h with
  | some e => e.st != .filling
  | none => false

/-- Whether every line is present (R271). -/
def State.allPresent (s : State) (ls : List (Nat × Nat)) : Bool :=
  ls.all fun e => match s.teams.get? e.1 with
    | some t => !t.absent.contains e.2
    | none => false

/-- Whether an embedding command streams through a port. -/
def CmdKind.streams : CmdKind → Bool
  | .embag _ _ _ none _ _ => true
  | _ => false

/-- Whether a command holds an entry of its core's command queue (R278 step 3). Once released, one that stalls at a port or
on a page holds its engine context only (R320, R401). Log entry 24, DEDUCED. -/
def Cmd.holdsEntry (c : Cmd) : Bool := c.queued && !(c.released && (c.kind.streams || !c.faults.isEmpty))

/-- The entries in use of a core's command queue. Log entry 24, DEDUCED. -/
def State.queueUse (s : State) (core : Nat) : Nat :=
  (s.cmds.filter fun e => e.2.holdsEntry && ((s.teams.get? e.2.tid).map (·.core)) == some core).length

/-- A handle on which an inbound command issues (R270). -/
def Handle.filled (e : Handle) : Handle :=
  if e.st = .full then { e with st := .filling, fills := 1, auto := true } else { e with fills := e.fills + 1, auto := true }

/-- A handle on which an outbound command issues (R270). -/
def Handle.drained (e : Handle) : Handle :=
  { e with st := .draining, refs := if e.st = .full then 1 else e.refs + 1 }

/-- An inbound command issues on a handle (R270). -/
def State.issueIn (s : State) (wid : Nat) (h : Nat × Nat) : State :=
  s.changeHandle h.1 h.2 (some wid) Handle.filled fun e => e.st == .full

/-- An outbound command issues on a handle (R270). -/
def State.issueOut (s : State) (wid : Nat) (h : Nat × Nat) : State := s.changeHandle h.1 h.2 (some wid) Handle.drained

/-- The words of handles. -/
def handleLocs (hs : List (Nat × Nat)) : List Loc := hs.map fun h => handleLoc h.1 h.2

/-- What a void completion returns a handle to (R279). -/
def undoOf (before after : State) (h : Nat × Nat) : List Undo :=
  match before.entry h, after.entry h with
  | some b, some _ =>
    [⟨h.1, h.2, b, (before.core h.1).gen.get 0 h.2, (after.core h.1).changes.get 0 h.2⟩]
  | _, _ => []

/-- Clear presence bits (R268). -/
def State.makeAbsent (s : State) (ls : List (Nat × Nat)) : State :=
  ls.foldl (fun s e => s.updTeam e.1 fun t => { t with absent := t.absent ++ [e.2] }) s

/-- Take a team's next ticket on a counter (R278). -/
def State.takeTicket (s : State) (tid : Nat) (k : Option Nat) : State × Option (Nat × Nat) :=
  match k, s.teams.get? tid with
  | some k, some t =>
    let n := (t.ctr? k).taken + 1
    (s.updTeam tid fun t => { t with ctr := t.ctr.set Ctr.init k { t.ctr? k with taken := n } }, some (k, n))
  | _, _ => (s, none)

/-- Whether the issuing wave has an open region. -/
def State.inRegion (s : State) (wid : Nat) : Bool := ((s.waves.get? wid).map (·.region.isSome)).getD false

/-- The command a plan issues, without its handles' steps; held if the wave's region is open by then (R279). -/
def Ctx.cmd (c : Ctx) (p : Plan) (ticket : Option (Nat × Nat)) (undo : List Undo) (held : Bool) : Cmd where
  tid := c.w.tid
  wid := c.wid
  seq := c.s.seq
  owner := c.t.owner
  level := c.w.level
  kind := p.kind
  counter := ticket
  inb := p.inb
  outb := p.outb
  barriers := p.barriers
  lines := p.lines
  undo := undo
  held := held
  released := false
  queued := true
  engine := none
  slots := p.slots
  slotsDone := 0
  done := []
  got := []
  outBytes := []
  flags := 0
  faults := []
  fatal := false

/-- Step 4 of R278: handle transitions, presence bits, ticket, queue entry. A void completion goes back to the handles as they
stand once the regions that have read them are rolled back (R279, R340). -/
def Ctx.enqueue (c : Ctx) (p : Plan) (s : State) : State × Option (Nat × Nat) :=
  let s := s.check (handleLocs (p.inb ++ p.outb)) (some c.wid)
  let s1 := p.outb.foldl (State.issueOut · c.wid) (p.inb.foldl (State.issueIn · c.wid) s)
  let undo := (p.inb ++ p.outb).flatMap fun h => undoOf s s1 h
  let s2 := s1.makeAbsent p.lines
  let t := s2.takeTicket c.w.tid p.ctr
  let cmd := c.cmd p t.2 undo (s.inRegion c.wid)
  ({ t.1 with cmds := t.1.cmds.put t.1.nextCid cmd, nextCid := t.1.nextCid + 1 }, t.2)

/-- The words of a ticket. -/
def ticketWords (t : Option (Nat × Nat)) : List Word :=
  match t with
  | some (_, n) => [loWord (BitVec.ofNat 64 n), hiWord (BitVec.ofNat 64 n)]
  | none => [0, 0]

/-- Whether the handle waits of a command's issue, which read the handle words as loads, keep it waiting: in cautious mode, at S
behind unperformed accesses, and behind held entries (R278, R327, R338, R341, R393). Log entry 68, DEDUCED. -/
def Ctx.readsWait (c : Ctx) (hs : List (Nat × Nat)) : Bool :=
  !hs.isEmpty && (c.mustNotSpeculate || c.w.sbuf.any (·.held))

/-- The handle words an issue reads as loads: they join the open region, or open one behind an unperformed access (R327, R335).
Log entry 68, DEDUCED. -/
def Ctx.readHandles (c : Ctx) (f : Form) (hs : List (Nat × Nat)) (s : State) : State :=
  if hs.isEmpty then s else c.joinRegion f (handleLocs hs) s

/-- Whether a command whose checks have passed must still wait (R278 steps 2 and 3, R338). -/
def Ctx.cmdWaits (c : Ctx) (p : Plan) : Bool :=
  c.readsWait (p.inb ++ p.outb) || !(p.inb.all c.s.admitsIn && p.outb.all c.s.admitsOut && c.s.allPresent p.lines) ||
    decide (64 ≤ c.s.queueUse c.t.core)

/-- Steps 2 to 4 of R278 for a command whose checks have passed: it waits, or issues and writes its ticket to d; `ends` is what
completes with its issue. -/
def Ctx.issueCmd (c : Ctx) (d : Option Reg) (p : Plan) (ends : State → State := id) : Res :=
  if c.cmdWaits p then .wait
  else
    let s := c.readHandles { dst := d.toList.map fun r => (r, 2) } (p.inb ++ p.outb) c.s
    let r := c.enqueue p s
    .go (match d with
      | some d => c.answer d (ticketWords r.2) (ends r.1)
      | none => ends r.1)

/-- An engine command: collective, its blocks uniform, its ticket class V (R277). -/
def engineOp (d : Option Reg) (a : Reg) (na : Nat) (b : Option (Reg × Nat)) (fmt : Bool) (body : Ctx → Res) (s : State) :
    Out :=
  let bs := b.toList
  collective { dst := (d.map fun r => (r, 2)).toList, src := (a, na) :: bs } (d.map fun r => (r, 2))
    (fun c => (c.words a (if fmt then na - 1 else na)) ++ bs.flatMap fun e => c.words e.1 e.2)
    (fun c => if fmt then [fun l => c.reg a l (na - 1)] else []) body s

/-- Keys of `Cmd.got`: a list entry, a row's place, an element's value. -/
def gotEntry (i : Nat) : Nat := 2 ^ 42 + i
/-- The key of a row's place. -/
def gotRow (l i : Nat) : Nat := 2 ^ 41 + l * 2 ^ 16 + i
/-- The key, and the element number, of a row element. -/
def gotElem (l i e : Nat) : Nat := 2 ^ 40 + (l * 2 ^ 16 + i) * 4096 + e

/-- The launch of a command still runs. -/
def State.cmdRuns (s : State) (c : Cmd) : Bool :=
  match s.teams.get? c.tid with
  | some t => !s.failed t.lid
  | none => false

/-- How an element's access stands: it may be made now, with the translation held; it waits; or something else of it happens
first (R281). -/
inductive Probe where
  | ok (s : State) (p : Phys)
  | wait
  | stop (s : State)

/-- $launch of a team's launch. -/
def State.shortOf (s : State) (t : Team) : Nat := ((s.launches.get? t.lid).map (·.short)).getD 0

/-- A protection violation of an engine element: logged, and the launch ends (R281, R408). -/
def State.engineViolation (s : State) (cid : Nat) (c : Cmd) (t : Team) (v : Viol) : State :=
  ((s.logViol c.owner v 0 (s.shortOf t) t.core).failLaunch t.lid 8 4).updCmd cid fun c => { c with fatal := true }

/-- A page fault of an engine element: posted once per command and page (R281, R401). Log entry 30, DEDUCED. -/
def State.engineFault (s : State) (cid : Nat) (c : Cmd) (t : Team) (k : AccKind) (va : Nat) : State :=
  let r := s.queueFault c.owner ⟨0, va, 0, none, .page, k, t.core, s.shortOf t, false⟩
  r.1.updCmd cid fun c => { c with faults := c.faults ++ [(va / 65536, r.2)] }

/-- Whether no word of some bytes is pending at their home (R332). Log entry 12, DEDUCED. -/
def State.engineFree (s : State) (p : Phys) (n : Nat) : Bool :=
  !((AtomTgt.mem p).locs 0 n).any fun l => s.pend.any fun e => e.1 = l

/-- The global address that a bulk copy's word is read from, or written to (R286). -/
def Cmd.wordVa (c : Cmd) (e : Nat) (write : Bool) : Nat :=
  match c.kind with
  | .bcopy _ _ _ _ src dst => (if write then dst else src) + 4 * e
  | _ => 0

/-- The number that an element's read, or its write, has as a request (R231): a bulk copy asks for whole lines (R229), another
command for elements. Log entry 12, DEDUCED. -/
def Cmd.reqOf (c : Cmd) (e : Nat) (write : Bool) : Nat :=
  2 * (match c.kind with
    | .bcopy _ _ _ _ _ _ => c.wordVa e write / 128
    | _ => e) + (if write then 1 else 0)

/-- The elements that an element's request stands for: of a bulk copy, its words of the line. -/
def Cmd.mates (c : Cmd) (e : Nat) (write : Bool) : List Nat :=
  match c.kind with
  | .bcopy _ _ _ len _ _ =>
    let line := c.wordVa e write / 128
    ((List.range 32).map fun i => (128 * line + 4 * i - c.wordVa 0 write) / 4).eraseDups.filter fun k =>
      decide (k < len / 4) && decide (c.wordVa k write / 128 = line)
  | _ => [e]

/-- The line of a peer that a command's request has gone out for (R231). -/
def Cmd.askedLine (c : Cmd) (r : Nat) : Option Phys :=
  (c.got.get? (2 ^ 50 + r)).map fun v => ⟨.peer, v / 128 * 128, v % 128, 2, false⟩

/-- The place of a peer that an access at an address reaches, once the command's request has gone out for it (R231). -/
def Cmd.asked (c : Cmd) (r va : Nat) : Option Phys := (c.askedLine r).map fun p => { p with addr := p.addr + va % 128 }

/-- A command's request goes out to a peer (R231, R232). Log entry 12, DEDUCED. -/
def State.ask (s : State) (cid : Nat) (c : Cmd) (die r bytes : Nat) (p : Phys) : State :=
  (s.fabSend die c.owner (.elem cid r) p bytes).updCmd cid fun c =>
    { c with got := c.got.put (2 ^ 50 + r) (p.addr / 128 * 128 + p.key) }

/-- A translated element access before it is made: its words are not pending (R332), its buffer has the key (R311), and to a
peer its request has gone out (R231). `bytes` is the data that goes with a request. Log entry 12, DEDUCED. -/
def State.reach (s : State) (cid : Nat) (c : Cmd) (die r n bytes : Nat) (p : Phys) : Probe :=
  if !s.engineFree p n ∨ s.keyComing p ∨ (p.tier = 2 ∧ s.fabRoom die bytes = 0) then .wait
  else if p.tier = 2 then .stop (s.ask cid c die r bytes p)
  else
    match s.missingKey p with
    | some k => .stop (s.wantKeys [k])
    | none => .ok s p

/-- An element's access: its translation and check (R281, R223, R238), and its way to its home. An access that only one tier
allows is a violation elsewhere (R314). Log entry 12, DEDUCED; log entry 30, DEDUCED. -/
def State.probe (s : State) (cid : Nat) (c : Cmd) (k : AccKind) (e n va : Nat) (tier : Option Nat := none) : Probe :=
  let write := decide (k = .engineWrite)
  match s.teams.get? c.tid, c.asked (c.reqOf e write) va with
  | none, _ => .wait
  | some _, some p => if s.engineFree p n then .ok s p else .wait
  | some t, none =>
    if c.faults.any fun f => f.1 = va / 65536 then .wait
    else
      match s.access t.core t.die c.owner c.level k 64 va with
      | .ok tr p =>
        if (tier.map (· == p.tier)) = some false then .stop (s.engineViolation cid c t ⟨va, .permission, k, false⟩)
        else (s.held t.core t.die c.owner 64 va tr).reach cid c t.die (c.reqOf e write) n
          (if write then n * (c.mates e write).length else 0) p
      | .viol v => .stop (s.engineViolation cid c t v)
      | .park .page => .stop (s.engineFault cid c t k va)
      | .park _ => .wait

/-- An element's read at its home. -/
def State.engineRead (s : State) (c : Cmd) (n : Nat) (p : Phys) : List Byte × State :=
  let s := s.homeTouch c.owner p false
  (s.bytesAt p.sp p.key p.addr n, s)

/-- An element's write, performed at its home (R280, R340). -/
def State.engineWrite (s : State) (c : Cmd) (bs : List Byte) (p : Phys) : State :=
  (s.homeTouch c.owner p true).perform p.sp p.key (placed p.addr bs) none

/-- Bytes of a team's local store. -/
def State.lsBytes (s : State) (tid a n : Nat) : List Byte :=
  match s.teams.get? tid with
  | some t => (List.range n).map fun i => t.lsByte (a + i)
  | none => List.replicate n 0

/-- An element access is done: the responses to requests that stand for done elements alone have arrived (R231). -/
def State.elementDone (s : State) (cid e : Nat) : State :=
  let s := s.updCmd cid fun c => { c with done := c.done ++ [e] }
  match s.cmds.get? cid with
  | none => s
  | some c =>
    let ended (w : Bool) (r : OutReq) : Bool := r.who == .elem cid (c.reqOf e w) && (c.mates e w).all c.done.contains
    s.fabAnswered fun r => ended false r || ended true r

/-- The bulk copy engines of a die that have one of their 16 contexts free (R1, R286). -/
def State.freeEngines (s : State) (die : Nat) : List Nat :=
  ((List.range 4).map (4 * die + ·)).filter fun k => (s.cmds.filter fun e => e.2.engine = some k).length < 16

/-- Whether a command is a bulk copy. -/
def CmdKind.isCopy : CmdKind → Bool
  | .bcopy _ _ _ _ _ _ => true
  | _ => false

/-- The engine whose context a released command takes: a bulk copy's, any of its die's with one free (R1, R286).
Log entry 88, DESIGN CHOICE. -/
def State.engineFor (s : State) (c : Cmd) : Option Nat :=
  if c.kind.isCopy then s.pick 12 c.tid (s.freeEngines (((s.teams.get? c.tid).map (·.die)).getD 0)) else none

/-- Whether a command may be released: every earlier access of its wave is performed, it is not held (R326), and a bulk copy finds a
context of an engine (R1). -/
def State.canRelease (s : State) (x : Nat) : Bool :=
  match s.cmds.get? x with
  | none => false
  | some c =>
    c.queued && !c.held && !c.released && s.cmdRuns c && (!c.kind.isCopy || (s.engineFor c).isSome) &&
      match s.waves.get? c.wid with
      | none => true
      | some w =>
        ((w.sbuf ++ w.spilling.getD []).all fun e => decide (c.seq ≤ e.seq)) &&
          match w.irrev with
          | some (.atom n _ _ _ _) => decide (c.seq ≤ n)
          | some (.load n _ _) => decide (c.seq ≤ n)
          | none => true

/-- ENGINE_COMMAND_RELEASE (R326): `x` the command. -/
def execEngineCommandRelease (s : State) : Out :=
  if s.canRelease s.ev.x then .next (s.updCmd s.ev.x fun c => { c with released := true, engine := s.engineFor c })
  else .refused (.notEnabled "the command may not be released")

/-- The end of a command on a handle it writes (R270, R280 step 2). -/
def State.completeIn (s : State) (wid : Nat) (h : Nat × Nat) : State := s.changeHandle h.1 h.2 (some wid) Handle.fillDone

/-- The end of a command on a handle it reads. -/
def State.completeOut (s : State) (wid : Nat) (h : Nat × Nat) : State := s.changeHandle h.1 h.2 (some wid) Handle.drainDone

/-- Flags an MDRAIN merges (R302): into the registers, or at S into the recorded ones (R391), and an open region's copy. -/
def Wave.drainFlags (w : Wave) (f : Word) : Wave :=
  if w.counted = 0#64 then w
  else
    match w.recd with
    | some r => { w with recd := some { r with fflags := r.fflags ||| f } }
    | none => { w with fflags := w.fflags ||| f, region := w.region.map fun r => { r with fflags := r.fflags ||| f } }

/-- Steps 2 to 4 of R280, with `n` bytes credited to each barrier. Log entry 13, DESIGN CHOICE. -/
def State.completeCmd (s : State) (x : Nat) (c : Cmd) (n : Nat) : State :=
  let s := c.outb.foldl (State.completeOut · c.wid) (c.inb.foldl (State.completeIn · c.wid) s)
  let s := s.present c.lines
  let s := c.barriers.foldl (fun s b => s.creditBarrier b.1 b.2 (-(n : Int)) (some c.wid)) s
  let s := s.check (match c.counter with
    | some (k, _) => [Loc.ctr c.tid k]
    | none => []) (some c.wid)
  let s := s.completeTicket c.tid c.counter
  let s := s.updWave c.wid fun w => w.drainFlags c.flags
  { s with cmds := s.cmds.del x }

/-- Whether a command is a multicast without a target. -/
def CmdKind.isEmptyCast : CmdKind → Bool
  | .mcast _ _ [] => true
  | _ => false

/-- Multicasts that name no target complete at once, when no region holds them (R279, R285). -/
def State.endEmpty (s : State) : State :=
  (s.cmds.filter fun e => e.2.kind.isEmptyCast && !e.2.held).foldl (fun s e => s.completeCmd e.1 e.2 0) s

end Sys2Proof.Machine
end

