-- ==== Sys2Proof/Machine/Tile.lean ====
section
/-! DEFINITION. Layout records (R275, R276, R313), tile fetch and store (R282 to R284), multicast (R285), bulk copies
(R286). -/

namespace Sys2Proof.Machine

/-- Whether bytes of a record are zero. -/
def zerosAt (bs : List Byte) (a n : Nat) : Bool := ((bs.drop a).take n).all (· == 0)

/-- Whether a tensor record is valid with TRANSPOSE clear (R275). -/
def Tensor.valid (t : Tensor) : Bool :=
  decide (1 ≤ t.rank ∧ t.rank ≤ 4) &&
    ((List.range 4).all fun j => decide (1 ≤ t.dims.getD j 0) && decide (1 ≤ t.boxes.getD j 0) &&
      (decide (j < t.rank) || (t.dims.getD j 0 == 1 && t.boxes.getD j 0 == 1)) && t.strides.getD j 0 % t.es == 0) &&
    t.base % t.es == 0 && decide (t.base < 2 ^ 57) && t.pitch % 4 == 0 && decide (t.boxes.getD 0 0 * t.es ≤ t.pitch) &&
    decide (t.boxes.getD 3 0 * t.boxes.getD 2 0 * t.boxes.getD 1 0 * t.pitch ≤ 524288)

/-- A tensor record's bytes (R275). -/
def Tensor.parse (bs : List Byte) : Option Tensor :=
  let t : Tensor :=
    { base := fieldAt bs 8 8
      rank := fieldAt bs 1 1
      es := 2 ^ fieldAt bs 2 1
      dims := (List.range 4).map fun j => fieldAt bs (16 + 4 * j) 4
      strides := (List.range 4).map fun j => fieldAt bs (32 + 8 * j) 8
      boxes := (List.range 4).map fun j => fieldAt bs (64 + 2 * j) 2
      pitch := fieldAt bs 72 4 }
  if fieldAt bs 2 1 ≤ 2 ∧ zerosAt bs 3 5 ∧ zerosAt bs 76 116 ∧ t.valid then some t else none

/-- The half an embedding table's EFMT stands for: kinds 0 to 6, no rounding fields (R313). -/
def embHalf (e : Nat) : Option Half :=
  (Half.ofBits e).filter fun h => decide (h.kind.code ≤ 6) && bitsOf e 15 8 == 0

/-- Bytes of an output element of an embedding table. -/
def EmbTable.oes (t : EmbTable) : Nat := if t.okind = 0 then 4 else 2

/-- Bytes of a row element of an embedding table. -/
def EmbTable.es (t : EmbTable) : Nat := (((embHalf t.efmt).map (·.kind.bits)).getD 8) / 8

/-- Whether an embedding-table record is valid (R313). -/
def EmbTable.valid (t : EmbTable) : Bool :=
  (embHalf t.efmt).isSome && (t.okind == 0 || t.okind == 2) && decide (1 ≤ t.rows) && decide (1 ≤ t.dim ∧ t.dim ≤ 4096) &&
    ((List.range 15).any fun k => t.pitch == 2 ^ (k + 2)) && t.base % t.pitch == 0 && decide (t.base < 2 ^ 57) &&
    decide (t.dim * t.es ≤ t.pitch) && t.dim * t.oes % 4 == 0

/-- An embedding-table record's bytes (R313). -/
def EmbTable.parse (bs : List Byte) : Option EmbTable :=
  let t : EmbTable :=
    { base := fieldAt bs 8 8
      rows := fieldAt bs 16 4
      pitch := fieldAt bs 20 4
      dim := fieldAt bs 24 2
      efmt := fieldAt bs 2 2
      okind := fieldAt bs 4 1 }
  if zerosAt bs 1 1 ∧ zerosAt bs 5 3 ∧ zerosAt bs 26 166 ∧ t.valid then some t else none

/-- A layout record's bytes (R275, R313). Log entry 28, DEDUCED. -/
def Layout.parse (bs : List Byte) : Option Layout :=
  match fieldAt bs 0 1 with
  | 1 => (Tensor.parse bs).map .tensor
  | 2 => (EmbTable.parse bs).map .table
  | _ => none

/-- The six sectors of a record's 192 bytes. -/
def recordPieces (a : DWord) : List Nat := (List.range 6).map fun i => a.toNat + 32 * i

/-- The pieces of a record as the issuing wave's loads reach them (R276 step 2, R251). -/
def Ctx.recordLanes (c : Ctx) (a : DWord) : List (Except AccStop LaneAcc) :=
  (recordPieces a).map fun p => c.globalLane .load 32 c.first (BitVec.ofNat 64 p)

/-- What stops the read of a record, at the first piece that is stopped. -/
def Ctx.recordStop (c : Ctx) (a : DWord) : Option Res :=
  ((recordPieces a).zip (c.recordLanes a)).findSome? fun e => match e.2 with
    | .error x => some (accRes .load (lanesOf c.cnt) (fun _ => BitVec.ofNat 64 e.1) x)
    | .ok _ => none

/-- The pieces that passed. -/
def Ctx.recordAccs (c : Ctx) (a : DWord) : List LaneAcc :=
  (c.recordLanes a).filterMap fun e => match e with
    | .ok x => some x
    | .error _ => none

/-- The translations that the loads of a record's pieces use (R217). -/
def Ctx.recordFound (c : Ctx) (a : DWord) : State :=
  ((c.recordAccs a).zip (recordPieces a)).foldl (fun s e => match e.1.tr with
    | some tr => s.held c.t.core c.t.die c.t.owner c.first e.2 tr
    | none => s) c.s

/-- The answers that the loads of a record's pieces need of peers (R231). -/
def Ctx.recordAsks (c : Ctx) (as : List LaneAcc) (s : State) : State :=
  (accPlaces as).foldl (fun s p => s.askLines c.t.die c.t.owner p 32 0) s

/-- Steps 2 to 4 of R276: read the record, check it, write the cache's entry. -/
def Ctx.bindRecord (c : Ctx) (id : Nat) (a : DWord) : Res :=
  match c.recordStop a with
  | some r => r
  | none =>
    let as := c.recordAccs a
    let got := as.map fun x => c.readBytes x.tgt 32
    let keys := c.missingKeys 32 as
    if got.any Option.isNone then .wait
    else if !keys.isEmpty then .hold (c.s.wantKeys keys)
    else
      match c.touches 32 as (c.recordAsks as (c.recordFound a)) with
      | none => .wait
      | some s =>
        match Layout.parse (got.flatMap fun b => b.getD []) with
        | none => .trapFrom s (c.trapOf .layout (BitVec.ofNat 32 id) a)
        | some l =>
          let s := s.updCluster c.t.cluster fun x => { x with recs := x.recs.put id ⟨a.toNat, l⟩ }
          .go (s.updTeam c.w.tid fun t => { t with recs := t.recs.put id a.toNat })

/-- LRBIND (R276). -/
def execLrbind (a b : Reg) (s : State) : Out :=
  collective { src := [(a, 2), (b, 1)] } none (fun c => c.words a 2 ++ c.words b 1) (fun _ => [])
    (fun c =>
      let id := c.reg b c.first
      let addr := c.regW a c.first
      if 64 ≤ id.toNat then .trap (c.trapOf .layout id addr)
      else if addr.toNat % 64 ≠ 0 then .trap (c.trapOf .alignment 0 addr)
      else c.bindRecord id.toNat addr) s

/-- LRFLUSH (R276). -/
def execLrflush (b : Reg) (s : State) : Out :=
  collective { src := [(b, 1)] } none (fun c => c.words b 1) (fun _ => [])
    (fun c =>
      let id := c.reg b c.first
      match if 64 ≤ id.toNat then none else (c.s.cluster c.t.cluster).recs.get? id.toNat with
      | none => .trap (c.trapOf .layout id)
      | some r => c.bindRecord id.toNat (BitVec.ofNat 64 r.addr)) s

/-- The box's extent in dimension 1 of the local layout (R284: b1). -/
def Tensor.b1 (t : Tensor) (tr : Bool) : Nat := t.boxes.getD (if tr then 0 else 1) 1

/-- The footprint of a box (R284). -/
def Tensor.footprint (t : Tensor) (tr : Bool) : Nat := t.boxes.getD 3 1 * t.boxes.getD 2 1 * t.b1 tr * t.pitch

/-- The checks of TFETCH and TSTORE that raise the engine operand trap (R282). -/
def Ctx.tileOk (c : Ctx) (t : Tensor) (flags barrier : Word) (h : Handle) : Bool :=
  let tr := flags.toNat.testBit 0
  bitsOf flags.toNat 31 20 == 0 && bitsOf flags.toNat 7 1 == 0 &&
    decide (bitsOf flags.toNat 19 8 * 128 + t.footprint tr ≤ h.len) &&
    (!tr || (decide (t.boxes.getD 1 1 * t.es ≤ t.pitch) && decide (t.footprint true ≤ 524288))) && c.barrierOk barrier

/-- The tensor record an identifier names (R276, R282). -/
def Ctx.tensor? (c : Ctx) (id : Word) : Option Tensor :=
  if 64 ≤ id.toNat then none
  else
    match (c.s.cluster c.t.cluster).recs.get? id.toNat with
    | some ⟨_, .tensor t⟩ => some t
    | _ => none

/-- TFETCH and TSTORE (R282 to R284). -/
def tileOp (store : Bool) (d a b : Reg) (s : State) : Out :=
  engineOp (some d) a 4 (some (b, 4)) false
    (fun c =>
      let w (i : Nat) : Word := c.reg a c.first i
      match c.handle? (w 1) with
      | none => c.badHandle (w 1)
      | some (i, h) =>
        match c.tensor? (w 0) with
        | none => c.badOperand
        | some t =>
          if !c.tileOk t (w 3) (w 2) h then c.badOperand
          else
            let off := bitsOf (w 3).toNat 19 8
            let tr := (w 3).toNat.testBit 0
            let coords := (List.range 4).map fun k => (c.reg b c.first k).toInt
            let hh := [(c.t.core, i)]
            c.issueCmd (some d)
              { kind := .tile store t h.base off tr coords
                ctr := some 0
                inb := if store then [] else hh
                outb := if store then hh else []
                barriers := barrierOf c.w.tid (w 2)
                lines := if store then [] else linesOf c.w.tid (h.base + 128 * off) (t.footprint tr) }) s

/-- TFETCH (R284). -/
def execTfetch (d a b : Reg) (s : State) : Out := tileOp false d a b s

/-- TSTORE (R284). -/
def execTstore (d a b : Reg) (s : State) : Out := tileOp true d a b s

/-- The team of a gang at a position (R13). -/
def State.gangTeam (s : State) (lid gang pos : Nat) : Option (Nat × Team) :=
  s.teams.find? fun e => e.2.lid = lid ∧ e.2.gang = gang ∧ e.2.pos = pos

/-- The core positions of a target mask. -/
def maskPositions (m : Nat) : List Nat := (List.range 4).filter fun p => m.testBit p

/-- Steps 3 and 4 of TMCAST (R285), once its targets' teams are known. Log entry 25, DEDUCED. -/
def Ctx.mcastTo (c : Ctx) (d : Reg) (src : Nat) (h : Handle) (dst barrier : Word) (ts : List (Nat × Team)) : Res :=
  let hs := ts.map fun e => (e, c.s.handleOf e.2.core e.1 dst)
  if hs.any fun e => e.2.isNone then .wait
  else
    let tos := hs.filterMap fun e => e.2.map fun x => (e.1.1, e.1.2.core, x.1, x.2)
    if tos.any fun e => decide (e.2.2.2.len < h.len) then c.badHandle dst
    else
      c.issueCmd (some d)
        { kind := .mcast h.base h.len (tos.map fun e => (e.1, e.2.2.2.base))
          ctr := some 0
          inb := tos.map fun e => (e.2.1, e.2.2.1)
          outb := [(c.t.core, src)]
          barriers := tos.flatMap fun e => barrierOf e.1 barrier
          lines := tos.flatMap fun e => linesOf e.1 e.2.2.2.base h.len }
        State.endEmpty

/-- TMCAST (R285). Log entry 25, DEDUCED. -/
def execTmcast (d a : Reg) (s : State) : Out :=
  engineOp (some d) a 4 none false
    (fun c =>
      let w (i : Nat) : Word := c.reg a c.first i
      match c.handle? (w 0) with
      | none => c.badHandle (w 0)
      | some (i, h) =>
        let m := (w 3).toNat
        if 16 ≤ m ∨ 64 ≤ (w 1).toNat ∨ (m.testBit c.t.pos ∧ (w 1).toNat = i) ∨ !c.barrierOk (w 2) then c.badOperand
        else
          let ts := (maskPositions m).map (c.s.gangTeam c.t.lid c.t.gang)
          if ts.any Option.isNone then .trap (c.trapOf .multicast (w 3))
          else c.mcastTo d i h (w 1) (w 2) (ts.filterMap id)) s

/-- Whether a global address of BCOPY is legal (R286). -/
def bcopyAddrOk (a : DWord) : Bool := decide (a.toNat < 2 ^ 57) && a.toNat % 4 == 0

/-- BCOPY (R286). -/
def execBcopy (d a b : Reg) (s : State) : Out :=
  engineOp (some d) a 4 (some (b, 4)) false
    (fun c =>
      let w (i : Nat) : Word := c.reg a c.first i
      let mode := (w 0).toNat
      let dir := mode % 4
      let off := bitsOf mode 19 8
      let len := (w 3).toNat
      let src := c.regW b c.first 0
      let dst := c.regW b c.first 2
      let h? := c.handle? (w 1)
      if (dir = 1 ∨ dir = 2) ∧ h?.isNone then c.badHandle (w 1)
      else
        let h := (h?.map (·.2)).getD ⟨0, 0, 0, .full, 0, 0, false⟩
        let hs := (h?.map fun e => (c.t.core, e.1)).toList
        if dir = 3 ∨ 2 ^ 20 ≤ mode ∨ bitsOf mode 7 2 ≠ 0 ∨ len % 4 ≠ 0 ∨ len < 4 ∨ 2 ^ 31 < len ∨
            (dir = 0 ∧ w 1 ≠ 0) ∨ (dir ≠ 0 ∧ h.len < off * 128 + len) ∨ (dir ≠ 2 ∧ !bcopyAddrOk src) ∨
            (dir ≠ 1 ∧ !bcopyAddrOk dst) ∨ !c.barrierOk (w 2) then c.badOperand
        else
          c.issueCmd (some d)
            { kind := .bcopy dir h.base off len src.toNat dst.toNat
              ctr := some 2
              inb := if dir = 1 then hs else []
              outb := if dir = 2 then hs else []
              barriers := barrierOf c.w.tid (w 2)
              lines := if dir = 1 then linesOf c.w.tid (h.base + 128 * off) len else [] }) s

/-- The index of a box element in a dimension; elements are numbered with dimension 0 fastest. -/
def Tensor.index (t : Tensor) (e k : Nat) : Nat :=
  e / ((t.boxes.take k).foldl (· * ·) 1) % t.boxes.getD k 1

/-- The elements of a box. -/
def Tensor.boxSize (t : Tensor) : Nat := t.boxes.foldl (· * ·) 1

/-- The global index of a box element in a dimension (R284: exact). -/
def Tensor.global (t : Tensor) (c : List Int) (e k : Nat) : Int := c.getD k 0 + t.index e k

/-- Whether a box element lies inside the tensor (R284). -/
def Tensor.inside (t : Tensor) (c : List Int) (e : Nat) : Bool :=
  (List.range 4).all fun k => decide (0 ≤ t.global c e k) && decide (t.global c e k < t.dims.getD k 1)

/-- The global address of a box element (R284). -/
def Tensor.addr (t : Tensor) (c : List Int) (e : Nat) : Nat :=
  (t.base + ((List.range 4).map fun k => (t.global c e k).toNat * t.strides.getD k 0).sum) % 2 ^ 64

/-- The local address of a box element (R284). -/
def Tensor.local (t : Tensor) (hbase off : Nat) (tr : Bool) (e : Nat) : Nat :=
  let i0 := t.index e 0
  let i1 := t.index e 1
  let j0 := if tr then i1 else i0
  let j1 := if tr then i0 else i1
  hbase + 128 * off + ((t.index e 3 * t.boxes.getD 2 1 + t.index e 2) * t.b1 tr + j1) * t.pitch + j0 * t.es

/-- One element of a command from global memory to a team's local store. -/
def State.elemIn (s : State) (x : Nat) (c : Cmd) (e va n tid dst : Nat) : Option State :=
  match s.probe x c .engineRead e n va with
  | .wait => none
  | .stop s => some s
  | .ok s p =>
    let r := s.engineRead c n p
    some ((r.2.performLs tid (placed dst r.1) none).elementDone x e)

/-- One element of a command from the issuing team's local store to global memory. -/
def State.elemOut (s : State) (x : Nat) (c : Cmd) (e src n va : Nat) : Option State :=
  match s.probe x c .engineWrite e n va with
  | .wait => none
  | .stop s => some s
  | .ok s p => some ((s.engineWrite c (s.lsBytes c.tid src n) p).elementDone x e)

/-- One word of a copy from global to global memory (R286). -/
def State.elemCopy (s : State) (x : Nat) (c : Cmd) (e src dst : Nat) : Option State :=
  match s.probe x c .engineRead e 4 src with
  | .wait => none
  | .stop s => some s
  | .ok s p =>
    match s.probe x c .engineWrite e 4 dst with
    | .wait => none
    | .stop s => some s
    | .ok s p' =>
      let r := s.engineRead c 4 p
      some ((r.2.engineWrite c r.1 p').elementDone x e)

/-- One word of a multicast (R285): element e is word e mod LEN ÷ 4 of target e ÷ (LEN ÷ 4). -/
def State.elemCast (s : State) (x : Nat) (c : Cmd) (e src len : Nat) (targets : List (Nat × Nat)) : Option State :=
  match targets[e / (len / 4)]? with
  | none => none
  | some (tid, dst) =>
    let o := 4 * (e % (len / 4))
    some ((s.performLs tid (placed (dst + o) (s.lsBytes c.tid (src + o) 4)) none).elementDone x e)

end Sys2Proof.Machine
end

