-- ==== Sys2Proof/Machine/Array.lean ====
section
/-! DEFINITION. The cluster array: banks (R292 to R295), matrix commands (R296 to R302), the step (R288 to R291), slots and
arbitration (R303 to R305), the operand cache (R306). -/

namespace Sys2Proof.Machine

/-- The bank trap (R295, R388). Log entry 33, DEDUCED. -/
def Ctx.badBank (c : Ctx) (v : Nat) : Res := .trap (c.trapOf .bank (BitVec.ofNat 32 v))

/-- The unclaimed numbers of a team (R292). Log entry 32, DEDUCED. -/
def Team.unclaimed (t : Team) : List Nat := (List.range t.banks).filter fun k => (t.bankMap.get? k).isNone

/-- The free physical banks of a cluster, lowest first (R292). -/
def Cluster.freeBanks (c : Cluster) : List Nat := (List.range 8).filter fun k => (c.banks.get? k).isNone

/-- ABCLAIM (R293): the request takes its place in the cluster's order of claims and waits to be granted.
Log entry 32, DEDUCED. -/
def execAbclaim (d a : Reg) (s : State) : Out :=
  collective { dst := [(d, 1)], src := [(a, 1)] } (some (d, 1)) (fun c => c.words a 1) (fun _ => [])
    (fun c =>
      let n := (c.reg a c.first).toNat
      if n < 1 ∨ 8 < n ∨ c.t.banks < c.t.bankMap.length + n then c.badBank n
      else
        let s := c.s.updCluster c.t.cluster fun x => { x with abq := x.abq ++ [(c.wid, n)] }
        .hold (s.updWave c.wid fun w => { w with claiming := some c.word })) s

/-- The state in which a waiting claim's instruction goes on. -/
def State.resumeClaim (s : State) (wid : Nat) (w : Wave) (word : Word) : State :=
  let set := w.waiting.getD 0
  { (s.updWave wid fun w => { w with claiming := none }) with cur := ⟨wid, set, pcOfLane w.pcs (lowestLane set), word⟩ }

/-- The oldest claim of a cluster, if it can be granted: its wave, the numbers and the banks (R293). -/
def State.bankGrant (s : State) (x : Nat) : Option (Nat × List (Nat × Nat)) :=
  match (s.cluster x).abq with
  | [] => none
  | (wid, n) :: _ =>
    match s.teams.get? (wid / 16) with
    | none => none
    | some t =>
      let ps := ((t.unclaimed.take n).zip (s.cluster x).freeBanks)
      if ps.length = n ∧ !s.failed t.lid then some (wid, ps) else none

/-- The destination field of a word of format T. -/
def wordD (word : Word) : Reg := regOf (bitsOf word.toNat 20 14)

/-- Grant a cluster's oldest claim. -/
def State.grantBanks (s : State) (x wid : Nat) (ps : List (Nat × Nat)) : State :=
  match s.waves.get? wid with
  | none => s
  | some w =>
    let word := w.claiming.getD 0
    let s := s.updCluster x fun c => { c with
      abq := c.abq.drop 1
      banks := ps.foldl (fun b p => b.put p.2 ⟨.mapped, []⟩) c.banks }
    let s := s.updTeam (wid / 16) fun t => { t with bankMap := ps.foldl (fun m p => m.put p.1 p.2) t.bankMap }
    let s := s.resumeClaim wid w word
    match s.ctx with
    | none => s
    | some c => (c.answer (wordD word) [BitVec.ofNat 32 ((ps.map fun p => 2 ^ p.1).sum)] c.s).finish (toPc c.pc4)

/-- ABCLAIM_GRANT (R293): `x` the cluster. -/
def execAbclaimGrant (s : State) : Out :=
  match s.bankGrant s.ev.x with
  | some (wid, ps) => .next (s.grantBanks s.ev.x wid ps)
  | none => .refused (.notEnabled "no claim of banks can be granted")

/-- The team numbers a mask names. -/
def bankBits (v : Nat) : List Nat := (List.range 8).filter fun k => v.testBit k

/-- Unmap team numbers: their physical banks are unsettled (R294). -/
def State.unmapBanks (s : State) (tid cluster : Nat) (t : Team) (ks : List Nat) : State :=
  let ps := ks.filterMap t.bankMap.get?
  let s := s.updTeam tid fun t => { t with bankMap := ks.foldl Tbl.del t.bankMap }
  s.updCluster cluster fun c => { c with banks := ps.foldl (fun b p => b.upd p fun k => { k with st := .unsettled s.seq tid }) c.banks }

/-- ABREL (R294). -/
def execAbrel (a : Reg) (s : State) : Out :=
  collective { src := [(a, 1)] } none (fun c => c.words a 1) (fun _ => [])
    (fun c =>
      let v := (c.reg a c.first).toNat
      if 2 ^ 8 ≤ v ∨ (bankBits v).any fun k => (c.t.bankMap.get? k).isNone then c.badBank v
      else .go (c.s.unmapBanks c.w.tid c.t.cluster c.t (bankBits v))) s

/-- The physical bank an array command names. -/
def CmdKind.bank? : CmdKind → Option Nat
  | .mzero b => some b
  | .mma b _ _ _ => some b
  | .mdrain b _ _ _ _ _ => some b
  | _ => none

/-- Whether a bank may settle: unsettled, and no earlier command of the team on it unfinished (R294). -/
def State.canSettle (s : State) (x y : Nat) : Bool :=
  match (s.cluster x).banks.get? y with
  | some ⟨.unsettled seq tid, _⟩ =>
    !s.cmds.any fun e => e.2.tid == tid && e.2.kind.bank? == some y && decide (e.2.seq < seq)
  | _ => false

/-- BANK_SETTLE (R294): bank `y` of cluster `x` is cleared and free. -/
def execBankSettle (s : State) : Out :=
  if s.canSettle s.ev.x s.ev.y then .next (s.updCluster s.ev.x fun c => { c with banks := c.banks.del s.ev.y })
  else .refused (.notEnabled "the bank cannot settle")

/-- The physical bank of a team number (R295). -/
def Ctx.bank? (c : Ctx) (n : Nat) : Option Nat := if 8 ≤ n then none else c.t.bankMap.get? n

/-- MZERO (R297). -/
def execMzero (a : Reg) (s : State) : Out :=
  collective { src := [(a, 1)] } none (fun c => c.words a 1) (fun _ => [])
    (fun c =>
      let n := (c.reg a c.first).toNat
      match c.bank? n with
      | none => c.badBank n
      | some p => c.issueCmd none { kind := .mzero p, ctr := none, slots := 1 }) s

/-- The half of a format word that MMA and MLOOP read, if it passes its own checks (R289). -/
def arrayHalf (h : Nat) : Option Half :=
  (Half.ofBits h).filter fun x =>
    bitsOf h 11 8 == 0 && (x.kind.code == 1 || x.kind.code == 2 || x.kind.code == 3 || x.kind.code == 5) &&
      (x.blk == 0 || x.kind.code == 3)

/-- The half that fails the checks of R289, if one does (R388). -/
def arrayFormat (w : Word) : Option Nat :=
  let lo := w.toNat % 65536
  let hi := w.toNat / 65536
  match arrayHalf lo, arrayHalf hi with
  | none, _ => some lo
  | some _, none => some hi
  | some x, some y =>
    if x.kind.bits ≠ y.kind.bits ∨ ((x.kind.code == 5) != (y.kind.code == 5)) then some hi else none

/-- The block size a BLK code selects (R139). -/
def blockSize (blk : Nat) : Nat := 8 * 2 ^ blk

/-- The footprint of an operand tile (R290). -/
def tileBytes (h : Half) : Nat := 32768 + (if h.blk = 0 then 0 else 128 * 256 / blockSize h.blk)

/-- Bits of a placement word outside its two 12-bit fields (R298). -/
def placeReserved (v : Nat) : Bool := bitsOf v 31 28 != 0 || bitsOf v 15 12 != 0

/-- One operand of MMA or MLOOP. -/
def Ctx.tileArg (c : Ctx) (i : Nat) (h : Handle) (off inc fmt : Nat) : TileArg :=
  ⟨i, (c.s.core c.t.core).gen.get 0 i, h.base, 128 * off, 128 * inc, fmt⟩

/-- MMA and MLOOP of `n` steps: placement and increment words (R298, R299). -/
def Ctx.matrix (c : Ctx) (d a : Reg) (place incs n : Nat) (bad : Bool) : Res :=
  let w (i : Nat) : Word := c.reg a c.first i
  match c.handle? (w 1), c.handle? (w 2) with
  | none, _ => c.badHandle (w 1)
  | some _, none => c.badHandle (w 2)
  | some (i, ha), some (j, hb) =>
    match c.bank? (w 0).toNat with
    | none => c.badBank (w 0).toNat
    | some p =>
      match arrayFormat (w 3) with
      | some f => .trap (c.trapOf .format (BitVec.ofNat 32 f))
      | none =>
        let fa := (w 3).toNat % 65536
        let fb := (w 3).toNat / 65536
        let foot (f : Nat) : Nat := ((arrayHalf f).map tileBytes).getD 0
        let last (off inc : Nat) : Nat := (off + (n - 1) * inc) * 128
        let aoff := bitsOf place 11 0
        let boff := bitsOf place 27 16
        let ainc := bitsOf incs 11 0
        let binc := bitsOf incs 27 16
        if bad ∨ placeReserved place ∨ placeReserved incs ∨ n < 1 ∨ 4096 < n ∨
            ha.len < last aoff ainc + foot fa ∨ hb.len < last boff binc + foot fb then c.badOperand
        else
          c.issueCmd (some d)
            { kind := .mma p (c.tileArg i ha aoff ainc fa) (c.tileArg j hb boff binc fb) n
              ctr := some 1
              outb := [(c.t.core, i), (c.t.core, j)].eraseDups
              slots := n }

/-- MMA (R298). -/
def execMma (d a b : Reg) (s : State) : Out :=
  engineOp (some d) a 4 (some (b, 1)) true (fun c => c.matrix d a (c.reg b c.first).toNat 0 1 false) s

/-- MLOOP (R299). -/
def execMloop (d a b : Reg) (s : State) : Out :=
  engineOp (some d) a 4 (some (b, 4)) true
    (fun c =>
      let w (i : Nat) : Nat := (c.reg b c.first i).toNat
      c.matrix d a (w 0) (w 1) (w 2) (w 3 != 0)) s

/-- The half of MDRAIN's format word that fails, if one does (R300). -/
def drainFormat (w : Word) : Option Nat :=
  let lo := w.toNat % 65536
  let hi := w.toNat / 65536
  if lo ≠ 0 ∧ lo ≠ 8 then some lo else if (Half.ofBits hi).isNone then some hi else none

/-- The output footprint of MDRAIN (R301). -/
def drainBytes (h : Half) : Nat :=
  16384 * (h.kind.bits / 8) + (if h.blk = 0 then 0 else 16384 / blockSize h.blk)

/-- Whether MDRAIN's control word has a reserved bit set (R300). -/
def drainReserved (v : Nat) : Bool := bitsOf v 31 13 != 0 || bitsOf v 8 3 != 0

/-- MDRAIN once its handles, bank and format have passed (R300). Log entry 33, DEDUCED. -/
def Ctx.drain (c : Ctx) (d a b : Reg) (i : Nat) (h : Handle) (epi : Option (Nat × Handle)) (p : Nat) : Res :=
  let w (k : Nat) : Word := c.reg a c.first k
  let y : Half := (Half.ofBits ((w 3).toNat / 65536)).getD ⟨.fp32, .rne, false, 0⟩
  let place := (c.reg b c.first).toNat
  let ooff := 128 * bitsOf place 11 0
  let eoff := 128 * bitsOf place 27 16
  let epilogue := bitsOf (w 0).toNat 10 9 != 0
  if drainReserved (w 0).toNat ∨ placeReserved place ∨ epi.isSome ≠ epilogue ∨ epi.map (·.1) = some i ∨
      h.len < ooff + drainBytes y ∨ (epi.map fun e => decide (e.2.len < eoff + 1024)).getD false then c.badOperand
  else
    let seed : Word := if y.rm = Rm.stoch then seedStep c.w.srseed else c.w.srseed
    match c.issueCmd (some d)
      { kind := .mdrain p (w 0).toNat (h.base + ooff) ((epi.map fun e => e.2.base).getD 0 + eoff) (w 3).toNat seed.toNat
        ctr := some 1
        inb := [(c.t.core, i)]
        outb := (epi.map fun e => (c.t.core, e.1)).toList
        lines := linesOf c.w.tid (h.base + ooff) (drainBytes y)
        slots := 1 } with
    | .go s => .go (s.updWave c.wid fun w => { w with srseed := seed })
    | r => r

/-- MDRAIN (R300). -/
def execMdrain (d a b : Reg) (s : State) : Out :=
  engineOp (some d) a 4 (some (b, 1)) true
    (fun c =>
      let w (i : Nat) : Word := c.reg a c.first i
      match c.handle? (w 1) with
      | none => c.badHandle (w 1)
      | some (i, h) =>
        let epi := if w 2 = noBarrier then none else c.handle? (w 2)
        if w 2 ≠ noBarrier ∧ epi.isNone then c.badHandle (w 2)
        else
          match c.bank? ((w 0).toNat % 8) with
          | none => c.badBank ((w 0).toNat % 8)
          | some p =>
            match drainFormat (w 3) with
            | some f => .trap (c.trapOf .format (BitVec.ofNat 32 f))
            | none => c.drain d a b i h epi p) s

/-- The exact sum of a group's products (R154). -/
def groupSum : List Num → Num
  | [] => .zero
  | p :: ps => ps.foldl (fun s x => (s.add .rne x).1) p

/-- A group sum under a scale code (R154, R150): code 0 is zero, 0xFF a NaN. -/
def Num.scaledBy (x : Num) (code : Nat) : Num :=
  if x.isNan ∨ code = 0xFF then .nan false
  else if code = 0 then (if x.isInf then .nan false else if x.isZero then x else .zero)
  else x.scale ((code : Int) - 128)

/-- An operand tile as a step reads it: element k of row m of A, or of column m of B (R288), and the scale codes (R290). -/
structure TileView where
  half : Half
  byte : Nat → Nat

/-- The code of an element. -/
def TileView.code (t : TileView) (m k : Nat) : Nat :=
  let es := t.half.kind.bits / 8
  (List.range es).foldr (fun i n => t.byte (256 * m + k * es + i) + 256 * n) 0

/-- The value of an element. -/
def TileView.elem (t : TileView) (m k : Nat) : Num := t.half.kind.decode (t.code m k)

/-- The scale code of the block that holds k, if the tile is scaled. -/
def TileView.scale (t : TileView) (m k : Nat) : Option Nat :=
  if t.half.blk = 0 then none
  else some (t.byte (32768 + m * (256 / blockSize t.half.blk) + k / blockSize t.half.blk))

/-- One group of 8 consecutive k of an element of the bank (R291, R154). -/
def groupOf (a b : TileView) (m n g : Nat) : Num :=
  let s := groupSum ((List.range 8).map fun i => ((a.elem m (8 * g + i)).mul (b.elem n (8 * g + i))).1)
  let s := match a.scale m (8 * g) with
    | some c => s.scaledBy c
    | none => s
  match b.scale n (8 * g) with
  | some c => s.scaledBy c
  | none => s

/-- The exact integer of a value of an INT8 element. -/
def Num.toInt : Num → Int
  | .fin neg m => if neg then -(m.n / m.d : Int) else m.n / m.d
  | _ => 0

/-- One element of the bank after a step (R291). -/
def stepWord (a b : TileView) (m n : Nat) (old : Word) : Word :=
  let groups := 256 / (a.half.kind.bits / 8) / 8
  if a.half.kind = .int8 then
    (List.range groups).foldl (fun c g =>
      c + BitVec.ofInt 32 (((List.range 8).map fun i => (a.elem m (8 * g + i)).toInt * (b.elem n (8 * g + i)).toInt).sum)) old
  else
    (List.range groups).foldl (fun c g => rne32 ((f32 c).add .rne (f32 (rne32 (groupOf a b m n g)))).1) old

/-- All words of a bank after a step. -/
def stepBank (a b : TileView) (w : Tbl Word) : Tbl Word :=
  (List.range 16384).foldl (fun t i => t.set 0 i (stepWord a b (i / 128) (i % 128) (w.get 0 i))) w

/-- The key of a tile in the operand cache at a step (R306). -/
def TileArg.key (t : TileArg) (core i : Nat) : TileKey := ⟨core, t.handle, t.gen, t.off + i * t.inc⟩

/-- The half of a tile operand. -/
def TileArg.half (t : TileArg) : Half := (arrayHalf t.fmt).getD ⟨.bf16, .rne, false, 0⟩

/-- A tile as the array reads it at step i: an element the operand cache holds is its old or its new value (R306).
Log entry 54, DESIGN CHOICE. -/
def State.tileView (s : State) (cluster core tid i : Nat) (t : TileArg) : TileView :=
  let k := t.key core i
  let now (o : Nat) : Byte := ((s.teams.get? tid).map fun x => x.lsByte (t.base + k.off + o)).getD 0
  let held := ((s.cluster cluster).opCache.find? fun e => e.key = k).map (·.bytes)
  let es := t.half.kind.bits / 8
  let elem (o : Nat) : Nat := if o < 32768 then o / es else o
  { half := t.half
    byte := fun o =>
      match held with
      | none => (now o).toNat
      | some bs => (if Config.freeBit s.tick 4 (2 ^ 40 * t.handle + 2 ^ 20 * (k.off / 128) + elem o) then bs.getD o (now o) else now o).toNat }

/-- The operand cache takes a tile it missed, at most 16 (R306). Log entry 55, DESIGN CHOICE. -/
def State.fillTile (s : State) (cluster core tid i : Nat) (t : TileArg) : State :=
  let k := t.key core i
  s.updCluster cluster fun c =>
    if c.opCache.any fun e => e.key = k then c
    else
      let e : OpTile := ⟨k, s.lsBytes tid (t.base + k.off) (tileBytes t.half)⟩
      { c with opCache := e :: (if c.opCache.length < 16 then c.opCache else c.opCache.eraseIdx (Config.freeNat s.tick 4 0 % 16)) }

/-- A physical bank's words. -/
def State.bankWords (s : State) (cluster p : Nat) : Tbl Word := (((s.cluster cluster).banks.get? p).map (·.words)).getD []

/-- Put a physical bank's words. -/
def State.setBank (s : State) (cluster p : Nat) (w : Tbl Word) : State :=
  s.updCluster cluster fun c => { c with banks := c.banks.upd p fun b => { b with words := w } }

/-- The value of an output element before its conversion, with the flags of the epilogue (R301). -/
def epilogue (ctl : Nat) (int : Bool) (scale bias word : Word) : Num × FpFlags :=
  let x : Num := if int then Kind.int32.decode word.toNat else f32 word
  let step (on : Bool) (x : Num) (f : Num → Num × Bool) : Num × FpFlags :=
    if on then
      let y := f x
      let r := round32 .rne false 0 y.1 y.2
      (f32 r.1, r.2)
    else (x, {})
  let a := step (ctl.testBit 9) x fun x => x.mul (f32 scale)
  let b := step (ctl.testBit 10) a.1 fun x => x.add .rne (f32 bias)
  (if ctl.testBit 11 ∧ b.1.isNeg then .zero else b.1, a.2.or b.2)

/-- A value taken in FP32 for the quantiser: a word that is no integer is FP32 already (R301). -/
def toFp32 (int : Bool) (x : Num) : Num × FpFlags :=
  if int then
    let r := round32 .rne false 0 x false
    (f32 r.1, r.2)
  else (x, {})

/-- Every output of a drain: local address offset, bytes; and the flags together (R301, R302). -/
def drainOut (y : Half) (int : Bool) (seed : Word) (val : Nat → Nat → Num × FpFlags) : List (Nat × List Byte) × FpFlags :=
  let es := y.kind.bits / 8
  if y.blk = 0 then
    (List.range 16384).foldl (fun acc i =>
      let v := val (i / 128) (i % 128)
      let r := y.kind.round y.sat y.rm (stochBits seed (i / 128) (i % 128)) v.1
      (acc.1 ++ [(i * es, leBytes es r.code)], (acc.2.or v.2).or r.flags)) ([], {})
  else
    let bs := blockSize y.blk
    (List.range (16384 / bs)).foldl (fun acc j =>
      let m := j / (128 / bs)
      let at_ (i : Nat) : Nat := j % (128 / bs) * bs + i
      let vs := (List.range bs).map fun i =>
        let v := val m (at_ i)
        let f := toFp32 int v.1
        (f.1, v.2.or f.2)
      let q := quantScale y (vs.map (·.1))
      let zero := (amax (vs.map (·.1))).n == 0
      let es' := vs.mapIdx fun i v =>
        let r := y.element q zero (stochBits seed m (at_ i)) v.1
        (((128 * m + at_ i) * es, leBytes es r.code), r.flags.or v.2)
      (acc.1 ++ es'.map (·.1) ++ [(16384 * es + m * (128 / bs) + j % (128 / bs), [BitVec.ofNat 8 q.code])],
        (es'.foldl (fun f e => f.or e.2) acc.2).or q.flags)) ([], {})

/-- The slot of an MDRAIN: the bank and the epilogue are read, the outputs formed (R301, R303). -/
def State.drainSlot (s : State) (x cluster p ctl out epi fmt seed : Nat) (tid : Nat) : State :=
  let y : Half := (Half.ofBits (fmt / 65536)).getD ⟨.fp32, .rne, false, 0⟩
  let w := s.bankWords cluster p
  let lsw (a : Nat) : Word := ((s.teams.get? tid).map fun t => t.lsWord a).getD 0
  let r := drainOut y (fmt % 65536 == 8) (BitVec.ofNat 32 seed) fun m n =>
    epilogue ctl (fmt % 65536 == 8) (lsw (epi + 4 * n)) (lsw (epi + 512 + 4 * n)) (w.get 0 (128 * m + n))
  let s := if ctl.testBit 12 then s.setBank cluster p [] else s
  s.updCmd x fun c => { c with outBytes := r.1.map fun e => (out + e.1, e.2), flags := r.2.word }

/-- One slot of an array command on the array (R303). Log entry 26, DESIGN CHOICE. -/
def State.runSlot (s : State) (cluster x : Nat) (c : Cmd) (t : Team) : State :=
  let s := match c.kind with
    | .mzero p => s.setBank cluster p []
    | .mma p a b _ =>
      let va := s.tileView cluster t.core c.tid c.slotsDone a
      let vb := s.tileView cluster t.core c.tid c.slotsDone b
      let w := stepBank va vb (s.bankWords cluster p)
      ((s.fillTile cluster t.core c.tid c.slotsDone a).fillTile cluster t.core c.tid c.slotsDone b).setBank cluster p w
    | .mdrain p ctl out epi fmt seed => s.drainSlot x cluster p ctl out epi fmt seed c.tid
    | _ => s
  s.updCmd x fun c => { c with slotsDone := c.slotsDone + 1 }

/-- The wave slot a team stands at in the arbitration (R304). -/
def State.arbSlot (s : State) (tid : Nat) (t : Team) : Nat :=
  16 * t.pos + (((s.teamWaves tid).map fun e => e.2.slot).min?).getD 0

/-- A team's oldest array command with slots to do (R303). -/
def State.oldestArray (s : State) (tid : Nat) : Option (Nat × Cmd) :=
  s.cmds.find? fun e => e.2.tid = tid ∧ e.2.kind.bank?.isSome ∧ e.2.slotsDone < e.2.slots

/-- The ready teams of a cluster: class, number, command (R304). -/
def State.readyTeams (s : State) (x : Nat) : List (Nat × Nat × Nat × Cmd) :=
  (s.teams.filter fun e => e.2.cluster = x ∧ !s.failed e.2.lid).filterMap fun e =>
    match s.oldestArray e.1 with
    | some (cid, c) => if c.released ∧ !c.held then some (e.2.prio, s.arbSlot e.1 e.2, cid, c) else none
    | none => none

/-- The command the array takes next (R304): highest class, first ready team after the class's pointer.
Log entry 26, DESIGN CHOICE. -/
def State.nextSlot (s : State) (x : Nat) : Option (Nat × Nat × Nat × Cmd) :=
  let rs := s.readyTeams x
  match (rs.map (·.1)).min? with
  | none => none
  | some p =>
    let rs := rs.filter fun r => r.1 = p
    let dist (n : Nat) : Nat := (n + 63 - (s.cluster x).ptr.get 0 p % 64) % 64
    rs.foldl (fun best r => match best with
      | none => some r
      | some b => if dist r.2.1 < dist b.2.1 then some r else some b) none

/-- ARRAY_SLOT_START (R304): cluster `x`'s array, being free, runs the next slot; none starts while R444 withholds steps.
Log entry 26, DESIGN CHOICE. -/
def execArraySlotStart (s : State) : Out :=
  match s.nextSlot s.ev.x with
  | none => .refused (.notEnabled "no team is ready")
  | some (p, n, cid, c) =>
    if s.withheld.isSome then .refused (.notEnabled "steps are withheld")
    else
      match s.teams.get? c.tid with
      | none => .refused (.notEnabled "no team is ready")
      | some t =>
        .next ((s.runSlot s.ev.x cid c t).updCluster s.ev.x fun k => { k with ptr := k.ptr.set 0 p n })

/-- ARRAY_FAULT (R408): an internal check of cluster `x`'s array fails; its owner's work ends. -/
def execArrayFault (s : State) : Out :=
  .next (match (s.cluster s.ev.x).owner with
    | some o => s.failOwner o 3
    | none => s)

/-- An element write of MDRAIN (R305): element e of the outputs formed at its slot. -/
def State.elemDrain (s : State) (x : Nat) (c : Cmd) (e : Nat) : Option State :=
  (c.outBytes[e]?).map fun o => (s.performLs c.tid (placed o.1 o.2) none).elementDone x e

end Sys2Proof.Machine
end

