-- ==== Sys2Proof/Machine/Atomic.lean ====
section
/-! DEFINITION. Atomics (R259 to R265): their issue, and ATOMIC_PERFORM. -/

namespace Sys2Proof.Machine

/-- An atomic's issue (R259), from the state that its lookups leave: it waits for commit, then counts as unperformed until it
returns. Helper lanes receive 0. -/
def Ctx.startAtomic (c : Ctx) (op : AtomOp) (wide : Bool) (d : Reg) (x y : Nat → DWord) (found : State)
    (as : List LaneAcc) : Res :=
  let u := if wide then 2 else 1
  if c.w.region.isSome ∨ c.w.unperformed ∨ !c.canSendAll as 16 then .wait
  else if as.any fun a => c.isAbsent a.tgt then c.parkAbsent
  else
    let lanes : List AtomLane := as.map fun a => ⟨a.lane, a.tgt, x a.lane, y a.lane⟩
    let s := c.sendAll as 16 found
    let s := c.oweLanes (c.set &&& c.w.helper) d u (fun _ => ⟨[], {}⟩) s
    let s := c.awaitLanes c.cnt d u s
    .go (s.updWave c.wid fun w => { w with irrev := if lanes.isEmpty then w.irrev else some (.atom c.s.seq op wide lanes none) })

/-- The units of b (R98). -/
def AtomOp.bUnit (op : AtomOp) (wide : Bool) : Nat := (if op = .cas then 2 else 1) * (if wide then 2 else 1)

/-- The operand of a lane: b's first word or pair, and for CAS its second. -/
def Ctx.atomArg (c : Ctx) (wide : Bool) (b : Reg) (i l : Nat) : DWord :=
  if wide then c.regW b l (2 * i) else (c.reg b l i).setWidth 64

/-- ATOM and ATOM.W (R261, R263). -/
def atomG (op : AtomOp) (wide : Bool) (d a b : Reg) (s : State) : Out :=
  issue { dst := [(d, if wide then 2 else 1)], src := [(a, 2), (b, op.bUnit wide)] }
    (fun c =>
      let one (l : Nat) := c.globalLane .atomic (if wide then 8 else 4) l (c.regW a l)
      match c.accStop .atomic (fun l => c.regW a l) one with
      | some r => r
      | none => c.startAtomic op wide d (c.atomArg wide b 0) (c.atomArg wide b 1)
        (c.lookedUp (fun l => c.regW a l) one) (passing c.cnt one)) s

/-- ATOML (R264). -/
def atomL (op : AtomOp) (d a b : Reg) (s : State) : Out :=
  issue { dst := [(d, 1)], src := [(a, 1), (b, op.bUnit false)] }
    (fun c =>
      let ea (l : Nat) : DWord := (c.reg a l).setWidth 64
      let one (l : Nat) := c.localLane .atomic 4 l (c.reg a l)
      match c.accStop .atomic ea one with
      | some r => r
      | none => c.startAtomic op false d (c.atomArg false b 0) (c.atomArg false b 1) (c.lookedUp ea one)
        (passing c.cnt one)) s

/-- ATOMIC_PERFORM (R260, R332, R234): `x` the wave, `y` a lane of its irrevocable access. An atomic that must first
invalidate copies becomes pending, and the next ATOMIC_PERFORM performs it. -/
def execAtomicPerform (s : State) : Out :=
  if s.canAtomic s.ev.x s.ev.y then .next (s.doAtomic s.ev.x s.ev.y)
  else .refused (.notEnabled "no atomic or remote load of that lane may be performed")

/-- ATOM.ADD (R261). -/
def execAtomAdd (d a b : Reg) (s : State) : Out := atomG .add false d a b s

/-- ATOM.AND (R261). -/
def execAtomAnd (d a b : Reg) (s : State) : Out := atomG .and false d a b s

/-- ATOM.OR (R261). -/
def execAtomOr (d a b : Reg) (s : State) : Out := atomG .or false d a b s

/-- ATOM.XOR (R261). -/
def execAtomXor (d a b : Reg) (s : State) : Out := atomG .xor false d a b s

/-- ATOM.MIN (R261). -/
def execAtomMin (d a b : Reg) (s : State) : Out := atomG .min false d a b s

/-- ATOM.MAX (R261). -/
def execAtomMax (d a b : Reg) (s : State) : Out := atomG .max false d a b s

/-- ATOM.UMIN (R261). -/
def execAtomUmin (d a b : Reg) (s : State) : Out := atomG .umin false d a b s

/-- ATOM.UMAX (R261). -/
def execAtomUmax (d a b : Reg) (s : State) : Out := atomG .umax false d a b s

/-- ATOM.XCHG (R261). -/
def execAtomXchg (d a b : Reg) (s : State) : Out := atomG .xchg false d a b s

/-- ATOM.CAS (R261). -/
def execAtomCas (d a b : Reg) (s : State) : Out := atomG .cas false d a b s

/-- ATOM.INC (R261). -/
def execAtomInc (d a b : Reg) (s : State) : Out := atomG .inc false d a b s

/-- ATOM.FADD (R262). -/
def execAtomFadd (d a b : Reg) (s : State) : Out := atomG .fadd false d a b s

/-- ATOM.HADD2.B (R262). -/
def execAtomHadd2B (d a b : Reg) (s : State) : Out := atomG .hadd2b false d a b s

/-- ATOM.HADD2.H (R262). -/
def execAtomHadd2H (d a b : Reg) (s : State) : Out := atomG .hadd2h false d a b s

/-- ATOM.FMIN (R262). -/
def execAtomFmin (d a b : Reg) (s : State) : Out := atomG .fmin false d a b s

/-- ATOM.FMAX (R262). -/
def execAtomFmax (d a b : Reg) (s : State) : Out := atomG .fmax false d a b s

/-- ATOM.W.ADD (R263). -/
def execAtomWAdd (d a b : Reg) (s : State) : Out := atomG .add true d a b s

/-- ATOM.W.AND (R263). -/
def execAtomWAnd (d a b : Reg) (s : State) : Out := atomG .and true d a b s

/-- ATOM.W.OR (R263). -/
def execAtomWOr (d a b : Reg) (s : State) : Out := atomG .or true d a b s

/-- ATOM.W.XOR (R263). -/
def execAtomWXor (d a b : Reg) (s : State) : Out := atomG .xor true d a b s

/-- ATOM.W.MIN (R263). -/
def execAtomWMin (d a b : Reg) (s : State) : Out := atomG .min true d a b s

/-- ATOM.W.MAX (R263). -/
def execAtomWMax (d a b : Reg) (s : State) : Out := atomG .max true d a b s

/-- ATOM.W.UMIN (R263). -/
def execAtomWUmin (d a b : Reg) (s : State) : Out := atomG .umin true d a b s

/-- ATOM.W.UMAX (R263). -/
def execAtomWUmax (d a b : Reg) (s : State) : Out := atomG .umax true d a b s

/-- ATOM.W.XCHG (R263). -/
def execAtomWXchg (d a b : Reg) (s : State) : Out := atomG .xchg true d a b s

/-- ATOM.W.CAS (R263). -/
def execAtomWCas (d a b : Reg) (s : State) : Out := atomG .cas true d a b s

/-- ATOM.W.INC (R263). -/
def execAtomWInc (d a b : Reg) (s : State) : Out := atomG .inc true d a b s

/-- ATOML.ADD (R264). -/
def execAtomlAdd (d a b : Reg) (s : State) : Out := atomL .add d a b s

/-- ATOML.AND (R264). -/
def execAtomlAnd (d a b : Reg) (s : State) : Out := atomL .and d a b s

/-- ATOML.OR (R264). -/
def execAtomlOr (d a b : Reg) (s : State) : Out := atomL .or d a b s

/-- ATOML.XOR (R264). -/
def execAtomlXor (d a b : Reg) (s : State) : Out := atomL .xor d a b s

/-- ATOML.MIN (R264). -/
def execAtomlMin (d a b : Reg) (s : State) : Out := atomL .min d a b s

/-- ATOML.MAX (R264). -/
def execAtomlMax (d a b : Reg) (s : State) : Out := atomL .max d a b s

/-- ATOML.UMIN (R264). -/
def execAtomlUmin (d a b : Reg) (s : State) : Out := atomL .umin d a b s

/-- ATOML.UMAX (R264). -/
def execAtomlUmax (d a b : Reg) (s : State) : Out := atomL .umax d a b s

/-- ATOML.XCHG (R264). -/
def execAtomlXchg (d a b : Reg) (s : State) : Out := atomL .xchg d a b s

/-- ATOML.CAS (R264). -/
def execAtomlCas (d a b : Reg) (s : State) : Out := atomL .cas d a b s

/-- ATOML.INC (R264). -/
def execAtomlInc (d a b : Reg) (s : State) : Out := atomL .inc d a b s

/-- ATOML.FADD (R264). -/
def execAtomlFadd (d a b : Reg) (s : State) : Out := atomL .fadd d a b s

/-- ATOML.HADD2.B (R264). -/
def execAtomlHadd2B (d a b : Reg) (s : State) : Out := atomL .hadd2b d a b s

/-- ATOML.HADD2.H (R264). -/
def execAtomlHadd2H (d a b : Reg) (s : State) : Out := atomL .hadd2h d a b s

/-- ATOML.FMIN (R264). -/
def execAtomlFmin (d a b : Reg) (s : State) : Out := atomL .fmin d a b s

/-- ATOML.FMAX (R264). -/
def execAtomlFmax (d a b : Reg) (s : State) : Out := atomL .fmax d a b s

end Sys2Proof.Machine
end

