-- ==== Sys2Proof/Machine/Control.lean ====
section
/-! DEFINITION. Branches, jumps and control (R168 to R177), TRET (R394, R395). -/

namespace Sys2Proof.Machine

/-- The target of a displacement (R168). -/
def Ctx.target (c : Ctx) (i : Int) : PC := c.pc + 4 + BitVec.ofInt 57 (4 * i)

/-- A branch: lanes that take it, and whether R112 counts it as backward. -/
def Ctx.branch (c : Ctx) (i : Int) (taken : Nat → Bool) (s : State) : Res :=
  .jump s (fun l => some (if taken l then c.target i else c.pc4))
    (decide ((c.target i).toNat ≤ c.pc.toNat) && (lanesOf c.set).any taken)

/-- BRA (R168). -/
def execBra (i : Int) (s : State) : Out := issue {} (fun c => c.branch i (fun _ => true) c.s) s

/-- BZ (R168). -/
def execBz (a : Reg) (i : Int) (s : State) : Out :=
  issue { src := [(a, 1)] } (fun c => c.branch i (fun l => c.reg a l == 0) c.s) s

/-- BNZ (R168). -/
def execBnz (a : Reg) (i : Int) (s : State) : Out :=
  issue { src := [(a, 1)] } (fun c => c.branch i (fun l => c.reg a l != 0) c.s) s

/-- The link (R169). -/
def Ctx.link (c : Ctx) : LaneOut := wide (c.pc4.setWidth 64)

/-- CALL (R169). -/
def execCall (d : Reg) (i : Int) (s : State) : Out :=
  issue { dst := [(d, 2)] } (fun c => c.branch i (fun _ => true) (c.writeF d 2 (fun _ => c.link) c.s)) s

/-- The target a lane's pair holds (R170). -/
def Ctx.jumpTarget (c : Ctx) (a : Reg) (l : Nat) : PC := (c.regW a l).setWidth 57

/-- Whether a target is misaligned (R90). -/
def misaligned (p : PC) : Bool := p.toNat % 4 != 0

/-- JMP, JCALL and RET (R170): a helper lane with a misaligned target writes 0 to its link and goes on. -/
def jumpOp (d : Option Reg) (a : Reg) (s : State) : Out :=
  issue { dst := (d.map fun r => (r, 2)).toList, src := [(a, 2)] }
    (fun c =>
      let t (l : Nat) : PC := c.jumpTarget a l
      if (lanesOf c.cnt).any fun l => misaligned (t l) then
        .trap (c.trapOf .misaligned 0 ((t c.first).setWidth 64))
      else
        let s := match d with
          | some r => c.writeF r 2 (fun l => if misaligned (t l) then ⟨[], {}⟩ else c.link) c.s
          | none => c.s
        .jump s (fun l => some (if misaligned (t l) then c.pc4 else t l))
          ((lanesOf c.set).any fun l => !misaligned (t l) && decide ((t l).toNat ≤ c.pc.toNat))) s

/-- JMP (R170). -/
def execJmp (a : Reg) (s : State) : Out := jumpOp none a s

/-- JCALL (R170). -/
def execJcall (d a : Reg) (s : State) : Out := jumpOp (some d) a s

/-- RET (R170). -/
def execRet (a : Reg) (s : State) : Out := jumpOp none a s

/-- NOP (R172). -/
def execNop (s : State) : Out := issue {} (fun c => .go c.s) s

/-- EXIT (R173, R122, R393). -/
def execExit (s : State) : Out :=
  issue { illegal := s.atS }
    (fun c =>
      if c.w.live &&& ~~~(c.w.exiting c.set) = 0#64 ∧ !c.w.outst.isEmpty then .wait
      else .jump (c.s.exitLanes c.wid c.set) (toPc c.pc) false) s

/-- Start a sweep (R113, R114): the threshold and the lanes that have had their turn. -/
def State.startSweep (s : State) (wid : Nat) (h : PC) (had : Mask) : State :=
  match s.waves.get? wid with
  | none => s
  | some w =>
    let core := ((s.teams.get? w.tid).map (·.core)).getD 0
    (s.setWave wid { w with sweep := some ⟨h.toNat, had, 0, 0⟩ }).count core 4

/-- YIELD (R114, R174): where another set exists, a sweep starts although the lanes then merge with it. Log entry 14, DEDUCED. -/
def execYield (s : State) : Out :=
  issue {}
    (fun c =>
      if c.w.sweep.isSome then .jump c.s (toPc c.pc4) true
      else if c.w.divided then .after c.s (toPc c.pc4) fun s => s.startSweep c.wid c.pc c.set
      else .go c.s) s

/-- COMMIT (R175). -/
def execCommit (s : State) : Out := issue {} (fun c => if c.w.region.isSome then .wait else .go c.s) s

/-- The cycles of a SLEEP code (R176). -/
def sleepCycles (k : Nat) : Nat := (8 + k % 8) * 2 ^ (k / 8) * 8

/-- SLEEP (R176): the wave may be ready again from the clock value it keeps. -/
def execSleep (k : Nat) (s : State) : Out :=
  issue {}
    (fun c => .go (c.s.updWave c.wid fun w => { w with
      sleep := some (c.s.clock.toNat + sleepCycles k), slept := some (c.pc, c.set) })) s

/-- BKPT (R177). -/
def execBkpt (s : State) : Out := issue {} (fun c => .trap (c.trapOf .breakpoint)) s

/-- TRAP (R177). -/
def execTrap (k : Nat) (s : State) : Out := issue {} (fun c => .trap (c.trapOf .software (BitVec.ofNat 32 k))) s

/-- Whether a trapped non-helper lane's fixed PC is misaligned (R395). -/
def Wave.fixedBad (w : Wave) : Bool :=
  match w.recd with
  | some r => (lanesOf (r.trapped &&& w.counted)).any fun l => (w.fixedPc l).toNat % 4 != 0
  | none => false

/-- The schedule's counters start again (R112: a wave with a single PC set stood at TRET). -/
def State.freshCounters (s : State) (wid : Nat) : State := s.updWave wid fun w => { w with brCount := 0, qCount := 0 }

/-- TRET (R394, R395). -/
def execTret (k : TretAct) (s : State) : Out :=
  issue { priv := !s.atS }
    (fun c =>
      match k with
      | .killTeam => .go (c.s.killTeam c.w.tid)
      | .killLaunch => .go (c.s.failLaunch c.t.lid 7 1)
      | _ =>
        if k = .fixed ∧ c.w.fixedBad then .trap (c.trapOf .misaligned)
        else
          let s := c.s.leaveTrap c.wid k
          let pcs := ((s.waves.get? c.wid).map (·.pcs)).getD []
          .after s (fun l => some (pcOfLane pcs l)) fun s => s.freshCounters c.wid) s

end Sys2Proof.Machine
end

