-- ==== Sys2Proof/Machine/Crypto.lean ====
section
/-! DEFINITION. The algorithms that signatures and measurements name (R47, R440 to R442): SHAKE256 of FIPS 202 and the
verification of ML-DSA-65 of FIPS 204, in pure mode with an empty context. -/

namespace Sys2Proof.Machine

/-- A lane of a Keccak state, which has 25, lane x + 5y at row y (FIPS 202). -/
def laneAt (a : List DWord) (i : Nat) : DWord := a.getD i 0

/-- The walk of step ρ from lane (x, y): step t visits the lane of index x + 5y and turns it by (t + 1)(t + 2) ÷ 2 places,
and the next lane is (y, 2x + 3y) (FIPS 202). -/
def rhoWalk : (steps t x y : Nat) → List (Nat × Nat)
  | 0, _, _, _ => []
  | n + 1, t, x, y => (x + 5 * y, (t + 1) * (t + 2) / 2 % 64) :: rhoWalk n (t + 1) y ((2 * x + 3 * y) % 5)

/-- The 24 lanes that step ρ turns with their rotations; lane 0 stays. -/
def rhoTurns : List (Nat × Nat) := rhoWalk 24 0 1 0

/-- The shift register of step ι after one step: 8 bits, fed back by x⁸ + x⁶ + x⁵ + x⁴ + 1 (FIPS 202). -/
def iotaShift (r : BitVec 8) : BitVec 8 := if r.msb then (r <<< 1) ^^^ 0x71 else r <<< 1

/-- The places 2^j − 1 that the seven bits of a round set in lane 0, and the register after them. -/
def iotaBits (r : BitVec 8) : DWord × BitVec 8 :=
  (List.range 7).foldl (fun (v, r) j => (if r.getLsbD 0 then v ||| BitVec.twoPow 64 (2 ^ j - 1) else v, iotaShift r)) (0, r)

/-- The constants of step ι of a number of rounds from a state of the register on. -/
def iotaFrom : (rounds : Nat) → BitVec 8 → List DWord
  | 0, _ => []
  | n + 1, r => (iotaBits r).1 :: iotaFrom n (iotaBits r).2

/-- The constants of step ι, by round. -/
def iotaConstants : List DWord := iotaFrom 24 1

/-- The sum of the five lanes of column x. -/
def columnParity (a : List DWord) (x : Nat) : DWord := ((List.range 5).map fun y => laneAt a (x % 5 + 5 * y)).foldl (· ^^^ ·) 0

/-- Step θ: a lane of column x takes the parity of column x − 1 and, turned by one place, that of column x + 1. -/
def keccakTheta (a : List DWord) : List DWord :=
  a.mapIdx fun i v => v ^^^ columnParity a (i + 4) ^^^ (columnParity a (i + 1)).rotateLeft 1

/-- Step ρ. -/
def keccakRho (a : List DWord) : List DWord :=
  rhoTurns.foldl (fun v (k, n) => v.set k ((laneAt a k).rotateLeft n)) a

/-- Step π: the lane of (x, y) moves to (y, 2x + 3y). -/
def keccakPi (a : List DWord) : List DWord :=
  (List.range 25).foldl (fun v k => v.set (k / 5 + 5 * ((2 * (k % 5) + 3 * (k / 5)) % 5)) (laneAt a k)) a

/-- The lane of index i's row that stands n columns on. -/
def inRow (a : List DWord) (i n : Nat) : DWord := laneAt a (i - i % 5 + (i % 5 + n) % 5)

/-- Step χ. -/
def keccakChi (a : List DWord) : List DWord := a.mapIdx fun i v => v ^^^ (inRow a i 2 &&& ~~~inRow a i 1)

/-- A round of Keccak-f[1600]; `c` is its constant. -/
def keccakRound (a : List DWord) (c : DWord) : List DWord :=
  (keccakChi (keccakPi (keccakRho (keccakTheta a)))).modifyHead (· ^^^ c)

/-- The permutation Keccak-f[1600]. -/
def keccakF (a : List DWord) : List DWord := iotaConstants.foldl keccakRound a

/-- A block of bytes enters the first lanes of a state. -/
def absorbBlock (a : List DWord) (block : List Byte) : List DWord :=
  keccakF (a.mapIdx fun i v => v ^^^ BitVec.ofNat 64 (leValue ((block.drop (8 * i)).take 8)))

/-- A message with the suffix and padding of SHAKE, a multiple of the rate. -/
def shakePadded (rate : Nat) (m : List Byte) : List Byte :=
  let k := rate - m.length % rate
  if k = 1 then m ++ [0x9F] else m ++ 0x1F :: (List.replicate (k - 2) 0 ++ [0x80])

/-- Blocks of a message enter a state in turn. -/
def absorbAll (rate : Nat) : (blocks : Nat) → List Byte → List DWord → List DWord
  | 0, _, a => a
  | k + 1, m, a => absorbAll rate k (m.drop rate) (absorbBlock a (m.take rate))

/-- The bytes of a state. -/
def stateBytes (a : List DWord) : List Byte := a.flatMap fun v => leBytes 8 v.toNat

/-- Blocks squeezed from a state. -/
def squeeze (rate : Nat) : (blocks : Nat) → List DWord → List Byte
  | 0, _ => []
  | k + 1, a => (stateBytes a).take rate ++ squeeze rate k (keccakF a)

/-- SHAKE with a rate in bytes, to a length in bytes (FIPS 202). -/
def shake (rate : Nat) (m : List Byte) (n : Nat) : List Byte :=
  let p := shakePadded rate m
  (squeeze rate (ceilDiv n rate) (absorbAll rate (p.length / rate) p (List.replicate 25 0))).take n

/-- SHAKE256 (R47, R440 to R442). Log entry 87, PRESUMED. -/
@[irreducible] def shake256 (m : List Byte) (n : Nat) : List Byte := shake 136 m n

/-- SHAKE128, which expands the matrix of ML-DSA. -/
def shake128 (m : List Byte) (n : Nat) : List Byte := shake 168 m n

/-- The modulus q of ML-DSA. -/
def mlQ : Nat := 8380417

/-- A base to a power modulo q. -/
def powQ (b e : Nat) : Nat := (List.range e).foldl (fun x _ => x * b % mlQ) 1

/-- The eight bits of a number below 256 in reverse. -/
def brv8 (i : Nat) : Nat := (List.range 8).foldl (fun v k => v + (if i.testBit k then 2 ^ (7 - k) else 0)) 0

/-- The points 1753^(2·brv8(i) + 1) at which the transform of ML-DSA evaluates (FIPS 204). -/
def nttPoints : List Nat := (List.range 256).map fun i => powQ 1753 (2 * brv8 i + 1)

/-- A polynomial's value at a point, coefficients lowest first. -/
def evalQ (p : List Nat) (x : Nat) : Nat := p.foldr (fun c v => (v * x + c) % mlQ) 0

/-- The number-theoretic transform. -/
def ntt (p : List Nat) : List Nat := nttPoints.map (evalQ p)

/-- Powers of a number modulo q, from the first on. -/
def powersQ (x : Nat) : (n v : Nat) → List Nat
  | 0, _ => []
  | n + 1, v => v :: powersQ x n (v * x % mlQ)

/-- The inverse transform: 8,347,681 is the inverse of 256, and a point's inverse is its power 511. -/
def nttInverse (p : List Nat) : List Nat :=
  ((p.zip nttPoints).foldl (fun acc (c, x) =>
    (acc.zip (powersQ (powQ x 511) 256 1)).map fun (a, w) => (a + c * w) % mlQ) (List.replicate 256 0)).map
      fun v => v * 8347681 % mlQ

/-- Coefficientwise combination of two polynomials. -/
def zipQ (f : Nat → Nat → Nat) (p r : List Nat) : List Nat := (p.zip r).map fun e => f e.1 e.2 % mlQ

/-- Bytes in groups of three. -/
def triples : List Byte → List (Byte × Byte × Byte)
  | a :: b :: c :: r => (a, b, c) :: triples r
  | _ => []

/-- A polynomial of the matrix, in the transform's domain, from its seed by rejection (FIPS 204, RejNTTPoly). -/
def rejNttPoly (seed : List Byte) : List Nat :=
  (((triples (shake128 seed 3072)).map fun (a, b, c) => a.toNat + 256 * b.toNat + 65536 * (c.toNat % 128)).filter
    fun v => decide (v < mlQ)).take 256

/-- The value that n bits of bytes hold from a bit on. -/
def bitsAt (b : Nat) (i n : Nat) : Nat := b / 2 ^ i % 2 ^ n

/-- 256 coefficients of n bits each from bytes. -/
def unpack256 (bs : List Byte) (n : Nat) : List Nat :=
  let v := leValue bs
  (List.range 256).map fun i => bitsAt v (n * i) n

/-- The positions at which the challenge polynomial is not 0, from the bytes that follow its signs (FIPS 204, SampleInBall). -/
def ballSteps : (fuel i : Nat) → List Byte → List (Nat × Nat)
  | 0, _, _ => []
  | _, _, [] => []
  | k + 1, i, b :: r =>
    if 255 < i then []
    else if i < b.toNat then ballSteps k i r
    else (i, b.toNat) :: ballSteps k (i + 1) r

/-- The challenge polynomial with 49 coefficients of ±1 (FIPS 204, SampleInBall). -/
def sampleInBall (seed : List Byte) : List Nat :=
  let s := shake256 seed 1088
  let signs := leValue (s.take 8)
  (ballSteps 1080 207 (s.drop 8)).foldl (fun c (i, j) =>
    (c.set i (c.getD j 0)).set j (if signs.testBit (i - 207) then mlQ - 1 else 1)) (List.replicate 256 0)

/-- The hints of one polynomial from index `first` up to `last`: rising positions (FIPS 204, HintBitUnpack). -/
def hintRow (y : List Byte) (first last : Nat) : Option (List Nat) :=
  let p := ((y.take last).drop first).map BitVec.toNat
  if (p.zip (p.drop 1)).all fun e => decide (e.1 < e.2) then some p else none

/-- The positions of the hints of the six polynomials, if they are well formed (FIPS 204, HintBitUnpack). -/
def hintRows (y : List Byte) : (rows i first : Nat) → Option (List (List Nat))
  | 0, _, first => if (y.take 55).drop first |>.all (· == 0) then some [] else none
  | k + 1, i, first =>
    let last := ((y.getD (55 + i) 0)).toNat
    if last < first ∨ 55 < last then none
    else
      match hintRow y first last, hintRows y k (i + 1) last with
      | some p, some r => some (p :: r)
      | _, _ => none

/-- Twice γ2, which is (q − 1) ÷ 16. -/
def gamma22 : Nat := 523776

/-- The high part of a coefficient, corrected by its hint (FIPS 204, Decompose and UseHint). -/
def useHint (hint : Bool) (r : Nat) : Nat :=
  let m := r % gamma22
  -- the centred remainder is positive where 1 ≤ m ≤ γ2; r1 is 0 where the rest is q − 1
  let low := decide (m ≤ gamma22 / 2)
  let up := if low then r / gamma22 else r / gamma22 + 1
  let r1 := if up = 16 then 0 else up
  let pos := low && decide (m ≠ 0) && decide (up ≠ 16)
  if !hint then r1 else if pos then (r1 + 1) % 16 else (r1 + 15) % 16

/-- Two coefficients of four bits in each byte (FIPS 204, w1Encode). -/
def nibbles : List Nat → List Byte
  | a :: b :: r => BitVec.ofNat 8 (a + 16 * b) :: nibbles r
  | _ => []

/-- Row i of the approximation of w: A·z − c·t1·2^13 (FIPS 204, ML-DSA.Verify_internal). -/
def mlRow (rho : List Byte) (zs : List (List Nat)) (c t1 : List Nat) (i : Nat) : List Nat :=
  let az := (zs.mapIdx fun s z => zipQ (· * ·) (rejNttPoly (rho ++ [BitVec.ofNat 8 s, BitVec.ofNat 8 i])) z).foldl
    (zipQ (· + ·)) (List.replicate 256 0)
  let ct := zipQ (· * ·) c (ntt (t1.map (· * 8192)))
  nttInverse (zipQ (fun a b => a + mlQ - b) az ct)

/-- ML-DSA-65 verification of a message and a signature under a public key, in pure mode with an empty context
(R47, R440; FIPS 204). Log entry 87, PRESUMED. -/
@[irreducible] def mldsaVerify (pk m sig : List Byte) : Bool :=
  if pk.length ≠ 1952 ∨ sig.length ≠ 3309 then false
  else
    let rho := pk.take 32
    let t1 := (List.range 6).map fun i => unpack256 ((pk.drop (32 + 320 * i)).take 320) 10
    let seed := sig.take 48
    let zs := (List.range 5).map fun i => unpack256 ((sig.drop (48 + 640 * i)).take 640) 20
    match hintRows (sig.drop 3248) 6 0 0 with
    | none => false
    | some hs =>
      -- a packed value v stands for z = γ1 − v with γ1 = 2^19, and |z| < γ1 − β with β = 196
      let small := zs.all fun z => z.all fun v => decide (196 < v ∧ v < 2 ^ 20 - 196)
      let zq := zs.map fun z => ntt (z.map fun v => (2 ^ 19 + mlQ - v) % mlQ)
      let c := ntt (sampleInBall seed)
      let mu := shake256 (shake256 pk 64 ++ [0, 0] ++ m) 64
      let w := (List.range 6).flatMap fun i =>
        nibbles ((mlRow rho zq c (t1.getD i []) i).mapIdx fun k v => useHint ((hs.getD i []).contains k) v)
      small && shake256 (mu ++ w) 48 == seed

end Sys2Proof.Machine
end

