-- ==== Sys2Proof/Machine/Front.lean ====
section
/-! DEFINITION. The launch front's queues: identifiers (R54), stalling (R57), appends (R58), completion words and events
(R72 to R75), and what a completion does to dependants (R63 to R65). -/

namespace Sys2Proof.Machine

/-- A launch queue of an owner. -/
def State.queue? (s : State) (own q : Nat) : Option Queue := (s.owners.get? own).bind fun o => o.queues.get? q

/-- Change a launch queue. -/
def State.updQueue (s : State) (own q : Nat) (f : Queue → Queue) : State :=
  s.updOwner own fun o => { o with queues := o.queues.upd q f }

/-- The IDENT of a ring entry that names a queue and a count (R74). Log entry 65, DEDUCED. -/
def eventIdent (event q n : Nat) : Nat := q % 64 * 2 ^ 56 + event * 2 ^ 48 + n % 2 ^ 48

/-- The front stalls a queue and posts the event, which carries the last tail value loaded (R57, R74). Log entry 65, DEDUCED. -/
def State.stallQueue (s : State) (own q tail : Nat) : State :=
  (s.updQueue own q fun x => { x with state := .stalled, lastTail := tail }).postEvent own (eventIdent 0xF0 q tail) 0xF0

/-- The address of a record's slot (R54). -/
def Queue.slotVa (q : Queue) (n : Nat) : Nat := q.desc.base.toNat + 64 * (n % 2 ^ q.desc.logSize)

/-- An append of a LAUNCH: the word its lane receives (R58, R354). Log entry 29, DEDUCED. -/
def State.appendRecord (s : State) (own q : Nat) (rec : List Byte) : Word × State :=
  match s.queue? own q with
  | none => (0x80000001#32, s)
  | some x =>
    if x.state = .disabled ∨ !x.desc.launchMode then (0x80000001#32, s)
    else if x.state ≠ .running then (0x80000003#32, s)
    else if 2 ^ x.desc.logSize ≤ x.lastTail - x.taken then (0x80000002#32, s)
    else
      let n := x.lastTail
      let s := (s.walkTouch own (x.slotVa n)).walkTouch own x.desc.tail.toNat
      match s.frontAccess own .store (x.slotVa n), s.frontAccess own .store x.desc.tail.toNat with
      | .ok _ p, .ok _ t =>
        let s := (s.agentWrites own p rec).agentWrites own t (leBytes 8 (n + 1))
        (BitVec.ofNat 32 (n % 2 ^ 31), s.updQueue own q fun x => { x with lastTail := n + 1 })
      | .ok _ _, a => (0x80000003#32, (s.logAccess own a).stallQueue own q n)
      | a, _ => (0x80000003#32, (s.logAccess own a).stallQueue own q n)

/-- A completion word (R72). -/
def completionWord (status detail gangs : Nat) : Nat := detail % 65536 * 2 ^ 32 + min gangs 0xFFFFFF * 256 + status

/-- The outcomes a queue keeps: those at or above its floor and of the 256 just below it (R65). -/
def keepOutcomes (floor : Nat) (t : Tbl Nat) : Tbl Nat :=
  let below := (t.filter fun e => e.1 < floor).reverse.take 256
  t.filter fun e => decide (floor ≤ e.1) || below.any fun b => b.1 == e.1

/-- The floor of a queue (R65): its lowest taken and uncompleted launch, or the head. -/
def State.floorOf (s : State) (own q : Nat) (x : Queue) : Nat :=
  (((s.launches.filter fun e => e.2.owner = own ∧ e.2.queue = q).map fun e => e.2.seq).min?).getD x.taken

/-- Record a launch's outcome for R63 and R65. -/
def State.recordOutcome (s : State) (own q n status : Nat) : State :=
  match s.queue? own q with
  | none => s
  | some x =>
    s.updQueue own q fun y => { y with outcomes := keepOutcomes (s.floorOf own q x) (y.outcomes.put n status) }

/-- A resetting queue with no launch left is disabled (R76 step 4). -/
def State.resetDone (s : State) (own q : Nat) : State :=
  match s.queue? own q with
  | none => s
  | some x =>
    if x.state = .resetting ∧ !(s.launches.any fun e => e.2.owner = own ∧ e.2.queue = q) then
      s.updQueue own q fun y => { y with state := .disabled }
    else s

/-- The predecessor field of a launch that names another is failed by its outcome (R64): 0 or 1. -/
def Launch.failedPred (l : Launch) (bad : Pred → Bool) : Option Nat :=
  let hit (p : Option Pred) (sat : Bool) : Bool := match p with
    | some p => !sat && bad p
    | none => false
  if hit l.pred0 l.sat0 then some 0 else if hit l.pred1 l.sat1 then some 1 else none

/-- The completion-word store of R72, and the event where R72 or R75 asks for one. -/
def State.storeCompletion (s : State) (l : Launch) (w : Nat) : State :=
  match s.frontWrite l.owner l.compl (leBytes 8 w) with
  | .ok s => if l.notify then s.postEvent l.owner l.ident w else s
  | .error a => (s.logAccess l.owner a).postEvent l.owner (l.ident + 0xF2 * 2 ^ 48) w

/-- A completed launch satisfies or fails those that name it as a predecessor (R63, R64): it is marked in the first field
that fails, with the status of R72. -/
def State.informDependants (s : State) (l : Launch) (status : Nat) : State :=
  if status = 1 then s.satisfy l fun _ => true
  else
    { s with launches := s.launches.map fun e =>
        if e.2.owner = l.owner ∧ e.2.fail.isNone ∧ e.2.stage ≠ .running then
          match e.2.failedPred (·.names l) with
          | some d => (e.1, { e.2 with fail := some (6, d) })
          | none => e
        else e }

/-- The drains of a launch end, and its clusters are set aside no more (R88). Log entry 86, DEDUCED. -/
def State.endDrains (s : State) (lid : Nat) : State :=
  { s with
    clusters := s.clusters.map fun e => if e.2.setAside = some lid then (e.1, { e.2 with setAside := none }) else e
    drains := s.drains.filter fun d => d.lid != lid }

/-- The end of a launch in the front (R72, R435 steps 2 to 4). Log entry 36, DESIGN CHOICE. -/
def State.completeLaunch (s : State) (lid status detail : Nat) : State :=
  match s.launches.get? lid with
  | none => s
  | some l =>
    let s := s.storeCompletion l (completionWord status detail l.gangsDone)
    let s := { s with launches := s.launches.del lid }.endDrains lid
    ((s.recordOutcome l.owner l.queue l.seq status).informDependants l status).resetDone l.owner l.queue

end Sys2Proof.Machine
end

