-- ==== Sys2Proof/Machine/Image.lean ====
section
/-! DEFINITION. Kernel images: the descriptor and its checks (R42 to R45), the shape after overrides (R59, R60, R77),
signatures (R47, R48), the cache of verified images (R49), and the check a launch passes before it is placed (R45). -/

namespace Sys2Proof.Machine

/-- A kernel descriptor (R43, R44). -/
structure Desc where
  magic : Nat
  version : Nat
  flags : Nat
  imageLen : Nat
  entry : Nat
  codeOff : Nat
  codeLen : Nat
  rodataOff : Nat
  rodataLen : Nat
  argsOff : Nat
  argsLen : Nat
  argsAlign : Nat
  regs : Nat
  waves : Nat
  gang : Nat
  threads : Nat
  localBytes : Nat
  banks : Nat
  trapvec : Nat
  fpmode : Nat
  seed : Nat
  relocOff : Nat
  relocCount : Nat
  sigOff : Nat
  sigLen : Nat
  /-- whether a reserved byte is nonzero -/
  reserved : Bool
  deriving DecidableEq, Repr

/-- The descriptor that 128 bytes hold (R43). -/
def Desc.ofBytes (bs : List Byte) : Desc where
  magic := fieldAt bs 0 4
  version := fieldAt bs 4 2
  flags := fieldAt bs 6 2
  imageLen := fieldAt bs 8 4
  entry := fieldAt bs 12 4
  codeOff := fieldAt bs 16 4
  codeLen := fieldAt bs 20 4
  rodataOff := fieldAt bs 24 4
  rodataLen := fieldAt bs 28 4
  argsOff := fieldAt bs 32 4
  argsLen := fieldAt bs 36 4
  argsAlign := fieldAt bs 40 2
  regs := fieldAt bs 42 2
  waves := fieldAt bs 44 1
  gang := fieldAt bs 45 1
  threads := fieldAt bs 46 2
  localBytes := fieldAt bs 48 4
  banks := fieldAt bs 52 1
  trapvec := fieldAt bs 56 4
  fpmode := fieldAt bs 60 4
  seed := fieldAt bs 64 4
  relocOff := fieldAt bs 68 4
  relocCount := fieldAt bs 72 4
  sigOff := fieldAt bs 76 4
  sigLen := fieldAt bs 80 4
  reserved := fieldAt bs 53 3 != 0 || fieldAt bs 84 44 != 0

/-- FLAGS.SIGNED (R44). -/
def Desc.signed (d : Desc) : Bool := d.flags.testBit 1

/-- FLAGS.TASKS (R44). -/
def Desc.tasks (d : Desc) : Bool := d.flags.testBit 0

/-- The team shape after the overrides of a record (R59, R60, R77). -/
def Desc.shape (d : Desc) (l : Launch) : Shape where
  nWaves := if l.threadsO = 0 then d.waves else ceilDiv l.threadsO 64
  nThreads := if l.threadsO = 0 then d.threads else l.threadsO
  regs := if l.regsO = 0 then d.regs else l.regsO
  localBytes := if l.localO = 0 then d.localBytes else (l.localO - 1) * 128
  nTeams := if l.gangO = 0 then d.gang else l.gangO
  banks := if l.banksO = 0 then d.banks else l.banksO - 1
  entry := l.image + d.entry
  trapvec := if d.trapvec = 0 then none else some (l.image + d.trapvec)
  fpmode := d.fpmode
  seed := d.seed

/-- A power of two from 8 to 4,096. -/
def alignOk (n : Nat) : Bool := (List.range 10).any fun i => n == 2 ^ (i + 3)

/-- The limits of R43 and R44 (condition 3 of R45). That ENTRY and TRAPVEC lie inside code is left to condition 5.
Log entry 66, DEDUCED. -/
def Desc.limits (d : Desc) (x : Shape) : Bool :=
  d.sigLen == (if d.sigOff = 0 then 0 else 3320) && (d.sigOff == 0 || (decide (d.imageLen ≤ d.sigOff) && d.sigOff % 8 == 0)) &&
  d.signed == (d.sigOff != 0) && d.relocOff % 8 == 0 && (d.relocCount != 0 || d.relocOff == 0) &&
  d.trapvec % 4 == 0 && d.entry % 4 == 0 && decide (8 ≤ x.regs ∧ x.regs ≤ 512) && x.regs % 8 == 0 &&
  decide (1 ≤ x.nWaves ∧ x.nWaves ≤ 16) && decide (1 ≤ x.nTeams ∧ x.nTeams ≤ 4) && x.localBytes % 128 == 0 &&
  decide (x.localBytes ≤ 524288) && decide (x.banks ≤ 8) && alignOk d.argsAlign && (d.argsLen != 0 || d.argsOff == 0) &&
  (d.rodataLen != 0 || d.rodataOff == 0) && d.codeOff % 128 == 0 && d.rodataOff % 128 == 0 &&
  decide (4 ≤ d.codeLen) && d.codeLen % 4 == 0 && decide (d.imageLen ≤ 2 ^ 26)

/-- The sections and the relocation table, which end by IMAGE_LEN: offset and length of those that are not empty (R42). -/
def Desc.parts (d : Desc) : List (Nat × Nat) :=
  [(d.codeOff, d.codeLen), (d.rodataOff, d.rodataLen), (d.argsOff, d.argsLen), (d.relocOff, 16 * d.relocCount)].filter
    fun p => p.2 != 0

/-- No two parts of a list overlap. -/
def disjointParts : List (Nat × Nat) → Bool
  | [] => true
  | p :: r => r.all (fun q => decide (p.1 + p.2 ≤ q.1) || decide (q.1 + q.2 ≤ p.1)) && disjointParts r

/-- Whether an offset lies inside code. -/
def Desc.inCode (d : Desc) (o : Nat) : Bool := decide (d.codeOff ≤ o) && decide (o < d.codeOff + d.codeLen)

/-- The conditions 1 to 11 of R45 for a descriptor and a launch. Log entry 28, DEDUCED; log entry 66, DEDUCED. -/
def Desc.conditions (d : Desc) (l : Launch) : List Bool :=
  let x := d.shape l
  [d.magic != 0x4C554946 || d.version != 1,
   d.reserved || decide (4 ≤ d.flags) || decide (16 ≤ d.fpmode),
   !d.limits x,
   (d.parts.any fun p => decide (d.imageLen < p.1 + p.2)) ||
     !disjointParts (d.parts ++ if d.sigLen = 0 then [] else [(d.sigOff, d.sigLen)]),
   !d.inCode d.entry || (d.trapvec != 0 && !d.inCode d.trapvec),
   !decide (64 * (x.nWaves - 1) < x.nThreads ∧ x.nThreads ≤ 64 * x.nWaves),
   decide (1024 < x.regs * x.nWaves),
   decide (8 < x.nTeams * x.banks),
   l.args % d.argsAlign != 0 || (l.args != 0 && d.argsLen == 0),
   l.persist != d.tasks,
   decide (0xFFFFFFFF < l.gangs * x.nTeams)]

/-- The number of the first condition of R45 that holds, none if none does. -/
def Desc.failure (d : Desc) (l : Launch) : Option Nat := ((d.conditions l).findIdx? id).map (· + 1)

/-- The pieces of a range of addresses that lie in one 64 KiB page each: address and length. -/
def piecesOf (va n : Nat) : List (Nat × Nat) :=
  ((List.range (n / 65536 + 2)).map fun i =>
    let lo := max va (va / 65536 * 65536 + 65536 * i)
    let hi := min (va + n) (va / 65536 * 65536 + 65536 * (i + 1))
    (lo, hi - lo)).filter fun p => p.2 != 0

/-- The walks for the pieces of a range read their entries (R210, R246). -/
def State.walksTouch (s : State) (own va n : Nat) : State := (piecesOf va n).foldl (fun s p => s.walkTouch own p.1) s

/-- The accesses of the front's reads of a range, or the first that is stopped. -/
def State.frontPieces (s : State) (own va n : Nat) : Except Access (List (Phys × Nat)) :=
  (piecesOf va n).foldr (fun p acc =>
    match s.frontAccess own .load p.1, acc with
    | .ok _ x, .ok l => .ok ((x, p.2) :: l)
    | .ok _ _, .error a => .error a
    | a, _ => .error a) (.ok [])

/-- The homes serve the reads of the pieces of a range. -/
def State.servePieces (s : State) (own : Nat) (l : List (Phys × Nat)) : State :=
  l.foldl (fun s e => s.agentReads own e.1 e.2) s

/-- Bytes read as the pieces of a range. -/
def State.readPieces (s : State) (l : List (Phys × Nat)) : List Byte :=
  l.flatMap fun e => s.bytesAt e.1.sp e.1.key e.1.addr e.2

/-- How the verification of an image ends (R45 condition 12, R48). -/
inductive Verified where
  | ok (s : State)
  | unreadable (s : State) (a : Access)
  | refused (s : State) (detail : Nat)

/-- The cache of verified images with one used last (R49: 32 entries, the least recently used goes). -/
def cacheImage (e : ImgEnt) (l : List ImgEnt) : List ImgEnt :=
  (e :: l.filter fun i => !(i.owner == e.owner && i.va == e.va)).take 32

/-- The front watches every line of an image (R49, R330). -/
def State.watchImage (s : State) (e : ImgEnt) : State :=
  e.extents.foldl (fun s (sp, a, n) => (List.range (ceilDiv (a % 128 + n) 128)).foldl
    (fun s i => s.watch 16 (lineId sp (a / 128 * 128 + 128 * i)) 0) s) s

/-- Whether a signature block is laid out as R47 says. Log entry 67, DEDUCED. -/
def sigFormed (b : List Byte) : Bool :=
  fieldAt b 0 4 == 0x47534946 && decide (fieldAt b 4 2 < 8) && fieldAt b 6 2 == 3309 && fieldAt b 3317 3 == 0

/-- The verification of a signed image from its bytes (R47, R48): the detail of a signature failure, or none.
Log entry 67, DEDUCED. -/
def Owner.signature (o : Owner) (image block : List Byte) : Option Nat :=
  if fieldAt block 4 2 < 8 ∧ (o.vkeys.get? (fieldAt block 4 2)).isNone then some 3
  else if sigFormed block && mldsaVerify ((o.vkeys.get? (fieldAt block 4 2)).getD []) (shake256 image 64)
      ((block.drop 8).take 3309) then none
  else some 2

/-- SIGNATURE_VERIFY (R48, R49): an image without a signature, one the cache holds, or one whose bytes are read. No copy of a peer's
memory is held (R234). Log entry 67, DEDUCED. -/
def State.verifyImage (s : State) (l : Launch) (d : Desc) : Verified :=
  match s.owners.get? l.owner with
  | none => .refused s 3
  | some o =>
    if !d.signed then (if o.required then .refused s 1 else .ok s)
    else
      match s.imgCache.find? fun i => i.owner == l.owner && i.va == l.image with
      | some e => .ok { s with imgCache := cacheImage e s.imgCache }
      | none =>
        let s := (s.walksTouch l.owner l.image d.imageLen).walksTouch l.owner (l.image + d.sigOff) d.sigLen
        match s.frontPieces l.owner l.image d.imageLen, s.frontPieces l.owner (l.image + d.sigOff) d.sigLen with
        | .ok is, .ok bs =>
          let s := s.servePieces l.owner (is ++ bs)
          match o.signature (s.readPieces is) (s.readPieces bs) with
          | some k => .refused s k
          | none =>
            if 2 ^ 22 < d.imageLen ∨ is.any (fun e => e.1.sp == .peer) then .ok s
            else
              let e : ImgEnt := ⟨l.owner, l.image, is.map fun e => (e.1.sp, e.1.addr, e.2)⟩
              .ok ({ s with imgCache := cacheImage e s.imgCache }.watchImage e)
        | .error a, _ => .unreadable s a
        | _, .error a => .unreadable s a

/-- Whether a launch is released: each valid predecessor is satisfied (R63). -/
def Launch.released (l : Launch) : Bool := (l.pred0.isNone || l.sat0) && (l.pred1.isNone || l.sat1)

/-- The check of a launch that is released (R45, R48). -/
def State.checkImage (s : State) (lid : Nat) (l : Launch) : State :=
  let s := s.frontReady l.owner l.image 128
  match s.frontRead l.owner l.image 128 with
  | .error a => (s.logAccess l.owner a).completeLaunch lid 2 12
  | .ok bs =>
    let d := Desc.ofBytes bs
    match d.failure l with
    | some k => s.completeLaunch lid 2 k
    | none =>
      match s.verifyImage l d with
      | .unreadable s a => (s.logAccess l.owner a).completeLaunch lid 2 12
      | .refused s k => s.completeLaunch lid 3 k
      | .ok s => s.updLaunch lid fun l => { l with stage := .checked, shape := some (d.shape l) }

/-- IMAGE_CHECK (R45): `x` the launch, taken and released. -/
def execImageCheck (s : State) : Out :=
  match s.launches.get? s.ev.x with
  | none => .refused (.notEnabled "no such launch")
  | some l =>
    if l.stage = .taken ∧ l.released ∧ l.fail.isNone then .next (s.checkImage s.ev.x l)
    else .refused (.notEnabled "the launch is not released")

end Sys2Proof.Machine
end

