-- ==== Sys2Proof/Machine/Record.lean ====
section
/-! DEFINITION. Launch records (R59 to R62), predecessors (R63 to R65), and the queues of the launch front: enabling, taking
records, resetting (R53 to R57, R68, R76). -/

namespace Sys2Proof.Machine

/-- The predecessor a field names (R61). -/
def predOf (v : Nat) : Option Pred := if v.testBit 63 then some ⟨v.testBit 62, bitsOf v 61 56, v % 2 ^ 48⟩ else none

/-- The launch a record describes (R59 to R61). -/
def Launch.ofRecord (own q n : Nat) (bs : List Byte) : Launch :=
  let ctrl := fieldAt bs 60 4
  { owner := own, queue := q, seq := n, image := fieldAt bs 0 8, args := fieldAt bs 8 8, compl := fieldAt bs 16 8,
    pred0 := predOf (fieldAt bs 24 8), pred1 := predOf (fieldAt bs 32 8), ovf := fieldAt bs 40 8, ovfN := fieldAt bs 48 4,
    gangs := fieldAt bs 52 4, threadsO := fieldAt bs 56 2, regsO := fieldAt bs 58 2, localO := bitsOf ctrl 30 17,
    banksO := bitsOf ctrl 16 13, gangO := bitsOf ctrl 12 10, notify := ctrl.testBit 4, persist := ctrl.testBit 3,
    colaunch := ctrl.testBit 2, prio := ctrl % 4, sat0 := false, sat1 := false, stage := .taken, shape := none,
    nextGang := 0, gangsDone := 0, lastCluster := none, passed := 0, reserved := false, trigDone := 0, cancel := [],
    ovfHead := 0, ovfTail := 0, inFlight := 0, fail := none }

/-- Whether a predecessor field offends (R61, R62). -/
def predBad (v q n : Nat) : Bool :=
  if v.testBit 63 then bitsOf v 55 48 != 0 || (bitsOf v 61 56 == q && decide (n ≤ v % 2 ^ 48)) else v != 0

/-- The byte offsets of the offending fields of a record, lowest first (R62). Log entry 28, DEDUCED. -/
def recordFaults (q n : Nat) (bs : List Byte) : List Nat :=
  let f (off k : Nat) : Nat := fieldAt bs off k
  let ctrl := f 60 4
  let checks : List (Nat × Bool) :=
    [(0, f 0 8 % 256 != 0 || decide (2 ^ 57 ≤ f 0 8)),
     (8, decide (2 ^ 57 ≤ f 8 8)),
     (24, predBad (f 24 8) q n),
     (32, predBad (f 32 8) q n),
     (40, f 40 8 % 256 != 0 || decide (2 ^ 57 ≤ f 40 8) || (f 48 4 == 0 && f 40 8 != 0)),
     (48, ctrl.testBit 3 && f 48 4 == 0),
     (52, f 52 4 == 0),
     (56, decide (1024 < f 56 2)),
     (58, f 58 2 != 0 && (decide (f 58 2 < 8) || decide (512 < f 58 2) || f 58 2 % 8 != 0)),
     (60, ctrl.testBit 31 || bitsOf ctrl 9 5 != 0 || decide (4097 < bitsOf ctrl 30 17) || decide (9 < bitsOf ctrl 16 13) ||
       decide (4 < bitsOf ctrl 12 10))]
  (checks.filter (·.2)).map (·.1)

/-- How a predecessor stands for a dependant (R63 to R65). -/
inductive PredState where
  | satisfied | waits | failed
  deriving DecidableEq, Repr

/-- The state of a predecessor of an owner's launch: in the launch table, by the outcome kept, not yet taken, or below
every kept outcome (R63 to R65). -/
def State.predState (s : State) (own : Nat) (p : Pred) : PredState :=
  match s.launches.find? fun e => e.2.owner = own && p.names e.2 with
  | some e => if p.trigger && e.2.allTriggered then .satisfied else .waits
  | none =>
    match s.queue? own p.queue with
    | none => .waits
    | some q =>
      match q.outcomes.get? p.seq with
      | some st => if st = 1 then .satisfied else .failed
      | none => if q.taken ≤ p.seq then .waits else .satisfied

/-- A launch as its predecessors stand when it is taken (R63, R64). -/
def State.withPreds (s : State) (l : Launch) : Launch :=
  let st (p : Option Pred) : PredState := match p with
    | some p => s.predState l.owner p
    | none => .satisfied
  { l with
    sat0 := st l.pred0 = .satisfied
    sat1 := st l.pred1 = .satisfied
    fail := if st l.pred0 = .failed then some (6, 0) else if st l.pred1 = .failed then some (6, 1) else none }

/-- A record is taken (R62). Log entry 85, DEDUCED. -/
def State.acceptRecord (s : State) (own q n : Nat) (bs : List Byte) : State :=
  let l := Launch.ofRecord own q n bs
  let s := s.walkTouch own l.compl
  let bad : Option Access :=
    if l.compl % 8 ≠ 0 ∨ 2 ^ 57 ≤ l.compl then some (.park .page)
    else match s.frontAccess own .store l.compl with
      | .ok _ _ => none
      | a => some a
  let s := s.updQueue own q fun x => { x with taken := n + 1 }
  match bad with
  | some a =>
    let tail := ((s.queue? own q).map (·.lastTail)).getD 0
    let s := (s.logAccess own a).recordOutcome own q n 4
    (s.informDependants l 4).postEvent own (eventIdent 0xF1 q tail) 0xF1
  | none =>
    let lid := s.nextLid
    let s := { s with launches := s.launches.put lid (s.withPreds l), nextLid := lid + 1 }
    match recordFaults q n bs with
    | off :: _ => s.completeLaunch lid 4 off
    | [] => s

/-- Launches of an owner in the launch table. -/
def State.tableCount (s : State) (own : Nat) : Nat := (s.launches.filter fun e => e.2.owner = own).length

/-- Entries of the launch table kept for the other owners with a running queue (R68). -/
def State.assured (s : State) (own : Nat) : Nat :=
  (s.owners.map fun e =>
    if e.1 ≠ own ∧ (e.2.queues.any fun q => q.2.state = .running) then 32 - s.tableCount e.1 else 0).sum

/-- Whether the launch table has an entry for an owner (R68). -/
def State.tableRoom (s : State) (own : Nat) : Bool :=
  decide (s.launches.length < 4096) && (decide (s.tableCount own < 32) || decide (s.launches.length + s.assured own < 4096))

/-- Whether the front may take the next record of a queue (R65, R68). -/
def State.mayTake (s : State) (own q : Nat) (x : Queue) : Bool :=
  decide (x.taken < x.lastTail) && decide (x.taken < s.floorOf own q x + 4096) && s.tableRoom own

/-- The head store of a batch (R56, R57). -/
def State.storeHead (s : State) (own q : Nat) : State :=
  match s.queue? own q with
  | none => s
  | some x =>
    match s.frontWrite own x.desc.head.toNat (leBytes 8 x.taken) with
    | .ok s => s
    | .error a => (s.logAccess own a).stallQueue own q x.lastTail

/-- Take records in sequence order up to the tail, then store the head once; `some` is set after the first (R56, R57).
Log entry 36, DESIGN CHOICE. -/
def State.takeRecords (own q : Nat) : (fuel : Nat) → (some : Bool) → State → State
  | 0, any, s => if any then s.storeHead own q else s
  | k + 1, any, s =>
    match s.queue? own q with
    | none => s
    | some x =>
      if s.mayTake own q x then
        let s := s.frontReady own (x.slotVa x.taken) 64
        match s.frontRead own (x.slotVa x.taken) 64 with
        | .error a =>
          let s := s.logAccess own a
          let s := if any then s.storeHead own q else s
          match s.queue? own q with
          | some y => if y.state = .running then s.stallQueue own q x.lastTail else s
          | none => s
        | .ok bs => State.takeRecords own q k true (s.acceptRecord own q x.taken bs)
      else if any then s.storeHead own q else s

/-- The place of a queue's tail word, whose copy the front holds once it has loaded it (R56): none on a peer's page (R234) or an
uncached one (R242). -/
def State.tailPlace (s : State) (own : Nat) (x : Queue) : Option (Space × Nat) :=
  match s.frontAccess own .load x.desc.tail.toNat with
  | .ok _ p => if p.tier = 2 ∨ p.tier = 4 then none else some (p.sp, p.addr)
  | _ => none

/-- Whether the front must load a queue's tail word (R56): it holds no copy of the word that TAIL_VA names now. -/
def State.needsTail (s : State) (own : Nat) (x : Queue) : Bool :=
  !x.desc.launchMode && match x.copy, s.frontAccess own .load x.desc.tail.toNat with
    | none, _ => true
    | some c, .ok _ p => c != (p.sp, p.addr)
    | some _, _ => false

/-- The front holds a copy of a tail word's line (R56, R330). -/
def State.holdTail (s : State) (own q : Nat) (copy : Option (Space × Nat)) : State :=
  let s := s.updQueue own q fun y => { y with copy := copy }
  match copy with
  | some (sp, a) => s.watch 16 (lineId sp a) 0
  | none => s

/-- The load of a queue's tail word (R56, R57): the state with the new tail, or with the queue stalled. -/
def State.loadTail (s : State) (own q : Nat) (x : Queue) : State × Bool :=
  let s := s.frontReady own x.desc.tail.toNat 8
  match s.frontWord own x.desc.tail.toNat with
  | .error a => ((s.logAccess own a).stallQueue own q x.lastTail, false)
  | .ok tail =>
    if tail < x.lastTail ∨ 2 ^ x.desc.logSize < tail - x.taken then (s.stallQueue own q tail, false)
    else ((s.updQueue own q fun y => { y with lastTail := tail }).holdTail own q (s.tailPlace own x), true)

/-- TAKE_RECORDS (R56, R57, R62): `x` the owner, `y` the queue. -/
def execTakeRecords (s : State) : Out :=
  let own := s.ev.x
  let q := s.ev.y
  match s.queue? own q with
  | none => .refused (.notEnabled "no such queue")
  | some x =>
    let load := s.needsTail own x
    if x.state ≠ .running ∨ (!load && !s.mayTake own q x) then .refused (.notEnabled "nothing to take")
    else if load then
      let r := s.loadTail own q x
      .next (if r.2 then State.takeRecords own q (2 ^ x.desc.logSize) false r.1 else r.1)
    else .next (State.takeRecords own q (2 ^ x.desc.logSize) false s)

/-- QUEUE_ENABLE (R54): `x` the owner, `y` a configured and disabled queue; before step 6 of R439 no queue is enabled.
Log entry 35, DEDUCED. -/
def execQueueEnable (s : State) : Out :=
  match s.queue? s.ev.x s.ev.y with
  | none => .refused (.notEnabled "no such queue")
  | some q =>
    if q.state = .disabled ∧ q.desc.logSize ≠ 0 ∧ s.hk.ready then
      .next (s.updQueue s.ev.x s.ev.y fun q =>
        { q with state := .running, taken := 0, lastTail := 0, copy := none, outcomes := [] })
    else .refused (.notEnabled "the queue cannot be enabled")

/-- A launch is cancelled by its queue's reset: it has placed no team (R76). -/
def Launch.cancellable (l : Launch) (own q : Nat) : Bool := l.owner == own && l.queue == q && l.stage != .running

/-- The unstarted launches of a queue, as taken and so in sequence order (R76). -/
def State.toCancel (s : State) (own q : Nat) : List Nat :=
  (s.launches.filter fun e => e.2.cancellable own q).map (·.1)

/-- An unstarted launch of a queue that resets is cancelled, whatever has become of its predecessors (R76). -/
def State.cancelLaunch (s : State) (lid : Nat) : State := s.completeLaunch lid 9 0

/-- QUEUE_RESET (R76): `x` the owner, `y` the queue. Log entry 35, DEDUCED. -/
def execQueueReset (s : State) : Out :=
  match s.queue? s.ev.x s.ev.y with
  | none => .refused (.notEnabled "no such queue")
  | some q =>
    if q.state = .disabled then .refused (.notEnabled "the queue is disabled")
    else
      let s1 := s.updQueue s.ev.x s.ev.y fun q => { q with state := .resetting }
      let s2 := (s1.toCancel s.ev.x s.ev.y).foldl State.cancelLaunch s1
      .next (s2.resetDone s.ev.x s.ev.y)

end Sys2Proof.Machine
end

