-- ==== Sys2Proof/Machine/Sys.lean ====
section
/-! DEFINITION. The SYS group (R412 to R416) and the registers it shares with the anchor die (R244, R245, R415). -/

namespace Sys2Proof.Machine

/-- Check 4 of R106 for an instruction that needs level M, or S or M (R104, R412, R415). -/
def State.barred (s : State) (onlyM : Bool) : Bool :=
  match s.ctx with
  | some c => c.w.level == .u || (onlyM && c.w.level != .m)
  | none => false

/-- A SYS instruction acts once for its set; a set made only of helper lanes does nothing (R412). -/
def sysOp (f : Form) (onlyM : Bool) (body : Ctx → Res) (s : State) : Out :=
  issue { f with priv := s.barred onlyM } (fun c => if c.onlyHelpers then .go c.s else body c) s

/-- The range of addresses of a TLBINV: first and past the last, or none where an unused bit is set (R413). -/
def invRange (lv : Level) (own : Nat) (d a k : Nat) : Option (Nat × Nat × Nat) :=
  let sz := 2 ^ (16 + k % 64)
  let va := (d % 2 ^ 9 * 2 ^ 48 + a * 2 ^ 16) / sz * sz
  match lv, decide (64 ≤ k) with
  | .m, true => if a = 0 ∧ d = d / 2 ^ 16 % 2 ^ 6 * 2 ^ 16 then some (d / 2 ^ 16, 0, 2 ^ 57) else none
  | .m, false => if d = d / 2 ^ 16 % 2 ^ 6 * 2 ^ 16 + d % 2 ^ 9 then some (d / 2 ^ 16, va, va + sz) else none
  | _, true => if a = 0 ∧ d = 0 then some (own, 0, 2 ^ 57) else none
  | _, false => if d < 2 ^ 9 then some (own, va, va + sz) else none

/-- Whether a held translation of an owner overlaps a range. -/
def Trans.within (t : Trans) (own lo hi : Nat) : Bool :=
  t.owner == own && decide (t.page * 2 ^ t.bits < hi) && decide (lo < (t.page + 1) * 2 ^ t.bits)

/-- Whether a held pointer of an owner overlaps a range. -/
def WalkEnt.within (e : WalkEnt) (own lo hi : Nat) : Bool :=
  e.owner == own && decide (e.path * 2 ^ levelBits e.level < hi) && decide (lo < (e.path + 1) * 2 ^ levelBits e.level)

/-- Drop held translations from every store of R216 and R217 by a condition on translations and one on pointers. -/
def State.dropTrans (s : State) (t : Trans → Bool) (p : WalkEnt → Bool) : State :=
  { s with
    cores := s.cores.map fun e =>
      (e.1, { e.2 with tlb := e.2.tlb.filter fun x => !t x, lastPage := e.2.lastPage.filter fun x => !t x.2 })
    dies := s.dies.map fun e => (e.1, { e.2 with walk := e.2.walk.filter fun x => !p x }) }

/-- Whether a wave of an owner still has an access unperformed, or a region open, from before an issue (R218). -/
def Wave.owesBefore (w : Wave) (n : Nat) : Bool :=
  (w.sbuf ++ w.spilling.getD []).any (fun e => decide (e.seq < n)) ||
    (match w.irrev with
      | some (.atom q _ _ _ _) => decide (q < n)
      | some (.load q _ _) => decide (q < n)
      | none => false) ||
    (match w.region with
      | some r => decide (r.seq < n)
      | none => false)

/-- Whether a command has translated a row whose elements are not all read (R314). -/
def Cmd.rowOpen (c : Cmd) : Bool :=
  match c.kind with
  | .embag t _ _ _ _ bags => bags.any fun b => (List.range b.count).any fun i =>
      (c.got.get? (gotRow b.lane i)).isSome && !(List.range t.dim).all fun e => c.done.contains (gotElem b.lane i e)
  | _ => false

/-- Whether a command issued before some point has element accesses that are translated and not performed: rows, and requests
to peers (R218, R314, R231). -/
def State.cmdOwes (s : State) (x : Nat) (c : Cmd) (n : Nat) : Bool :=
  decide (c.seq < n) && (c.rowOpen || s.fabOut.any fun r => r.who.cmd? == some x)

/-- Whether every access of an owner translated before an issue has been performed or cancelled (R218). Log entry 31, DEDUCED. -/
def State.settledBefore (s : State) (own n : Nat) : Bool :=
  !(s.waves.any fun e => ((s.teams.get? e.2.tid).map (·.owner)) == some own && e.2.owesBefore n) &&
    !(s.cmds.any fun e => e.2.owner == own && s.cmdOwes e.1 e.2 n)

/-- TLBINV's wait begins: the translations are dropped. Log entry 31, DEDUCED. -/
def Ctx.fenced (c : Ctx) (own lo hi : Nat) : State :=
  (c.s.dropTrans (·.within own lo hi) (·.within own lo hi)).updWave c.wid fun w => { w with fence := some c.s.seq }

/-- TLBINV (R413): the translations are dropped, then the wave waits for what was translated before (R218).
Log entry 31, DEDUCED. -/
def execTlbinv (d a : Reg) (k : Nat) (s : State) : Out :=
  sysOp { src := [(d, 1), (a, 1)] } false
    (fun c =>
      match invRange c.w.level c.t.owner (c.reg d c.first).toNat (c.reg a c.first).toNat k with
      | none => .trap (c.trapOf .illegal)
      | some (own, lo, hi) =>
        let done (s : State) : State := s.updWave c.wid fun w => { w with fence := none }
        match c.w.fence with
        | some n => if c.s.settledBefore own n then .go (done c.s) else .wait
        | none =>
          if c.s.settledBefore own c.s.seq then .go (done (c.fenced own lo hi)) else .hold (c.fenced own lo hi)) s

/-- ICINV (R414): k = 0 the issuing core, k = 1 every core. -/
def execIcinv (k : Nat) (s : State) : Out :=
  sysOp {} (k != 0)
    (fun c => .go (c.s.clearCode (if k = 1 then none else some c.t.core))) s

/-- CSR_HDMCFG as two words (R244). -/
def Hdm.word (h : Hdm) (hi : Bool) : Nat :=
  if hi then flagBit h.en 31 + h.base / 4 % 2 ^ 9 else h.base % 4 * 2 ^ 30 + h.key % 2 ^ 7 * 2 ^ 16 + h.size % 2 ^ 9

/-- The register after a write of one of its words (R244). -/
def Hdm.write (h : Hdm) (hi : Bool) (v : Nat) : Hdm :=
  if h.en then (if hi then { h with en := v.testBit 31 } else h)
  else if hi then { h with en := v.testBit 31, base := v % 2 ^ 9 * 4 + h.base % 4 }
  else if 256 < v % 2 ^ 9 then h
  else { h with base := h.base / 4 * 4 + bitsOf v 31 30, key := bitsOf v 22 16, size := v % 2 ^ 9 }

/-- A write of CSR_HDMCFG; every bit of the bias table is 0 when EN is set (R244, R245). Log entry 94, DESIGN CHOICE. -/
def State.writeHdm (s : State) (hi : Bool) (v : Nat) : State :=
  let h := s.hdm.write hi v
  let cleared := h.en && !s.hdm.en
  { s with
    hdm := h
    mem := if cleared then s.mem.filter fun e => !(decide (s.biasBase ≤ e.1) && decide (e.1 < s.biasBase + h.size * 2 ^ 15))
      else s.mem }

/-- A write of one of the words of CSR_BIASBASE, whose bits [14:0] are ignored (R245). -/
def State.writeBias (s : State) (hi : Bool) (v : Nat) : State :=
  { s with biasBase :=
      if hi then v % 2 ^ 32 * 2 ^ 32 + s.biasBase % 2 ^ 32 else s.biasBase / 2 ^ 32 * 2 ^ 32 + v % 2 ^ 32 / 2 ^ 15 * 2 ^ 15 }

/-- CSR_DRAINDL takes 1 to 1,000,000 (R415). -/
def State.writeDrain (s : State) (v : Nat) : State := if 1 ≤ v ∧ v ≤ 1000000 then { s with drainDl := v } else s

/-- A CSR's value as a wave of a team reads it (R415). -/
def Ctx.csr (c : Ctx) (k : Nat) : Word :=
  match k with
  | 0 => Config.version
  | 1 => BitVec.ofNat 32 c.t.owner
  | 2 => BitVec.ofNat 32 (c.t.slot.getD 0xFFFFFFFF)
  | 3 => BitVec.ofNat 32 c.s.drainDl
  | 4 => c.s.fabTmo
  | 8 => BitVec.ofNat 32 (c.s.hdm.word false)
  | 9 => BitVec.ofNat 32 (c.s.hdm.word true)
  | 10 => BitVec.ofNat 32 c.s.biasBase
  | 11 => BitVec.ofNat 32 (c.s.biasBase / 2 ^ 32)
  | _ => 0

/-- CSRRD (R415): 0 to 4 at S and M, 8 to 11 at M. -/
def execCsrrd (d : Reg) (k : Nat) (s : State) : Out :=
  issue { dst := [(d, 1)], priv := s.barred (decide (7 < k)) }
    (fun c => .go (if c.onlyHelpers then c.answer d [0] c.s else c.answer d [c.csr k] c.s)) s

/-- A CSR takes a value (R415). -/
def State.writeCsr (s : State) (k : Nat) (v : Word) : State :=
  match k with
  | 3 => s.writeDrain v.toNat
  | 4 => { s with fabTmo := v }
  | 8 => s.writeHdm false v.toNat
  | 9 => s.writeHdm true v.toNat
  | 10 => s.writeBias false v.toNat
  | 11 => s.writeBias true v.toNat
  | _ => s

/-- CSRWR (R415): 3, 4 and 8 to 11 at M; CSRs 0 to 2 are written at no level. -/
def execCsrwr (a : Reg) (k : Nat) (s : State) : Out :=
  issue { src := [(a, 1)], priv := s.barred true || decide (k < 3) }
    (fun c => .go (if c.onlyHelpers then c.s else c.s.writeCsr k (c.reg a c.first))) s

/-- HALT (R416). -/
def execHalt (s : State) : Out :=
  sysOp {} true (fun c => .go (c.s.updCore c.t.core fun x => { x with halted := true })) s

/-- PERFRD (R416). -/
def execPerfrd (d : Reg) (k : Nat) (s : State) : Out :=
  issue { dst := [(d, 1)], priv := s.barred false }
    (fun c =>
      .go (if c.onlyHelpers then c.answer d [0] c.s
        else c.answer d [BitVec.ofNat 32 ((c.s.core c.t.core).perf.get 0 k)] c.s)) s

end Sys2Proof.Machine
end

