-- ==== Sys2Proof/Machine/Manage.lean ====
section
/-! DEFINITION. What the Luazel runtime does through the anchor die: owners and keys (R48, R51, R52, R224), tags (R205), and
the configuration registers (R53, R74, R220, R221, R244, R245, R387, R399, R405, R411, R415). -/

namespace Sys2Proof.Machine

/-- A key identifier gets a fresh key (R224). Versions the module generates are odd. Log entry 6, DESIGN CHOICE. -/
def State.freshKey (s : State) (key : Nat) : State :=
  { s with keyVer := s.keyVer.set 0 key (2 * s.keySeq + 1), keySeq := s.keySeq + 1 }

/-- Whether some owner holds a key identifier (R224). -/
def State.keyHeld (s : State) (key : Nat) : Bool := s.owners.any fun e => e.2.grant.contains key

/-- A key identifier that an owner has released is renewed when no owner holds it (R224). -/
def State.releaseKey (s : State) (key : Nat) : State := if s.keyHeld key then s else s.freshKey key

/-- A new owner (R51). Log entry 4, DESIGN CHOICE. -/
def Owner.init (root key : Nat) : Owner where
  root := root
  key := key
  grant := [key]
  frameBase := 0
  frameSlots := 0
  framesUsed := []
  vkeys := []
  required := false
  queues := []
  ring := none
  ringDropped := 0
  migQ := none
  threshold := 65535
  faultQ := none
  faults := []
  faultSeq := 0
  vlog := none
  vlogSeq := 0
  handler := none

/-- OWNER_CREATE (R51, R224): owner `x` with primary key identifier `y` and page-table root `z`, once step 6 of R439 is
complete. Log entry 39, DEDUCED. -/
def execOwnerCreate (s : State) : Out :=
  let own := s.ev.x
  let key := s.ev.y
  if s.hk.ready ∧ own < 64 ∧ (s.owners.get? own).isNone ∧ key < 128 ∧ !s.keyHeld key ∧ s.ev.z % 8192 = 0 ∧
      s.ev.z + 8192 ≤ hbmEnd then
    let s1 := if s.keyVer.get 0 key = 0 then s.freshKey key else s
    .next { s1 with owners := s1.owners.put own (Owner.init s.ev.z key) }
  else .refused (.notEnabled "the owner cannot be created")

/-- Whether an owner may be destroyed (R52). -/
def State.canDestroy (s : State) (own : Nat) (o : Owner) : Bool :=
  !(s.launches.any fun e => e.2.owner = own) && !(s.teams.any fun e => e.2.owner = own) &&
    !(s.saved.any fun e => e.2.owner = own) && o.queues.all fun q => q.2.state == .disabled

/-- What the module still holds for an owner that ends: translations, verified images, clusters (R17, R216, R218).
Log entry 34, DESIGN CHOICE. -/
def State.forgetOwner (s : State) (own : Nat) : State :=
  let s := s.dropTrans (fun t => t.owner == own) fun p => p.owner == own
  { s with
    imgCache := s.imgCache.filter fun i => i.owner != own
    queuedPages := s.queuedPages.filter fun q => q.1 != own
    cores := s.cores.map fun e => if e.2.owner = some own then (e.1, { e.2 with owner := none }) else e
    clusters := s.clusters.map fun e =>
      if e.2.owner = some own then
        (e.1, { e.2 with owner := none, bull := [], hampers := [], recs := [], opCache := [] }) else e }

/-- OWNER_DESTROY (R52, R224): owner `x`. Log entry 34, DESIGN CHOICE. -/
def execOwnerDestroy (s : State) : Out :=
  match s.owners.get? s.ev.x with
  | none => .refused (.notEnabled "no such owner")
  | some o =>
    if s.canDestroy s.ev.x o then
      let t := { s.forgetOwner s.ev.x with owners := s.owners.del s.ev.x }
      .next (o.grant.foldl State.releaseKey t)
    else .refused (.notEnabled "the owner has work")

/-- The owner with a changed verification key or policy (R48). -/
def Owner.update (o : Owner) : KeyUpdate → Owner
  | .slot i (some k) => { o with vkeys := o.vkeys.put i k }
  | .slot i none => { o with vkeys := o.vkeys.del i }
  | .policy r => { o with required := r }

/-- Whether a change of keys names a slot that exists (R48). -/
def keyLegal : KeyUpdate → Bool
  | .slot i _ => decide (i < 8)
  | .policy _ => true

/-- SET_KEYS (R48, R49): owner `x`, with what changes; its verified images leave the cache. -/
def execSetKeys (s : State) : Out :=
  match s.owners.get? s.ev.x, s.ev.data with
  | some _, .keys u =>
    if keyLegal u then
      .next { (s.updOwner s.ev.x fun o => o.update u) with imgCache := s.imgCache.filter fun i => i.owner != s.ev.x }
    else .refused (.notEnabled "no such key slot")
  | _, _ => .refused (.notEnabled "no such owner")

/-- DBTAG_WRITE (R205): die `x`, word `y`, the register's new value `z`; a change of VALID or OWNER zeroes the word. In the
recovery state no register is written (R440). -/
def execDbtagWrite (s : State) : Out :=
  let d := s.ev.x
  let i := s.ev.y
  if 16 ≤ d ∨ 128 ≤ i ∨ s.hk.recovery then .refused (.notEnabled "no such tag")
  else
    let tag := s.ev.z % 64 + s.ev.z / 128 % 2 * 128
    let changed := (s.die d).tag.get 0 i != tag
    let s := if changed then s.performBulletin (.db d i) 0 none else s
    .next (s.updDie d fun x => { x with tag := x.tag.set 0 i tag })

/-- HDMCFG_WRITE (R244): the low word, or the high one with `flag`, takes `x`, once step 6 of R439 is complete. -/
def execHdmcfgWrite (s : State) : Out :=
  if s.hk.ready then .next (s.writeHdm s.ev.flag s.ev.x) else .refused (.notEnabled "the module is not in service")

/-- BIASBASE_WRITE (R245): the low word, or the high one with `flag`, takes `x`; not in the recovery state (R440). -/
def execBiasbaseWrite (s : State) : Out :=
  if s.hk.recovery then .refused (.notEnabled "the module is in recovery") else .next (s.writeBias s.ev.flag s.ev.x)

/-- The queue descriptor that 32 bytes hold (R53). -/
def queueDescOf (bs : List Byte) : QueueDesc where
  base := BitVec.ofNat 64 (fieldAt bs 0 8)
  tail := BitVec.ofNat 64 (fieldAt bs 8 8)
  head := BitVec.ofNat 64 (fieldAt bs 16 8)
  logSize := fieldAt bs 24 1
  mode := fieldAt bs 25 1
  state := fieldAt bs 26 1
  reserved := fieldAt bs 27 5

/-- Whether a queue descriptor keeps the limits of R53; the runtime writes STATE as 0, or 1 to enable the queue with it. -/
def descLegal (d : QueueDesc) : Bool :=
  d.reserved == 0 && decide (d.mode ≤ 1) && decide (d.state ≤ 1) && decide (1 ≤ d.logSize ∧ d.logSize ≤ 16) &&
    d.head.toNat % 8 == 0 && d.tail.toNat % 8 == 0 && d.base.toNat % 4096 == 0 && decide (d.base.toNat < 2 ^ 57)

/-- A queue's descriptor is written; a queue that is not disabled keeps its own (R53). Log entry 35, DEDUCED. -/
def Owner.writeQueue (o : Owner) (q : Nat) (d : QueueDesc) : Owner :=
  let st : QState := if d.state = 1 then .running else .disabled
  let free : Bool := match o.queues.get? q with
    | some x => x.state == .disabled
    | none => true
  if decide (q < 64) && descLegal d && free then { o with queues := o.queues.put q ⟨d, st, 0, 0, none, []⟩ } else o

/-- A ring of R221's layout, if its block and size are legal: 2^n entries with n from 4 to `most`. -/
def ringOf (block : DWord) (logSize vector most : Nat) : Option Ring :=
  if block.toNat % 256 = 0 ∧ 4 ≤ logSize ∧ logSize ≤ most then some ⟨block.toNat, logSize, vector, none⟩ else none

/-- An owner's registers after a write; a value outside a register's limits leaves it. -/
def Owner.write (o : Owner) : RegWrite → Owner
  | .queue _ q bs => o.writeQueue q (queueDescOf bs)
  | .eventRing _ b n v => { o with ring := (ringOf b n v 16).orElse fun _ => o.ring }
  | .migration _ b n => { o with migQ := (ringOf b n 0 20).orElse fun _ => o.migQ }
  | .threshold _ v => if 1 ≤ v ∧ v ≤ 65535 then { o with threshold := v } else o
  | .faultQueue _ b n => { o with faultQ := (ringOf b n 0 20).orElse fun _ => o.faultQ }
  | .violationLog _ b n => { o with vlog := (ringOf b n 0 20).orElse fun _ => o.vlog }
  | .frames _ b k => if b.toNat % 65536 = 0 then { o with frameBase := b.toNat, frameSlots := k } else o
  | .handler _ none => { o with handler := none }
  | .handler _ (some pc) =>
    if pc.toNat % 4 = 0 ∧ pc.toNat < 2 ^ 57 then { o with handler := some pc.toNat } else o
  | .grant _ key on =>
    let kept := o.grant.filter fun k => k == o.key || k != key
    let more := if o.grant.contains key then o.grant else o.grant ++ [key]
    if key < 128 then { o with grant := if on then more else kept } else o
  | _ => o

/-- The owner a register write is for. -/
def regOwner : RegWrite → Option Nat
  | .drainDl _ => none
  | .fabTmo _ => none
  | .queue o _ _ => some o
  | .eventRing o _ _ _ => some o
  | .migration o _ _ => some o
  | .threshold o _ => some o
  | .faultQueue o _ _ => some o
  | .violationLog o _ _ => some o
  | .frames o _ _ => some o
  | .handler o _ => some o
  | .grant o _ _ => some o
  | .importKey _ _ => none

/-- What a write does to the module's keys (R224, R235): a granted identifier without a key gets one, one that its last owner
has released is renewed, an imported one is taken over. Imported versions are even. `held` says whether an owner held the
identifier before. -/
def State.keysAfter (s : State) (held : Nat → Bool) : RegWrite → State
  | .grant _ key on =>
    if 128 ≤ key then s
    else if on then (if s.keyVer.get 0 key = 0 then s.freshKey key else s)
    else if held key then s.releaseKey key else s
  | .importKey key ver => if key < 128 then { s with keyVer := s.keyVer.set 0 key (2 * ver + 2) } else s
  | _ => s

/-- A register write (R415 and the rules of each register). Log entry 6, DESIGN CHOICE. -/
def State.writeReg (s : State) (w : RegWrite) : State :=
  match w with
  | .drainDl v => s.writeDrain v.toNat
  | .fabTmo v => { s with fabTmo := v }
  | _ => (match regOwner w with
    | some o => s.updOwner o fun x => x.write w
    | none => s).keysAfter s.keyHeld w

/-- REGISTER_WRITE (R415): the register and its new value in the event's data; not in the recovery state (R440). -/
def execRegisterWrite (s : State) : Out :=
  match s.ev.data with
  | .reg w =>
    if !s.hk.recovery && (match regOwner w with
      | some o => (s.owners.get? o).isSome
      | none => true) then .next (s.writeReg w)
    else .refused (.notEnabled "no such owner")
  | _ => .refused (.notEnabled "no register is named")

end Sys2Proof.Machine
end

