-- ==== Sys2Proof/Machine/Device.lean ====
section
/-! DEFINITION. Around the work (R439 to R449): bring-up, attestation, power, soft errors and management, and what the
management controller does to a core (R176, R416, R445). -/

namespace Sys2Proof.Machine

/-- Cycles a core takes to wake (R445): from retention cells, or at retention voltage with the parity sweep. -/
def wakeCycles (voltage : Bool) : Nat := if voltage then 500 + 1024 else 3000

/-- Whether a wave sleeps (R176). -/
def Wave.sleeps (w : Wave) : Bool := w.sleep.isSome

/-- Whether the sleep of a wave may end now (R176). -/
def State.canWake (s : State) (x : Nat) : Bool :=
  match (s.waves.get? x).bind (·.sleep) with
  | some c => decide (c ≤ s.clock.toNat)
  | none => false

/-- SLEEP_END (R176): wave `x`. -/
def execSleepEnd (s : State) : Out :=
  if s.canWake s.ev.x then .next (s.updWave s.ev.x fun w => { w with sleep := none, slept := none })
  else .refused (.notEnabled "the wave's sleep is not over")

/-- The waves resident on a core. -/
def State.coreWaves (s : State) (c : Nat) : List (Nat × Wave) :=
  s.waves.filter fun e => ((s.teams.get? e.2.tid).map (·.core)) == some c && !e.2.retired

/-- Whether a core may be gated (R445). -/
def State.canGate (s : State) (c : Nat) : Bool :=
  (s.core c).gate == .awake && (s.coreWaves c).all fun e =>
    match e.2.sleep with
    | some u => decide (s.clock.toNat + 65536 ≤ u)
    | none => false

/-- Cycles of the entry phase (R445). -/
def entryCycles : Nat := 1000

/-- CORE_GATE (R445): core `x` enters gating, or its entry phase has ended and it is gated. -/
def execCoreGate (s : State) : Out :=
  match (s.core s.ev.x).gate with
  | .entering u =>
    if u ≤ s.clock.toNat then .next (s.updCore s.ev.x fun c => { c with gate := .gated })
    else .refused (.notEnabled "the core is entering")
  | _ =>
    if s.ev.x < 3200 ∧ s.canGate s.ev.x then
      .next (s.updCore s.ev.x fun c => { c with gate := .entering (s.clock.toNat + entryCycles) })
    else .refused (.notEnabled "the core cannot be gated")

/-- Whether a core's lanes and registers are off or going off (R445). -/
def Gate.off : Gate → Bool
  | .entering _ => true
  | .gated => true
  | _ => false

/-- Whether a core must start to wake: a resident wave does not sleep, or its sleep ends within the wake phase (R445). -/
def State.mustWake (s : State) (c : Nat) : Bool :=
  (s.core c).gate.off && (s.coreWaves c).any fun e =>
    match e.2.sleep with
    | some u => decide (u ≤ s.clock.toNat + wakeCycles false)
    | none => true

/-- Every launch with a team on a core takes a fatal error (R408, R445). -/
def State.failCore (s : State) (c detail : Nat) : State :=
  (s.teams.filter fun e => e.2.core == c).foldl (fun s e => s.failLaunch e.2.lid 8 detail) s

/-- CORE_WAKE (R445): core `x` starts to wake, `flag` where its registers stand at retention voltage; or its wake phase
ends, with `y` = 1 where the parity sweep that a wake at retention voltage ends with has found an error. -/
def execCoreWake (s : State) : Out :=
  let c := s.ev.x
  match (s.core c).gate with
  | .waking u sweep =>
    if u ≤ s.clock.toNat then
      let s := s.updCore c fun x => { x with gate := .awake }
      .next (if sweep ∧ s.ev.y = 1 then s.failCore c 5 else s)
    else .refused (.notEnabled "the core is waking")
  | _ =>
    if s.mustWake c then
      .next (s.updCore c fun x => { x with gate := .waking (s.clock.toNat + wakeCycles s.ev.flag) s.ev.flag })
    else .refused (.notEnabled "the core need not wake")

/-- A core that is reset: its caches, translations and counters are as after reset. Log entry 27, DESIGN CHOICE. -/
def Core.renewed (c : Core) : Core :=
  { c with halted := false, tlb := [], lastPage := [], l1 := [], perf := [] }

/-- CORE_RESUME (R416): the management controller resumes core `x`, or with `flag` resets it. Log entry 27, DESIGN CHOICE. -/
def execCoreResume (s : State) : Out :=
  if (s.core s.ev.x).halted then
    .next (if s.ev.flag then (s.updCore s.ev.x Core.renewed).clearCode (some s.ev.x)
      else s.updCore s.ev.x fun c => { c with halted := false })
  else .refused (.notEnabled "the core is not halted")

/-- Cycles of the millisecond that THROTTLE and the average of R444 cover. -/
def throttleWindow : Nat := 1000000

/-- The spans of withheld cycles that reach into the last millisecond, the one that goes on among them. -/
def State.spans (s : State) : List (Nat × Nat) :=
  let now := s.clock.toNat
  (s.withheldSpans ++ (s.withheld.map fun t => (t, now)).toList).filter fun e => decide (now < e.2 + throttleWindow)

/-- THROTTLE (R444, R449): percent of the cycles of the last millisecond that were withheld. -/
def State.throttle (s : State) : Nat :=
  let start := s.clock.toNat - throttleWindow
  (s.spans.map fun e => e.2 - max e.1 start).sum * 100 / throttleWindow

/-- Issue is withheld from when the measured power exceeds the limit until it falls below (R444). -/
def State.judgePower (s : State) : State :=
  match s.withheld with
  | none => if s.pwrLim < s.power then { s with withheld := some s.clock.toNat } else s
  | some _ => if s.power < s.pwrLim then { s with withheld := none, withheldSpans := s.spans } else s

/-- What a measurement finds of the rail currents and of the temperatures, if its data names them: the first five numbers and the
others (R447). Log entry 90, DESIGN CHOICE. -/
def State.measured (s : State) : State :=
  match s.ev.data with
  | .nats l => { s with rails := l.take 5, temps := l.drop 5 }
  | _ => s

/-- POWER_THROTTLE (R444, R447): the power averaged over 1 ms, `x` in watts, is measured anew, with the rail currents and the
temperatures in the data. -/
def execPowerThrottle (s : State) : Out := .next { s.measured with power := s.ev.x }.judgePower

/-- HK_STATE (R449). -/
def State.hkState (s : State) : Word :=
  BitVec.ofNat 32 (s.hk.bootStep % 16 * 2 ^ 20 + min s.throttle 100 * 2 ^ 8 + (if s.hk.debug then 4 else 0) +
    (if s.hk.recovery then 2 else 0) + (if s.hk.ready then 1 else 0))

/-- HK_PWRLIM (R449). -/
def State.hkPwrlim (s : State) : Word := BitVec.ofNat 32 (s.pwrLim % 2 ^ 16)

/-- HK_ECC (R449). -/
def State.hkEcc (s : State) : Word := BitVec.ofNat 32 (min s.eccUncorr 65535 * 2 ^ 16 + min s.eccCorr 65535)

/-- What PLDM Type 2 monitoring reads (R447, R449): the measured power in watts, HK_STATE, HK_PWRLIM and HK_ECC, the currents of the
rails and the temperatures. A read changes nothing, so no act makes one. -/
def State.monitored (s : State) : List Word :=
  [BitVec.ofNat 32 s.power, s.hkState, s.hkPwrlim, s.hkEcc] ++ (s.rails ++ s.temps).map (BitVec.ofNat 32)

/-- Every owner takes a fatal error (R409). -/
def State.failAll (s : State) (detail : Nat) : State :=
  s.owners.foldl (fun s e => s.failOwner e.1 detail) s

/-- RAIL_EXCURSION (R443). -/
def execRailExcursion (s : State) : Out := .next (s.failAll 6)

/-- The SHAKE256 digest that signatures and measurements cover (R440, R441). Log entry 87, PRESUMED. -/
def digest (bs : List Byte) : List Byte := shake256 bs 64

/-- Whether the ROM accepts a firmware image (R440). -/
def accepts (f : Firmware) : Bool :=
  mldsaVerify Config.vexuskKey (digest f.code) f.sig && decide (Config.fusedMinimum ≤ f.version.toNat)

/-- Extend a measurement register (R441). -/
def extendMr (mr : List (List Byte)) (i : Nat) (m : List Byte) : List (List Byte) :=
  mr.set i (digest (mr.getD i [] ++ m))

/-- The firmware that a reset starts: staged images take the place of installed ones (R447). -/
def State.firmware (s : State) : Tbl Firmware := s.fwStaged.foldl (fun t e => t.put e.1 e.2) s.fwRunning

/-- Steps 2 and 3 of R439: images 0 to 4 are verified and measured in order, up to the first that is rejected. -/
def bootImages (fw : Tbl Firmware) : (fuel i : Nat) → List (List Byte) → List (List Byte) × Option Nat
  | 0, _, mr => (mr, none)
  | k + 1, i, mr =>
    match fw.get? i with
    | some f => if accepts f then bootImages fw k (i + 1) (extendMr mr i (digest f.code)) else (mr, some i)
    | none => (mr, some i)

/-- Clusters leave service (R439 step 4, and the map of step 5). -/
def State.outOfService (s : State) (l : List Nat) : State :=
  l.foldl (fun s c => if c < 800 then s.updCluster c fun x => { x with inService := false } else s) s

/-- A module's state at the start of bring-up: State.reset, with what a reset does not reach: DRAM contents, which keys
have been used, memories beyond the module, firmware, and the model's own fields. Log entry 43, DEDUCED. -/
def State.powerOn (s : State) : State :=
  { State.reset with
    mem := s.mem
    memKey := s.memKey
    keySeq := s.keySeq
    host := s.host
    peer := s.peer
    peerKey := s.peerKey
    fwRunning := s.firmware
    reports := s.reports
    msix := s.msix
    inputs := s.inputs
    sched := s.sched
    tick := s.tick }

/-- Steps 1 to 4 of R439; `bad` are the clusters whose self-test fails. -/
def State.bringUp (s : State) (bad : List Nat) : State :=
  let s := s.powerOn
  match bootImages s.fwRunning 5 0 s.mr with
  | (mr, some i) =>
    { s with mr := mr, hk := { s.hk with bootStep := if i = 0 then 1 else 2, recovery := true } }
  | (mr, none) => { s with mr := mr, hk := { s.hk with bootStep := 4 } }.outOfService bad

/-- Cluster numbers that an event carries. -/
def natsOf : EvData → List Nat
  | .nats l => l
  | _ => []

/-- MODULE_RESET (R439): a reset, which runs steps 1 to 4 with the failing clusters in the event's data; with `x` = 6 CXL
trains, which is step 6, with `flag` against a partner of 68-byte flits as a PCIe endpoint only (R239). Log entry 43, DEDUCED. -/
def execModuleReset (s : State) : Out :=
  if s.ev.x = 6 then
    if s.hk.bootStep = 5 then .next { s with hk := { s.hk with bootStep := 6, ready := true, pcieOnly := s.ev.flag } }
    else .refused (.notEnabled "step 5 is not complete")
  else .next (s.bringUp (natsOf s.ev.data))

/-- DEVICE_ID_WRITE (R228, R439 step 5): identifier `x`, VALID in `flag`, the clusters the map leaves out in the data.
Log entry 44, DEDUCED. -/
def execDeviceIdWrite (s : State) : Out :=
  if s.hk.bootStep = 4 ∧ s.ev.x < 2 ^ 20 then
    let s1 := { s with deviceId := s.ev.x }
    if s.ev.flag then
      .next ({ s1 with deviceIdValid := true, hk := { s.hk with bootStep := 5 } }.outOfService (natsOf s.ev.data))
    else .next s1
  else .refused (.notEnabled "not at step 5")

/-- FIRMWARE_UPDATE (R447): component `x` (0 anchor, 1 core trap-sequencer, 2 Utino buffer, 3 fabric, 4 CXL). -/
def execFirmwareUpdate (s : State) : Out :=
  match s.ev.data with
  | .firmware f =>
    if s.ev.x < 5 then .next { s with fwStaged := s.fwStaged.put s.ev.x f }
    else .refused (.notEnabled "no such component")
  | _ => .refused (.notEnabled "no firmware")

/-- OWNERMR of a report (R442). -/
def State.ownerMr (s : State) (own : Nat) : List Byte :=
  match s.owners.get? own with
  | some o => digest (Config.ownerPolicy o.vkeys o.required)
  | none => List.replicate 64 0

/-- Bytes 0 to 631 of an attestation report (R442). -/
def State.reportBody (s : State) (own : Nat) (nonce : List Byte) : List Byte :=
  leBytes 4 0x52535842 ++ leBytes 4 1 ++ leBytes 4 s.deviceId ++
    leBytes 4 (((s.fwRunning.get? 0).map (·.version.toNat)).getD 0) ++ nonce ++ s.mr.flatten ++ s.ownerMr own ++
    leBytes 4 own ++ leBytes 4 0

/-- The 3,944 bytes of an attestation report (R442): its body, the signature of the body's digest, and three bytes of 0. -/
def attested (body : List Byte) : List Byte := body ++ (List.range 3309).map (Config.attest (digest body)) ++ [0, 0, 0]

/-- ATTESTATION_REQUEST (R442): owner `x`, or 0xFFFFFFFF for none, and the nonce in the data. Log entry 78, DESIGN CHOICE. -/
def execAttestationRequest (s : State) : Out :=
  match s.ev.data with
  | .bytes nonce =>
    if nonce.length = 32 ∧ !s.hk.recovery ∧ (s.ev.x = 0xFFFFFFFF ∨ (s.owners.get? s.ev.x).isSome) then
      .next { s with reports := s.reports ++ [attested (s.reportBody s.ev.x nonce)] }
    else .refused (.notEnabled "no report for that request")
  | _ => .refused (.notEnabled "no nonce")

/-- MR_EXTEND (R441): register `x`, 5 to 7, by the digest in the data. -/
def execMrExtend (s : State) : Out :=
  match s.ev.data with
  | .bytes m =>
    if 5 ≤ s.ev.x ∧ s.ev.x ≤ 7 ∧ !s.hk.recovery then .next { s with mr := extendMr s.mr s.ev.x m }
    else .refused (.notEnabled "that register is not the runtime's to extend")
  | _ => .refused (.notEnabled "no digest")

/-- DEBUG_UNLOCK (R448): the token in the data. -/
def execDebugUnlock (s : State) : Out :=
  match s.ev.data with
  | .bytes t =>
    if Config.tokenValid s.deviceId t ∧ !s.hk.recovery then
      let keys := (s.owners.flatMap fun e => e.2.grant).eraseDups
      .next { keys.foldl State.freshKey (s.failAll 7) with hk := { s.hk with debug := true } }
    else .refused (.notEnabled "the token does not authorise an unlock")
  | _ => .refused (.notEnabled "no token")

/-- HK_PWRLIM_WRITE (R449): value `x`, ignored outside 4,000 to 8,000; not in the recovery state (R440). The measured power is held
to the new limit (R444). -/
def execHkPwrlimWrite (s : State) : Out :=
  let v := s.ev.x % 2 ^ 16
  if s.hk.recovery then .refused (.notEnabled "the module is in recovery")
  else .next (if 4000 ≤ v ∧ v ≤ 8000 then { s with pwrLim := v }.judgePower else s)

/-- HK_ECC_CLEAR (R449); not in the recovery state (R440). -/
def execHkEccClear (s : State) : Out :=
  if s.hk.recovery then .refused (.notEnabled "the module is in recovery") else .next { s with eccUncorr := 0, eccCorr := 0 }

/-- MEMORY_ERROR (R446, R408). -/
def execMemoryError (s : State) : Out :=
  match s.ev.data with
  | .error .corrected => .next { s with eccCorr := min (s.eccCorr + 1) 65535 }
  | .error (.uncorrectable own) => .next ({ s with eccUncorr := min (s.eccUncorr + 1) 65535 }.failOwner own 1)
  | _ => .refused (.notEnabled "no error is named")

/-- MEMORY_SCRUB (R446): invisible but for the errors it finds. -/
def execMemoryScrub (s : State) : Out := .next s

end Sys2Proof.Machine
end

