-- ==== Sys2Proof/Machine/Units.lean ====
section
/-! DEFINITION. The register units every instruction word names (R96 to R98), by which the checks 3 to 5 of R106 are made before
an instruction issues. -/

namespace Sys2Proof.Machine

/-- The destination units and the source units of an instruction (R96, R98); an operation or event has none. -/
def unitsOf : Instr → List (Reg × Nat) × List (Reg × Nat)
  | .iadd d a b | .isub d a b | .imul d a b | .imulh d a b | .umulh d a b | .imad d a b | .imin d a b | .imax d a b
  | .umin d a b | .umax d a b | .and d a b | .or d a b | .xor d a b | .andn d a b | .orn d a b | .xnor d a b
  | .shl d a b | .shr d a b | .sra d a b | .rotl d a b | .cmpeq d a b | .cmpne d a b | .cmplt d a b | .cmple d a b
  | .cmpltu d a b | .cmpleu d a b | .sel d a b | .bfe d a b | .bfi d a b | .pack2 d a b | .permb d a b | .fadd d a b
  | .fsub d a b | .fmul d a b | .ffma d a b | .ffms d a b | .fnfma d a b | .fmin d a b | .fmax d a b
  | .fcopysign d a b | .fcmpeq d a b | .fcmplt d a b | .fcmple d a b | .fcmpun d a b | .hadd2B d a b | .hsub2B d a b
  | .hmul2B d a b | .hfma2B d a b | .hmin2B d a b | .hmax2B d a b | .hadd2H d a b | .hsub2H d a b | .hmul2H d a b
  | .hfma2H d a b | .hmin2H d a b | .hmax2H d a b | .cvt d a b | .shfl d a b | .shflup d a b | .shfldn d a b
  | .shflx d a b | .qxch d a b | .ired d a b | .fred d a b | .iscan d a b | .fscan d a b | .atomlAdd d a b
  | .atomlAnd d a b | .atomlOr d a b | .atomlXor d a b | .atomlMin d a b | .atomlMax d a b | .atomlUmin d a b
  | .atomlUmax d a b | .atomlXchg d a b | .atomlInc d a b | .atomlFadd d a b | .atomlHadd2B d a b
  | .atomlHadd2H d a b | .atomlFmin d a b | .atomlFmax d a b | .halloc d a b => ([(d, 1)], [(a, 1), (b, 1)])
  | .iaddW d a b | .isubW d a b | .atomWAdd d a b | .atomWAnd d a b | .atomWOr d a b | .atomWXor d a b
  | .atomWMin d a b | .atomWMax d a b | .atomWUmin d a b | .atomWUmax d a b | .atomWXchg d a b | .atomWInc d a b
    => ([(d, 2)], [(a, 2), (b, 2)])
  | .imulW d a b | .umulW d a b | .cvtUnpk2 d a b => ([(d, 2)], [(a, 1), (b, 1)])
  | .shlW d a b | .shrW d a b | .sraW d a b => ([(d, 2)], [(a, 2), (b, 1)])
  | .clz d a | .popc d a | .brev d a | .iabs d a | .ineg d a | .not d a | .mov d a | .sextb d a | .sexth d a
  | .zextb d a | .zexth d a | .addi d a _ | .andi d a _ | .ori d a _ | .xori d a _ | .shli d a _ | .shri d a _
  | .srai d a _ | .rotli d a _ | .cmpeqi d a _ | .cmpnei d a _ | .cmplti d a _ | .cmplei d a _ | .cmpgti d a _
  | .cmpgei d a _ | .cmpltui d a _ | .cmpgeui d a _ | .fabs d a | .fneg d a | .frcp d a | .frsq d a | .fsqrt d a
  | .fexp2 d a | .flog2 d a | .fsin d a | .fcos d a | .ftanh d a | .ffloor d a | .fceil d a | .ftrunc d a
  | .frint d a | .fclass d a | .vany d a | .vall d a | .hstat d a | .hgen d a | .abclaim d a | .qstat d a
  | .barrive d a | .tkstat d a | .tlbinv d a _ => ([(d, 1)], [(a, 1)])
  | .movW d a | .shliW d a _ | .shriW d a _ | .sraiW d a _ | .jcall d a => ([(d, 2)], [(a, 2)])
  | .movi d _ | .movhi d _ | .ldlit d _ | .elect d | .sread d _ | .regstat d | .csrrd d _ | .perfrd d _
    => ([(d, 1)], [])
  | .ldlitW d _ | .call d _ => ([(d, 2)], [])
  | .cvtPack d a b | .cvtPacks d a b | .qscale d a b => ([(d, 1)], [(a, 4), (b, 1)])
  | .cvtUnpk d a b | .cvtUnpks d a b => ([(d, 4)], [(a, 1), (b, 1)])
  | .cvtPack2 d a b | .atomAdd d a b | .atomAnd d a b | .atomOr d a b | .atomXor d a b | .atomMin d a b
  | .atomMax d a b | .atomUmin d a b | .atomUmax d a b | .atomXchg d a b | .atomInc d a b | .atomFadd d a b
  | .atomHadd2B d a b | .atomHadd2H d a b | .atomFmin d a b | .atomFmax d a b | .launch d a b
    => ([(d, 1)], [(a, 2), (b, 1)])
  | .ballot d a | .laneMatch d a => ([(d, 2)], [(a, 1)])
  | .swrite a _ | .bz a _ | .bnz a _ | .hfree a | .hseal a | .hwait a | .lsfence a | .abrel a | .mzero a | .qunbind a
  | .csrwr a _ => ([], [(a, 1)])
  | .ld d a z _ => ([(d, z.regs)], [(a, 2)])
  | .st d a z _ => ([], [(d, z.regs), (a, 2)])
  | .ldl d a z _ => ([(d, z.regs)], [(a, 1)])
  | .stl d a z _ => ([], [(d, z.regs), (a, 1)])
  | .ldx d a b z => ([(d, z.regs)], [(a, 2), (b, 2)])
  | .stx d a b z => ([], [(d, z.regs), (a, 2), (b, 2)])
  | .atomCas d a b => ([(d, 1)], [(a, 2), (b, 2)])
  | .atomWCas d a b => ([(d, 2)], [(a, 2), (b, 4)])
  | .atomlCas d a b => ([(d, 1)], [(a, 1), (b, 2)])
  | .jmp a | .ret a => ([], [(a, 2)])
  | .tfetch d a b | .tstore d a b | .mloop d a b | .bcopy d a b => ([(d, 2)], [(a, 4), (b, 4)])
  | .tmcast d a => ([(d, 2)], [(a, 4)])
  | .lrbind a b | .tlwait a b => ([], [(a, 2), (b, 1)])
  | .lrflush b => ([], [(b, 1)])
  | .mma d a b | .mdrain d a b | .embag d a b => ([(d, 2)], [(a, 4), (b, 1)])
  | .tlread d b => ([(d, 2)], [(b, 1)])
  | .qbind a b | .binit a b | .bexpect a b | .bwait a b | .bcredit a b | .tkcancel a b => ([], [(a, 1), (b, 1)])
  | .tkpush a => ([], [(a, 8)])
  | .tkpop d => ([(d, 8)], [])
  | _ => ([], [])

/-- Whether an instruction is rejected at check 3 of R106 for a reason outside its word's own fields (R101, R393). -/
def State.barredField (s : State) : Instr → Bool
  | .exit => s.atS
  | .ldlitW _ i =>
    match s.ctx with
    | some c => (c.literal i).toNat % 8 != 0
    | none => false
  | _ => false

/-- Whether an instruction is rejected at check 4 of R106 (R104, R131, R412, R415). -/
def State.barredLevel (s : State) : Instr → Bool
  | .sread _ k => decide (20 ≤ k) && !s.atS
  | .tret _ => !s.atS
  | .tlbinv _ _ _ => s.barred false
  | .icinv k => s.barred (k != 0)
  | .csrrd _ k => s.barred (decide (7 < k))
  | .csrwr _ k => s.barred true || decide (k < 3)
  | .perfrd _ _ => s.barred false
  | .halt => s.barred true
  | _ => false

/-- What the checks 3 to 5 of R106 need of an instruction. -/
def State.formOf (s : State) (i : Instr) : Form :=
  { dst := (unitsOf i).1, src := (unitsOf i).2, illegal := s.barredField i, priv := s.barredLevel i }

end Sys2Proof.Machine
end

