-- ==== Sys2Proof/Machine/Eligible.lean ====
section
/-! DEFINITION. Which PC sets of a wave may issue (R109, R116 to R119, R342, R394), which one does (R110), and the
starvation switch (R112, R113). -/

namespace Sys2Proof.Machine

/-- Which lanes an instruction must have in its set before it issues (R116, R394). -/
inductive Need where
  | none
  | counted
  | live
  deriving DecidableEq, Repr

/-- The collectives of R116, QXCH and TRET of R394. -/
def needOf : Instr → Need
  | .qxch _ _ _ | .tret _ => .live
  | .shfl _ _ _ | .shflup _ _ _ | .shfldn _ _ _ | .shflx _ _ _ | .ballot _ _ | .vany _ _ | .vall _ _ | .laneMatch _ _
  | .ired _ _ _ | .fred _ _ _ | .iscan _ _ _ | .fscan _ _ _ | .elect _ | .qscale _ _ _
  | .halloc _ _ _ | .hfree _ | .hseal _ | .hwait _ | .hstat _ _ | .hgen _ _ | .lsfence _
  | .tfetch _ _ _ | .tstore _ _ _ | .tmcast _ _ | .lrbind _ _ | .lrflush _
  | .abclaim _ _ | .abrel _ | .mzero _ | .mma _ _ _ | .mloop _ _ _ | .mdrain _ _ _
  | .bcopy _ _ _ | .embag _ _ _ | .tlwait _ _ | .tlread _ _ | .qbind _ _ | .qunbind _ | .qstat _ _
  | .tkpop _ | .regclm _ | .regrel _ | .wbase _ | .regstat _ => .counted
  | _ => .none

/-- The instructions of R342 and TRET (R394) that issue only with no region open and nothing unperformed. -/
def alone : Instr → Bool
  | .tkpush _ | .tkpop _ | .tkdone | .tkcancel _ _ | .barrive _ _ | .trigger | .launch _ _ _ | .regclm _ | .regrel _
  | .qbind _ _ | .halloc _ _ _ | .hfree _ | .hseal _ | .lrbind _ _ | .lrflush _ | .abclaim _ _ | .abrel _
  | .trap _ | .exit | .tlbinv _ _ _ | .icinv _ | .csrrd _ _ | .csrwr _ _ | .halt | .perfrd _ _ | .tret _
  | .atomAdd _ _ _ | .atomAnd _ _ _ | .atomOr _ _ _ | .atomXor _ _ _ | .atomMin _ _ _ | .atomMax _ _ _
  | .atomUmin _ _ _ | .atomUmax _ _ _ | .atomXchg _ _ _ | .atomCas _ _ _ | .atomInc _ _ _ | .atomFadd _ _ _
  | .atomHadd2B _ _ _ | .atomHadd2H _ _ _ | .atomFmin _ _ _ | .atomFmax _ _ _
  | .atomWAdd _ _ _ | .atomWAnd _ _ _ | .atomWOr _ _ _ | .atomWXor _ _ _ | .atomWMin _ _ _ | .atomWMax _ _ _
  | .atomWUmin _ _ _ | .atomWUmax _ _ _ | .atomWXchg _ _ _ | .atomWCas _ _ _ | .atomWInc _ _ _
  | .atomlAdd _ _ _ | .atomlAnd _ _ _ | .atomlOr _ _ _ | .atomlXor _ _ _ | .atomlMin _ _ _ | .atomlMax _ _ _
  | .atomlUmin _ _ _ | .atomlUmax _ _ _ | .atomlXchg _ _ _ | .atomlCas _ _ _ | .atomlInc _ _ _ | .atomlFadd _ _ _
  | .atomlHadd2B _ _ _ | .atomlHadd2H _ _ _ | .atomlFmin _ _ _ | .atomlFmax _ _ _ => true
  | _ => false

/-- The instructions of R109 that would add an entry to the store buffer. -/
def addsEntry (i : Instr) : Bool :=
  match i with
  | .st _ _ _ _ | .stx _ _ _ _ | .stl _ _ _ _ | .binit _ _ | .bexpect _ _ | .bcredit _ _ | .tsync => true
  | _ => (unitsOf i).1.any fun e => e.1.isQ

/-- The instructions that would add a word to a region's read set (R327, R337). -/
def Ctx.addsRead (c : Ctx) : Instr → Bool
  | .ld _ _ _ _ | .ldx _ _ _ _ | .ldl _ _ _ _ | .bwait _ _ | .tsync | .hwait _ | .hstat _ _ | .hgen _ _ | .tlwait _ _
  | .tlread _ _ | .qstat _ _ | .tkstat _ _ | .tfetch _ _ _ | .tstore _ _ _ | .tmcast _ _ | .mma _ _ _ | .mloop _ _ _
  | .mdrain _ _ _ | .embag _ _ _ => true
  | .bcopy _ a _ => (c.reg a c.first).toNat % 4 == 1 || (c.reg a c.first).toNat % 4 == 2
  | _ => false

/-- Whether a load reaches a TIER 2 or TIER 4 page in a lane of its set, helper lanes included (R342, R249). -/
def Ctx.loadsRemote (c : Ctx) : Instr → Bool
  | .ld _ a z off =>
    let one (l : Nat) := c.globalLane .load (Size.bytes z) l (c.eaM a z off l)
    (c.accStop .load (c.eaM a z off) one).isNone && (passing c.set one).any fun x => x.tgt.remote
  | .ldx _ a b z =>
    let one := c.boundedLane .load a b z
    (c.boundsStop a b z).isNone && (c.accStop .load (c.eaX a b z) one).isNone &&
      (passing c.set one).any fun x => x.tgt.remote
  | _ => false

/-- Whether an instruction is one of R342's: by itself, by reading a queue register, or by reaching a remote page. -/
def Ctx.mustBeAlone (c : Ctx) (i : Instr) : Bool :=
  alone i || ((unitsOf i).2.any fun e => e.1.isQ) || c.loadsRemote i

/-- Whether a set stops issuing where it stands: helper lanes alone at EXIT (R15). Log entry 19, DEDUCED. -/
def Ctx.stopsAt (c : Ctx) (i : Instr) : Bool := c.onlyHelpers && i == .exit

/-- Whether helper lanes alone pass a collective, with no other effect than their own destinations (R118). -/
def Ctx.passesAlone (c : Ctx) (i : Instr) : Bool := c.onlyHelpers && needOf i == .counted

/-- Whether lanes that count for an instruction stand elsewhere (R116, R118, R394). -/
def Ctx.lacks (c : Ctx) (i : Instr) : Bool :=
  match needOf i with
  | .none => false
  | .live => decide (c.w.live &&& ~~~c.set ≠ 0)
  | .counted => !c.onlyHelpers && decide (c.w.counted &&& ~~~c.set ≠ 0)

/-- Where a PC set stands: its word, and the instruction if the word passes checks 1 to 5 of R106; a word that does not
traps at once (R107). -/
structure Stand where
  pc : PC
  set : Mask
  word : Word
  instr : Option Instr

/-- The word at a PC, if a fetch reads it (R106 check 1). -/
def State.wordAt (s : State) (t : Team) (lv : Level) (pc : PC) : Option Word :=
  match s.fetchAccess t lv pc.toNat with
  | .ok _ p => some (s.fetchPhys t.core p)
  | _ => none

/-- The instruction of a word. -/
def instrOf (word : Word) : Option Instr :=
  match decodeWord word.toNat with
  | .ok i => some i
  | .error _ => none

/-- The state as it is for a set that is about to issue. -/
def State.forSet (s : State) (wid : Nat) (set : Mask) (pc : PC) (word : Word) : State :=
  { s with cur := ⟨wid, set, pc, word⟩ }

/-- The instruction of a word if it passes checks 3 to 5 for a set. -/
def State.passes (s : State) (i : Instr) : Option Instr :=
  match s.ctx with
  | some c => if (c.check (s.formOf i)).isNone then some i else none
  | none => none

/-- Where a set of a wave stands. -/
def State.stand (s : State) (wid : Nat) (t : Team) (lv : Level) (e : PC × Mask) : Stand :=
  match s.wordAt t lv e.1 with
  | none => ⟨e.1, e.2, 0, none⟩
  | some word => ⟨e.1, e.2, word, (instrOf word).bind (s.forSet wid e.2 e.1 word).passes⟩

/-- The context of a set where it stands. -/
def State.at_ (s : State) (wid : Nat) (x : Stand) : Option Ctx := (s.forSet wid x.set x.pc x.word).ctx

/-- Whether a set has stopped issuing (R15). Log entry 19, DEDUCED. -/
def State.stopsAtExit (s : State) (wid : Nat) (x : Stand) : Bool :=
  match x.instr, s.at_ wid x with
  | some i, some c => c.stopsAt i
  | _, _ => false

/-- Whether a set waits because of R342 (the second case of R109). Log entry 61, DEDUCED. -/
def State.waitsAlone (s : State) (wid : Nat) (w : Wave) (x : Stand) : Bool :=
  match x.instr, s.at_ wid x with
  | some i, some c => !c.stopsAt i && c.mustBeAlone i && (w.region.isSome || w.unperformed)
  | _, _ => false

/-- Whether a set lacks lanes (the first case of R109). -/
def State.lacksLanes (s : State) (wid : Nat) (x : Stand) : Bool :=
  match x.instr, s.at_ wid x with
  | some i, some c => c.lacks i
  | _, _ => false

/-- Whether a set waits because the wave holds entries of its open region (the fourth case of R109); helper lanes alone
read nothing at a collective they pass (R118). -/
def State.waitsHeld (s : State) (wid : Nat) (w : Wave) (x : Stand) : Bool :=
  match x.instr, s.at_ wid x with
  | some i, some c => (w.sbuf.any fun e => e.held) && c.addsRead i && !c.passesAlone i
  | _, _ => false

/-- Whether a set waits because another one waits for the store buffer to drain (the third case of R109).
Log entry 61, DEDUCED. -/
def State.waitsDrain (s : State) (wid : Nat) (w : Wave) (xs : List Stand) (x : Stand) : Bool :=
  match x.instr with
  | some i => addsEntry i && xs.any fun y => decide (y.pc ≠ x.pc) && s.waitsAlone wid w y
  | none => false

/-- Whether a set is eligible (R109). -/
def State.eligible (s : State) (wid : Nat) (w : Wave) (xs : List Stand) (x : Stand) : Bool :=
  !s.stopsAtExit wid x && !s.lacksLanes wid x && !s.waitsAlone wid w x && !s.waitsHeld wid w x &&
    !s.waitsDrain wid w xs x

/-- Where a wave's sets stand, in increasing order of PC. -/
def State.standing (s : State) (wid : Nat) (w : Wave) (t : Team) : List Stand := w.pcs.map (s.stand wid t w.level)

/-- A wave's eligible sets, in increasing order of PC. -/
def State.eligibleSets (s : State) (wid : Nat) (w : Wave) (t : Team) : List Stand :=
  let xs := s.standing wid w t
  xs.filter (s.eligible wid w xs)

/-- Whether a counter of the starvation switch has fired: none has while the wave has a single set (R112).
Log entry 46, DEDUCED. -/
def Wave.fired (w : Wave) : Bool := w.sweep.isNone && w.divided && (decide (64 ≤ w.brCount) || decide (128 ≤ w.qCount))

/-- Whether a wave may issue now: nothing of R9, R91, R176, R254, R338, R341, R343, R402, R416, R444 or R445 holds it. -/
def State.mayIssue (s : State) (w : Wave) (t : Team) : Bool :=
  !w.retired && decide (w.live ≠ 0) && !w.parked && w.sleep.isNone && w.stop.isNone && w.spilling.isNone &&
    w.claiming.isNone && w.cautious != 1 && !w.mayCommit && t.saving.isNone && !s.failed t.lid && s.withheld.isNone &&
    !(s.core t.core).halted && decide ((s.core t.core).gate = .awake)

/-- The sweep's next choice (R113): the turning set while it is eligible, else the lowest eligible set above the
threshold with a lane that has had no turn; with none the sweep ends. Log entry 45, DEDUCED. -/
def Wave.sweepChoice (w : Wave) (sw : Sweep) (es : List Stand) : Wave × Option Stand :=
  let turn := sw.turn &&& w.live
  match es.find? fun x => decide (turn ≠ 0) && decide (x.set = turn) with
  | some x => (w, some x)
  | none =>
    let had := sw.had ||| turn
    match es.find? fun x => decide (sw.h < x.pc.toNat) && decide (x.set &&& ~~~had ≠ 0) with
    | some x => ({ w with sweep := some ⟨x.pc.toNat, had, x.set, 0⟩ }, some x)
    | none => ({ w with sweep := none, brCount := 0, qCount := 0 }, es.head?)

/-- The set a wave issues (R109, R110, R113): the one that waits under R9, a sweep's choice, or the lowest eligible set. -/
def State.choice (s : State) (wid : Nat) (w : Wave) (t : Team) : Wave × Option Stand :=
  match w.waiting.bind fun m => (s.standing wid w t).find? fun x => decide (x.set = m &&& w.live) with
  | some x => (w, some x)
  | none =>
    let es := s.eligibleSets wid w t
    match w.sweep with
    | some sw => w.sweepChoice sw es
    | none => (w, es.head?)

/-- The lanes that count for R119: every live one where a set stands at QXCH or TRET (R116, R394), else those that are no
helper lanes. -/
def Wave.countedAt (w : Wave) (xs : List Stand) : Mask :=
  if xs.any fun x => x.instr.any fun i => needOf i == .live then w.live else w.counted

/-- The trap of R119: no set is eligible, and each set with a counted lane stands at a collective that lacks lanes. It is
reported at the lowest PC of such a set. Log entry 61, DEDUCED. -/
def State.diverged (s : State) (wid : Nat) (w : Wave) (t : Team) : Option Stand :=
  let xs := s.standing wid w t
  let cs := xs.filter fun x => decide (x.set &&& w.countedAt xs ≠ 0)
  if cs.all (s.lacksLanes wid) && xs.all (fun x => !s.eligible wid w xs x) then cs.head? else none

/-- The lanes that R119 reports: those of the set, where it holds a thread. Log entry 61, DEDUCED. -/
def Wave.reported (w : Wave) (x : Stand) : Mask := if x.set &&& w.counted = 0 then 0 else x.set

/-- The turn of a wave's sweep ends at the moment its set is not eligible any more (R113). -/
def State.endTurn (s : State) (wid : Nat) (w : Wave) : Wave :=
  match w.sweep, s.teams.get? w.tid with
  | some sw, some t =>
    if sw.turn = 0 ∨ (s.eligibleSets wid w t).any (fun x => decide (x.set = sw.turn &&& w.live)) then w
    else { w with sweep := some { sw with had := sw.had ||| sw.turn, turn := 0, count := 0 } }
  | _, _ => w

/-- The turns that end because of what an act has changed (R113). -/
def State.endTurns (s : State) : State :=
  { s with waves := s.waves.map fun e => (e.1, if e.2.sweep.isSome then s.endTurn e.1 e.2 else e.2) }

/-- The lowest eligible set of a wave whose switch has fired (R112, R113). -/
def State.firedSet (s : State) (x : Nat) : Option Stand :=
  match s.waves.get? x with
  | none => none
  | some w =>
    match s.teams.get? w.tid with
    | none => none
    | some t => if w.fired ∧ w.waiting.isNone ∧ s.mayIssue w t then (s.eligibleSets x w t).head? else none

/-- STARVATION_SWEEP (R112, R113): wave `x`. Log entry 45, DEDUCED. -/
def execStarvationSweep (s : State) : Out :=
  match s.firedSet s.ev.x with
  | some x => .next (s.startSweep s.ev.x x.pc 0)
  | none => .refused (.notEnabled "no switch has fired")

end Sys2Proof.Machine
end

