-- ==== Sys2Proof/Machine/Embed.lean ====
section
/-! DEFINITION. Embedding bags: EMBAG (R315, R316), pooling (R317), its outputs (R319, R320), the buffers' keys (R311). -/

namespace Sys2Proof.Machine

/-- The table record an identifier names (R313, R316). -/
def Ctx.table? (c : Ctx) (id : Nat) : Option EmbTable :=
  match (c.s.cluster c.t.cluster).recs.get? id with
  | some ⟨_, .table t⟩ => some t
  | _ => none

/-- The fields of EMBAG's control word (R315). -/
structure BagCtl where
  ooff : Nat
  qout : Bool
  mode : Nat
  rid : Nat
  reserved : Bool

/-- The control word read. -/
def BagCtl.of (v : Nat) : BagCtl :=
  ⟨bitsOf v 27 16, v.testBit 12, bitsOf v 9 8, bitsOf v 5 0,
    bitsOf v 31 28 != 0 || bitsOf v 15 13 != 0 || bitsOf v 11 10 != 0 || bitsOf v 7 6 != 0⟩

/-- The bags of the counted lanes (R315). -/
def Ctx.bags (c : Ctx) (b : Reg) : List Bag :=
  (lanesOf c.cnt).map fun l => ⟨l, (c.reg b l).toNat % 65536, (c.reg b l).toNat / 65536⟩

/-- What EMBAG's static checks let through: index handle, output handle, table, control, bags (R316 step 1). -/
structure BagPlan where
  idx : Nat × Handle
  out : Option (Nat × Handle)
  q : Nat
  table : EmbTable
  ctl : BagCtl
  bags : List Bag

/-- Step 1 of R316. -/
def Ctx.bagCheck (c : Ctx) (a b : Reg) : Except TrapInfo BagPlan :=
  let w (i : Nat) : Word := c.reg a c.first i
  let k := BagCtl.of (w 0).toNat
  let bad := Except.error (c.trapOf .engineOperand)
  match c.handle? (w 1) with
  | none => .error (c.trapOf .handle (w 1))
  | some i =>
    let out := if k.qout then none else c.handle? (w 2)
    if !k.qout ∧ out.isNone then .error (c.trapOf .handle (w 2))
    else
      match c.table? k.rid with
      | none => bad
      | some t =>
        let port := match if (w 2).toNat < 8 then c.t.queues.get? (w 2).toNat else none with
          | some q => q.port
          | none => false
        let room := match out with
          | some o => decide (k.ooff * 128 + 64 * t.dim * t.oes ≤ o.2.len)
          | none => true
        if k.reserved ∨ (k.qout ∧ k.ooff ≠ 0) ∨ !c.barrierOk (w 3) ∨ (k.qout ∧ !port) ∨ !room ∨
            (c.bags b).any (fun x => decide (i.2.len < 8 * (x.off + x.count))) then bad
        else .ok ⟨i, out, (w 2).toNat, t, k, c.bags b⟩

/-- The embedding command a wave has begun and not issued (R316 step 2). -/
def Ctx.begun (c : Ctx) : Option (Nat × Cmd) :=
  c.s.cmds.find? fun e => e.2.wid == c.wid && !e.2.queued && e.2.kind.isBag

/-- The command's kind. -/
def BagPlan.kind (p : BagPlan) : CmdKind :=
  .embag p.table p.ctl.mode p.idx.2.base (p.out.map fun o => o.2.base + 128 * p.ctl.ooff) p.q p.bags

/-- Step 2 of R316: the outbound transition, remembered by a command that has no queue entry yet. -/
def Ctx.beginBag (c : Ctx) (d : Reg) (p : BagPlan) : Nat × Cmd × State :=
  let h := (c.t.core, p.idx.1)
  let s0 := (c.readHandles { dst := [(d, 2)] } [h] c.s).check (handleLocs [h]) (some c.wid)
  let s := s0.issueOut c.wid h
  let cmd := { c.cmd { kind := p.kind, ctr := none, outb := [h] } none (undoOf s0 s h) (s.inRegion c.wid) with queued := false }
  let id := s.nextCid
  (id, cmd, { s with cmds := s.cmds.put id cmd, nextCid := id + 1 })

/-- The entries of a bag, in list order. -/
def Bag.entries (b : Bag) : List Nat := (List.range b.count).map fun i => b.off + i

/-- An entry of the index list as the wave reads it, behind its own stores (R255, R323): index and weight. -/
def Ctx.bagEntry (c : Ctx) (base i : Nat) : Option (Nat × Nat) :=
  (c.readBytes (.ls (base + 8 * i)) 8).map fun bs => (leValue (bs.take 4), leValue (bs.drop 4))

/-- The entries of all bags: bag, entry number, index and weight, none while a read must wait. -/
def Ctx.scanList (c : Ctx) (p : BagPlan) : List (Bag × Nat × Option (Nat × Nat)) :=
  p.bags.flatMap fun b => b.entries.map fun i => (b, i, c.bagEntry p.idx.2.base i)

/-- The index trap of the scan (R316 step 3), if an index is at or above ROWS. -/
def BagPlan.scanTrap (p : BagPlan) (l : List (Bag × Nat × Option (Nat × Nat))) : Option TrapInfo :=
  let bad := l.filter fun e => (e.2.2.map fun x => decide (p.table.rows ≤ x.1)).getD false
  match bad with
  | [] => none
  | e :: _ =>
    some ⟨.index, maskOf (bad.map fun e => e.1.lane), BitVec.ofNat 32 ((e.2.2.map (·.1)).getD 0),
      BitVec.ofNat 64 (p.idx.2.base + 8 * e.2.1), none⟩

/-- The scanned list as the command keeps it: index and weight of each entry. -/
def listGot (l : List (Bag × Nat × Option (Nat × Nat))) : Tbl Nat :=
  l.foldl (fun t e => match e.2.2 with
    | some (x, w) => t.put (gotEntry e.2.1) (x + 2 ^ 32 * w)
    | none => t) []

/-- Step 4 of R316, from the state that holds the begun command. Log entry 72, DEDUCED. -/
def Ctx.issueBag (c : Ctx) (d : Reg) (p : BagPlan) (barrier : Word) (pre : Cmd) (id : Nat) (list : Tbl Nat) (s : State) : Res :=
  let c1 : Ctx := ⟨s, c.wid, c.w, c.t, c.set, c.pc, c.word⟩
  let size := 64 * p.table.dim * p.table.oes
  let plan : Plan :=
    { kind := p.kind
      ctr := some 3
      inb := (p.out.map fun o => (c.t.core, o.1)).toList
      barriers := barrierOf c.w.tid barrier
      lines := (p.out.map fun o => linesOf c.w.tid (o.2.base + 128 * p.ctl.ooff) size).getD [] }
  if c1.cmdWaits plan then .hold s
  else
    let s := c1.readHandles { dst := [(d, 2)] } (plan.inb ++ pre.outb) { s with cmds := s.cmds.del id }
    let r := c1.enqueue plan s
    let s := r.1.updCmd s.nextCid fun x => { x with outb := pre.outb, undo := x.undo ++ pre.undo, got := list }
    .go (c1.answer d (ticketWords r.2) s)

/-- EMBAG's execution (R316). -/
def Ctx.bag (c : Ctx) (d a b : Reg) : Res :=
  let back (i : TrapInfo) : Res := match c.begun with
    | some (id, _) => .trapFrom (c.s.withdraw id) i
    | none => .trap i
  match c.bagCheck a b with
  | .error i => back i
  | .ok p =>
    if c.readsWait [(c.t.core, p.idx.1)] then .wait
    else if c.begun.isNone ∧ !c.s.admitsOut (c.t.core, p.idx.1) then .wait
    else
      let (id, pre, s) := match c.begun with
        | some (id, pre) => (id, pre, c.s)
        | none => c.beginBag d p
      let l := c.scanList p
      if l.any fun e => e.2.2.isNone then .hold s
      else
        match p.scanTrap l with
        | some i => .trapFrom (s.withdraw id) i
        | none => c.issueBag d p (c.reg a c.first 3) pre id (listGot l) s

/-- EMBAG (R315, R316). -/
def execEmbag (d a b : Reg) (s : State) : Out :=
  collective { dst := [(d, 2)], src := [(a, 4), (b, 1)] } (some (d, 2)) (fun c => c.words a 4) (fun _ => [])
    (fun c => c.bag d a b) s

/-- A rounded sum of two values (R317). -/
def sum32 (x y : Word) : Word := rne32 ((f32 x).add .rne (f32 y)).1

/-- One step of a rank's partial (R317): mode, weight, value. -/
def poolStep (mode : Nat) (p : Option Word) (w v : Word) : Word :=
  match mode, p with
  | 1, none => rne32 ((f32 w).mul (f32 v)).1
  | 1, some p => rne32 (Num.fma .rne (f32 w) (f32 v) (f32 p)).1
  | 3, some p => (minMax32 true false p v).1
  | _, some p => sum32 p v
  | _, none => v

/-- The join of two partials, absent ones skipped (R317). -/
def poolJoin (mode : Nat) (x y : Option Word) : Option Word :=
  match x, y with
  | some a, some b => some (if mode = 3 then (minMax32 true false a b).1 else sum32 a b)
  | some a, none => some a
  | none, y => y

/-- The pooled value of entries given as (global rank, weight, value) in list order (R317). -/
def pooled (mode : Nat) (es : List (Nat × Word × Word)) : Word :=
  let part (r : Nat) : Option Word :=
    (es.filter fun e => e.1 = r).foldl (fun p e => some (poolStep mode p e.2.1 e.2.2)) none
  let buffer (u : Nat) : Option Word := (List.range 4).foldl (fun q k => poolJoin mode q (part (4 * u + k))) none
  match (List.range 32).foldl (fun y u => poolJoin mode y (buffer u)) none with
  | none => 0
  | some y =>
    if mode = 2 then
      match f32 y with
      | .fin n m => rne32 (.fin n ⟨m.n, m.d * es.length⟩)
      | x => rne32 x
    else y

/-- An output element's code (R317). -/
def EmbTable.output (t : EmbTable) (y : Word) : Nat :=
  if t.okind = 0 then y.toNat else (Kind.bf16.round false .rne 0 (f32 y)).code

/-- The bag of a lane. -/
def bagOf (bags : List Bag) (l : Nat) : Option Bag := bags.find? fun b => b.lane = l

/-- A row element's value and place as the command read them: global rank, weight, FP32 value. -/
def Cmd.entryVal (c : Cmd) (b : Bag) (e i : Nat) : Nat × Word × Word :=
  let a := c.got.get 0 (gotRow b.lane i) / 128
  (4 * bufferOf a + rankOf a, BitVec.ofNat 32 (c.got.get 0 (gotEntry (b.off + i)) / 2 ^ 32),
    BitVec.ofNat 32 (c.got.get 0 (gotElem b.lane i e)))

/-- The pooled element of a lane's bag. -/
def Cmd.bagValue (c : Cmd) (t : EmbTable) (mode : Nat) (b : Bag) (e : Nat) : Nat :=
  t.output (pooled mode ((List.range b.count).map fun i => c.entryVal b e i))

/-- KEY_FETCH (R311): buffer `x`, which has requested it, receives key identifier `y`'s key. -/
def execKeyFetch (s : State) : Out :=
  if s.keyWants.contains (s.ev.x, s.ev.y) then
    .next ({ s with keyWants := s.keyWants.filter (· != (s.ev.x, s.ev.y)) }.useKey s.ev.x s.ev.y)
  else .refused (.notEnabled "no buffer has requested that key")

/-- The virtual address of a row (R314). -/
def Cmd.rowVa (c : Cmd) (t : EmbTable) (b : Bag) (i : Nat) : Nat :=
  t.base + c.got.get 0 (gotEntry (b.off + i)) % 2 ^ 32 * t.pitch

/-- The place of a row: once read by the command its elements share it (R314); a row off the capacity tier is a
violation. -/
def State.rowPlace (s : State) (x : Nat) (c : Cmd) (t : EmbTable) (b : Bag) (i : Nat) : Option (Except State (Nat × Nat × State)) :=
  match c.got.get? (gotRow b.lane i) with
  | some v => some (.ok (v / 128, v % 128, s))
  | none =>
    let va := c.rowVa t b i
    match s.probe x c .engineRead (gotRow b.lane i) t.es va (some 1) with
    | .wait => none
    | .stop s => some (.error s)
    | .ok s p =>
      let s := if p.ace then s.countPage c.owner p.key p.addr else s
      let s := s.updCmd x fun c => { c with got := c.got.put (gotRow b.lane i) (p.addr * 128 + p.key) }
      some (.ok (p.addr, p.key, s))

/-- One element of a row is read (R314, R321). -/
def State.elemRow (s : State) (x : Nat) (c : Cmd) (t : EmbTable) (b : Bag) (i e : Nat) : Option State :=
  match s.rowPlace x c t b i with
  | none => none
  | some (.error s) => some s
  | some (.ok (a, key, s1)) =>
    let p : Phys := ⟨.dev, a + e * t.es, key, 1, false⟩
    if !s.bufferHolds (bufferOf a) key then
      if s.keyWants.contains (bufferOf a, key) then none else some (s1.wantKeys [(bufferOf a, key)])
    else if !s.engineFree p t.es then none
    else
      let k := ((embHalf t.efmt).map (·.kind)).getD .fp32
      let v := rne32 (k.decode (leValue (s1.bytesAt .dev key p.addr t.es)))
      let s := (s1.useKey (bufferOf a) key).updCmd x fun c => { c with got := c.got.put (gotElem b.lane i e) v.toNat }
      some (s.elementDone x (gotElem b.lane i e))

/-- Whether every row element of a lane's element e has been read. -/
def Cmd.rowsRead (c : Cmd) (b : Bag) (e : Nat) : Bool :=
  (List.range b.count).all fun i => c.done.contains (gotElem b.lane i e)

/-- Whether a port may take element e of a lane from a command: its turn among the lane's elements and among the port's
commands in ticket order, and room for it (R320). -/
def State.portTurn (s : State) (x : Nat) (c : Cmd) (q l e : Nat) : Bool :=
  ((List.range e).all fun k => c.done.contains (4096 * l + k)) &&
    !(s.cmds.any fun o => o.2.tid = c.tid && decide (o.1 < x) && o.2.queued && o.2.owesLane q l) &&
    match (s.teams.get? c.tid).bind fun t => t.queues.get? q with
    | some b => b.port && decide ((b.vals.get [] l).length < 16)
    | none => false

/-- One output element: written to the output handle, or pushed to the port (R319, R320). -/
def State.elemPool (s : State) (x : Nat) (c : Cmd) (t : EmbTable) (mode : Nat) (out : Option Nat) (q : Nat) (b : Bag)
    (e : Nat) : Option State :=
  if !c.rowsRead b e then none
  else
    let v := c.bagValue t mode b e
    match out with
    | some a => some ((s.performLs c.tid (placed (a + (b.lane * t.dim + e) * t.oes) (leBytes t.oes v)) none).elementDone x
        (4096 * b.lane + e))
    | none =>
      if !s.portTurn x c q b.lane e then none
      else
        let s := (s.check [.chan c.tid q] (some c.wid)).updTeam c.tid fun tm => { tm with
          queues := tm.queues.upd q fun k => { k with vals := k.vals.set [] b.lane (k.vals.get [] b.lane ++ [BitVec.ofNat 32 v]) } }
        some (s.elementDone x (4096 * b.lane + e))

end Sys2Proof.Machine
end

