-- ==== Sys2Proof/Machine/EngineEvents.lean ====
section
/-! DEFINITION. The element accesses of every engine command (R268, R280, R284 to R286, R305, R314, R319), and the
completion of commands (R280). -/

namespace Sys2Proof.Machine

/-- The bag, entry and row element an element number stands for (`gotElem`). -/
def rowElem (bags : List Bag) (t : EmbTable) (e : Nat) : Option (Bag × Nat × Nat) :=
  let k := e - 2 ^ 40
  match bagOf bags (k / 4096 / 2 ^ 16) with
  | some b => if k / 4096 % 2 ^ 16 < b.count ∧ k % 4096 < t.dim then some (b, k / 4096 % 2 ^ 16, k % 4096) else none
  | none => none

/-- The bag and output element an element number stands for. -/
def outElem (bags : List Bag) (t : EmbTable) (e : Nat) : Option (Bag × Nat) :=
  match bagOf bags (e / 4096) with
  | some b => if e % 4096 < t.dim then some (b, e % 4096) else none
  | none => none

/-- The elements of a command. -/
def Cmd.elems (c : Cmd) : List Nat :=
  match c.kind with
  | .tile _ t _ _ _ cs => (List.range t.boxSize).filter (t.inside cs)
  | .mcast _ len ts => List.range (ts.length * (len / 4))
  | .bcopy _ _ _ len _ _ => List.range (len / 4)
  | .embag t _ _ _ _ bags =>
    bags.flatMap fun b => (List.range t.dim).flatMap fun e =>
      ((List.range b.count).map fun i => gotElem b.lane i e) ++ [4096 * b.lane + e]
  | .mdrain _ _ _ _ _ _ => List.range c.outBytes.length
  | _ => []

/-- Whether a command has an element. -/
def Cmd.hasElem (c : Cmd) (e : Nat) : Bool :=
  match c.kind with
  | .tile _ t _ _ _ cs => decide (e < t.boxSize) && t.inside cs e
  | .mcast _ len ts => decide (e < ts.length * (len / 4))
  | .bcopy _ _ _ len _ _ => decide (e < len / 4)
  | .embag t _ _ _ _ bags => if 2 ^ 40 ≤ e then (rowElem bags t e).isSome else (outElem bags t e).isSome
  | .mdrain _ _ _ _ _ _ => decide (e < c.outBytes.length)
  | _ => false

/-- The team and local address an element writes, if it writes the local store. -/
def Cmd.dest (c : Cmd) (e : Nat) : Option (Nat × Nat) :=
  match c.kind with
  | .tile store t h off tr _ => if store then none else some (c.tid, t.local h off tr e)
  | .mcast _ len ts => (ts[e / (len / 4)]?).map fun p => (p.1, p.2 + 4 * (e % (len / 4)))
  | .bcopy dir h off _ _ _ => if dir = 1 then some (c.tid, h + 128 * off + 4 * e) else none
  | .embag t _ _ out _ _ => if 2 ^ 40 ≤ e then none else out.map fun a => (c.tid, a + (e / 4096 * t.dim + e % 4096) * t.oes)
  | .mdrain _ _ _ _ _ _ => (c.outBytes[e]?).map fun o => (c.tid, o.1)
  | _ => none

/-- An element of a bulk copy (R286). -/
def State.elemBulk (s : State) (x : Nat) (c : Cmd) (e dir h off src dst : Nat) : Option State :=
  match dir with
  | 0 => s.elemCopy x c e (src + 4 * e) (dst + 4 * e)
  | 1 => s.elemIn x c e (src + 4 * e) 4 c.tid (h + 128 * off + 4 * e)
  | _ => s.elemOut x c e (h + 128 * off + 4 * e) 4 (dst + 4 * e)

/-- One element access of a command, if it may be made or met now. -/
def State.elem (s : State) (x : Nat) (c : Cmd) (e : Nat) : Option State :=
  match c.kind with
  | .tile store t h off tr cs =>
    let l := t.local h off tr e
    if store then s.elemOut x c e l t.es (t.addr cs e) else s.elemIn x c e (t.addr cs e) t.es c.tid l
  | .mcast src len ts => s.elemCast x c e src len ts
  | .bcopy dir h off _ src dst => s.elemBulk x c e dir h off src dst
  | .embag t mode _ out q bags =>
    if 2 ^ 40 ≤ e then
      match rowElem bags t e with
      | some (b, i, k) => s.elemRow x c t b i k
      | none => none
    else
      match outElem bags t e with
      | some (b, k) => s.elemPool x c t mode out q b k
      | none => none
  | .mdrain _ _ _ _ _ _ => s.elemDrain x c e
  | _ => none

/-- A line becomes present when every element of the command that writes it is done (R268). -/
def State.settleLine (s : State) (x e : Nat) : State :=
  match s.cmds.get? x with
  | none => s
  | some c =>
    match c.dest e with
    | none => s
    | some (tid, a) =>
      let on (k : Nat) : Bool := match c.dest k with
        | some (t, b) => t == tid && b / 128 == a / 128
        | none => false
      if (c.elems.filter on).all c.done.contains then
        (s.present [(tid, a / 128)]).updCmd x fun c => { c with lines := c.lines.filter (· != (tid, a / 128)) }
      else s

/-- Whether element accesses of a command may be made (R326, R281). -/
def State.cmdActive (s : State) (c : Cmd) : Bool := c.queued && c.released && !c.held && !c.fatal && s.cmdRuns c

/-- Element y of command x, if it may be made or met now. -/
def State.element? (s : State) (x y : Nat) : Option State :=
  match s.cmds.get? x with
  | none => none
  | some c => if s.cmdActive c ∧ c.hasElem y ∧ !c.done.contains y then (s.elem x c y).map fun s => s.settleLine x y else none

/-- ELEMENT_ACCESS_PERFORMED (R268, R280, R281): `x` the command, `y` its element. -/
def execElementAccessPerformed (s : State) : Out :=
  match s.element? s.ev.x s.ev.y with
  | some s => .next s
  | none => .refused (.notEnabled "no such element access is ready")

/-- The bytes a command credits to each of its barriers (R284 to R286, R319). -/
def Cmd.credit (c : Cmd) : Nat :=
  match c.kind with
  | .tile _ t _ _ _ _ => c.elems.length * t.es
  | .mcast _ len _ => len
  | .bcopy _ _ _ len _ _ => len
  | .embag t _ _ _ _ bags => t.dim * t.oes * bags.length
  | _ => 0

/-- Whether a command may complete: its slots and its element accesses are done (R280). -/
def State.canComplete (s : State) (x : Nat) : Bool :=
  match s.cmds.get? x with
  | some c => s.cmdActive c && decide (c.slotsDone = c.slots) && c.elems.all c.done.contains
  | none => false

/-- ENGINE_COMMAND_COMPLETE (R280): `x` the command. Log entry 13, DESIGN CHOICE. -/
def execEngineCommandComplete (s : State) : Out :=
  match s.cmds.get? s.ev.x with
  | none => .refused (.notEnabled "no such command")
  | some c =>
    if s.canComplete s.ev.x then .next (s.completeCmd s.ev.x c c.credit)
    else .refused (.notEnabled "the command is not done")

end Sys2Proof.Machine
end

