-- ==== Sys2Proof/Machine/StoreEvents.lean ====
section
/-! DEFINITION. The store buffer's way to the homes (R331 to R334), the return of class V results (R121), commits (R338),
cautious mode (R341) and the taking of a waiting trap (R343, R390). -/

namespace Sys2Proof.Machine

/-- Whether the launch of a wave still runs. -/
def State.runs (s : State) (w : Wave) : Bool :=
  match s.teams.get? w.tid with
  | some t => !s.failed t.lid
  | none => false

/-- Whether a wave may send its next entry: not held, every earlier atomic and remote access performed, its words not
pending, room on a stream to a peer (R231, R331, R332). -/
def State.canSend (s : State) (x : Nat) : Bool :=
  match s.waves.get? x with
  | none => false
  | some w =>
    match w.head with
    | none => false
    | some e =>
      !e.held && !e.sent && w.irrev.isNone && s.runs w && (!e.op.locs.any fun l => s.pend.any fun p => p.1 = l) &&
        match e.op.phys?, s.teams.get? w.tid with
        | some p, some t => (p.tier != 2 || decide (0 < s.fabRoom t.die 128)) && !s.keyComing p
        | _, _ => true

/-- An entry of the local store, a bulletin word, a barrier or a queue is performed as it is sent (R334). -/
def State.performLocal (s : State) (x : Nat) (w : Wave) (op : SbOp) : State :=
  match op with
  | .mem _ _ _ _ _ => s
  | .ls bs => s.performLs w.tid bs (some x)
  | .bull l v => s.performBulletin l v (some x)
  | .binit bs =>
    let s := s.updTeam w.tid fun t => t.name (bs.map (·.1))
    s.performLs w.tid (binitBytes bs) (some x)
  | .owed bs => bs.foldl (fun s b => s.creditBarrier w.tid b.1 b.2 (some x)) s
  | .arrive lanes =>
    (s.check [.tsync w.tid] (some x)).updWave x fun w =>
      { w with tsCount := (lanesOf lanes).foldl (fun t l => t.set 0 l (t.get 0 l + 1)) w.tsCount }
  | .push q vs => s.performPush w.tid q vs (some x)

/-- Send the head entry: one of global memory goes to its home (R331), once the line's buffer has its key (R311), any other is
performed at once (R334). -/
def State.doSend (s : State) (x : Nat) : State :=
  match s.waves.get? x with
  | none => s
  | some w =>
    match w.head with
    | none => s
    | some e =>
      match e.op.phys? with
      | none => (s.performLocal x w e.op).popEntry x
      | some p =>
        match s.missingKey p with
        | some k => s.wantKeys [k]
        | none => s.sendMem x w e p

/-- STORE_ENTRY_SEND (R331): `x` the wave. -/
def execStoreEntrySend (s : State) : Out :=
  if s.canSend s.ev.x then .next (s.doSend s.ev.x) else .refused (.notEnabled "the wave has no entry to send")

/-- INVALIDATION (R331, R332): of what wave `x` has sent, at die `y`, 16 the anchor die. -/
def execInvalidation (s : State) : Out :=
  if s.canInvalidate s.ev.x s.ev.y then .next (s.doInvalidate s.ev.x s.ev.y)
  else .refused (.notEnabled "no invalidation for that die")

/-- Whether every acknowledgement of a wave's sent entry is in. -/
def State.canAck (s : State) (x : Nat) : Bool :=
  match (s.waves.get? x).bind Wave.head with
  | some e => e.sent && e.await.isEmpty
  | none => false

/-- STORE_ENTRY_ACK (R331): `x` the wave. -/
def execStoreEntryAck (s : State) : Out :=
  if s.canAck s.ev.x then .next (s.doAck s.ev.x) else .refused (.notEnabled "the entry is not acknowledged everywhere")

/-- The class V result of wave x that may return as number y. -/
def State.result? (s : State) (x y : Nat) : Option Outst :=
  ((s.waves.get? x).bind fun w => w.outst[y]?).filter (·.ready)

/-- A result returns; with the last one a parked wave goes on (R91, R121). -/
def Wave.returnOne (w : Wave) (o : Outst) : Wave :=
  let w := w.land o
  if w.outst.isEmpty then { w with parked := false } else w

/-- CLASS_V_RESULT (R121): `x` the wave, `y` which of its outstanding results. -/
def execClassVResult (s : State) : Out :=
  match s.result? s.ev.x s.ev.y with
  | some o => .next (s.updWave s.ev.x fun w => w.returnOne o)
  | none => .refused (.notEnabled "no such result")

/-- Whether a wave's region commits now (R338). -/
def State.canCommit (s : State) (x : Nat) : Bool :=
  match s.waves.get? x with
  | some w => w.mayCommit
  | none => false

/-- REGION_COMMIT (R338): `x` the wave. -/
def execRegionCommit (s : State) : Out :=
  if s.canCommit s.ev.x then .next (s.commit s.ev.x) else .refused (.notEnabled "no region commits")

/-- Whether a wave's cautious issues are over (R341). -/
def State.canEndCautious (s : State) (x : Nat) : Bool :=
  match s.waves.get? x with
  | some w => w.cautious == 1
  | none => false

/-- CAUTIOUS_MODE_END (R341): `x` the wave. -/
def execCautiousModeEnd (s : State) : Out :=
  if s.canEndCautious s.ev.x then .next (s.updWave s.ev.x fun w => { w with cautious := 0 })
  else .refused (.notEnabled "the wave's cautious mode is not over")

/-- The trap a wave may take now, after the wait of R343. -/
def State.readyTrap (s : State) (x : Nat) : Option (TrapInfo × Pending) :=
  match s.waves.get? x with
  | none => none
  | some w =>
    match w.stop with
    | some p =>
      match p.stop with
      | .trap i => if w.clean ∧ s.runs w then some (i, p) else none
      | .park _ => none
    | none => none

/-- TRAP_ENTRY (R343, R390): `x` the wave. -/
def execTrapEntry (s : State) : Out :=
  match s.readyTrap s.ev.x with
  | some (i, p) => .next (s.takeTrap s.ev.x i p.set p.pc p.word)
  | none => .refused (.notEnabled "no trap is ready")

end Sys2Proof.Machine
end

