-- ==== Sys2Proof/Machine/Fabric.lean ====
section
/-! DEFINITION. The Yilsino fabric (R228 to R235), leases (R236 to R238), and the host's accesses (R240, R246). -/

namespace Sys2Proof.Machine

/-- LINK_RETRY (R230): the receiver at port `x` asks for retransmission from flit `y` on, so that every earlier flit has arrived;
`flag` where the retry failed. -/
def execLinkRetry (s : State) : Out :=
  let l := s.link s.ev.x
  if s.ev.x < 32 ∧ !l.down then
    .next (s.setLink s.ev.x { l with
      retries := if s.ev.flag then l.retries + 1 else 0
      acked := max l.acked (min s.ev.y (flitsOf l.bytes)) })
  else .refused (.notEnabled "no such link is up")

/-- LINK_DOWN (R230): port `x`, which has failed 16 retries in a row, or with `flag` has lost lock. Its unacknowledged requests
have no port until they are sent again by another one (R232). -/
def execLinkDown (s : State) : Out :=
  let l := s.link s.ev.x
  if s.ev.x < 32 ∧ !l.down ∧ (s.ev.flag ∨ 16 ≤ l.retries) then
    .next { s.setLink s.ev.x { l with down := true } with
      fabOut := s.fabOut.map fun r => if r.port = some s.ev.x ∧ l.acked < r.flit then { r with port := none } else r }
  else .refused (.notEnabled "the link stays up")

/-- The atomics of R261 by their numbers. -/
def atomOps : List AtomOp :=
  [.add, .and, .or, .xor, .min, .max, .umin, .umax, .xchg, .cas, .inc, .fadd, .hadd2b, .hadd2h, .fmin, .fmax]

/-- The bytes a peer's request touches. -/
def reqBytes : MemReq → Nat
  | .read n => n
  | .write d => d.length
  | .atomic _ wide _ _ => if wide then 8 else 4

/-- Whether a peer's request can be served: under a key this device holds, in its own memory (R235, R207). -/
def State.fabServes (s : State) (r : FabReq) : Bool :=
  decide (r.key < 128) && s.keyVer.get 0 r.key != 0 && decide (r.addr + reqBytes r.req ≤ capEnd)

/-- The place of this device's memory that a peer's request names. -/
def reqPhys (r : FabReq) : Phys := ⟨.dev, r.addr, r.key, if r.addr < hbmEnd then 0 else 1, false⟩

/-- The old and the new value of a peer's atomic on a place. -/
def State.fabAtomic (s : State) (sp : Space) (r : FabReq) (k : Nat) (wide : Bool) (x y : DWord) : DWord × DWord :=
  let old := BitVec.ofNat 64 (leValue (s.bytesAt sp r.key r.addr (reqBytes r.req)))
  (old, (atomOps.getD k .add).new wide old x y)

/-- Perform a peer's request at its home (R234, R246): what it answers and the state after. No owner of this device makes it. -/
def State.fabPerform (s : State) (r : FabReq) : List Byte × State :=
  let n := reqBytes r.req
  match r.req with
  | .read _ =>
    let s := s.agentReads 64 (reqPhys r) n
    (s.bytesAt .dev r.key r.addr n, s)
  | .write d => ([], s.agentWrites 64 (reqPhys r) d)
  | .atomic k wide x y =>
    let s := (s.quiet ((AtomTgt.mem (reqPhys r)).locs 0 n)).homeTouches 64 (reqPhys r) n true
    let v := s.fabAtomic .dev r k wide x y
    (leBytes n v.1.toNat,
      if v.2 = v.1 then s
      else (s.flipBias (reqPhys r) n v.1.toNat v.2.toNat).perform .dev r.key (placed r.addr (leBytes n v.2.toNat)) none true)

/-- A request of another party is performed at a peer's own memory (R234). -/
def State.peerPerform (s : State) (r : FabReq) : State :=
  match r.req with
  | .read _ => s
  | .write d => s.perform .peer r.key (placed r.addr d) none
  | .atomic k wide x y =>
    let s := s.quiet ((AtomTgt.mem { reqPhys r with sp := .peer }).locs 0 (reqBytes r.req))
    s.perform .peer r.key (placed r.addr (leBytes (reqBytes r.req) (s.fabAtomic .peer r k wide x y).2.toNat)) none

/-- A target's window for a source and stream (R231). -/
def State.window (s : State) (k : Nat) : Window := s.fabWindow.get ⟨0, []⟩ k

/-- A window takes a response; its low edge stays within 1,024 of the newest request (R231). -/
def Window.take (w : Window) (n : Nat) (resp : List Byte) : Window :=
  let low := if 1023 < (n + 2 ^ 32 - w.low) % 2 ^ 32 then (n + 2 ^ 32 - 1023) % 2 ^ 32 else w.low
  ⟨low, (w.resp.put n resp).filter fun e => (e.1 + 2 ^ 32 - low) % 2 ^ 32 < 1024⟩

/-- Whether a request has been performed before: its response is held, or it lies below the window (R231). -/
def Window.seen (w : Window) (n : Nat) : Bool :=
  (w.resp.get? n).isSome || decide (2 ^ 31 ≤ (n + 2 ^ 32 - w.low) % 2 ^ 32)

/-- Whether some port takes a response: a 16-byte header and its data (R229, R230). -/
def State.mayRespond (s : State) (resp : List Byte) : Bool := !(s.openPorts (16 + resp.length) none).isEmpty

/-- A response goes out to its source by a port (R229, R231). -/
def State.respond (s : State) (resp : List Byte) : State :=
  s.onPort (s.pick 11 0 (s.openPorts (16 + resp.length) none)) (16 + resp.length)

/-- What a request comes to: its response, a status byte, 0 for done and 1 for an error (R235), with what a read returns, and the
state after it. -/
def State.fabResult (s : State) (r : FabReq) : List Byte × State :=
  let o := if s.fabServes r then s.fabPerform r else ([], s)
  ((if s.fabServes r then 0 else 1) :: o.1, o.2)

/-- A request's response is stored and goes out. -/
def State.fabAnswer (s : State) (r : FabReq) : State :=
  let k := 64 * r.src + r.stream
  let o := s.fabResult r
  { o.2 with fabWindow := o.2.fabWindow.put k ((o.2.window k).take r.seq o.1) }.respond o.1

/-- Whether the words of a request are free of pending writes (R234, R332). -/
def State.fabFree (s : State) (sp : Space) (r : FabReq) : Bool :=
  !(wordLocs sp (placed r.addr (List.replicate (reqBytes r.req) 0))).any fun l => s.pend.any fun p => p.1 = l

/-- The stored response of a request that has been performed, none below the window (R231). -/
def State.stored (s : State) (r : FabReq) : Option (List Byte) := (s.window (64 * r.src + r.stream)).resp.get? r.seq

/-- A copy of a request that has been performed: its stored response goes out again (R231). -/
def State.fabAgain (s : State) (r : FabReq) : State :=
  match s.stored r with
  | some resp => s.respond resp
  | none => s

/-- Whether a port takes the response that a request is to be answered with now (R230). -/
def State.fabReady (s : State) (r : FabReq) : Bool :=
  if (s.window (64 * r.src + r.stream)).seen r.seq then ((s.stored r).map s.mayRespond).getD true
  else s.mayRespond (s.fabResult r).1

/-- FABRIC_REQUEST (R231): a peer's request in the data. It is performed at most once; a copy is answered from the window. Before
VALID is set it is not answered (R228). With `flag` it is another party's request, performed at a peer's own memory.
Log entry 41, DEDUCED. -/
def execFabricRequest (s : State) : Out :=
  match s.ev.data with
  | .fabric r =>
    if 64 ≤ r.stream then .refused (.notEnabled "no such stream")
    else if s.ev.flag then
      if r.addr / 2 ^ 44 ≠ s.deviceId ∧ s.fabFree .peer r then .next (s.peerPerform r)
      else .refused (.notEnabled "the peer's words are pending")
    else if !s.deviceIdValid then .next s
    else if !s.fabReady r then .refused (.notEnabled "no port takes the response")
    else if (s.window (64 * r.src + r.stream)).seen r.seq then .next (s.fabAgain r)
    else if s.fabFree .dev r then .next (s.fabAnswer r)
    else .refused (.notEnabled "the words are pending")
  | _ => .refused (.notEnabled "no request")

/-- The outstanding request of this device that is due to be sent again (R232). Log entry 50, DEDUCED. -/
def State.resend? (s : State) (i : Nat) : Option OutReq :=
  (s.fabOut[i]?).filter fun r => decide (r.last + 200000 ≤ s.clock.toNat) && decide (r.resends < 8)

/-- FABRIC_RESEND (R232): the outstanding request number `x` goes out again by another port. -/
def execFabricResend (s : State) : Out :=
  match s.resend? s.ev.x with
  | some r =>
    match s.pick 11 r.seq (s.openPorts r.bytes r.port) with
    | none => .refused (.notEnabled "no other port takes the request")
    | some port =>
      let s := s.onPort (some port) r.bytes
      let again : OutReq :=
        { r with resends := r.resends + 1, last := s.clock.toNat, port := some port, flit := s.flitOn (some port) }
      .next { s with fabOut := s.fabOut.set s.ev.x again }
  | none => .refused (.notEnabled "no request is due")

/-- Owners with an access to a target outstanding that still have launches to discard (R233). Log entry 42, DEDUCED. -/
def State.cutOff (s : State) (dev : Nat) : List Nat :=
  ((s.fabOut.filter fun r => r.device == dev).map (·.owner)).eraseDups.filter fun o =>
    s.launches.any fun e => e.2.owner = o ∧ e.2.stage = .running ∧ e.2.fail.isNone

/-- Whether a target has answered no request of this device for CSR_FABTMO microseconds (R233).
Log entry 42, DEDUCED; log entry 50, DEDUCED. -/
def State.silent (s : State) (dev : Nat) : Bool :=
  let t := 1000 * s.fabTmo.toNat
  decide (s.fabHeard.get 0 dev + t ≤ s.clock.toNat) &&
    s.fabOut.any fun r => r.device == dev && decide (r.first + t ≤ s.clock.toNat)

/-- FABRIC_UNREACHABLE (R233): target device `x`. Log entry 42, DEDUCED. -/
def execFabricUnreachable (s : State) : Out :=
  if s.silent s.ev.x ∧ !(s.cutOff s.ev.x).isEmpty then
    .next ((s.cutOff s.ev.x).foldl (fun s o => s.failOwner o 2) s)
  else .refused (.notEnabled "the target is not unreachable")

/-- Begin the recall of leases by a condition (R237). -/
def State.recall (s : State) (p : (Nat × Nat) → Bool) : State :=
  { s with recallPending := s.recallPending ++ s.leasesGranted.filter fun (e : Nat × Nat) => p e && !s.recallPending.contains e }

/-- LEASE_REQUEST (R236, R238): holder `y` asks for page `x`. A blocked page is answered "moving". With 65,536 leases out
the least recently used one is recalled first. Before VALID is set nothing is answered (R228). Log entry 40, DEDUCED. -/
def execLeaseRequest (s : State) : Out :=
  let e := (s.ev.x, s.ev.y)
  if !s.deviceIdValid ∨ s.leaseBlocked.contains s.ev.x then .next s
  else if s.leasesGranted.contains e ∨ s.leasesGranted.length < 65536 then
    .next { s with leasesGranted := e :: s.leasesGranted.filter fun x => x ≠ e }
  else if s.recallPending.isEmpty then .next (s.recall fun x => some x == s.leasesGranted.getLast?)
  else .refused (.notEnabled "the lease table is full")

/-- Whether a place lies on a peer's 64 KiB page. -/
def Phys.onLease (p : Phys) (page : Nat) : Bool := p.sp == .peer && p.addr / 65536 == page

/-- Whether a store-buffer entry is an unperformed access of a peer's page. -/
def SbEntry.onLease (e : SbEntry) (page : Nat) : Bool :=
  match e.op with
  | .mem sp _ _ _ bs => sp == .peer && bs.any fun b => b.1 / 65536 == page
  | _ => false

/-- Whether a wave has an unperformed access of a peer's page (R237 step 2). -/
def Wave.onLease (w : Wave) (page : Nat) : Bool :=
  (w.sbuf ++ w.spilling.getD []).any (·.onLease page) ||
    match w.irrev with
    | some (.atom _ _ _ ls _) => ls.any fun l => ((l.tgt.phys?).map (·.onLease page)).getD false
    | some (.load _ _ ls) => ls.any fun l => l.2.onLease page
    | none => false

/-- Whether a command has a request to a peer's page outstanding (R237 step 2). -/
def State.cmdOnLease (s : State) (x : Nat) (c : Cmd) (page : Nat) : Bool :=
  s.fabOut.any fun r => match r.who with
    | .elem k n => k == x && ((c.askedLine n).map (·.onLease page)).getD false
    | _ => false

/-- Whether an access of the device itself through a die has a request to a peer's page outstanding (R237 step 2). -/
def State.agentOnLease (s : State) (d page : Nat) : Bool :=
  s.fabOut.any fun r => match r.who with
    | .device (.line k _ p _) => k == d && p.onLease page
    | _ => false

/-- Whether a die's accesses under a page's old translation are over (R237 step 2). -/
def State.leaseQuiet (s : State) (d page : Nat) : Bool :=
  !(s.waves.any fun e => ((s.teams.get? e.2.tid).map (·.die)) == some d && e.2.onLease page) &&
    !(s.cmds.any fun e => ((s.teams.get? e.2.tid).map (·.die)) == some d && s.cmdOnLease e.1 e.2 page) &&
    !s.agentOnLease d page

/-- LEASE_RECALL (R237). With `flag` false at the holder, die `x` for lease page `y`: with `z` = 0 a recall arrives, with
`z` = 1 it is acknowledged. With `flag` the acknowledgement of a lease this device granted, page `x` and holder `y`. -/
def execLeaseRecall (s : State) : Out :=
  let x := s.ev.x
  let y := s.ev.y
  if !s.deviceIdValid then .refused (.notEnabled "the device takes no part in the fabric")
  else if s.ev.flag then
    if s.recallPending.contains (x, y) then
      .next { s with
        recallPending := s.recallPending.filter fun e => e ≠ (x, y)
        leasesGranted := s.leasesGranted.filter fun e => e ≠ (x, y) }
    else .refused (.notEnabled "no such recall")
  else if s.ev.z = 0 then
    if x < 16 then .next (s.dropLease x y) else .refused (.notEnabled "no such die")
  else if (s.die x).recalls.contains y ∧ s.leaseQuiet x y then
    .next (s.updDie x fun d => { d with recalls := d.recalls.filter (· != y) })
  else .refused (.notEnabled "accesses are outstanding")

/-- LEASE_BLOCK (R238): page `x` is blocked and its leases are recalled; not in the recovery state (R440). -/
def execLeaseBlock (s : State) : Out :=
  if s.hk.recovery then .refused (.notEnabled "the module is in recovery")
  else .next ({ s with leaseBlocked := s.ev.x :: s.leaseBlocked.filter (· != s.ev.x) }.recall fun e => e.1 == s.ev.x)

/-- LEASE_BLOCK_CLEAR (R238): page `x`; not in the recovery state (R440). -/
def execLeaseBlockClear (s : State) : Out :=
  if s.hk.recovery then .refused (.notEnabled "the module is in recovery")
  else .next { s with leaseBlocked := s.leaseBlocked.filter (· != s.ev.x) }

/-- Whether a 64-byte line has no pending word. -/
def State.lineFree (s : State) (sp : Space) (line : Nat) : Bool :=
  !(lineLocs sp line).any fun l => s.pend.any fun p => p.1 = l

/-- Whether the host reaches this module as a Type 2 device: CXL has trained, and not as a PCIe endpoint only (R239, R439). -/
def State.cxlUp (s : State) : Bool := s.hk.ready && !s.hk.pcieOnly

/-- HOST_SNOOP (R240): the host takes host line `x` (64 bytes) to share, or with 64 bytes of data to own and write it. The agent
keeps or loses the line, and every device copy of a line that the host takes is invalidated. -/
def execHostSnoop (s : State) : Out :=
  let line := s.ev.x
  if !s.cxlUp then .refused (.notEnabled "no host is connected")
  else if !s.lineFree .host line then .refused (.notEnabled "the line is pending")
  else
    match s.ev.data with
    | .bytes b =>
      if b.length = 64 then
        .next { s.performNow .host 0 (placed (64 * line) b) none with agentLines := s.agentLines.del line }
      else .refused (.notEnabled "a line has 64 bytes")
    | _ => .next { s with agentLines := s.agentLines.upd line fun _ => false }

/-- The bias-table word of an address of the range. -/
def State.biasWord (s : State) (a : Nat) : Loc := .mem .dev ((s.biasBase + (a - s.hdm.base * 2 ^ 30) / 4096 / 8) / 4)

/-- A bias bit is cleared by the home: a write of its word (R246). -/
def State.clearBias (s : State) (a : Nat) : State := (s.told [s.biasWord a] none).setBias a false

/-- The place of a 64-byte line of the range. -/
def State.hdmLine (s : State) (line : Nat) : Phys := ⟨.dev, 64 * line, s.hdm.key, 0, false⟩

/-- The host takes a line and holds it modified with given bytes: the device's copies are invalidated, and what watches the line
notices (R49, R56, R246). A buffer that watches a HEAD word there reads it again, which takes the line back (R222). -/
def State.hostDirty (s : State) (line : Nat) (d : List Byte) : State :=
  let ls := lineLocs .dev line
  let bs := placed (64 * line) (d.take 64)
  let head := s.owners.any fun e => match e.2.migQ.bind (·.place) with
    | some p => touches8 ls p.sp p.addr
    | none => false
  let s := (s.told ls none).keepCode .dev bs
  let s := ({ s with
    imgCache := imagesLeft .dev bs s.imgCache, hostLines := s.hostLines.put line ⟨some (d.take 64)⟩ }).dropCopies ls
  let s := s.watch 16 (lineId .dev (64 * line)) 1
  if head then (s.backInvalidate line).migrationHead ls else s

/-- The home serves a host request for a 64-byte line in host bias (R246); a read is answered with the line's bytes. -/
def State.serveHost (s : State) (line : Nat) (r : HostReq) : State :=
  match r with
  | .read => let t := s.l2Touch 64 (s.hdmLine line) false
    { t with hostAnswer := t.bytesAt .dev s.hdm.key (64 * line) 64 }
  | .write d => (s.l2Touch 64 (s.hdmLine line) true).performNow .dev s.hdm.key (placed (64 * line) (d.take 64)) none
  | .cache =>
    let t := s.l2Touch 64 (s.hdmLine line) false
    { t with
      hostAnswer := t.bytesAt .dev s.hdm.key (64 * line) 64
      hostLines := t.hostLines.put line ((t.hostLines.get? line).getD ⟨none⟩) }.watch 16 (lineId .dev (64 * line)) 1
  | .dirty d => (s.l2Touch 64 (s.hdmLine line) false).hostDirty line d

/-- HOST_HDM_ACCESS (R246): the line of device address `x`. In device bias the granule returns to host bias first; while a flip of
its bias bit is under way the access is held (R247). Log entry 47, DESIGN CHOICE. -/
def execHostHdmAccess (s : State) : Out :=
  match s.ev.data with
  | .host r =>
    if !s.cxlUp ∨ !s.inHdm s.ev.x then .refused (.notEnabled "not in the range")
    else if hbmEnd ≤ s.ev.x then .fault .hdmOutsideHbm
    else if !s.lineFree .dev (s.ev.x / 64) ∨ s.pend.any (fun p => p.1 = s.biasWord s.ev.x) then
      .refused (.notEnabled "the line is pending")
    else
      let s1 := if s.deviceBias s.ev.x then s.clearBias s.ev.x else s
      .next (s1.serveHost (s.ev.x / 64) r)
  | _ => .refused (.notEnabled "no request")

end Sys2Proof.Machine
end

