-- ==== Sys2Proof/Machine/Integer.lean ====
section
/-! DEFINITION. Integer, logic, compare, select, bit-field, unary and immediate instructions (R155 to R166). -/

namespace Sys2Proof.Machine

/-- Bits [63:32] of a product (R157). -/
def mulHigh (p : Int) : Word := BitVec.ofInt 32 (p / 2 ^ 32)

/-- A rotate left by n below 32 (R158). -/
def rotl (a : Word) (n : Nat) : Word := (a <<< n) ||| (a >>> (32 - n))

/-- A shift count from b[4:0] (R158). -/
def cnt5 (b : Word) : Nat := b.toNat % 32

/-- A shift count from b[5:0] (R158). -/
def cnt6 (b : Word) : Nat := b.toNat % 64

/-- The effective length of a field descriptor (R160). -/
def fieldLen (b : Word) : Nat := min (bitsOf b.toNat 13 8) (min 32 (32 - b.toNat % 32))

/-- BFE (R160). -/
def bfe (a b : Word) : Word :=
  let len := fieldLen b
  let f := a.toNat / 2 ^ (b.toNat % 32) % 2 ^ len
  if len = 0 then 0
  else if b.getLsbD 16 then BitVec.ofInt 32 (signOf len f) else BitVec.ofNat 32 f

/-- BFI (R160): the field of d is replaced, its other bits stay. -/
def bfi (a b d : Word) : Word :=
  let len := fieldLen b
  let pos := b.toNat % 32
  let m := BitVec.ofNat 32 ((2 ^ len - 1) * 2 ^ pos)
  (d &&& ~~~m) ||| ((a <<< pos) &&& m)

/-- One byte of PERMB (R161). -/
def permByte (a : Word) (c : Nat) : Nat :=
  let sel := a.toNat / 2 ^ (8 * (c % 4)) % 256
  if c / 4 % 2 = 1 then 0
  else if c / 8 = 1 then (if sel / 128 = 1 then 255 else 0)
  else sel

/-- PERMB (R161). -/
def permb (a b : Word) : Word :=
  BitVec.ofNat 32 (permByte a (b.toNat % 16) + permByte a (b.toNat / 16 % 16) * 2 ^ 8 +
    permByte a (b.toNat / 256 % 16) * 2 ^ 16 + permByte a (b.toNat / 4096 % 16) * 2 ^ 24)

/-- PACK2 (R159). -/
def pack2 (a b : Word) : Word := BitVec.ofNat 32 (b.toNat % 65536 * 65536 + a.toNat % 65536)

/-- BREV (R162). -/
def brev (a : Word) : Word := BitVec.ofNat 32 (((List.range 32).map fun i => flagBit (a.getLsbD (31 - i)) i).sum)

/-- The immediate of ADDI, MOVI and CMPI in 32 bits (R93). -/
def immS (i : Int) : Word := BitVec.ofInt 32 i

/-- The zero-extended immediate (R93). -/
def immU (i : Nat) : Word := BitVec.ofNat 32 i

/-- IADD (R157). -/
def execIadd (d a b : Reg) (s : State) : Out := alu2 d a b (fun x y => x + y) s

/-- ISUB (R157). -/
def execIsub (d a b : Reg) (s : State) : Out := alu2 d a b (fun x y => x - y) s

/-- IMUL (R157). -/
def execImul (d a b : Reg) (s : State) : Out := alu2 d a b (fun x y => x * y) s

/-- IMULH (R157). -/
def execImulh (d a b : Reg) (s : State) : Out := alu2 d a b (fun x y => mulHigh (sgn x * sgn y)) s

/-- UMULH (R157). -/
def execUmulh (d a b : Reg) (s : State) : Out := alu2 d a b (fun x y => BitVec.ofNat 32 (x.toNat * y.toNat / 2 ^ 32)) s

/-- IMAD (R157): d is read at issue. -/
def execImad (d a b : Reg) (s : State) : Out := alu3 d a b (fun x y z => x * y + z) s

/-- IMIN (R157). -/
def execImin (d a b : Reg) (s : State) : Out := alu2 d a b (fun x y => if sgn x < sgn y then x else y) s

/-- IMAX (R157). -/
def execImax (d a b : Reg) (s : State) : Out := alu2 d a b (fun x y => if sgn x > sgn y then x else y) s

/-- UMIN (R157). -/
def execUmin (d a b : Reg) (s : State) : Out := alu2 d a b (fun x y => if x.toNat < y.toNat then x else y) s

/-- UMAX (R157). -/
def execUmax (d a b : Reg) (s : State) : Out := alu2 d a b (fun x y => if x.toNat > y.toNat then x else y) s

/-- IADD.W (R157). -/
def execIaddW (d a b : Reg) (s : State) : Out := aluW2 d a b (fun x y => x + y) s

/-- ISUB.W (R157). -/
def execIsubW (d a b : Reg) (s : State) : Out := aluW2 d a b (fun x y => x - y) s

/-- IMUL.W (R157). -/
def execImulW (d a b : Reg) (s : State) : Out := aluWP d a b (fun x y => BitVec.ofInt 64 (sgn x * sgn y)) s

/-- UMUL.W (R157). -/
def execUmulW (d a b : Reg) (s : State) : Out := aluWP d a b (fun x y => BitVec.ofNat 64 (x.toNat * y.toNat)) s

/-- AND (R158). -/
def execAnd (d a b : Reg) (s : State) : Out := alu2 d a b (fun x y => x &&& y) s

/-- OR (R158). -/
def execOr (d a b : Reg) (s : State) : Out := alu2 d a b (fun x y => x ||| y) s

/-- XOR (R158). -/
def execXor (d a b : Reg) (s : State) : Out := alu2 d a b (fun x y => x ^^^ y) s

/-- ANDN (R158). -/
def execAndn (d a b : Reg) (s : State) : Out := alu2 d a b (fun x y => x &&& ~~~y) s

/-- ORN (R158). -/
def execOrn (d a b : Reg) (s : State) : Out := alu2 d a b (fun x y => x ||| ~~~y) s

/-- XNOR (R158). -/
def execXnor (d a b : Reg) (s : State) : Out := alu2 d a b (fun x y => ~~~(x ^^^ y)) s

/-- SHL (R158): the count is b[4:0]. -/
def execShl (d a b : Reg) (s : State) : Out := alu2 d a b (fun x y => x <<< cnt5 y) s

/-- SHR (R158). -/
def execShr (d a b : Reg) (s : State) : Out := alu2 d a b (fun x y => x >>> cnt5 y) s

/-- SRA (R158). -/
def execSra (d a b : Reg) (s : State) : Out := alu2 d a b (fun x y => x.sshiftRight (cnt5 y)) s

/-- ROTL (R158). -/
def execRotl (d a b : Reg) (s : State) : Out := alu2 d a b (fun x y => rotl x (cnt5 y)) s

/-- SHL.W (R158): the count is b[5:0]. -/
def execShlW (d a b : Reg) (s : State) : Out := aluWS d a b (fun x y => x <<< cnt6 y) s

/-- SHR.W (R158). -/
def execShrW (d a b : Reg) (s : State) : Out := aluWS d a b (fun x y => x >>> cnt6 y) s

/-- SRA.W (R158). -/
def execSraW (d a b : Reg) (s : State) : Out := aluWS d a b (fun x y => x.sshiftRight (cnt6 y)) s

/-- CMPEQ (R159). -/
def execCmpeq (d a b : Reg) (s : State) : Out := alu2 d a b (fun x y => boolWord (x == y)) s

/-- CMPNE (R159). -/
def execCmpne (d a b : Reg) (s : State) : Out := alu2 d a b (fun x y => boolWord (x != y)) s

/-- CMPLT (R159). -/
def execCmplt (d a b : Reg) (s : State) : Out := alu2 d a b (fun x y => boolWord (decide (sgn x < sgn y))) s

/-- CMPLE (R159). -/
def execCmple (d a b : Reg) (s : State) : Out := alu2 d a b (fun x y => boolWord (decide (sgn x ≤ sgn y))) s

/-- CMPLTU (R159). -/
def execCmpltu (d a b : Reg) (s : State) : Out := alu2 d a b (fun x y => boolWord (decide (x.toNat < y.toNat))) s

/-- CMPLEU (R159). -/
def execCmpleu (d a b : Reg) (s : State) : Out := alu2 d a b (fun x y => boolWord (decide (x.toNat ≤ y.toNat))) s

/-- SEL (R159): d is read at issue. -/
def execSel (d a b : Reg) (s : State) : Out := alu3 d a b (fun x y z => if x ≠ 0 then y else z) s

/-- BFE (R160). -/
def execBfe (d a b : Reg) (s : State) : Out := alu2 d a b (fun x y => bfe x y) s

/-- BFI (R160): d is read at issue. -/
def execBfi (d a b : Reg) (s : State) : Out := alu3 d a b (fun x y z => bfi x y z) s

/-- PACK2 (R159). -/
def execPack2 (d a b : Reg) (s : State) : Out := alu2 d a b (fun x y => pack2 x y) s

/-- PERMB (R161). -/
def execPermb (d a b : Reg) (s : State) : Out := alu2 d a b (fun x y => permb x y) s

/-- CLZ (R162). -/
def execClz (d a : Reg) (s : State) : Out := alu1 d a (fun x => BitVec.ofNat 32 (32 - bitLen x.toNat)) s

/-- POPC (R162). -/
def execPopc (d a : Reg) (s : State) : Out := alu1 d a (fun x => BitVec.ofNat 32 (popCount x.toNat 32)) s

/-- BREV (R162). -/
def execBrev (d a : Reg) (s : State) : Out := alu1 d a (fun x => brev x) s

/-- IABS (R162). -/
def execIabs (d a : Reg) (s : State) : Out := alu1 d a (fun x => BitVec.ofInt 32 (sgn x).natAbs) s

/-- INEG (R162). -/
def execIneg (d a : Reg) (s : State) : Out := alu1 d a (fun x => -x) s

/-- NOT (R162). -/
def execNot (d a : Reg) (s : State) : Out := alu1 d a (fun x => ~~~x) s

/-- MOV (R162). -/
def execMov (d a : Reg) (s : State) : Out := alu1 d a (fun x => x) s

/-- MOV.W (R162). -/
def execMovW (d a : Reg) (s : State) : Out := aluW1 d a (fun x => x) s

/-- SEXTB (R162). -/
def execSextb (d a : Reg) (s : State) : Out := alu1 d a (fun x => BitVec.ofInt 32 (signOf 8 x.toNat)) s

/-- SEXTH (R162). -/
def execSexth (d a : Reg) (s : State) : Out := alu1 d a (fun x => BitVec.ofInt 32 (signOf 16 x.toNat)) s

/-- ZEXTB (R162). -/
def execZextb (d a : Reg) (s : State) : Out := alu1 d a (fun x => BitVec.ofNat 32 (x.toNat % 256)) s

/-- ZEXTH (R162). -/
def execZexth (d a : Reg) (s : State) : Out := alu1 d a (fun x => BitVec.ofNat 32 (x.toNat % 65536)) s

/-- ADDI (R163). -/
def execAddi (d a : Reg) (i : Int) (s : State) : Out := alu1 d a (fun x => x + immS i) s

/-- ANDI (R163). -/
def execAndi (d a : Reg) (i : Nat) (s : State) : Out := alu1 d a (fun x => x &&& immU i) s

/-- ORI (R163). -/
def execOri (d a : Reg) (i : Nat) (s : State) : Out := alu1 d a (fun x => x ||| immU i) s

/-- XORI (R163). -/
def execXori (d a : Reg) (i : Nat) (s : State) : Out := alu1 d a (fun x => x ^^^ immU i) s

/-- SHLI (R164). -/
def execShli (d a : Reg) (k : Nat) (s : State) : Out := alu1 d a (fun x => x <<< k) s

/-- SHRI (R164). -/
def execShri (d a : Reg) (k : Nat) (s : State) : Out := alu1 d a (fun x => x >>> k) s

/-- SRAI (R164). -/
def execSrai (d a : Reg) (k : Nat) (s : State) : Out := alu1 d a (fun x => x.sshiftRight k) s

/-- ROTLI (R164). -/
def execRotli (d a : Reg) (k : Nat) (s : State) : Out := alu1 d a (fun x => rotl x k) s

/-- SHLI.W (R164). -/
def execShliW (d a : Reg) (k : Nat) (s : State) : Out := aluW1 d a (fun x => x <<< k) s

/-- SHRI.W (R164). -/
def execShriW (d a : Reg) (k : Nat) (s : State) : Out := aluW1 d a (fun x => x >>> k) s

/-- SRAI.W (R164). -/
def execSraiW (d a : Reg) (k : Nat) (s : State) : Out := aluW1 d a (fun x => x.sshiftRight k) s

/-- CMPEQI (R165). -/
def execCmpeqi (d a : Reg) (k : Int) (s : State) : Out := alu1 d a (fun x => boolWord (x == immS k)) s

/-- CMPNEI (R165). -/
def execCmpnei (d a : Reg) (k : Int) (s : State) : Out := alu1 d a (fun x => boolWord (x != immS k)) s

/-- CMPLTI (R165). -/
def execCmplti (d a : Reg) (k : Int) (s : State) : Out := alu1 d a (fun x => boolWord (decide (sgn x < sgn (immS k)))) s

/-- CMPLEI (R165). -/
def execCmplei (d a : Reg) (k : Int) (s : State) : Out := alu1 d a (fun x => boolWord (decide (sgn x ≤ sgn (immS k)))) s

/-- CMPGTI (R165). -/
def execCmpgti (d a : Reg) (k : Int) (s : State) : Out := alu1 d a (fun x => boolWord (decide (sgn x > sgn (immS k)))) s

/-- CMPGEI (R165). -/
def execCmpgei (d a : Reg) (k : Int) (s : State) : Out := alu1 d a (fun x => boolWord (decide (sgn x ≥ sgn (immS k)))) s

/-- CMPLTUI (R165). -/
def execCmpltui (d a : Reg) (k : Nat) (s : State) : Out := alu1 d a (fun x => boolWord (decide (x.toNat < k))) s

/-- CMPGEUI (R165). -/
def execCmpgeui (d a : Reg) (k : Nat) (s : State) : Out := alu1 d a (fun x => boolWord (decide (x.toNat ≥ k))) s

/-- MOVI (R166): d may name a queue register (R99). -/
def execMovi (d : Reg) (i : Int) (s : State) : Out :=
  LaneOp.exec { d := d, srcs := [], out := fun _ _ => ⟨[immS i], {}⟩ } s

/-- MOVHI (R166): bits [31:14] are replaced, d is read at issue. -/
def execMovhi (d : Reg) (i : Nat) (s : State) : Out :=
  LaneOp.exec { d := d, srcs := [], out := fun c l => ⟨[BitVec.ofNat 32 (i * 16384 + (c.reg d l).toNat % 16384)], {}⟩ } s

end Sys2Proof.Machine
end

