-- ==== Sys2Proof/Machine/Lane.lean ====
section
/-! DEFINITION. Cross-lane instructions (R194 to R198) and special registers (R130, R131, R199). -/

namespace Sys2Proof.Machine

/-- A LANE instruction of one or two operands: the words compared under R117, each lane's result. -/
def laneOp (d : Reg) (u : Nat) (srcs : List Reg) (uni : Ctx → List (Nat → Word)) (out : Ctx → Nat → LaneOut) (s : State) :
    Out :=
  collective { dst := [(d, u)], src := srcs.map fun r => (r, 1) } (some (d, u)) uni (fun _ => [])
    (fun c => .go (c.writeV d u (out c) c.s)) s

/-- A lane's value from another lane; its own where that lane is absent (R195). -/
def Ctx.fromLane (c : Ctx) (a : Reg) (l : Nat) (m : Int) : Word :=
  if 0 ≤ m ∧ m < 64 ∧ hasLane c.set m.toNat then c.reg a m.toNat else c.reg a l

/-- The low bits of a register as a uniform operand. -/
def Ctx.low (c : Ctx) (b : Reg) (bits : Nat) (l : Nat) : Word := BitVec.ofNat 32 ((c.reg b l).toNat % 2 ^ bits)

/-- A shuffle by a uniform distance (R195). -/
def shuffle (d a b : Reg) (m : Nat → Nat → Int) (s : State) : Out :=
  laneOp d 1 [a, b] (fun c => [c.low b 6])
    (fun c l => ⟨[c.fromLane a l (m l (c.low b 6 c.first).toNat)], {}⟩) s

/-- SHFL (R195). -/
def execShfl (d a b : Reg) (s : State) : Out :=
  laneOp d 1 [a, b] (fun _ => []) (fun c l => ⟨[c.fromLane a l (c.low b 6 l).toNat], {}⟩) s

/-- SHFLUP (R195). -/
def execShflup (d a b : Reg) (s : State) : Out := shuffle d a b (fun l n => (l : Int) - n) s

/-- SHFLDN (R195). -/
def execShfldn (d a b : Reg) (s : State) : Out := shuffle d a b (fun l n => (l : Int) + n) s

/-- SHFLX (R195). -/
def execShflx (d a b : Reg) (s : State) : Out := shuffle d a b (fun l n => (l ^^^ n : Nat)) s

/-- The source lane of QXCH (R196). -/
def qxchLane (l sel : Nat) : Nat := l / 4 * 4 + (if sel / 4 = 1 then sel % 4 else (l % 4) ^^^ (sel % 4))

/-- QXCH (R196): helper lanes act as the others do. Log entry 75, DEDUCED. -/
def execQxch (d a b : Reg) (s : State) : Out :=
  laneOp d 1 [a, b] (fun c => [c.low b 3])
    (fun c l => ⟨[c.fromLane a l (qxchLane l (c.low b 3 c.first).toNat)], {}⟩) s

/-- The counted lanes whose value meets a condition. -/
def Ctx.lanesWith (c : Ctx) (p : Nat → Bool) : Mask := maskOf ((lanesOf c.cnt).filter p)

/-- The two words of a mask. -/
def maskOut (m : Mask) : LaneOut := ⟨[loWord m, hiWord m], {}⟩

/-- BALLOT (R197). -/
def execBallot (d a : Reg) (s : State) : Out :=
  laneOp d 2 [a] (fun _ => []) (fun c _ => maskOut (c.lanesWith fun k => c.reg a k != 0)) s

/-- VANY (R197). -/
def execVany (d a : Reg) (s : State) : Out :=
  laneOp d 1 [a] (fun _ => []) (fun c _ => ⟨[boolWord ((lanesOf c.cnt).any fun k => c.reg a k != 0)], {}⟩) s

/-- VALL (R197). -/
def execVall (d a : Reg) (s : State) : Out :=
  laneOp d 1 [a] (fun _ => []) (fun c _ => ⟨[boolWord ((lanesOf c.cnt).all fun k => c.reg a k != 0)], {}⟩) s

/-- MATCH (R197). -/
def execLaneMatch (d a : Reg) (s : State) : Out :=
  laneOp d 2 [a] (fun _ => []) (fun c l => maskOut (c.lanesWith fun k => c.reg a k == c.reg a l)) s

/-- ELECT (R197). -/
def execElect (d : Reg) (s : State) : Out :=
  laneOp d 1 [] (fun _ => []) (fun c l => ⟨[boolWord (l == c.first)], {}⟩) s

/-- A step of a reduction or scan: node or lane, level, left and right operand; its result and flags. -/
abbrev Combine := Nat → Nat → Word → Word → Word × FpFlags

/-- A value that may be absent, with the flags raised on the way. -/
abbrev Part := Option Word × FpFlags

/-- One node: an absent input passes the other unchanged (R152, R153). -/
def joinParts (f : Word → Word → Word × FpFlags) (x y : Part) : Part :=
  match x.1, y.1 with
  | some a, some b =>
    let r := f a b
    (some r.1, (x.2.or y.2).or r.2)
  | some a, none => (some a, x.2.or y.2)
  | none, b => (b, x.2.or y.2)

/-- One level of the tree over adjacent results; the n-th node's left subtree begins at lane n × 2^level (R152). -/
def treeLevel (f : Combine) (v : Nat) : Nat → List Part → List Part
  | n, x :: y :: rest => joinParts (f (n * 2 ^ v) v) x y :: treeLevel f v (n + 1) rest
  | _, l => l

/-- The tree of R152 over 64 lanes. -/
def reduceTree (f : Combine) (ps : List Part) : Part :=
  (([1, 2, 3, 4, 5, 6].foldl (fun l v => treeLevel f v 0 l) ps).head?).getD (none, {})

/-- One step of the scan (R153), every lane at once. Only the flags of the lane's own steps stand with it. -/
def scanStep (f : Combine) (ps : List Part) (v : Nat) : List Part :=
  let k := 2 ^ (v - 1)
  ps.mapIdx fun l y => if l < k then y else joinParts (f l v) ((ps.getD (l - k) (none, {})).1, {}) y

/-- The scan of R153. Log entry 62, DEDUCED. -/
def scanAll (f : Combine) (ps : List Part) : List Part := [1, 2, 3, 4, 5, 6].foldl (scanStep f) ps

/-- What the 64 lanes bring: the counted lanes' values. -/
def Ctx.parts (c : Ctx) (a : Reg) : List Part :=
  (List.range 64).map fun l => (if hasLane c.cnt l then some (c.reg a l) else none, {})

/-- The integer operations of IRED and ISCAN (R198). -/
def intCombine (sel : Nat) (x y : Word) : Word :=
  match sel with
  | 0 => x + y
  | 1 => if x.toInt < y.toInt then x else y
  | 2 => if x.toInt > y.toInt then x else y
  | 3 => if x.toNat < y.toNat then x else y
  | 4 => if x.toNat > y.toNat then x else y
  | 5 => x &&& y
  | 6 => x ||| y
  | _ => x ^^^ y

/-- The floating-point operations of FRED and FSCAN (R198), each the FP instruction of the same name. -/
def fpCombine (w : Wave) (sel l j : Nat) (x y : Word) : Word × FpFlags :=
  let a := f32 (flush w.ftz x)
  let b := f32 (flush w.ftz y)
  match sel with
  | 0 =>
    let r := a.add w.rm b
    round32 w.rm w.ftz (w.rand l j) r.1 r.2
  | 1 => minMax32 false w.ftz x y
  | 2 => minMax32 true w.ftz x y
  | _ =>
    let r := a.mul b
    round32 w.rm w.ftz (w.rand l j) r.1 r.2

/-- IRED (R198). -/
def execIred (d a b : Reg) (s : State) : Out :=
  laneOp d 1 [a, b] (fun c => [c.low b 3])
    (fun c _ =>
      let r := reduceTree (fun _ _ x y => (intCombine (c.low b 3 c.first).toNat x y, {})) (c.parts a)
      ⟨[r.1.getD 0], {}⟩) s

/-- ISCAN (R198). Log entry 62, DEDUCED. -/
def execIscan (d a b : Reg) (s : State) : Out :=
  laneOp d 1 [a, b] (fun c => [c.low b 3])
    (fun c l =>
      let r := scanAll (fun _ _ x y => (intCombine (c.low b 3 c.first).toNat x y, {})) (c.parts a)
      ⟨[((r.getD l (none, {})).1).getD 0], {}⟩) s

/-- A floating-point reduction or scan: the generator steps once when a rounding mode applies (R144, R198). -/
def fpLaneOp (d a b : Reg) (out : Ctx → Wave → Nat → Nat → LaneOut) (s : State) : Out :=
  collective { dst := [(d, 1)], src := [(a, 1), (b, 1)] } (some (d, 1)) (fun c => [c.low b 2]) (fun _ => [])
    (fun c =>
      let sel := (c.low b 2 c.first).toNat
      let w := if sel = 0 ∨ sel = 3 then c.w.draw c.w.rm else c.w
      let s := c.s.updWave c.wid fun x => { x with srseed := w.srseed }
      .go (c.writeV d 1 (out c w sel) s)) s

/-- FRED (R198). -/
def execFred (d a b : Reg) (s : State) : Out :=
  fpLaneOp d a b
    (fun c w sel _ =>
      let r := reduceTree (fpCombine w sel) (c.parts a)
      ⟨[r.1.getD 0], r.2⟩) s

/-- FSCAN (R198). Log entry 62, DEDUCED. -/
def execFscan (d a b : Reg) (s : State) : Out :=
  fpLaneOp d a b
    (fun c w sel l =>
      let r := (scanAll (fpCombine w sel) (c.parts a)).getD l (none, {})
      ⟨[r.1.getD 0], r.2⟩) s

/-- The special register numbers that only a handler reads (R130, R131). -/
def isTrapReg (k : Nat) : Bool := decide (20 ≤ k)

/-- Whether a special register's read is class F (R120). -/
def sreadClassF (k : Nat) : Bool := decide (k ≤ 11) || (decide (16 ≤ k) && decide (k ≤ 19))

/-- $tprev (R389). -/
def TrapRegs.prev (t : TrapRegs) : Nat :=
  (match t.prevLevel with
    | .u => 0
    | .s => 1
    | .m => 2) + t.prevBase / 8 * 256

/-- $tdepth (R389). -/
def TrapRegs.depthWord (t : TrapRegs) : Nat := t.depth + 256 * t.retries

/-- The value of a special register in a lane (R130, R389). -/
def Ctx.special (c : Ctx) (k l : Nat) : Word :=
  let launch := c.s.launches.get? c.t.lid
  match k with
  | 0 => BitVec.ofNat 32 l
  | 1 => BitVec.ofNat 32 (l / 4)
  | 2 => BitVec.ofNat 32 c.w.idx
  | 3 => BitVec.ofNat 32 c.t.team
  | 4 => BitVec.ofNat 32 c.t.gang
  | 5 => BitVec.ofNat 32 ((launch.map (·.short)).getD 0)
  | 6 => BitVec.ofNat 32 c.t.core
  | 7 => BitVec.ofNat 32 c.t.cluster
  | 8 => BitVec.ofNat 32 c.t.die
  | 9 => BitVec.ofNat 32 c.s.deviceId
  | 10 => BitVec.ofNat 32 c.t.nWaves
  | 11 => BitVec.ofNat 32 ((launch.map fun x => x.gangs * ((x.shape.map (·.nTeams)).getD 1)).getD 0)
  | 12 => loWord c.s.clock
  | 13 => c.w.clockh
  | 14 => loWord c.set
  | 15 => hiWord c.set
  | 16 => c.w.fpmode
  | 17 => c.w.fflags
  | 18 => boolWord (hasLane c.w.helper l)
  | 19 => c.w.srseed
  | 20 => BitVec.ofNat 32 c.w.trap.cause
  | 21 => BitVec.ofNat 32 c.w.trap.pc.toNat
  | 22 => BitVec.ofNat 32 (c.w.trap.pc.toNat / 2 ^ 32)
  | 23 => c.w.trap.word
  | 24 => loWord c.w.trap.lanes
  | 25 => hiWord c.w.trap.lanes
  | 26 => loWord c.w.trap.addr
  | 27 => hiWord c.w.trap.addr
  | 28 => c.w.trap.val
  | 29 => BitVec.ofNat 32 (lowestLane c.w.trap.lanes)
  | 30 => BitVec.ofNat 32 c.w.trap.prev
  | _ => BitVec.ofNat 32 c.w.trap.depthWord

/-- SREAD (R199, R131): a read of $clock latches the counter's high word. -/
def execSread (d : Reg) (k : Nat) (s : State) : Out :=
  issue { dst := [(d, 1)], priv := isTrapReg k && !s.atS }
    (fun c =>
      let s1 := if k = 12 then c.s.updWave c.wid fun w => { w with clockh := hiWord c.s.clock } else c.s
      let out (l : Nat) : LaneOut := ⟨[c.special k l], {}⟩
      .go (if sreadClassF k then c.writeF d 1 out s1 else c.writeV d 1 out s1)) s

/-- SWRITE (R199, R131): the value of the lowest non-helper lane; a set of helper lanes writes nothing. -/
def execSwrite (a : Reg) (k : Nat) (s : State) : Out :=
  issue { src := [(a, 1)] }
    (fun c =>
      if c.onlyHelpers then .go c.s
      else
        let v := c.reg a c.first
        .go (c.s.updWave c.wid fun w =>
          if k = 16 then { w with fpmode := fpmodeWrite w.fpmode v }
          else if k = 17 then { w with fflags := v &&& 0xFF#32 }
          else { w with srseed := v })) s

end Sys2Proof.Machine
end

