-- ==== Sys2Proof/Machine/Task.lean ====
section
/-! DEFINITION. The TASK group: task entries, hampers, the overflow region and the cancel set (R364 to R371). -/

namespace Sys2Proof.Machine

/-- The entry PC of a task entry (R364). -/
def entryPc (e : TaskEntry) : Nat := (pair (e.getD 0 0) (e.getD 1 0)).toNat

/-- The graph instance of a task entry (R364). -/
def entryGraph (e : TaskEntry) : Nat := (e.getD 2 0).toNat % 2 ^ 16

/-- An entry of a cancelled instance is dropped as it is met (R369). -/
def Launch.drops (l : Launch) (e : TaskEntry) : Bool := l.cancel.contains (entryGraph e)

/-- The bytes of an entry. -/
def entryBytes (e : TaskEntry) : List Byte := (List.range 8).flatMap fun i => leBytes 4 (e.getD i 0).toNat

/-- The entry that bytes hold. -/
def entryOf (bs : List Byte) : TaskEntry :=
  (List.range 8).map fun i => BitVec.ofNat 32 (leValue ((bs.drop (4 * i)).take 4))

/-- Entries of a launch in the overflow region. -/
def Launch.ovfCount (l : Launch) : Nat := l.ovfTail - l.ovfHead

/-- The address of the n-th entry of the overflow ring (R365). -/
def Launch.ovfVa (l : Launch) (n : Nat) : Nat := l.ovf + 32 * (n % l.ovfN)

/-- A launch's hampers of a cluster with their numbers (R365). -/
def Cluster.hampersOf (c : Cluster) (lid : Nat) : List (Nat × Hamper) := c.hampers.filter fun e => e.2.lid = lid

/-- The lowest free hamper of a cluster (R365). -/
def Cluster.freeHamper (c : Cluster) : Option Nat := (List.range 8).find? fun k => (c.hampers.get? k).isNone

/-- The fullest hamper of a launch, the lowest number on a tie (R366). -/
def Cluster.fullest (c : Cluster) (lid : Nat) : Option (Nat × Hamper) :=
  (c.hampersOf lid).foldl (fun b e => match b with
    | none => some e
    | some x => if x.2.entries.length < e.2.entries.length then some e else some x) none

/-- Put a hamper's entries; a hamper without entries is free (R365). -/
def Cluster.putHamper (c : Cluster) (k : Nat) (h : Hamper) : Cluster :=
  { c with hampers := if h.entries.isEmpty then c.hampers.del k else c.hampers.put k h }

/-- Place an entry in a cluster's hampers (R365 steps 1 and 2), or nothing when it goes to the overflow region.
Log entry 58, DEDUCED. -/
def Cluster.pushTask (c : Cluster) (lid : Nat) (e : TaskEntry) : Option Cluster :=
  match (c.hampersOf lid).find? fun h => h.2.key = entryPc e with
  | some (k, h) => if h.entries.length < 256 then some (c.putHamper k { h with entries := h.entries ++ [e] }) else none
  | none =>
    match c.freeHamper with
    | some k => some (c.putHamper k ⟨lid, entryPc e, [e]⟩)
    | none => none

/-- Place entries in order: the cluster after, and those for the overflow region (R365). -/
def Cluster.pushTasks (c : Cluster) (lid : Nat) : List TaskEntry → Cluster × List TaskEntry
  | [] => (c, [])
  | e :: r =>
    match c.pushTask lid e with
    | some c => c.pushTasks lid r
    | none =>
      let x := c.pushTasks lid r
      (x.1, e :: x.2)

/-- An access of a TKPUSH or TKPOP to the overflow region, at the level of the issuing wave (R365). -/
def Ctx.ovfAccess (c : Ctx) (k : AccKind) (va : Nat) : Access :=
  c.s.access c.t.core c.t.die c.t.owner c.w.level k 64 va

/-- What stops a task instruction at an overflow access (R365). -/
def Ctx.ovfStop (c : Ctx) (k : AccKind) (va : Nat) : Access → Option Res
  | .ok _ _ => none
  | .viol v => some (.trap { c.trapOf .protection 0 (BitVec.ofNat 64 va) with viol := some v })
  | .park p => some (.park ⟨p, k, va⟩)

/-- The first stop among overflow accesses, violations before parking faults. Log entry 58, DEDUCED. -/
def Ctx.ovfStops (c : Ctx) (k : AccKind) (vas : List Nat) : Option Res :=
  let rs := vas.filterMap fun va => c.ovfStop k va (c.ovfAccess k va)
  match rs.find? fun r => match r with
    | .trap _ => true
    | _ => false with
  | some r => some r
  | none => rs.head?

/-- Overflow writes, stores in the single order that the cluster makes (R365). -/
def Ctx.ovfWrite (c : Ctx) (es : List (Nat × TaskEntry)) (s : State) : State :=
  es.foldl (fun s e => match c.ovfAccess .store e.1 with
    | .ok tr p => (s.held c.t.core c.t.die c.t.owner 64 e.1 tr).agentWrites c.t.owner p (entryBytes e.2) c.t.die
    | _ => s) s

/-- The state as overflow entries are read: what is pending on them is performed first (R332, R366). -/
def Ctx.ovfReady (c : Ctx) (vas : List Nat) : State :=
  vas.foldl (fun s va => match c.ovfAccess .load va with
    | .ok tr p => (s.held c.t.core c.t.die c.t.owner 64 va tr).agentReads c.t.owner p 32 c.t.die
    | _ => s) c.s

/-- The launch of the issuing team. -/
def Ctx.launch (c : Ctx) : Option Launch := c.s.launches.get? c.t.lid

/-- The task trap (R388). Log entry 28, DEDUCED. -/
def Ctx.badTask (c : Ctx) : Res := .trap (c.trapOf .task)

/-- The eight words of an octet in a lane. -/
def Ctx.octet (c : Ctx) (a : Reg) (l : Nat) : TaskEntry := (List.range 8).map fun i => c.reg a l i

/-- An operation on a launch's task state is performed: regions that have read it roll back (R364, R340). -/
def Ctx.taskOp (c : Ctx) (s : State) : State := s.check [.task c.t.lid] (some c.wid)

/-- The push of checked entries (R365). Log entry 58, DEDUCED. -/
def Ctx.pushChecked (c : Ctx) (l : Launch) (es : List TaskEntry) : Res :=
  let x := (c.s.cluster c.t.cluster).pushTasks c.t.lid es
  let spill := x.2.mapIdx fun i e => (l.ovfVa (l.ovfTail + i), e)
  if spill ≠ [] ∧ l.ovfN < l.ovfCount + spill.length then c.badTask
  else
    match c.ovfStops .store (spill.map (·.1)) with
    | some r => r
    | none =>
      let s := (c.taskOp c.s).updCluster c.t.cluster fun y => { y with hampers := x.1.hampers }
      let s := s.updLaunch c.t.lid fun l => { l with ovfTail := l.ovfTail + spill.length }
      .go (c.ovfWrite spill s)

/-- TKPUSH (R365). -/
def execTkpush (a : Reg) (s : State) : Out :=
  issue { src := [(a, 8)] }
    (fun c =>
      let es := ((lanesOf c.cnt).map (c.octet a)).filter fun e => entryPc e != 0
      if es.any fun e => entryPc e % 4 != 0 || decide (2 ^ 57 ≤ entryPc e) then c.badTask
      else
        match c.launch with
        | none => c.badTask
        | some l => c.pushChecked l es) s

/-- Take up to n entries from the top, dropping those of cancelled instances as they are met: the entries, most recent
first, and those left, most recent first (R366, R369). -/
def takeTop (l : Launch) : Nat → List TaskEntry → List TaskEntry × List TaskEntry
  | _, [] => ([], [])
  | 0, es => ([], es)
  | n + 1, e :: r =>
    if l.drops e then takeTop l (n + 1) r
    else
      let x := takeTop l n r
      (e :: x.1, x.2)

/-- Deliver from a hamper of a cluster: the entries and the cluster after. Log entry 73, DEDUCED. -/
def Cluster.deliver (c : Cluster) (l : Launch) (n k : Nat) (h : Hamper) : List TaskEntry × Cluster :=
  let x := takeTop l n h.entries.reverse
  (x.1, c.putHamper k { h with entries := x.2.reverse })

/-- The other clusters of a die after a cluster, wrapping (R366). -/
def othersOfDie (c : Nat) : List Nat := (List.range 49).map fun i => c / 50 * 50 + (c % 50 + 1 + i) % 50

/-- What a pop takes. -/
structure Taken where
  /-- entries, the most recent first -/
  out : List TaskEntry
  /-- clusters as they are left -/
  clusters : List (Nat × Cluster)
  /-- the overflow head as it is left -/
  head : Nat
  /-- the overflow entries that were read -/
  read : List Nat

/-- A steal from a cluster of the die (R366). -/
def State.steal (s : State) (l : Launch) (me v n g : Nat) (h : Hamper) : Taken :=
  let c := s.cluster me
  let free := c.freeHamper
  let half := ceilDiv h.entries.length 2
  let m := if free.isSome then half else min half n
  let moved := (h.entries.take m).filter fun e => !l.drops e
  let left := (v, (s.cluster v).putHamper g { h with entries := h.entries.drop m })
  match free with
  | none => ⟨moved.reverse, [left], l.ovfHead, []⟩
  | some k =>
    let x := c.deliver l n k { h with entries := moved }
    ⟨x.1, [left, (me, x.2)], l.ovfHead, []⟩

/-- An entry of the overflow region as a pop reads it, none where the access is stopped. -/
def Ctx.ovfEntry (c : Ctx) (l : Launch) (i : Nat) : Option TaskEntry :=
  match c.ovfAccess .load (l.ovfVa i) with
  | .ok _ p => some (entryOf (c.s.bytesAt p.sp p.key p.addr 32))
  | _ => none

/-- The longest run at the head, at most n long, of entries sharing the oldest one's PC: the run, oldest first, the head
after it, and the entries read (R366). Log entry 73, DEDUCED. -/
def Ctx.ovfRun (c : Ctx) (l : Launch) : (fuel n : Nat) → (key : Option Nat) → (i : Nat) → List TaskEntry × Nat × List Nat
  | 0, _, _, i => ([], i, [])
  | _, 0, _, i => ([], i, [])
  | fuel + 1, n + 1, key, i =>
    match c.ovfEntry l i with
    | none => ([], i, [i])
    | some e =>
      if l.drops e then
        let x := c.ovfRun l fuel (n + 1) key (i + 1)
        (x.1, x.2.1, i :: x.2.2)
      else if key.isNone ∨ key = some (entryPc e) then
        let x := c.ovfRun l fuel n (some (entryPc e)) (i + 1)
        (e :: x.1, x.2.1, i :: x.2.2)
      else ([], i, [i])

/-- What a pop of n entries takes (R366). Log entry 73, DEDUCED. -/
def Ctx.popPlan (c : Ctx) (l : Launch) (n : Nat) : Taken :=
  let me := c.t.cluster
  match (c.s.cluster me).fullest c.t.lid with
  | some (k, h) =>
    let x := (c.s.cluster me).deliver l n k h
    ⟨x.1, [(me, x.2)], l.ovfHead, []⟩
  | none =>
    match (othersOfDie me).find? fun v => ((c.s.cluster v).fullest c.t.lid).isSome with
    | some v =>
      match (c.s.cluster v).fullest c.t.lid with
      | some (g, h) => c.s.steal l me v n g h
      | none => ⟨[], [], l.ovfHead, []⟩
    | none =>
      let x := c.ovfRun l l.ovfCount n none l.ovfHead
      ⟨x.1.reverse, [], x.2.1, x.2.2⟩

/-- The clusters as a pop leaves them. -/
def Taken.put (x : Taken) (s : State) : State := x.clusters.foldl (fun s e => s.updCluster e.1 fun _ => e.2) s

/-- Whether a hamper of some cluster holds an entry of a launch outside its cancel set. -/
def State.hampersHold (s : State) (lid : Nat) (l : Launch) : Bool :=
  s.clusters.any fun e => (e.2.hampersOf lid).any fun h => h.2.entries.any fun x => !l.drops x

/-- The words that a lane of a pop receives without an entry (R366). -/
def nonEntry (status : Nat) : TaskEntry := [0, 0, BitVec.ofNat 32 status, 0, 0, 0, 0, 0]

/-- The pop takes effect: its entries and the rest (R366, R367). -/
def Ctx.popDone (c : Ctx) (d : Reg) (x : Taken) (status : Nat) : Res :=
  let ls := lanesOf c.cnt
  let filled := (ls.zip x.out)
  let s := x.put (c.taskOp (c.s.endTasks c.wid c.cnt))
  let s := s.updLaunch c.t.lid fun l => { l with ovfHead := x.head, inFlight := l.inFlight + filled.length }
  let s := s.updWave c.wid fun w => { w with holds := w.holds ||| maskOf (filled.map (·.1)) }
  let out (k : Nat) : LaneOut :=
    ⟨if hasLane c.w.helper k then [] else ((filled.find? fun e => e.1 = k).map (·.2)).getD (nonEntry status), {}⟩
  .go (c.writeV d 8 out s)

/-- The launch's in-flight count without the entries that the popping lanes complete (R367). -/
def Ctx.flightLeft (c : Ctx) (l : Launch) : Nat := l.inFlight - (lanesOf (c.w.holds &&& c.cnt)).length

/-- What a pop reads of the overflow region: the entries its run meets, and all of them where the status of R366 turns on
them. -/
def Launch.popReads (l : Launch) (x : Taken) (turns : Bool) : List Nat :=
  x.read ++ if turns then (List.range l.ovfCount).map (l.ovfHead + ·) else []

/-- Whether a pop that takes some entries leaves nothing but the overflow region to decide its status (R366). -/
def Ctx.popIdle (c : Ctx) (l : Launch) (x : Taken) : Bool :=
  x.out.isEmpty && c.flightLeft l == 0 && !(x.put c.s).hampersHold c.t.lid l

/-- The addresses of the overflow entries that a pop reads. -/
def Ctx.popVas (c : Ctx) (l : Launch) : List Nat :=
  let x := c.popPlan l (lanesOf c.cnt).length
  (l.popReads x (c.popIdle l x)).map l.ovfVa

/-- A pop whose overflow entries may be read (R366, R367). -/
def Ctx.popNow (c : Ctx) (d : Reg) (l : Launch) : Res :=
  let x := c.popPlan l (lanesOf c.cnt).length
  let more := (List.range l.ovfCount).any fun i =>
    x.head ≤ l.ovfHead + i ∧ !((c.ovfEntry l (l.ovfHead + i)).map l.drops).getD true
  c.popDone d x (if c.popIdle l x ∧ !more then 1 else 0)

/-- TKPOP (R366, R367). -/
def execTkpop (d : Reg) (s : State) : Out :=
  collective { dst := [(d, 8)] } (some (d, 8)) (fun _ => []) (fun _ => [])
    (fun c =>
      match c.launch with
      | none => c.badTask
      | some l =>
        let vas := c.popVas l
        match c.ovfStops .load vas with
        | some r => r
        | none => { c with s := c.ovfReady vas }.popNow d l) s

/-- TKDONE (R368). -/
def execTkdone (s : State) : Out := issue {} (fun c => .go (c.s.endTasks c.wid c.cnt)) s

/-- One lane's change of the cancel set, or none for an add to a full set (R369). -/
def cancelStep (set : Option (List Nat)) (g b : Nat) : Option (List Nat) :=
  match set with
  | none => none
  | some l =>
    if b = 1 then some (l.filter (· != g))
    else if l.contains g then some l
    else if l.length < 256 then some (l ++ [g]) else none

/-- TKCANCEL (R369). -/
def execTkcancel (a b : Reg) (s : State) : Out :=
  issue { src := [(a, 1), (b, 1)] }
    (fun c =>
      let ls := lanesOf c.cnt
      if ls.any fun l => decide (2 ^ 16 ≤ (c.reg a l).toNat) || decide (1 < (c.reg b l).toNat) then c.badTask
      else
        match c.launch with
        | none => c.badTask
        | some x =>
          match ls.foldl (fun set l => cancelStep set (c.reg a l).toNat (c.reg b l).toNat) (some x.cancel) with
          | none => c.badTask
          | some set => .go ((c.taskOp c.s).updLaunch c.t.lid fun y => { y with cancel := set })) s

/-- Entries of a launch in a cluster's hampers (R370). -/
def Cluster.taskCount (c : Cluster) (lid : Nat) : Nat := ((c.hampersOf lid).map fun e => e.2.entries.length).sum

/-- The counts of TKSTAT (R370). -/
def Ctx.taskStat (c : Ctx) (l : Launch) (a : Nat) : Nat :=
  match a with
  | 0 => (c.s.cluster c.t.cluster).taskCount c.t.lid
  | 1 => l.ovfCount
  | 2 => l.inFlight
  | _ => l.cancel.length

/-- TKSTAT (R370). -/
def execTkstat (d a : Reg) (s : State) : Out :=
  let f : Form := { dst := [(d, 1)], src := [(a, 1)] }
  issue f
    (fun c =>
      if (lanesOf c.cnt).any fun l => decide (3 < (c.reg a l).toNat) then c.badTask
      else
        match c.launch with
        | none => c.badTask
        | some x =>
          let out (l : Nat) : LaneOut :=
            ⟨[if hasLane c.w.helper l then 0 else BitVec.ofNat 32 (c.taskStat x (c.reg a l).toNat)], {}⟩
          if c.onlyHelpers then .go (c.writeV d 1 out c.s)
          else c.asLoad f [.task c.t.lid] fun s => .go (c.writeV d 1 out s)) s

end Sys2Proof.Machine
end

