-- ==== Sys2Proof/Machine/Place.lean ====
section
/-! DEFINITION. Placement: what a core and a cluster admit (R77 to R80, R17), the start of a team (R50, R81), the search for
clusters (R82, R83), shapes that never fit (R84), the choice among launches (R69, R70), and a cluster's change of owner
(R17, R89). -/

namespace Sys2Proof.Machine

/-- The clusters of the module (R1). -/
def clusterCount : Nat := 800

/-- The teams resident on a core. -/
def State.coreTeams (s : State) (core : Nat) : List (Nat × Team) := s.teams.filter fun e => e.2.core = core

/-- The teams resident on a cluster. -/
def State.clusterTeams (s : State) (x : Nat) : List (Nat × Team) := s.teams.filter fun e => e.2.cluster = x

/-- Whether a core admits one more team of a shape (R78). -/
def State.coreAdmits (s : State) (core : Nat) (sh : Shape) : Bool :=
  let ts := (s.coreTeams core).map (·.2)
  decide ((ts.map (·.nWaves)).sum + sh.nWaves ≤ 16) && decide (ts.length ≤ 15) &&
    decide ((ts.map fun t => t.regsPer * t.nWaves).sum + sh.regs * sh.nWaves ≤ 1024) &&
    decide ((ts.map (·.localBytes)).sum + sh.localBytes ≤ 524288)

/-- Whether a team belongs to a gang of two or more. -/
def State.inGroup (s : State) (t : Team) : Bool :=
  match (s.launches.get? t.lid).bind (·.shape) with
  | some sh => decide (2 ≤ sh.nTeams)
  | none => false

/-- The entries that a cluster's hampers hold, with their launches (R89). -/
def Cluster.held (c : Cluster) : List (Nat × TaskEntry) := c.hampers.flatMap fun h => h.2.entries.map fun e => (h.2.lid, e)

/-- Whether the overflow regions have room for every entry of a cluster's hampers (R89). -/
def State.spillRoom (s : State) (x : Nat) : Bool :=
  (s.cluster x).hampers.all fun h =>
    match s.launches.get? h.2.lid with
    | some l => decide (l.ovfCount + (s.cluster x).taskCount h.2.lid ≤ l.ovfN)
    | none => true

/-- Whether a cluster serves an owner or may pass to it (R80, R17, R89). -/
def State.serves (s : State) (x own : Nat) : Bool :=
  match (s.cluster x).owner with
  | none => true
  | some o => o == own || ((s.clusterTeams x).isEmpty && s.spillRoom x)

/-- Whether a cluster admits a gang of an owner's launch (R80, R81); a cluster set aside admits only the launch it is set
aside for (R88). -/
def State.clusterAdmits (s : State) (x own lid : Nat) (sh : Shape) : Bool :=
  let ts := (s.clusterTeams x).map (·.2)
  (s.cluster x).inService && s.serves x own && ((s.cluster x).setAside.isNone || (s.cluster x).setAside == some lid) &&
    (decide (sh.nTeams ≤ 1) || ts.isEmpty) && !(ts.any s.inGroup) && decide (ts.length + sh.nTeams ≤ 64) &&
    decide ((ts.map (·.banks)).sum + sh.nTeams * sh.banks ≤ 8) &&
    (List.range sh.nTeams).all fun p => s.coreAdmits (4 * x + p) sh

/-- Wave slots of a core that are free, lowest first. Log entry 20, DESIGN CHOICE. -/
def State.freeSlots (s : State) (core : Nat) : List Nat :=
  let used := (s.coreTeams core).flatMap fun e => (s.teamWaves e.1).map fun w => w.2.slot
  (List.range 16).filter fun k => !used.contains k

/-- The threads of a wave of a team, and its helper lanes (R12, R14). -/
def startLanes (sh : Shape) (idx : Nat) : Mask × Mask :=
  let m := min 64 (sh.nThreads - 64 * idx)
  (lowLanes m, lowLanes ((m + 3) / 4 * 4) &&& ~~~lowLanes m)

/-- The registers of a wave's live lanes at start (R50): v0 to v3. -/
def startRegs (args team idx : Nat) (live : Mask) : Tbl Word :=
  ([args, args / 2 ^ 32, team, 0].mapIdx fun i v => (i, v)).flatMap fun e =>
    (lanesOf live).filterMap fun l =>
      let v := BitVec.ofNat 32 (if e.1 = 3 then 64 * idx + l else e.2)
      if v = 0#32 then none else some (64 * e.1 + l, v)

/-- A wave at its start (R50). An FPMODE with RM 6 or 7 reads as RM 0 (R145). -/
def Wave.start (sh : Shape) (args tid team idx slot : Nat) : Wave :=
  let lanes := startLanes sh idx
  let live := lanes.1 ||| lanes.2
  { tid := tid, idx := idx, slot := slot, alloc := sh.regs, base := 0, regs := startRegs args team idx live, hidden := [],
    live := live, helper := lanes.2, threads := lanes.1, exited := 0, pcs := [(BitVec.ofNat 57 sh.entry, live)],
    level := .u, fpmode := fpmodeWrite 0 (BitVec.ofNat 32 sh.fpmode), fflags := 0,
    srseed := BitVec.ofNat 32 sh.seed ^^^ BitVec.ofNat 32 (16 * team + idx), clockh := 0, brCount := 0, qCount := 0,
    sweep := none, outst := [], parked := false, waiting := none, absentWait := false, sleep := none, slept := none,
    sbuf := [], irrev := none, region := none, rollbacks := 0, cautious := 0, stop := none, trap := .init, recd := none,
    tsCount := [], tsMark := 0, holds := 0, triggered := 0, claiming := none, spilling := none, fence := none,
    retired := false }

/-- A team at its start (R50, R79). -/
def Team.start (l : Launch) (lid gang pos x : Nat) (sh : Shape) : Team where
  lid := lid
  owner := l.owner
  prio := l.prio
  gang := gang
  pos := pos
  team := gang * sh.nTeams + pos
  cluster := x
  nWaves := sh.nWaves
  nThreads := sh.nThreads
  regsPer := sh.regs
  localBytes := sh.localBytes
  banks := sh.banks
  pool := 0
  claims := []
  ls := []
  absent := []
  ctr := []
  queues := []
  bankMap := []
  barriers := []
  recs := []
  slot := none
  handler := sh.trapvec
  args := l.args
  saving := none

/-- A core comes to serve an owner: its translations are cleared at a change (R218); its instruction cache keeps what it holds until
ICINV (R49). Log entry 89, DESIGN CHOICE. -/
def State.coreServes (s : State) (core own : Nat) : State :=
  s.updCore core fun c =>
    if c.owner = some own then c else { c with owner := some own, tlb := [], lastPage := [] }

/-- TEAM_START (R50, R81): one team of a gang. Log entry 20, DESIGN CHOICE. -/
def State.startTeam (s : State) (l : Launch) (lid gang pos x : Nat) (sh : Shape) : State :=
  let tid := s.nextTid
  let core := 4 * x + pos
  let slots := s.freeSlots core
  let t := Team.start l lid gang pos x sh
  let s := { (s.coreServes core l.owner) with nextTid := tid + 1 }
  (List.range sh.nWaves).foldl
    (fun s i => s.setWave (widOf tid i) (Wave.start sh l.args tid t.team i (slots.getD i 0))) (s.setTeam tid t)

/-- A gang is placed on a cluster (R81). -/
def State.placeGang (s : State) (lid x : Nat) (l : Launch) (sh : Shape) : State :=
  let s := s.updCluster x fun c => { c with owner := some l.owner, setAside := none }
  let s := (List.range sh.nTeams).foldl (fun s p => s.startTeam l lid l.nextGang p x sh) s
  s.updLaunch lid fun l =>
    { l with stage := .running, nextGang := l.nextGang + 1, lastCluster := some x, passed := 0, reserved := false }

/-- The clusters in the order in which a launch tries them (R82): those set aside for it first (R88), then from the cluster
after its last gang's. Log entry 92, DESIGN CHOICE. -/
def State.searchOrder (s : State) (lid : Nat) (l : Launch) : List Nat :=
  let first := match l.lastCluster with
    | some x => x + 1
    | none => 0
  let order := (List.range clusterCount).map fun i => (first + i) % clusterCount
  ((s.drains.filter fun d => d.lid = lid).map (·.cluster)) ++ order

/-- The cluster for a launch's next gang (R82). -/
def State.nextCluster (s : State) (lid : Nat) (l : Launch) (sh : Shape) : Option Nat :=
  (s.searchOrder lid l).find? fun x => s.clusterAdmits x l.owner lid sh

/-- Gangs of a launch are placed one after the other as long as they fit: the clusters and the state (R82, R83). -/
def State.placeMany (lid : Nat) (sh : Shape) : (count : Nat) → State → Option (List Nat × State)
  | 0, s => some ([], s)
  | n + 1, s =>
    match s.launches.get? lid with
    | none => none
    | some l =>
      match s.nextCluster lid l sh with
      | none => none
      | some x =>
        match State.placeMany lid sh n (s.placeGang lid x l sh) with
        | some r => some (x :: r.1, r.2)
        | none => none

/-- The gangs that a launch places in one act: all of a co-launch, else one (R81, R83). -/
def Launch.batch (l : Launch) : Nat := if l.colaunch then l.gangs - l.nextGang else 1

/-- Where a launch's next gangs go and the state with them placed, if they fit now. -/
def State.fits (s : State) (lid : Nat) (l : Launch) : Option (List Nat × State) :=
  match l.shape with
  | none => none
  | some sh => State.placeMany lid sh l.batch s

/-- How many one-team gangs of a shape an empty core admits (R84). -/
def Shape.perCore (sh : Shape) : Nat :=
  ((List.range 17).filter fun k => decide (k * sh.nWaves ≤ 16) && decide (k ≤ 16) && decide (k * (sh.regs * sh.nWaves) ≤ 1024) &&
    decide (k * sh.localBytes ≤ 524288) && decide (k * sh.banks ≤ 8)).length - 1

/-- The gangs that one empty cluster in service admits (R84). -/
def Shape.perCluster (sh : Shape) : Nat :=
  if 2 ≤ sh.nTeams then (if 1 ≤ sh.perCore ∧ sh.nTeams * sh.banks ≤ 8 then 1 else 0) else sh.perCore

/-- The clusters in service. -/
def State.inServiceCount (s : State) : Nat := clusterCount - (s.clusters.filter fun e => !e.2.inService).length

/-- Whether a launch can never fit: the detail of R72 (R84). -/
def State.neverFits (s : State) (l : Launch) (sh : Shape) : Option Nat :=
  if sh.perCluster = 0 then some 2
  else if l.colaunch ∧ sh.perCluster * s.inServiceCount < l.gangs then some 1
  else none

/-- Whether a launch is at the front of placement in its queue and may be placed (R69, R70). -/
def State.atFront (s : State) (lid : Nat) (l : Launch) : Bool :=
  l.stage != .taken && l.fail.isNone && decide (l.nextGang < l.gangs) &&
    !(s.launches.any fun e => e.2.owner = l.owner && e.2.queue = l.queue && decide (e.2.seq < l.seq) &&
      decide (e.2.nextGang < e.2.gangs) && e.1 != lid)

/-- The lowest class of the saved gangs that may be restored (R87). -/
def State.restoreClass (s : State) : Option Nat := ((s.saved.filter fun e => e.2.ready.isSome).map fun e => e.2.prio).min?

/-- Whether a launch is held back by a reservation (R70) or by a saved gang (R87). Log entry 38, DEDUCED. -/
def State.heldBack (s : State) (lid : Nat) (l : Launch) : Bool :=
  (s.launches.any fun e => e.1 != lid && e.2.reserved && e.2.fail.isNone && decide (e.2.prio ≤ l.prio)) ||
    match s.restoreClass with
    | some c => decide (c ≤ l.prio)
    | none => false

/-- A launch's place in the order of R70: class, owner and queue from where the round robin stands. Log entry 38, DEDUCED. -/
def State.rank (s : State) (l : Launch) : Nat :=
  let o := (l.owner + 64 - s.rrOwner.get 0 l.prio % 64) % 64
  let q := (l.queue + 64 - s.rrQueue.get 0 l.owner % 64) % 64
  (l.prio * 64 + o) * 64 + q

/-- The launches that may be placed, in the order of R70: insertion by rank. -/
def State.insertRanked (s : State) (e : Nat × Launch) : List (Nat × Launch) → List (Nat × Launch)
  | [] => [e]
  | x :: r => if s.rank e.2 < s.rank x.2 then e :: x :: r else x :: s.insertRanked e r

/-- The launches that may be placed, in the order in which the front chooses them (R69, R70). -/
def State.candidates (s : State) : List (Nat × Launch) :=
  (s.launches.filter fun e => s.atFront e.1 e.2 && !s.heldBack e.1 e.2).foldl (fun l e => s.insertRanked e l) []

/-- The round robin moves past a launch, or stays at it (R70). Log entry 38, DEDUCED. -/
def State.turn (s : State) (l : Launch) (past : Bool) : State :=
  let k := if past then 1 else 0
  { s with rrOwner := s.rrOwner.set 0 l.prio ((l.owner + k) % 64), rrQueue := s.rrQueue.set 0 l.owner ((l.queue + k) % 64) }

/-- The launch that the front considers now (R70): the one it has chosen while that may be placed, else the first it has not
moved past, and once it has moved past each, the first again. Log entry 38, DEDUCED. -/
def State.chosenNow (s : State) : Option (Nat × Launch) :=
  let cs := s.candidates
  match cs.find? fun e => some e.1 == s.candidate with
  | some e => some e
  | none =>
    match cs.find? fun e => !s.passedBy.contains e.1 with
    | some e => some e
    | none => cs.head?

/-- The launches the front has moved past, but none where it begins again with the first of all. -/
def State.passedSoFar (s : State) : List Nat :=
  if s.candidates.all fun e => s.passedBy.contains e.1 then [] else s.passedBy

/-- The front moves past a launch whose next gang does not fit: it is passed over, and at 64 reserved (R70). -/
def State.passOver (s : State) (lid : Nat) (l : Launch) : State :=
  { (s.turn l true).updLaunch lid fun l => { l with passed := min (l.passed + 1) 64, reserved := decide (64 ≤ l.passed + 1) } with
    candidate := none
    passedBy := lid :: s.passedSoFar }

/-- Whether moving on may lead anywhere: some launch can still be passed over, or fits (R70). -/
def State.mayPassOver (s : State) : Bool :=
  s.candidates.any fun e => decide (e.2.passed < 64) || (s.fits e.1 e.2).isSome

/-- A launch's gangs are placed: it stays chosen while it has more, and after its last the front chooses among all again (R70).
Log entry 38, DEDUCED. -/
def State.placedBy (s : State) (old : State) (lid : Nat) (l : Launch) : State :=
  let done := decide (l.gangs ≤ l.nextGang + l.batch)
  { (s.turn l done).endDrains lid with
    candidate := if done then none else some lid
    passedBy := if done then [] else old.passedSoFar }

/-- Clusters of a plan that serve another owner still: they pass first (R89). -/
def State.mustPass (s : State) (own : Nat) (xs : List Nat) : List Nat :=
  xs.filter fun x => (s.cluster x).owner.isSome && (s.cluster x).owner != some own

/-- What the front does with the launch it considers (R70, R81, R83, R84): one that never fits completes, one whose next gangs
fit has them placed once their clusters have passed to its owner, another is passed over. Log entry 38, DEDUCED. -/
def State.frontActs (s : State) (lid : Nat) (l : Launch) : Option State :=
  match l.shape.bind fun sh => if l.nextGang = 0 then s.neverFits l sh else Option.none with
  | some d => some { s.completeLaunch lid 5 d with candidate := none, passedBy := [] }
  | none =>
    match s.fits lid l with
    | some (xs, t) => if (s.mustPass l.owner xs).isEmpty then some (t.placedBy s lid l) else none
    | none => if s.mayPassOver then some (s.passOver lid l) else none

/-- The front acts on the launch it considers, if that is a co-launch or is none as asked. -/
def State.frontPlace (s : State) (co : Bool) : Option State :=
  match s.chosenNow with
  | some (lid, l) => if l.colaunch = co then s.frontActs lid l else none
  | none => none

/-- The clusters that must pass to an owner before the front goes on with the launch it considers (R89). -/
def State.awaited (s : State) : List (Nat × Nat) :=
  match s.chosenNow with
  | some (lid, l) =>
    match s.fits lid l with
    | some (xs, _) => (s.mustPass l.owner xs).map fun x => (x, l.owner)
    | none => []
  | none => []

/-- PLACE_GANG (R70, R81): the front places the next gang of the launch it considers, or moves on. -/
def execPlaceGang (s : State) : Out :=
  match s.frontPlace false with
  | some t => .next t
  | none => .refused (.notEnabled "no gang to place")

/-- COLAUNCH_PLACE (R70, R83): the front places every gang of the co-launch it considers, or moves on. -/
def execColaunchPlace (s : State) : Out :=
  match s.frontPlace true with
  | some t => .next t
  | none => .refused (.notEnabled "no co-launch to place")

/-- The write of a hamper entry to its launch's overflow region as the front makes it, at level S (R89).
Log entry 76, DEDUCED. -/
def State.spillAccess (s : State) (l : Launch) (n : Nat) : Access := s.frontAccess l.owner .engineWrite (l.ovfVa (l.ovfTail + n))

/-- The overflow writes of a cluster's hampers, by hamper number and the oldest entry first: launch identifier, launch, its n-th
entry (R89). Log entry 82, DESIGN CHOICE. -/
def State.spills (s : State) (x : Nat) : List (Nat × Launch × Nat × TaskEntry) :=
  (s.cluster x).hampers.foldl (fun acc h => match s.launches.get? h.2.lid with
    | some l =>
      acc ++ h.2.entries.mapIdx fun i e => (h.2.lid, l, (acc.filter fun a => a.1 = h.2.lid).length + i, e)
    | none => acc) []

/-- A cluster is zeroed and passes to an owner (R17). -/
def State.passCluster (s : State) (x own : Nat) : State :=
  s.updCluster x fun c => { c with owner := some own, bull := [], hampers := [], recs := [], opCache := [] }

/-- The overflow writes are made (R89). -/
def State.makeSpills (s : State) (x : Nat) : State :=
  (s.spills x).foldl (fun t e => match s.spillAccess e.2.1 e.2.2.1 with
    | .ok _ p =>
      (t.agentWrites e.2.1.owner p (entryBytes e.2.2.2)).updLaunch e.1 fun l => { l with ovfTail := l.ovfTail + 1 }
    | _ => t) s

/-- The fault entry of an overflow write that waits; it names core position 0 of the cluster (R89, R401).
Log entry 82, DESIGN CHOICE. -/
def spillFault (x va : Nat) (k : ParkCause) (l : Launch) : FaultEnt := ⟨0, va, 0, none, k, .engineWrite, 4 * x, l.short, false⟩

/-- Whether the fault of an overflow write is already reported for a cluster and page and not resolved (R401).
Log entry 82, DESIGN CHOICE. -/
def Owner.reported (o : Owner) (x va : Nat) : Bool :=
  o.faults.any fun f => f.slot.isNone && f.kind == .engineWrite && f.core == 4 * x && f.va / 65536 == va / 65536

/-- A stopped overflow write posts its fault, once per cluster and page (R89, R401). -/
def State.reportSpill (s : State) (x va : Nat) (k : ParkCause) (l : Launch) : State :=
  match s.owners.get? l.owner with
  | some o => if o.reported x va then s else (s.queueFault l.owner (spillFault x va k l)).1
  | none => s

/-- A protection violation that an overflow write meets: the launch and what stopped the write. -/
def State.spillViolation (s : State) (x : Nat) : Option (Nat × Launch × Access) :=
  (s.spills x).findSome? fun e => match s.spillAccess e.2.1 e.2.2.1 with
    | .viol v => some (e.1, e.2.1, .viol v)
    | _ => none

/-- The overflow writes that wait: the address, the cause and the launch of each (R89). -/
def State.spillsWaiting (s : State) (x : Nat) : List (Nat × ParkCause × Launch) :=
  (s.spills x).filterMap fun e => match s.spillAccess e.2.1 e.2.2.1 with
    | .park k => some (e.2.1.ovfVa (e.2.1.ovfTail + e.2.2.1), k, e.2.1)
    | _ => none

/-- The walks for a cluster's overflow writes read their entries (R210, R246). -/
def State.spillWalks (s : State) (x : Nat) : State :=
  (s.spills x).foldl (fun t e => t.walkTouch e.2.1.owner (e.2.1.ovfVa (e.2.1.ovfTail + e.2.2.1))) s

/-- A cluster without a team passes to an owner, or what stops its overflow writes is met (R89). Log entry 82, DESIGN CHOICE. -/
def State.ownerChange (s : State) (x own : Nat) : Option State :=
  let s := s.spillWalks x
  match s.spillViolation x with
  | some (lid, l, a) =>
    let s := (s.logAccess l.owner a).failLaunch lid 8 4
    some (s.updCluster x fun c => { c with hampers := c.hampers.filter fun h => h.2.lid != lid })
  | none =>
    if (s.spillsWaiting x).isEmpty then some ((s.makeSpills x).passCluster x own)
    else
      let t := (s.spillsWaiting x).foldl (fun s e => s.reportSpill x e.1 e.2.1 e.2.2) s
      if t.owners = s.owners then none else some t

/-- CLUSTER_OWNER_CHANGE (R17, R89): cluster `x` passes to owner `y`. -/
def execClusterOwnerChange (s : State) : Out :=
  let x := s.ev.x
  let c := s.cluster x
  if c.owner.isSome ∧ c.owner ≠ some s.ev.y ∧ (s.clusterTeams x).isEmpty ∧ s.spillRoom x ∧ (s.owners.get? s.ev.y).isSome then
    match s.ownerChange x s.ev.y with
    | some t => .next t
    | none => .refused (.notEnabled "an overflow write waits")
  else .refused (.notEnabled "the cluster cannot pass")

end Sys2Proof.Machine
end

