-- ==== Sys2Proof/Machine/QueueInstr.lean ====
section
/-! DEFINITION. Timeline counters (R355) and the binding of queue registers (R357, R360, R361). -/

namespace Sys2Proof.Machine

/-- TLWAIT (R355). -/
def execTlwait (a b : Reg) (s : State) : Out :=
  let f : Form := { src := [(a, 2), (b, 1)] }
  collective f none (fun c => c.words a 2 ++ c.words b 1) (fun _ => [])
    (fun c =>
      let k := (c.reg b c.first).toNat
      let n := (c.regW a c.first).toNat
      if 4 ≤ k ∨ (c.t.ctr? k).taken < n then c.badOperand
      else if (c.t.ctr? k).value < n then .wait
      else c.asLoad f [.ctr c.w.tid k] .go) s

/-- TLREAD (R355). -/
def execTlread (d b : Reg) (s : State) : Out :=
  let f : Form := { dst := [(d, 2)], src := [(b, 1)] }
  collective f (some (d, 2)) (fun c => c.words b 1) (fun _ => [])
    (fun c =>
      let k := (c.reg b c.first).toNat
      if 4 ≤ k then c.badOperand
      else
        let v := BitVec.ofNat 64 (c.t.ctr? k).value
        c.asLoad f [.ctr c.w.tid k] fun s => .go (c.answer d [loWord v, hiWord v] s)) s

/-- The queue trap of a queue number (R356, R388). Log entry 59, DEDUCED. -/
def Ctx.badQueue (c : Ctx) (q : Nat) : Res := .trap (c.trapOf .queue (BitVec.ofNat 32 (q % 8)))

/-- Whether QBIND's operands bind a legal channel (R357). -/
def Ctx.channelOk (c : Ctx) (v b : Nat) : Bool :=
  let cap := bitsOf v 15 12
  let prod := v / 2 ^ 16
  let size := 256 * 2 ^ cap
  decide (1 ≤ cap ∧ cap ≤ 10) && prod != 0 && decide (prod < 2 ^ c.t.nWaves) && b % 128 == 0 &&
    decide (b + size ≤ c.t.localBytes) && !c.s.overHandle c.t.core c.w.tid b size

/-- Whether QBIND's operands bind the port (R357). -/
def Ctx.portOk (c : Ctx) (v b : Nat) : Bool :=
  v / 2 ^ 16 == 0 && bitsOf v 15 12 == 0 && b == 0 && !c.t.queues.any fun e => e.2.port

/-- QBIND (R357). -/
def execQbind (a b : Reg) (s : State) : Out :=
  collective { src := [(a, 1), (b, 1)] } none (fun c => c.words a 1 ++ c.words b 1) (fun _ => [])
    (fun c =>
      let v := (c.reg a c.first).toNat
      let base := (c.reg b c.first).toNat
      let port := v.testBit 8
      if (c.t.queues.get? (v % 8)).isSome ∨ bitsOf v 11 9 ≠ 0 ∨ bitsOf v 7 3 ≠ 0 ∨
          !(if port then c.portOk v base else c.channelOk v base) then c.badQueue v
      else
        let q : Binding := ⟨port, v / 2 ^ 16, bitsOf v 15 12, base, [], [], []⟩
        let s := c.s.check [.chan c.w.tid (v % 8)] (some c.wid)
        .go (s.updTeam c.w.tid fun t => { t with queues := t.queues.put (v % 8) q })) s

/-- Whether some EMBAG of the team on a port has not completed (R360). -/
def State.bagOn (s : State) (tid q : Nat) : Bool :=
  s.cmds.any fun e => e.2.tid == tid && match e.2.kind with
    | .embag _ _ _ none k _ => k == q
    | _ => false

/-- QUNBIND (R360): inside a region it is held like an engine command. -/
def execQunbind (a : Reg) (s : State) : Out :=
  collective { src := [(a, 1)] } none (fun c => c.words a 1) (fun _ => [])
    (fun c =>
      let v := (c.reg a c.first).toNat
      match if 8 ≤ v then none else c.t.queues.get? v with
      | none => c.badQueue v
      | some b =>
        if anyPush (c.s.teamWaves c.w.tid) v ∨ (b.port ∧ c.s.bagOn c.w.tid v) then .wait
        else if c.w.region.isSome then
          let s := c.s
          .go { s with
            cmds := s.cmds.put s.nextCid { c.cmd { kind := .qunbind v, ctr := none } none [] true with queued := false }
            nextCid := s.nextCid + 1 }
        else .go (c.s.unbind c.w.tid v (some c.wid))) s

/-- The status of a queue as a lane sees it (R361). -/
def Ctx.queueStatus (c : Ctx) (q l : Nat) : Word :=
  match c.t.queues.get? q with
  | none => 0
  | some b =>
    BitVec.ofNat 32 (2 ^ 31 + flagBit b.port 30 + flagBit (c.s.orphaned c.w.tid q b l) 29 + b.count l % 2 ^ 11)

/-- QSTAT (R361). -/
def execQstat (d a : Reg) (s : State) : Out :=
  let f : Form := { dst := [(d, 1)], src := [(a, 1)] }
  collective f (some (d, 1)) (fun c => c.words a 1) (fun _ => [])
    (fun c =>
      let v := (c.reg a c.first).toNat
      if 8 ≤ v then c.badQueue v
      else c.asLoad f [.chan c.w.tid v] fun s => .go (c.writeV d 1 (fun l => ⟨[c.queueStatus v l], {}⟩) s)) s

end Sys2Proof.Machine
end

