-- ==== Sys2Proof/Machine/RegPool.lean ====
section
/-! DEFINITION. The REG group: the team's register pool (R128, R129, R362, R363) and the window base (R127). -/

namespace Sys2Proof.Machine

/-- Registers are added to a wave's allocation; they read zero in every lane (R128). -/
def Wave.gain (w : Wave) (r : Nat) : Wave :=
  { w with alloc := w.alloc + r, regs := w.regs.filter fun e => e.1 / 64 < w.alloc }

/-- The top registers of a wave's allocation are released (R128). -/
def Wave.lose (w : Wave) (r : Nat) : Wave :=
  { w with alloc := w.alloc - r, regs := w.regs.filter fun e => e.1 / 64 < w.alloc - r }

/-- Registers pass from the team's pool to one of its waves (R128). -/
def State.takeRegs (s : State) (tid wid r : Nat) : State :=
  (s.updTeam tid fun t => { t with pool := t.pool - r }).updWave wid fun w => w.gain r

/-- Registers pass from a wave to its team's pool (R128). -/
def State.giveRegs (s : State) (tid wid r : Nat) : State :=
  (s.updTeam tid fun t => { t with pool := t.pool + r }).updWave wid fun w => w.lose r

/-- Whether every wave of a team that has not retired waits in a REGCLM that cannot be granted (R363). Log entry 18, DEDUCED. -/
def State.claimsStuck (s : State) (tid : Nat) (t : Team) : Bool :=
  match t.claims with
  | [] => false
  | (_, n) :: _ =>
    decide (t.pool < 8 * n) && (s.teamWaves tid).all fun e => e.2.retired || t.claims.any fun c => c.1 == e.2.idx

/-- A claim of a wave ends in the register-claim-deadlock trap with nothing claimed (R363). -/
def State.deadlockTrap (s : State) (wid n : Nat) : State :=
  match s.waves.get? wid with
  | none => s
  | some w =>
    let set := w.waiting.getD 0
    (s.setWave wid { w with claiming := none }).raise wid ⟨.claimDeadlock, set &&& ~~~w.helper, BitVec.ofNat 32 n, 0, none⟩
      set (pcOfLane w.pcs (lowestLane set)) (w.claiming.getD 0)

/-- The register-claim-deadlock trap is raised in each wave of a stuck team (R363). Log entry 18, DEDUCED. -/
def State.claimDeadlock (s : State) (tid : Nat) : State :=
  match s.teams.get? tid with
  | none => s
  | some t =>
    if s.claimsStuck tid t then
      t.claims.foldl (fun s c => s.deadlockTrap (widOf tid c.1) c.2) (s.updTeam tid fun t => { t with claims := [] })
    else s

/-- The team of the wave that issues. -/
def State.curTeam (s : State) : Nat := ((s.waves.get? s.cur.wid).map (·.tid)).getD 0

/-- What REGCLM does: a claim that R129 rejects traps, one the pool can meet behind no other is met, others wait in
order (R128, R363). -/
def Ctx.claimRegs (c : Ctx) (n : Nat) : Res :=
  if 512 < c.w.alloc + 8 * n then .trap (c.trapOf .window (BitVec.ofNat 32 n))
  else if c.t.claims.isEmpty ∧ 8 * n ≤ c.t.pool then .go (c.s.takeRegs c.w.tid c.wid (8 * n))
  else
    .hold ((c.s.updTeam c.w.tid fun t => { t with claims := t.claims ++ [(c.w.idx, n)] }).updWave c.wid fun w =>
      { w with claiming := some c.word })

/-- REGCLM (R128, R362, R363). -/
def execRegclm (k : Nat) (s : State) : Out :=
  match collective {} none (fun _ => []) (fun _ => []) (fun c => c.claimRegs k) s with
  | .next t => .next (t.claimDeadlock s.curTeam)
  | x => x

/-- REGREL (R128, R129): it waits for the wave's class V results. -/
def execRegrel (k : Nat) (s : State) : Out :=
  collective {} none (fun _ => []) (fun _ => [])
    (fun c =>
      if c.w.alloc < 8 * k + 8 ∨ c.w.alloc < 8 * k + c.w.base + 8 then .trap (c.trapOf .window (BitVec.ofNat 32 k))
      else if !c.w.outst.isEmpty then .wait
      else .go (c.s.giveRegs c.w.tid c.wid (8 * k))) s

/-- The window base is set; in a handler it is the base with which the interrupted code resumes (R127). Log entry 59, DEDUCED. -/
def Wave.setBase (w : Wave) (b : Nat) : Wave :=
  { w with base := b, recd := w.recd.map fun r => { r with base := b } }

/-- WBASE (R127). -/
def execWbase (k : Nat) (s : State) : Out :=
  collective {} none (fun _ => []) (fun _ => [])
    (fun c =>
      if c.w.alloc < 8 * k + 8 then .trap (c.trapOf .window (BitVec.ofNat 32 k))
      else .go (c.s.updWave c.wid fun w => w.setBase (8 * k))) s

/-- The word of REGSTAT (R362). -/
def regStatus (pool alloc : Nat) : Word := BitVec.ofNat 32 (pool % 2 ^ 11 * 2 ^ 11 + alloc % 2 ^ 11)

/-- REGSTAT (R362). -/
def execRegstat (d : Reg) (s : State) : Out :=
  collective { dst := [(d, 1)] } (some (d, 1)) (fun _ => []) (fun _ => [])
    (fun c => .go (c.answer d [regStatus c.t.pool c.w.alloc] c.s)) s

/-- The oldest claim of a team that its pool meets now: its wave and count (R128). -/
def State.regGrant (s : State) (tid : Nat) : Option (Nat × Nat) :=
  match s.teams.get? tid with
  | none => none
  | some t =>
    match t.claims with
    | [] => none
    | (i, n) :: _ => if 8 * n ≤ t.pool ∧ !s.failed t.lid then some (widOf tid i, n) else none

/-- REGCLM_GRANT (R128): a team's oldest claim (x the team) is met and its wave goes on. -/
def execRegclmGrant (s : State) : Out :=
  let tid := s.ev.x
  match s.regGrant tid with
  | none => .refused (.notEnabled "no claim can be met")
  | some (wid, n) =>
    match s.waves.get? wid with
    | none => .refused (.notEnabled "no such wave")
    | some w =>
      let s := (s.updTeam tid fun t => { t with claims := t.claims.drop 1 }).takeRegs tid wid (8 * n)
      let s := s.resumeClaim wid w (w.claiming.getD 0)
      .next (s.finish (toPc (s.cur.pc + 4)))

end Sys2Proof.Machine
end

