-- ==== Sys2Proof/Machine/Frame.lean ====
section
/-! DEFINITION. Context frames (R405 to R407): the bytes that a saved team's state becomes, and the state that a frame's bytes
give back. Where R406 names a field's contents but no places inside it, they stand in the order R406 names them (log entry 49). -/

namespace Sys2Proof.Machine

/-- Values one after the other, each in its number of bytes. -/
def fieldBytes (fs : List (Nat × Nat)) : List Byte := fs.flatMap fun f => leBytes f.1 f.2

/-- The values that bytes hold one after the other. -/
def fieldsOf : List Nat → List Byte → List Nat
  | [], _ => []
  | w :: ws, bs => leValue (bs.take w) :: fieldsOf ws (bs.drop w)

/-- The number of a level. -/
def Level.code : Level → Nat
  | .u => 0
  | .s => 1
  | .m => 2

/-- The level of a number. -/
def Level.ofCode (n : Nat) : Level :=
  match n with
  | 1 => .s
  | 2 => .m
  | _ => .u

/-- The handle state of a code of HSTAT. -/
def HState.ofCode (n : Nat) : HState :=
  match n with
  | 2 => .full
  | 3 => .draining
  | _ => .filling

/-- The words that bytes hold, by number; words of 0 are not listed. -/
def wordsFrom (i : Nat) : List Byte → Tbl Word
  | a :: b :: c :: d :: r =>
    let v := BitVec.ofNat 32 (leValue [a, b, c, d])
    if v = 0#32 then wordsFrom (i + 1) r else (i, v) :: wordsFrom (i + 1) r
  | _ => []

/-- The bytes that are not 0, by number. -/
def bytesFrom (i : Nat) : List Byte → Tbl Byte
  | [] => []
  | b :: r => if b = 0#8 then bytesFrom (i + 1) r else (i, b) :: bytesFrom (i + 1) r

/-- PC sets of lanes that stand at given PCs. -/
def pcsAt (live : Mask) (pc : Nat → PC) : List (PC × Mask) := (lanesOf live).foldl (fun acc l => pcsAdd (pc l) (laneBit l) acc) []

/-- SHAPE (R406): widths. -/
def shapeWidths : List Nat := [1, 4, 1, 1, 2, 2, 4, 1, 1, 2]

/-- SHAPE of a team: owner, gang, position, W, T, REGS, LOCAL, BANKS, PRIO, F. -/
def Team.shapeFields (t : Team) : List Nat :=
  [t.owner, t.gang, t.pos, t.nWaves, t.nThreads, t.regsPer, t.localBytes, t.banks, t.prio, t.pool]

/-- An entry of HANDLES: widths. -/
def handleWidths : List Nat := [1, 4, 4, 1, 4, 4, 1, 4]

/-- An entry of HANDLES: valid, BASE, LEN, STATE, FILLS, REFS, AUTO, GEN. -/
def Handle.fields (h : Handle) (gen : Nat) : List Nat :=
  [1, h.base, h.len, h.st.code, h.fills, h.refs, if h.auto then 1 else 0, gen]

/-- The handle of an entry of HANDLES and its generation. -/
def handleOfFields (tid : Nat) (f : List Nat) : Option (Handle × Nat) :=
  if f.getD 0 0 = 1 then
    some (⟨tid, f.getD 1 0, f.getD 2 0, .ofCode (f.getD 3 0), f.getD 4 0, f.getD 5 0, f.getD 6 0 == 1⟩, f.getD 7 0)
  else none

/-- An entry of QUEUES: widths of what it binds, and of its FIFO positions. -/
def queueWidths : List Nat := [1, 1, 2, 1, 4, 55]

/-- The values that a lane's FIFO positions take in a channel of `cap` values per lane: the slot of its oldest value, and how many
it holds (R357). -/
def fifoStates (cap : Nat) : Nat := cap * (cap + 1)

/-- A channel's FIFO positions as one number: per lane, the slot of its oldest value and how many it holds.
Log entry 49, DESIGN CHOICE. -/
def Binding.positions (b : Binding) : Nat :=
  let cap := 2 ^ b.logCap
  ((List.range 64).map fun l => (b.popped.get 0 l % cap + cap * b.count l) * fifoStates cap ^ l).sum

/-- A lane's FIFO positions in that number: values pushed and popped. -/
def fifoOf (cap n l : Nat) : Nat × Nat :=
  let d := n / fifoStates cap ^ l % fifoStates cap
  (d % cap + d / cap, d % cap)

/-- An entry of QUEUES: bound, port, PROD, LOGCAP, base, and the FIFO positions: of a port its unpopped values per lane, five bits
each; of a channel as many of its positions as 55 bytes hold. -/
def Binding.fields (b : Binding) : List Nat :=
  [1, if b.port then 1 else 0, b.prod, b.logCap, b.base,
    if b.port then ((List.range 64).map fun l => (b.vals.get [] l).length * 32 ^ l).sum else b.positions % 2 ^ 440]

/-- What of a team's FIFO positions does not fit its entries of QUEUES, by queue. Log entry 49, DESIGN CHOICE. -/
def Team.fifosLeft (t : Team) : Tbl Nat :=
  t.queues.filterMap fun e =>
    if e.2.port ∨ e.2.positions < 2 ^ 440 then none else some (e.1, e.2.positions / 2 ^ 440)

/-- PORT (R406, R321): the k-th unpopped value of lane l at byte 256k + 4l. -/
def portWord (t : Team) (i : Nat) : Word :=
  match (t.queues.find? fun e => e.2.port).map (·.2) with
  | some b => (b.vals.get [] (i % 64)).getD (i / 64) 0
  | none => 0

/-- The values of a port's lanes, from their counts and the words of PORT. -/
def portVals (counts : Nat) (port : Tbl Word) : Tbl (List Word) :=
  (List.range 64).filterMap fun l =>
    let n := counts / 32 ^ l % 32
    if n = 0 then none else some (l, (List.range n).map fun k => port.get 0 (64 * k + l))

/-- The numbers other than 0 that the lanes have, by lane. -/
def laneTable (f : Nat → Nat) : Tbl Nat := (List.range 64).filterMap fun l => if f l = 0 then none else some (l, f l)

/-- The binding of an entry of QUEUES; `rest` is what of a channel's positions the device kept. -/
def bindingOfFields (f : List Nat) (rest : Nat) (port : Tbl Word) : Option Binding :=
  if f.getD 0 0 = 1 then
    if f.getD 1 0 = 1 then some ⟨true, f.getD 2 0, f.getD 3 0, f.getD 4 0, [], [], portVals (f.getD 5 0) port⟩
    else
      let at_ := fifoOf (2 ^ f.getD 3 0) (f.getD 5 0 + 2 ^ 440 * rest)
      some ⟨false, f.getD 2 0, f.getD 3 0, f.getD 4 0, laneTable fun l => (at_ l).1, laneTable fun l => (at_ l).2, []⟩
  else none

/-- A saved array command in ARRAY (R307): what it is, team bank number, issuing wave, slots done and steps, ticket, operands. -/
def mmaWidths : List Nat := [1, 1, 1, 3, 4, 1, 1, 4, 4, 2, 2, 2, 2, 4]

/-- The widths of an MDRAIN's entry. -/
def mdrainWidths : List Nat := [1, 1, 1, 3, 4, 2, 1, 1, 4, 4, 4, 4]

/-- The team number under which a physical bank is claimed. -/
def Team.bankNumber (t : Team) (p : Nat) : Nat := ((t.bankMap.find? fun m => m.2 == p).map (·.1)).getD 0

/-- The entry of a saved array command. -/
def Cmd.arrayEntry (c : Cmd) (t : Team) : List Byte :=
  let head (op p : Nat) : List Nat :=
    [op, t.bankNumber p, c.wid % 16, c.slotsDone + 4096 * (c.slots - 1), (c.counter.map (·.2)).getD 0]
  match c.kind with
  | .mzero p => fieldBytes (mmaWidths.zip (head 1 p ++ List.replicate 9 0))
  | .mma p a b _ =>
    fieldBytes (mmaWidths.zip (head 2 p ++ [a.handle, b.handle, a.gen, b.gen, a.off / 128, b.off / 128, a.inc / 128, b.inc / 128,
      a.fmt + 65536 * b.fmt]))
  | .mdrain p ctl out epi fmt seed =>
    fieldBytes (mdrainWidths.zip (head 3 p ++ [ctl, ((c.inb.head?).map (·.2)).getD 255, ((c.outb.head?).map (·.2)).getD 255, out, epi,
      fmt, seed])) ++ [0, 0]
  | _ => List.replicate 32 0

/-- A ticket from its low 32 bits and the largest one taken. -/
def ticketOf (taken low : Nat) : Nat := taken - (taken % 2 ^ 32 + 2 ^ 32 - low % 2 ^ 32) % 2 ^ 32

/-- What an entry of ARRAY stands for, at the restored team: the handles' bases and the physical banks are the new ones (R308). -/
def cmdOfEntry (t : Team) (tid : Nat) (hs : Tbl (Handle × Nat)) (bs : List Byte) : Option Cmd :=
  let f := fieldsOf mmaWidths bs
  let g := fieldsOf mdrainWidths bs
  let op := f.getD 0 0
  let p := (t.bankMap.get? (f.getD 1 0)).getD 0
  let steps := f.getD 3 0 / 4096 + 1
  let base (i : Nat) : Nat := ((hs.get? i).map fun h => h.1.base).getD 0
  let arg (i gen off inc fmt : Nat) : TileArg := ⟨i, gen, base i, 128 * off, 128 * inc, fmt⟩
  let a := arg (f.getD 5 0) (f.getD 7 0) (f.getD 9 0) (f.getD 11 0) (f.getD 13 0 % 65536)
  let b := arg (f.getD 6 0) (f.getD 8 0) (f.getD 10 0) (f.getD 12 0) (f.getD 13 0 / 65536)
  let y : Half := (Half.ofBits (g.getD 10 0 / 65536)).getD ⟨.fp32, .rne, false, 0⟩
  let use (i : Nat) : List (Nat × Nat) := if i = 255 then [] else [(t.core, i)]
  let cmd (k : CmdKind) (ticket : Bool) (inb outb lines : List (Nat × Nat)) : Cmd :=
    { tid := tid, wid := widOf tid (f.getD 2 0), seq := 0, owner := t.owner, level := .u, kind := k,
      counter := if ticket then some (1, ticketOf (t.ctr? 1).taken (f.getD 4 0)) else none,
      inb := inb, outb := outb, barriers := [], lines := lines, undo := [], held := false, released := true, queued := true, engine := none,
      slots := steps, slotsDone := f.getD 3 0 % 4096, done := [], got := [], outBytes := [], flags := 0, faults := [],
      fatal := false }
  match op with
  | 1 => some (cmd (.mzero p) false [] [] [])
  | 2 => some (cmd (.mma p a b steps) true [] ((use (f.getD 5 0) ++ use (f.getD 6 0)).eraseDups) [])
  | 3 =>
    some (cmd (.mdrain p (g.getD 5 0) (g.getD 8 0) (g.getD 9 0) (g.getD 10 0) (g.getD 11 0)) true (use (g.getD 6 0))
      (use (g.getD 7 0)) (linesOf tid (g.getD 8 0) (drainBytes y)))
  | _ => none

/-- The counts of TSYNC, as they follow one another in WSTATE. -/
def Wave.counts (w : Wave) : List Nat := (List.range 64).map fun l => w.tsCount.get 0 l

/-- WSTATE (R406): widths. -/
def waveWidths : List Nat :=
  [2, 2, 1, 4, 4, 4, 4, 4, 1, 8, 8, 8, 4, 4, 4, 8, 8] ++ List.replicate 64 8 ++
    [8, 8, 1, 8, 4, 8, 8, 4, 1, 2, 1, 1, 1, 2, 1, 4, 4, 4, 8] ++ List.replicate 64 8

/-- WSTATE of a wave: A, base, level, $fpmode, $fflags, $srseed, the switch counters and the sweep, rollback and cautious counts,
the masks of lanes that have exited and of helpers, TSYNC counts and marks, task marks, trap registers, and what is recorded of
a wave at S with its PCs. -/
def Wave.stateFields (w : Wave) : List Nat :=
  let sw := w.sweep.getD ⟨0, 0, 0, 0⟩
  let r := w.recd.getD ⟨[], 0, .u, 0, 0, 0, 0⟩
  let t := w.trap
  [w.alloc, w.base, w.level.code, w.fpmode.toNat, w.fflags.toNat, w.srseed.toNat, w.brCount, w.qCount,
    if w.sweep.isSome then 1 else 0, sw.h, sw.had.toNat, sw.turn.toNat, sw.count, w.rollbacks, w.cautious - 1,
    ((w.threads ||| w.helper) &&& ~~~w.live).toNat, w.helper.toNat] ++ w.counts ++
    [w.tsMark.toNat, w.holds.toNat, t.cause, t.pc.toNat, t.word.toNat, t.lanes.toNat, t.addr.toNat, t.val.toNat,
      t.prevLevel.code, t.prevBase, t.depth, t.retries, if w.recd.isSome then 1 else 0, r.base, r.level.code,
      r.fpmode.toNat, r.fflags.toNat, r.srseed.toNat, r.trapped.toNat] ++
    (List.range 64).map fun l => (pcOfLane r.pcs l).toNat

/-- The bytes of a wave's section (R406, R407). -/
def Wave.sectionSize (w : Wave) : Nat := 6144 + 256 * w.alloc

/-- Bytes up to a size; those to which R406 gives no contents are free. Log entry 49, DESIGN CHOICE. -/
def State.filled (s : State) (key size : Nat) (bs : List Byte) : List Byte :=
  bs ++ (List.range (size - bs.length)).map fun i => BitVec.ofNat 8 (Config.freeNat s.tick 5 (2 ^ 16 * key + i))

/-- A wave's section (R406). Log entry 49, DESIGN CHOICE. -/
def State.frameWave (s : State) (w : Wave) : List Byte :=
  ((List.range 64).flatMap fun l => leBytes 8 (pcOfLane w.pcs l).toNat) ++
    s.filled (16 + w.idx) 1536 (fieldBytes (waveWidths.zip w.stateFields)) ++
    ((List.range 1024).flatMap fun i => leBytes 4 (w.hidden.get 0 i).toNat) ++
    (List.range (64 * w.alloc)).flatMap fun i => leBytes 4 (w.regs.get 0 i).toNat

/-- The section of a team's frame before its waves (R406). `ident` is the launch identifier, `cmds` are the array commands that are
saved. Log entry 49, DESIGN CHOICE. -/
def State.frameHead (s : State) (ident tid : Nat) (t : Team) (why : Nat) (cmds : List Cmd) : List Byte :=
  let core := s.core t.core
  s.filled 0 64 (fieldBytes ([(4, 0x4D415246), (8, ident), (4, t.team), (1, why)] ++ shapeWidths.zip t.shapeFields)) ++
    ((List.range 4).flatMap fun k => leBytes 8 (t.ctr? k).value ++ leBytes 8 (t.ctr? k).taken) ++
    ((List.range 64).flatMap fun i => s.filled 1 32 (match (core.handles.get? i).filter fun h => h.tid == tid with
      | some h => fieldBytes (handleWidths.zip (h.fields (core.gen.get 0 i)))
      | none => [0])) ++
    ((List.range 8).flatMap fun q => s.filled 2 64 (match t.queues.get? q with
      | some b => fieldBytes (queueWidths.zip b.fields)
      | none => [0])) ++
    s.filled 3 640 (leBytes 8 (t.recs.map fun r => 2 ^ r.1).sum ++ (List.range 64).flatMap fun i => leBytes 8 (t.recs.get 0 i)) ++
    (cmds.flatMap fun c => c.arrayEntry t) ++ List.replicate (32 * (64 - cmds.length)) 0 ++
    (((t.bankMap.map fun (m : Nat × Nat) => BitVec.ofNat 8 (m.1 + 1)) ++ List.replicate 8 0).take 8) ++ List.replicate 2808 0 ++
    ((List.range 1024).flatMap fun i => leBytes 4 (portWord t i).toNat) ++ List.replicate 4096 0

/-- The bytes of a team's frame, in order (R406). Log entry 49, DESIGN CHOICE. -/
def State.frame (s : State) (ident tid : Nat) (t : Team) (ws : List Wave) (why : Nat) (cmds : List Cmd) : List Byte :=
  s.frameHead ident tid t why cmds ++ ws.flatMap s.frameWave ++ (List.range t.localBytes).map t.lsByte ++
    t.bankMap.flatMap fun (m : Nat × Nat) => (List.range 16384).flatMap fun i => leBytes 4 ((s.bankWords t.cluster m.2).get 0 i).toNat

/-- The bytes of a team's frame (R407). -/
def frameBytes (t : Team) (ws : List Wave) : Nat :=
  16384 + (ws.map Wave.sectionSize).sum + t.localBytes + 65536 * t.bankMap.length

/-- The handles that a frame holds, with their generations, by index. -/
def frameHandles (tid : Nat) (bs : List Byte) : Tbl (Handle × Nat) :=
  (List.range 64).filterMap fun i =>
    (handleOfFields tid (fieldsOf handleWidths (bs.drop (128 + 32 * i)))).map fun h => (i, h)

/-- The record addresses that a frame holds. -/
def frameRecs (bs : List Byte) : Tbl Nat :=
  (List.range 64).filterMap fun i =>
    if (fieldAt bs 2688 8).testBit i then some (i, fieldAt bs (2696 + 8 * i) 8) else none

/-- The team numbers a frame names in BANKMAP, in order. -/
def frameBanks (bs : List Byte) : List Nat :=
  ((bs.drop 5376).take 8).filterMap fun b => if b = 0#8 then none else some (b.toNat - 1)

/-- The queue bindings that a frame holds. -/
def frameQueues (fifos : Tbl Nat) (bs : List Byte) : Tbl Binding :=
  let port := wordsFrom 0 ((bs.drop 8192).take 4096)
  (List.range 8).filterMap fun q =>
    (bindingOfFields (fieldsOf queueWidths (bs.drop (2176 + 64 * q))) (fifos.get 0 q) port).map fun b => (q, b)

/-- The array commands that a frame holds, in order (R307). -/
def frameCmds (t : Team) (tid : Nat) (bs : List Byte) : List Cmd :=
  let hs := frameHandles tid bs
  (List.range 64).filterMap fun i => cmdOfEntry t tid hs (bs.drop (3328 + 32 * i))

/-- A counter that a frame holds: tickets taken beyond its value are complete but for those of saved commands. -/
def frameCtr (bs : List Byte) (left : List (Nat × Nat)) (k : Nat) : Ctr :=
  let v := fieldAt bs (64 + 16 * k) 8
  let n := fieldAt bs (72 + 16 * k) 8
  ⟨v, n, ((List.range (n - v)).map (v + 1 + ·)).filter fun m => !left.contains (k, m)⟩

/-- A team as its frame gives it back (R404, R406), on a cluster with its banks mapped anew. `old` is what the device kept. -/
def Team.ofFrame (old : Team) (tid : Nat) (fifos : Tbl Nat) (cluster : Nat) (map : Tbl Nat) (ls : List Byte)
    (bs : List Byte) : Team :=
  let f := fieldsOf shapeWidths (bs.drop 17)
  let t : Team := { old with
    team := fieldAt bs 12 4
    nWaves := f.getD 3 0
    nThreads := f.getD 4 0
    regsPer := f.getD 5 0
    localBytes := f.getD 6 0
    banks := f.getD 7 0
    prio := f.getD 8 0
    pool := f.getD 9 0
    cluster := cluster
    bankMap := map
    ls := bytesFrom 0 ls
    queues := frameQueues fifos bs
    recs := frameRecs bs }
  let t := { t with ctr := (List.range 4).map fun k => (k, frameCtr bs [] k) }
  let cs := frameCmds t tid bs
  { t with
    ctr := (List.range 4).filterMap fun k =>
      let c := frameCtr bs (cs.filterMap (·.counter)) k
      if c = Ctr.init then none else some (k, c)
    absent := cs.flatMap fun c => c.lines.map (·.2) }

/-- A wave as its section gives it back (R397, R406). `x` is what the device kept. -/
def Wave.ofSection (t : Team) (tid idx slot : Nat) (x : SavedWave) (bs : List Byte) : Wave :=
  let fs := fieldsOf waveWidths (bs.drop 512)
  let f (i : Nat) : Nat := fs.getD i 0
  let m (i : Nat) : Mask := BitVec.ofNat 64 (f i)
  let w (i : Nat) : Word := BitVec.ofNat 32 (f i)
  let threads := lowLanes (min 64 (t.nThreads - 64 * idx))
  let live := (threads ||| m 16) &&& ~~~m 15
  { tid := tid, idx := idx, slot := slot, alloc := f 0, base := f 1,
    regs := wordsFrom 0 ((bs.drop 6144).take (256 * f 0)), hidden := wordsFrom 0 ((bs.drop 2048).take 4096),
    live := live, helper := m 16, threads := threads, exited := m 15 &&& threads,
    pcs := pcsAt live fun l => BitVec.ofNat 57 (fieldAt bs (8 * l) 8), level := .ofCode (f 2), fpmode := w 3, fflags := w 4,
    srseed := w 5, clockh := x.clockh, brCount := f 6, qCount := f 7,
    sweep := if f 8 = 1 then some ⟨f 9, m 10, m 11, f 12⟩ else none, outst := [], parked := false, waiting := none,
    absentWait := false, sleep := none, slept := none, sbuf := [], irrev := none, region := none, rollbacks := f 13,
    cautious := if f 14 = 0 then 0 else f 14 + 1, stop := none,
    trap := ⟨f 83, BitVec.ofNat 57 (f 84), w 85, m 86, m 87, w 88, .ofCode (f 89), f 90, f 91, f 92⟩,
    recd := if f 93 = 1 then
        some ⟨pcsAt live fun l => BitVec.ofNat 57 (f (100 + l)), f 94, .ofCode (f 95), w 96, w 97, w 98, m 99⟩
      else none,
    tsCount := (List.range 64).filterMap fun l => if f (17 + l) = 0 then none else some (l, f (17 + l)),
    tsMark := m 81, holds := m 82, triggered := x.triggered, claiming := none, spilling := none, fence := none,
    retired := f 0 == 0 }

/-- The waves of a frame from the sections that follow its head, and the bytes after them. -/
def wavesFrom (t : Team) (tid : Nat) (slots : List Nat) : (idx : Nat) → List SavedWave → List Byte → List Wave × List Byte
  | _, [], bs => ([], bs)
  | i, x :: xs, bs =>
    let w := Wave.ofSection t tid i (slots.getD i 0) x bs
    let r := wavesFrom t tid slots (i + 1) xs (bs.drop w.sectionSize)
    (w :: r.1, r.2)

/-- The words of the banks at the end of a frame, in BANKMAP's order. -/
def banksFrom : (n : Nat) → List Byte → List (Tbl Word)
  | 0, _ => []
  | k + 1, bs => wordsFrom 0 (bs.take 65536) :: banksFrom k (bs.drop 65536)

end Sys2Proof.Machine
end

