-- ==== Sys2Proof/Machine/Save.lean ====
section
/-! DEFINITION. Saving teams: parking faults (R398), drains (R88, R402), the save itself (R344, R307, R321), the writing of
frames (R405 to R407), and the fault queue (R399, R400). -/

namespace Sys2Proof.Machine

/-- The teams that are saved together (R398): a team alone, or every team of its gang of two or more. -/
def State.unitOf (s : State) (tid : Nat) : List Nat :=
  match s.teams.get? tid with
  | none => []
  | some t => if s.inGroup t then (s.teams.filter fun e => e.2.lid = t.lid ∧ e.2.gang = t.gang).map (·.1) else [tid]

/-- Whether a parking fault leaves its address in $taddr: a migration fault (R223, R238), and a page fault on the page of a
literal (R167), whose address is not the PC. -/
def ParkInfo.setsAddr (i : ParkInfo) (pc : PC) : Bool :=
  i.cause != .page || (i.kind == .fetch && i.va != pc.toNat)

/-- The trap registers of a wave that stops issuing at a save. -/
def Wave.parkRegs (w : Wave) : TrapRegs :=
  match w.stop with
  | some ⟨.park i, _, pc, _⟩ => if i.setsAddr pc then { w.trap with addr := BitVec.ofNat 64 i.va } else w.trap
  | _ => w.trap

/-- A wave that has stopped issuing at a save: a trap not yet taken disappears, waits end (R344, R397, R402). At a forced
save a sleeping wave's lanes stand at their SLEEP again (R402). -/
def Wave.halted (w : Wave) (forced : Bool) : Wave :=
  let back := match w.sleep, w.slept with
    | some _, some (p, m) => if forced then pcsMove (m &&& w.live) (fun _ => some p) w.pcs else w.pcs
    | _, _ => w.pcs
  { w with
    pcs := back
    trap := w.parkRegs
    stop := match w.stop with
      | some ⟨.park i, set, pc, word⟩ => some ⟨.park i, set, pc, word⟩
      | _ => none
    waiting := none
    absentWait := false
    sleep := none
    claiming := none
    fence := none }

/-- A save of a team begins: its waves stop issuing, its open regions roll back with their held commands, its claims are
withdrawn (R344 steps 1 and 3, R307, R402). -/
def State.beginSave (why : Nat) (s : State) (tid : Nat) : State :=
  let open_ := ((s.teamWaves tid).filter fun e => e.2.region.isSome).map (·.1)
  let s := if open_.isEmpty then s else State.rollback (open_.length + 64 * (s.waves.length + 1)) open_ s
  let s := (s.teamWaves tid).foldl (fun s e => s.updWave e.1 fun w => w.halted (why = 3)) s
  (s.dropClaims tid).updTeam tid fun t => { t with saving := some why }

/-- Whether a save keeps a command of a team unfinished (R307): array work with slots to do, on a bank the team still maps. Work on
a bank it has released finishes before the save ends, since the frame holds claimed banks only. Log entry 49, DESIGN CHOICE. -/
def Team.keeps (t : Team) (c : Cmd) : Bool :=
  decide (c.slotsDone < c.slots) && match c.kind.bank? with
    | some b => t.bankMap.any fun m => m.2 == b
    | none => false

/-- Whether a team's save may end: its stores are performed, its results are in, its other commands are complete (R344,
R122, R321). -/
def State.saveReady (s : State) (tid : Nat) : Bool :=
  match s.teams.get? tid with
  | none => false
  | some t =>
    t.saving.isSome && !s.failed t.lid && ((s.teamWaves tid).all fun e => !e.2.unperformed && e.2.outst.isEmpty) &&
      s.cmds.all fun e => e.2.tid != tid || t.keeps e.2

/-- The lower-class teams of a cluster that a drain removes (R88). -/
def State.lower (s : State) (x prio : Nat) : List (Nat × Team) := (s.clusterTeams x).filter fun e => prio < e.2.prio

/-- Slots of an owner's frame region that no frame is in. -/
def Owner.slotsLeft (o : Owner) : Nat := o.frameSlots - o.framesUsed.length

/-- Give slots to drains in turn, to each as many as it needs and there are: the cluster and how many. -/
def State.shareSlots (s : State) : Nat → List Drain → List (Nat × Nat)
  | _, [] => []
  | free, d :: r =>
    let k := min free (s.lower d.cluster d.prio).length
    (d.cluster, k) :: s.shareSlots (free - k) r

/-- The slots of an owner that drains of its clusters hold reserved: those begun first, then those that wait, which take slots
as they free (R402 step 3). Log entry 50, DEDUCED. -/
def State.slotGrants (s : State) (own : Nat) : List (Nat × Nat) :=
  let ds := s.drains.filter fun d => (s.cluster d.cluster).owner = some own
  match s.owners.get? own with
  | none => []
  | some o => s.shareSlots o.slotsLeft ((ds.filter (·.started.isSome)) ++ ds.filter (·.started.isNone))

/-- The slots reserved for a drain's cluster. -/
def State.slotsHeld (s : State) (x : Nat) : Nat :=
  match (s.cluster x).owner with
  | some o => ((s.slotGrants o).filter fun e => e.1 = x).map (·.2) |>.sum
  | none => 0

/-- Slots of an owner's frame region that are free and not reserved. -/
def State.slotsFree (s : State) (own : Nat) : Nat :=
  match s.owners.get? own with
  | none => 0
  | some o => o.slotsLeft - ((s.slotGrants own).map (·.2)).sum

/-- Whether a drain of its cluster removes a team (R402). -/
def State.drains? (s : State) (t : Team) : Bool := s.drains.any fun d => d.cluster == t.cluster && decide (d.prio < t.prio)

/-- Whether teams of an owner find slots for their frames: free ones, and those reserved for their cluster where a drain removes
them (R398, R402). -/
def State.slotsFor (s : State) (own : Nat) (tids : List Nat) : Bool :=
  let ts := tids.filterMap s.teams.get?
  let held := ((ts.filter s.drains?).map (·.cluster)).eraseDups.map s.slotsHeld
  decide (tids.length ≤ s.slotsFree own + held.sum)

/-- The lowest free slot of an owner (R405). -/
def Owner.freeSlot (o : Owner) : Option Nat := (List.range o.frameSlots).find? fun k => !o.framesUsed.contains k

/-- The address of a frame slot (R405). -/
def Owner.slotVa (o : Owner) (slot : Nat) : Nat := o.frameBase + 1441792 * slot

/-- One piece of a frame as the core reaches it at level M, under the owner's primary key and without permission checks (R405), or
what stops it: a translation fault, or a peer's error response (R207, R235). Log entry 76, DEDUCED. -/
def State.framePiece (s : State) (own : Nat) (o : Owner) (k : AccKind) (va : Nat) : Access :=
  match (s.walkFrom own o va 4 1 o.root []).1 with
  | .ok t =>
    let t := { t with leaf := { t.leaf with key := o.key } }
    match t.peerError k va with
    | some v => .viol v
    | none => .ok t (t.phys va)
  | .violation c => .viol ⟨va, c, .walk, false⟩
  | _ => .park .page

/-- The pieces of a frame, or what stops the first that is stopped (R405). Log entry 76, DEDUCED. -/
def State.framePieces (s : State) (own : Nat) (o : Owner) (k : AccKind) (va n : Nat) : Except Access (List (Phys × Nat × Nat)) :=
  (piecesOf va n).foldr (fun p acc =>
    match s.framePiece own o k p.1, acc with
    | .ok _ x, .ok l => .ok ((x, p.1 - va, p.2) :: l)
    | .ok _ _, .error a => .error a
    | a, _ => .error a) (.ok [])

/-- A frame is written (R405, R407): performed as stores of the single order. -/
def State.writeFrame (s : State) (own : Nat) (ps : List (Phys × Nat × Nat)) (bs : List Byte) : State :=
  ps.foldl (fun s e => s.agentWrites own e.1 ((bs.drop e.2.1).take e.2.2)) s

/-- A team leaves the module (R307, R433): its waves, commands, handles, banks and claims go. -/
def State.removeTeam (s : State) (tid : Nat) (t : Team) : State :=
  let s := s.dropClaims tid
  let mine := ((s.core t.core).handles.filter fun e => e.2.tid = tid).map (·.1)
  let s := mine.foldl (fun s i => s.clearHandle t.core i) s
  let s := s.updCluster t.cluster fun c => { c with banks := t.bankMap.foldl (fun b m => b.del m.2) c.banks }
  { s with
    waves := s.waves.filter fun e => e.2.tid != tid
    cmds := s.cmds.filter fun e => e.2.tid != tid
    teams := s.teams.del tid }

/-- The array commands of a team that its save keeps, in issue order (R307). -/
def State.keptCmds (s : State) (tid : Nat) (t : Team) : List Cmd :=
  (s.cmds.filter fun e => e.2.tid = tid ∧ t.keeps e.2).map (·.2)

/-- What the device keeps of a saved team (R404): the rest lies in its frame. Log entry 49, DESIGN CHOICE. -/
def State.savedTeam (s : State) (tid : Nat) (t : Team) (slot : Nat) : SavedTeam where
  tid := tid
  team := { t with
    pool := 0, claims := [], ls := [], absent := [], ctr := [], queues := [], bankMap := [], recs := [], slot := some slot,
    saving := none }
  waves := (s.teamWaves tid).map fun e => ⟨e.2.triggered, e.2.clockh⟩
  handles := ((s.core t.core).handles.filter fun e => e.2.tid = tid).map (·.1)
  banks := t.bankMap.length
  fifos := t.fifosLeft
  slot := slot
  bytes := frameBytes t ((s.teamWaves tid).map (·.2))

/-- The fault entries of a team's parked waves wait to be posted (R398, R399); their sequence numbers. -/
def State.queueParks (s : State) (tid slot : Nat) (t : Team) : State × List Nat :=
  (s.teamWaves tid).foldl (fun (r : State × List Nat) e =>
    match e.2.stop with
    | some ⟨.park p, _, pc, _⟩ =>
      let x := r.1.queueFault t.owner ⟨0, p.va, pc.toNat, some slot, p.cause, p.kind, t.core, s.shortOf t, false⟩
      (x.1, r.2 ++ [x.2])
    | _ => r) (s, [])

/-- How accesses to frames go: the state and what they give; or the state and what stopped one of them. -/
inductive FrameEnd (α : Type) where
  | done (s : State) (x : α)
  | stopped (s : State) (a : Access)

/-- One team of a unit is saved (R344 step 4, R405, R398): what is kept and its fault entries. -/
def State.saveTeam (s : State) (tid : Nat) : FrameEnd (List SavedTeam × List Nat) :=
  match s.teams.get? tid with
  | none => .done s ([], [])
  | some t =>
    match (s.owners.get? t.owner).bind fun o => o.freeSlot.map fun k => (o, k) with
    | none => .done s ([], [])
    | some (o, slot) =>
      let ws := (s.teamWaves tid).map (·.2)
      let ident := ((s.launches.get? t.lid).map Launch.ident).getD 0
      let s := s.walksTouch t.owner (o.slotVa slot) (frameBytes t ws)
      match s.framePieces t.owner o .store (o.slotVa slot) (frameBytes t ws) with
      | .error a => .stopped s a
      | .ok ps =>
        let s1 := s.writeFrame t.owner ps (s.frame ident tid t ws (t.saving.getD 3) (s.keptCmds tid t))
        let s1 := s1.updOwner t.owner fun o => { o with framesUsed := slot :: o.framesUsed }
        let r := s1.queueParks tid slot t
        .done (r.1.removeTeam tid t) ([s.savedTeam tid t slot], r.2)

/-- The teams of a unit are saved in turn. -/
def State.saveTeams : List Nat → State → FrameEnd (List SavedTeam × List Nat)
  | [], s => .done s ([], [])
  | i :: r, s =>
    match s.saveTeam i with
    | .stopped s a => .stopped s a
    | .done s x =>
      match State.saveTeams r s with
      | .stopped s a => .stopped s a
      | .done s y => .done s (x.1 ++ y.1, x.2 ++ y.2)

/-- A translation fault on a frame is fatal for the owner (R405), and so is an error response, which is logged first (R235, R411).
Log entry 76, DEDUCED. -/
def State.frameFatal (s : State) (own : Nat) (a : Access) : State := (s.logAccess own a).failOwner own 1

/-- The save of a unit ends (R344, R398, R402). -/
def State.endSave (s : State) (tid : Nat) (t : Team) : State :=
  match State.saveTeams (s.unitOf tid) s with
  | .stopped s a => s.frameFatal t.owner a
  | .done s (ts, fs) =>
    { s with saved := s.saved.put tid ⟨t.lid, t.gang, t.prio, t.owner, ts, fs, if fs.isEmpty then some s.tick else none⟩ }

/-- The cause of a frame's WHY for a parking fault (R406). -/
def ParkCause.why : ParkCause → Nat
  | .page => 0
  | .migration => 1
  | .lease => 2

/-- A parking fault that a wave of a unit has met, its region resolved (R398). -/
def State.parkOf (s : State) (tids : List Nat) : Option ParkCause :=
  (s.waves.filter fun e => tids.contains e.2.tid ∧ e.2.region.isNone).findSome? fun e => match e.2.stop with
    | some ⟨.park p, _, _, _⟩ => some p.cause
    | _ => none

/-- Whether a unit's save may end. -/
def State.unitReady (s : State) (tid : Nat) (t : Team) : Bool :=
  (s.unitOf tid).all s.saveReady && s.slotsFor t.owner (s.unitOf tid)

/-- TEAM_PARK (R398, R344): `x` a team of the unit; a save begins when a wave has met a parking fault, and ends when
everything of the unit is performed and slots are free. -/
def execTeamPark (s : State) : Out :=
  let tid := s.ev.x
  match s.teams.get? tid with
  | none => .refused (.notEnabled "no such team")
  | some t =>
    match t.saving with
    | none =>
      match s.parkOf (s.unitOf tid) with
      | some c => if s.failed t.lid then .refused (.notEnabled "the launch has failed")
        else .next ((s.unitOf tid).foldl (State.beginSave c.why) s)
      | none => .refused (.notEnabled "no parking fault")
    | some _ => if s.unitReady tid t then .next (s.endSave tid t) else .refused (.notEnabled "the save cannot end yet")

/-- A fault entry is posted: the oldest not posted, once the ring has room and its stores can be made (R399).
Log entry 77, DESIGN CHOICE. -/
def State.postFault (s : State) (own seq : Nat) : Option State :=
  match s.owners.get? own with
  | none => none
  | some o =>
    match o.faults.find? fun f => !f.posted, o.faultQ with
    | some f, some r =>
      if f.seq ≠ seq then none
      else
        match (s.ringReady own r .withFaultQ).append own r 32 fun _ => faultEntry f with
        | .done s => some (s.updOwner own fun o =>
            { o with faults := o.faults.map fun g => if g.seq = seq then { g with posted := true } else g })
        | _ => none
    | _, _ => none

/-- FAULT_POST (R399): `x` the owner, `y` the entry's sequence number; a full queue waits for HEAD. -/
def execFaultPost (s : State) : Out :=
  match s.postFault s.ev.x s.ev.y with
  | some s => .next s
  | none => .refused (.notEnabled "no fault entry can be posted")

/-- A resolved fault of a saved gang (R400): it may be restored when it waits for no other. -/
def SavedGang.resolve (g : SavedGang) (seq tick : Nat) : SavedGang :=
  if g.faults.contains seq then
    let fs := g.faults.filter (· != seq)
    { g with faults := fs, ready := if fs.isEmpty then some tick else g.ready }
  else g

/-- FAULTDONE_WRITE (R400): owner `x`, sequence number `y`; a posted entry is resolved, another write changes nothing. -/
def execFaultdoneWrite (s : State) : Out :=
  let own := s.ev.x
  let seq := s.ev.y
  match s.owners.get? own with
  | none => .refused (.notEnabled "no such owner")
  | some o =>
    if o.faults.any fun f => f.seq = seq ∧ f.posted then
      .next { (s.updOwner own fun o => { o with faults := o.faults.filter fun f => f.seq != seq }) with
        saved := s.saved.map fun e => if e.2.owner = own then (e.1, e.2.resolve seq s.tick) else e
        cmds := s.cmds.map fun e =>
          if e.2.owner = own then (e.1, { e.2 with faults := e.2.faults.filter fun f => f.2 != seq }) else e }
    else .next s

/-- The state without the lower-class teams of some clusters (R88). -/
def State.stripped (s : State) (xs : List Nat) (prio : Nat) : State :=
  { s with teams := s.teams.filter fun e => !(xs.contains e.2.cluster && decide (prio < e.2.prio)) }

/-- Whether a cluster's owner has slots for its lower-class teams (R402 step 3). -/
def State.slotsAt (s : State) (x prio : Nat) : Bool :=
  match (s.cluster x).owner with
  | some o => decide ((s.lower x prio).length ≤ s.slotsFree o)
  | none => true

/-- The preference among clusters to set aside (R88, R402 step 3): slots, fewest lower-class teams, lowest number. -/
def State.drainRank (s : State) (prio x : Nat) : Nat :=
  (if s.slotsAt x prio then 0 else 65 * clusterCount) + (s.lower x prio).length * clusterCount + x

/-- The least element of a list by a measure. -/
def leastBy (f : Nat → Nat) : List Nat → Option Nat
  | [] => none
  | x :: r =>
    match leastBy f r with
    | some y => if f y < f x then some y else some x
    | none => some x

/-- The clusters that would admit a launch's gang without their lower-class teams (R88). -/
def State.drainable (s : State) (lid : Nat) (l : Launch) (sh : Shape) (done : List Nat) : List Nat :=
  (List.range clusterCount).filter fun x =>
    !done.contains x && (s.cluster x).setAside.isNone && !(s.lower x l.prio).isEmpty &&
      (s.stripped [x] l.prio).clusterAdmits x l.owner lid sh

/-- The clusters to set aside for a launch: as few by the rule of R88 as let its gangs fit. -/
def State.chooseDrain (s : State) (lid : Nat) (l : Launch) (sh : Shape) : (fuel : Nat) → List Nat → Option (List Nat)
  | 0, _ => none
  | k + 1, done =>
    match leastBy (s.drainRank l.prio) (s.drainable lid l sh done) with
    | none => none
    | some x =>
      let xs := done ++ [x]
      if ((s.stripped xs l.prio).fits lid l).isSome then some xs else s.chooseDrain lid l sh k xs

/-- Clusters are set aside for a launch; a drain starts where the slots are reserved at once (R88, R402). -/
def State.setAside (s : State) (lid : Nat) (l : Launch) (xs : List Nat) : State :=
  xs.foldl (fun s x =>
    let d : Drain := ⟨x, l.prio, lid, if s.slotsAt x l.prio then some s.clock.toNat else none⟩
    { (s.updCluster x fun c => { c with setAside := some lid }) with drains := s.drains ++ [d] }) s

/-- Whether every slot a drain needs is reserved (R402 step 3). -/
def State.drainReady (s : State) (d : Drain) : Bool := decide ((s.lower d.cluster d.prio).length ≤ s.slotsHeld d.cluster)

/-- The clusters set aside for a launch. -/
def State.asideFor (s : State) (lid : Nat) : List Nat := (s.drains.filter fun d => d.lid = lid).map (·.cluster)

/-- The launch of a lower class whose set-aside clusters pass to a launch that begins waiting (R88): one that has a drain of its own
takes no other, and of several lower-class drains the oldest passes. Log entry 50, DEDUCED. -/
def State.givesWay (s : State) (lid : Nat) (l : Launch) : Option Nat :=
  if (s.asideFor lid).isEmpty then (s.drains.find? fun d => decide (l.prio < d.prio)).map (·.lid) else none

/-- The set-aside clusters of a launch pass to another of a higher class (R88). A drain that now removes more teams than it holds
slots for waits again (R402 step 3). Log entry 50, DEDUCED. -/
def State.passDrains (s : State) (lid : Nat) (l : Launch) (from_ : Nat) : State :=
  let s := (s.asideFor from_).foldl (fun s x => s.updCluster x fun c => { c with setAside := some lid }) s
  let s := { s with drains := s.drains.map fun (d : Drain) => if d.lid = from_ then { d with prio := l.prio, lid := lid } else d }
  { s with drains := s.drains.map fun (d : Drain) => if d.lid = lid ∧ !s.drainReady d then { d with started := none } else d }

/-- A drain that waits for slots starts when they are reserved (R402 step 3). -/
def State.startDrain (s : State) (lid : Nat) : Option State :=
  match s.drains.find? fun d => d.lid = lid && d.started.isNone && s.drainReady d with
  | none => none
  | some d =>
    some { s with drains := s.drains.map fun (e : Drain) => if e.cluster = d.cluster then { e with started := some s.clock.toNat } else e }

/-- Clusters are set aside for a launch beside those that are already, as few as let its gangs fit (R88). -/
def State.moreDrains (s : State) (lid : Nat) (l : Launch) (sh : Shape) : Option State :=
  let mine := s.asideFor lid
  if ((s.stripped mine l.prio).fits lid l).isSome then none
  else (s.chooseDrain lid l sh clusterCount mine).map fun xs => s.setAside lid l (xs.filter fun x => !mine.contains x)

/-- What DRAIN_START does for the launch the front considers, which does not fit (R88, R402): the clusters of a lower-class drain
pass to it, a drain whose slots are reserved starts, or clusters are set aside. -/
def State.drainFor (s : State) (lid : Nat) (l : Launch) : Option State :=
  match l.shape with
  | none => none
  | some sh =>
    if (s.neverFits l sh).isSome ∨ (s.fits lid l).isSome then none
    else
      match s.givesWay lid l, s.startDrain lid with
      | some k, _ => some (s.passDrains lid l k)
      | none, some t => some t
      | none, none => s.moreDrains lid l sh

/-- DRAIN_START (R88, R402): `x` the launch that the front considers. -/
def execDrainStart (s : State) : Out :=
  match s.chosenNow.filter fun e => e.1 = s.ev.x with
  | none => .refused (.notEnabled "the front does not consider that launch")
  | some (lid, l) =>
    match s.drainFor lid l with
    | some t => .next t
    | none => .refused (.notEnabled "no drain starts")

/-- The drain of a cluster whose deadline has passed (R402 step 4): CSR_DRAINDL in µs of 1,000 cycles. Log entry 50, DEDUCED. -/
def State.overdue (s : State) (x : Nat) : Option Drain :=
  s.drains.find? fun d => d.cluster = x && match d.started with
    | some t => decide (t + 1000 * s.drainDl ≤ s.clock.toNat)
    | none => false

/-- DRAIN_DEADLINE (R402 step 4): at cluster `x` every remaining lower-class team's forced save begins; then the unit of
team `y` is saved once everything of it is performed. -/
def execDrainDeadline (s : State) : Out :=
  match s.overdue s.ev.x with
  | none => .refused (.notEnabled "no deadline has passed")
  | some d =>
    let ts := (s.lower s.ev.x d.prio).filter fun e => !s.failed e.2.lid
    let fresh := (ts.filter fun e => e.2.saving.isNone).map (·.1)
    if !fresh.isEmpty then .next (fresh.foldl (State.beginSave 3) s)
    else
      match ts.find? fun e => e.1 = s.ev.y with
      | some (tid, t) => if s.unitReady tid t then .next (s.endSave tid t) else .refused (.notEnabled "the save cannot end yet")
      | none => .refused (.notEnabled "no such team to save")

end Sys2Proof.Machine
end

