-- ==== Sys2Proof/Machine/Restore.lean ====
section
/-! DEFINITION. Placing saved gangs back (R87, R308, R321, R397, R404, R405). -/

namespace Sys2Proof.Machine

/-- The place of a saved gang in the order of restoring: when it became restorable, then its number (R87). -/
def SavedGang.order (g : SavedGang) : Option Nat := g.ready

/-- Whether a saved gang is the next to be restored (R87). -/
def State.nextRestore (s : State) (x : Nat) (g : SavedGang) : Bool :=
  match g.order with
  | none => false
  | some r => s.saved.all fun e => match e.2.order with
    | some q => decide (r < q) || (r == q && decide (x ≤ e.1))
    | none => true

/-- Whether the target core of a saved team has the handle entries at its saved indices free (R404). -/
def State.handlesFree (s : State) (y : Nat) (t : SavedTeam) : Bool :=
  t.handles.all fun h => ((s.core (4 * y + t.team.pos)).handles.get? h).isNone

/-- The bytes of a saved team's frame, read at level M under the owner's primary key (R405). -/
def State.readFrame (s : State) (own : Nat) (t : SavedTeam) : FrameEnd (List Byte) :=
  match s.owners.get? own with
  | none => .stopped s (.park .page)
  | some o =>
    let s := s.walksTouch own (o.slotVa t.slot) t.bytes
    match s.framePieces own o .load (o.slotVa t.slot) t.bytes with
    | .error a => .stopped s a
    | .ok ps =>
      let s := ps.foldl (fun s p => s.agentReads own p.1 p.2.2) s
      .done s (ps.flatMap fun p => s.bytesAt p.1.sp p.1.key p.1.addr p.2.2)

/-- The frames of a gang's teams, read in turn. -/
def State.readFrames (own : Nat) : List SavedTeam → State → FrameEnd (List (SavedTeam × List Byte))
  | [], s => .done s []
  | t :: ts, s =>
    match s.readFrame own t with
    | .stopped s a => .stopped s a
    | .done s bs =>
      match State.readFrames own ts s with
      | .stopped s a => .stopped s a
      | .done s r => .done s ((t, bs) :: r)

/-- A read of a record that a restored team had bound, as LRBIND makes it (R404, R276). Log entry 37, DEDUCED. -/
def State.restoreRead (s : State) (core own a : Nat) : Except Access (State × List Byte) :=
  (recordPieces (BitVec.ofNat 64 a)).foldl (fun acc p =>
    match acc with
    | .error x => .error x
    | .ok (s, bs) =>
      match s.access core (core / 200) own .u .load 64 p with
      | .ok tr x =>
        let s := (s.held core (core / 200) own 64 p tr).agentReads own x 32
        .ok (s, bs ++ s.bytesAt x.sp x.key x.addr 32)
      | x => .error x) (.ok (s, []))

/-- How the record reads of a restore end: with the records by identifier, or at one that is stopped or invalid. -/
inductive Rebind where
  | ok (s : State) (recs : List (Nat × BoundRec))
  | wait
  | fails (s : State) (cause : Cause) (a : Access)

/-- The records of a saved team, bound again (R404): an invalid one is a double trap. -/
def State.rebind (core own : Nat) : List (Nat × Nat) → State → Rebind
  | [], s => .ok s []
  | (id, a) :: r, s =>
    match s.restoreRead core own a with
    | .error (.viol v) => .fails s .protection (.viol v)
    | .error _ => .wait
    | .ok (s, bs) =>
      match Layout.parse bs with
      | none => .fails s .layout (.park .page)
      | some l =>
        match State.rebind core own r s with
        | .ok s rs => .ok s ((id, ⟨a, l⟩) :: rs)
        | x => x

/-- The records of a gang's teams, bound again. -/
def State.rebindAll (y own : Nat) (fs : List (SavedTeam × List Byte)) (s : State) : Rebind :=
  fs.foldl (fun acc f => match acc with
    | .ok s rs =>
      match State.rebind (4 * y + f.1.team.pos) own (frameRecs f.2) s with
      | .ok s qs => .ok s (rs ++ qs)
      | x => x
    | x => x) (.ok s [])

/-- The team bank numbers of a frame with the physical banks they get (R308). -/
def State.newMap (s : State) (y : Nat) (bs : List Byte) : Tbl Nat := (frameBanks bs).zip (s.cluster y).freeBanks

/-- One saved team is placed back on a cluster from its frame (R308, R397, R404, R406). Log entry 49, DESIGN CHOICE. -/
def State.restoreTeam (y : Nat) (s : State) (f : SavedTeam × List Byte) : State :=
  let v := f.1
  let bs := f.2
  let core := 4 * y + v.team.pos
  let map := s.newMap y bs
  let hs := frameHandles v.tid bs
  let shape := Team.ofFrame v.team v.tid v.fifos y map [] bs
  let ws := wavesFrom shape v.tid (s.freeSlots core) 0 v.waves (bs.drop 16384)
  let t := Team.ofFrame v.team v.tid v.fifos y map (ws.2.take shape.localBytes) bs
  let s := s.coreServes core v.team.owner
  let s := s.updCluster y fun c => { c with
    banks := (map.zip (banksFrom map.length (ws.2.drop shape.localBytes))).foldl (fun b e => b.put e.1.2 ⟨.mapped, e.2⟩) c.banks }
  let s := hs.foldl (fun s h => s.setHandle core h.1 h.2.1 h.2.2) s
  let s := ws.1.foldl (fun s w => s.setWave (widOf v.tid w.idx) w) (s.setTeam v.tid t)
  let s := (frameCmds t v.tid bs).foldl (fun s c => { s with cmds := s.cmds.put s.nextCid c, nextCid := s.nextCid + 1 }) s
  s.updOwner v.team.owner fun o => { o with framesUsed := o.framesUsed.filter (· != v.slot) }

/-- Whether a cluster can take a saved gang now (R78, R80, R87, R404). -/
def State.canRestore (s : State) (x y : Nat) (g : SavedGang) : Bool :=
  s.nextRestore x g && !s.failed g.lid &&
    match (s.launches.get? g.lid).bind (·.shape) with
    | none => false
    | some sh =>
      (s.cluster y).setAside.isNone && s.clusterAdmits y g.owner g.lid sh && (s.mustPass g.owner [y]).isEmpty && g.teams.all (s.handlesFree y) &&
        decide ((g.teams.map (·.banks)).sum ≤ (s.cluster y).freeBanks.length)

/-- A saved gang is placed back on a cluster (R404), or what stops it is met: nothing while a record's page is not there. The
starting cluster of R82 stays where it was. Log entry 37, DEDUCED. -/
def State.restoreGang (s : State) (x y : Nat) (g : SavedGang) : Option State :=
  match State.readFrames g.owner g.teams s with
  | .stopped s a => some (s.frameFatal g.owner a)
  | .done s fs =>
    match State.rebindAll y g.owner fs s with
    | .wait => none
    | .fails s c a => some ((s.logAccess g.owner a).failLaunch g.lid 8 (0x200 + c.code))
    | .ok s rs =>
      let s := { s with saved := s.saved.del x }
      let s := fs.foldl (State.restoreTeam y) s
      some (s.updCluster y fun c => { c with
        owner := some g.owner, recs := rs.foldl (fun t e => t.put e.1 e.2) c.recs })

/-- RESTORE_GANG (R87, R404): the saved gang `x`, the next in order, on cluster `y`. Log entry 37, DEDUCED. -/
def execRestoreGang (s : State) : Out :=
  match s.saved.get? s.ev.x with
  | none => .refused (.notEnabled "no such saved gang")
  | some g =>
    if s.canRestore s.ev.x s.ev.y g then
      match s.restoreGang s.ev.x s.ev.y g with
      | some t => .next t
      | none => .refused (.notEnabled "a record's page is not there")
    else .refused (.notEnabled "the gang cannot be restored there")

end Sys2Proof.Machine
end

