-- ==== Sys2Proof/Machine/Retire.lean ====
section
/-! DEFINITION. Retiring waves, teams and gangs (R432 to R434), completing launches (R435, R436), and the discarded (R410,
R437). -/

namespace Sys2Proof.Machine

/-- Whether every handle of a team has FILLS = 0 and REFS = 0 (R272, R433). -/
def State.handlesQuiet (s : State) (tid : Nat) (t : Team) : Bool :=
  (s.core t.core).handles.all fun e => e.2.tid != tid || (e.2.fills == 0 && e.2.refs == 0)

/-- Whether a wave is its team's last: every other one has retired. -/
def State.lastWave (s : State) (w : Wave) : Bool := (s.teamWaves w.tid).all fun e => e.2.retired || e.2.idx == w.idx

/-- Whether a wave retires now: its last lane has exited, its results are in, nothing of it is unperformed (R432, R122), and the
last one of a team waits for the team's handles (R272). Log entry 83, DEDUCED. -/
def State.canRetireWave (s : State) (w : Wave) : Bool :=
  w.live == 0#64 && !w.retired && w.clean && s.runs w &&
    (!s.lastWave w || ((s.teams.get? w.tid).map (s.handlesQuiet w.tid)).getD true)

/-- A retired wave: its allocation has joined the pool (R432, R128). -/
def Wave.gone (w : Wave) : Wave :=
  { w with alloc := 0, regs := [], hidden := [], fpmode := 0, fflags := 0, srseed := 0, stop := none, waiting := none,
           sleep := none, parked := false, retired := true }

/-- WAVE_RETIRE (R432): `x` the wave. -/
def execWaveRetire (s : State) : Out :=
  match s.waves.get? s.ev.x with
  | none => .refused (.notEnabled "no such wave")
  | some w =>
    if s.canRetireWave w then
      let s := (s.setWave s.ev.x w.gone).updTeam w.tid fun t => { t with pool := t.pool + w.alloc }
      .next (s.claimDeadlock w.tid)
    else .refused (.notEnabled "the wave does not retire")

/-- Whether a team retires now (R433). -/
def State.canRetireTeam (s : State) (tid : Nat) (t : Team) : Bool :=
  ((s.teamWaves tid).all fun e => e.2.retired) && !(s.cmds.any fun e => e.2.tid = tid) &&
    s.handlesQuiet tid t && !s.failed t.lid

/-- Whether a team of a gang is still resident or saved. -/
def State.gangLeft (s : State) (lid gang : Nat) : Bool :=
  (s.teams.any fun e => e.2.lid = lid ∧ e.2.gang = gang) || s.saved.any fun e => e.2.lid = lid ∧ e.2.gang = gang

/-- A team retires; with the last of its gang GANGS_DONE rises (R433, R434). -/
def State.retireTeam (s : State) (tid : Nat) (t : Team) : State :=
  let s := s.removeTeam tid t
  if s.gangLeft t.lid t.gang then s else s.updLaunch t.lid fun l => { l with gangsDone := l.gangsDone + 1 }

/-- TEAM_RETIRE (R433, R434): `x` the team. -/
def execTeamRetire (s : State) : Out :=
  match s.teams.get? s.ev.x with
  | none => .refused (.notEnabled "no such team")
  | some t =>
    if s.canRetireTeam s.ev.x t then .next (s.retireTeam s.ev.x t) else .refused (.notEnabled "the team does not retire")

/-- A launch's hampers are freed everywhere and its entries dropped (R435 step 1, R410). -/
def State.dropTasks (s : State) (lid : Nat) : State :=
  { s with clusters := s.clusters.map fun e =>
      if (e.2.hampersOf lid).isEmpty then e else (e.1, { e.2 with hampers := e.2.hampers.filter fun h => h.2.lid != lid }) }

/-- Whether a launch succeeds now (R435). -/
def Launch.succeeded (l : Launch) : Bool :=
  l.stage == .running && l.fail.isNone && decide (l.nextGang = l.gangs) && decide (l.gangsDone = l.gangs)

/-- LAUNCH_COMPLETE (R435): `x` the launch. -/
def execLaunchComplete (s : State) : Out :=
  match s.launches.get? s.ev.x with
  | none => .refused (.notEnabled "no such launch")
  | some l =>
    if l.succeeded then .next ((s.dropTasks s.ev.x).completeLaunch s.ev.x 1 0)
    else .refused (.notEnabled "the launch is not done")

/-- LAUNCH_KILL (R400): the runtime kills launch `x`. -/
def execLaunchKill (s : State) : Out :=
  if (s.launches.get? s.ev.x).isSome then .next (s.failLaunch s.ev.x 7 2) else .refused (.notEnabled "no such launch")

/-- Whether a request is one of some waves or of their commands. -/
def State.asksFor (s : State) (ws : List Nat) (r : OutReq) : Bool :=
  match r.who with
  | .wave x => ws.contains x
  | .elem k _ => ((s.cmds.get? k).map fun c => ws.contains c.wid).getD false
  | .device _ => false

/-- A team of a discarded launch goes: its threads end, which R63 counts as their exits (R431), entries not performed are discarded,
commands stop (R410). Log entry 70, DEDUCED. -/
def State.discardTeam (s : State) (tid : Nat) (t : Team) : State :=
  let ws := s.teamWaves tid
  let mine := ws.map (·.1)
  let s := ws.foldl (fun s e => s.markTriggered e.1 e.2.live) s
  let s := { s with
    pend := s.pend.filter fun p => !mine.contains p.2
    fabOut := s.fabOut.filter fun r => !s.asksFor mine r }
  s.removeTeam tid t

/-- The saved gangs of a launch are discarded and their slots freed (R410). -/
def State.discardSaved (s : State) (lid : Nat) : State :=
  let gs := (s.saved.filter fun e => e.2.lid = lid).map (·.2)
  let s := { s with saved := s.saved.filter fun e => e.2.lid != lid }
  gs.foldl (fun s g => s.updOwner g.owner fun o =>
    { o with framesUsed := o.framesUsed.filter fun k => !(g.teams.any fun t => t.slot == k) }) s

/-- A failed launch's resources are released and its completion word is written (R410, R437). -/
def State.discardLaunch (s : State) (lid : Nat) (f : Nat × Nat) : State :=
  let s := (s.launchTeams lid).foldl (fun s e => s.discardTeam e.1 e.2) s
  ((s.discardSaved lid).dropTasks lid).completeLaunch lid f.1 f.2

/-- LAUNCH_DISCARD (R410, R64): `x` a launch that has failed or been killed. -/
def execLaunchDiscard (s : State) : Out :=
  match (s.launches.get? s.ev.x).bind (·.fail) with
  | some f => .next (s.discardLaunch s.ev.x f)
  | none => .refused (.notEnabled "the launch has not failed")

end Sys2Proof.Machine
end

