-- ==== Sys2Proof/Machine/Sync.lean ====
section
/-! DEFINITION. The SYNC group: barriers (R346 to R351), TSYNC (R352), TRIGGER (R353), LAUNCH (R354). -/

namespace Sys2Proof.Machine

/-- The barrier trap: the lanes that fail, the barrier of the lowest (R346, R251, R388). Log entry 23, DEDUCED. -/
def Ctx.barrierTrap (c : Ctx) (a : Reg) (lanes : List Nat) : Res :=
  .trap ⟨.barrier, maskOf lanes, 0, (c.reg a ((lanes.head?).getD 0)).setWidth 64, none⟩

/-- Whether a barrier's address is legal (R346). -/
def Ctx.barrierAt (c : Ctx) (a : Nat) : Bool := a % 8 == 0 && decide (a + 8 ≤ c.t.localBytes)

/-- The checks of an instruction that names barriers: addresses, then a condition of its own on the lanes; then lines that
are absent park the wave (R346, R257). Log entry 23, DEDUCED. -/
def Ctx.barrierStop (c : Ctx) (a : Reg) (ok : Nat → Bool) : Option Res :=
  let ls := lanesOf c.cnt
  match ls.filter fun l => !c.barrierAt (c.reg a l).toNat with
  | l :: r => some (c.barrierTrap a (l :: r))
  | [] =>
    if ls.any fun l => c.t.absentAt (c.reg a l).toNat then some c.parkAbsent
    else
      match ls.filter fun l => !ok l with
      | l :: r => some (c.barrierTrap a (l :: r))
      | [] => none

/-- Barriers of consecutive lanes that lie in one line of the local store and are all different. -/
def oneLine {α : Type} (r : List (Nat × α)) (x : Nat × α) : Bool := r.all fun y => y.1 / 128 == x.1 / 128 && y.1 != x.1

/-- The store entries of a SYNC instruction of the counted lanes, in lane order: one for each line of the local store, performed
as far as the lanes' order lets it be at one point (R254, R325). -/
def Ctx.syncEntries {α : Type} (c : Ctx) (op : List (Nat × α) → SbOp) (bs : List (Nat × α)) (s : State) : State :=
  s.updWave c.wid fun w =>
    w.enter c.s.seq ((runs oneLine bs).map fun r => (8 * (((r.head?).map (·.1)).getD 0 / 128) + 3, op r))

/-- BINIT (R347). -/
def execBinit (a b : Reg) (s : State) : Out :=
  issue { src := [(a, 1), (b, 1)] }
    (fun c =>
      match c.barrierStop a fun l => decide (1 ≤ (c.reg b l).toNat ∧ (c.reg b l).toNat ≤ 1024) with
      | some r => r
      | none =>
        .go (c.syncEntries .binit ((lanesOf c.cnt).map fun l => ((c.reg a l).toNat, (c.reg b l).toNat)) c.s)) s

/-- BEXPECT and BCREDIT (R348). -/
def owedOp (a b : Reg) (sign : Int) (s : State) : Out :=
  issue { src := [(a, 1), (b, 1)] }
    (fun c =>
      match c.barrierStop a fun l => decide ((c.reg b l).toNat < 2 ^ 31) with
      | some r => r
      | none =>
        .go (c.syncEntries .owed ((lanesOf c.cnt).map fun l => ((c.reg a l).toNat, sign * (c.reg b l).toNat)) c.s)) s

/-- BEXPECT (R348). -/
def execBexpect (a b : Reg) (s : State) : Out := owedOp a b 1 s

/-- BCREDIT (R348). -/
def execBcredit (a b : Reg) (s : State) : Out := owedOp a b (-1) s

/-- Whether word 0 of a barrier has reserved bits set or INIT = 0 (R349, R350). -/
def barrierMalformed (w : Word) : Bool :=
  bitsOf w.toNat 30 27 != 0 || bitsOf w.toNat 15 11 != 0 || bitsOf w.toNat 26 16 == 0

/-- One lane's arrival at a barrier of a team (R349): the word it receives, or none where it may not arrive. -/
def Team.arrive (t : Team) (a : Nat) : Option (Word × Team) :=
  let w := t.lsWord a
  if barrierMalformed w ∨ w.toNat % 2 ^ 11 = 0 then none
  else some (w, (t.lsPutWord a (w - 1)).barrierSettled a)

/-- The arrivals of lanes in order: words received, lanes that may not arrive, the team after. -/
def arrivals (t : Team) : List (Nat × Nat) → List (Nat × Word) × List Nat × Team
  | [] => ([], [], t)
  | (l, a) :: r =>
    match t.arrive a with
    | some (w, t) =>
      let x := arrivals t r
      ((l, w) :: x.1, x.2.1, x.2.2)
    | none =>
      let x := arrivals t r
      (x.1, l :: x.2.1, x.2.2)

/-- BARRIVE (R349): every lane is checked before any arrives. Log entry 69, DEDUCED. -/
def execBarrive (d a : Reg) (s : State) : Out :=
  issue { dst := [(d, 1)], src := [(a, 1)] }
    (fun c =>
      match c.barrierStop a fun _ => true with
      | some r => r
      | none =>
        let as := (lanesOf c.cnt).map fun l => (l, (c.reg a l).toNat)
        let x := arrivals c.t as
        match x.2.1 with
        | l :: r => c.barrierTrap a (l :: r)
        | [] =>
          let s := c.s.check (as.map fun e => Loc.ls c.w.tid (e.2 / 4)) (some c.wid)
          let s := s.updTeam c.w.tid fun t => { t with ls := x.2.2.ls }.name (as.map fun (e : Nat × Nat) => e.2)
          .go (c.writeV d 1 (fun l => ⟨((x.1.find? fun e => e.1 = l).map (·.2)).toList, {}⟩) s)) s

/-- The lanes of a test instruction that pass go on, the others stay: the only set of a wave waits for all (R350). -/
def Ctx.passOrStay (c : Ctx) (pass : Nat → Bool) (waits : Res) (s : State) : Res :=
  if (lanesOf c.set).all pass then .go s
  else if !c.w.divided then waits
  else .jump s (fun l => some (if pass l then c.pc4 else c.pc)) true

/-- The barriers that the counted lanes name are the team's from then on (R346). -/
def Ctx.named (c : Ctx) (a : Reg) : State :=
  c.s.updTeam c.w.tid fun t => t.name ((lanesOf c.cnt).map fun l => (c.reg a l).toNat)

/-- An instruction that waits keeps what it has begun. -/
def Res.keeping (s : State) : Res → Res
  | .wait => .hold s
  | r => r

/-- Word 0 of the barrier a lane names, as the wave reads it, none while the read must wait (R255). -/
def Ctx.barrierWord (c : Ctx) (a : Reg) (l : Nat) : Option Word :=
  (c.readBytes (.ls (c.reg a l).toNat) 4).map fun bs => BitVec.ofNat 32 (leValue bs)

/-- BWAIT's test, once its read has joined the region: a malformed word traps, else lanes pass or stay (R350). -/
def Ctx.barrierTest (c : Ctx) (a b : Reg) (s : State) : Res :=
  let word (l : Nat) : Word := (c.barrierWord a l).getD 0
  match (lanesOf c.cnt).filter fun l => barrierMalformed (word l) with
  | l :: r => (c.barrierTrap a (l :: r)).from s
  | [] => c.passOrStay (fun l => hasLane c.w.helper l || (word l).getLsbD 31 != (c.reg b l).getLsbD 31) .wait s

/-- BWAIT (R350). Log entry 23, DEDUCED; log entry 69, DEDUCED. -/
def execBwait (a b : Reg) (s : State) : Out :=
  let f : Form := { src := [(a, 1), (b, 1)] }
  issue f
    (fun c =>
      match c.barrierStop a fun _ => true with
      | some r => r
      | none =>
        let t := c.named a
        Res.keeping t (if (lanesOf c.cnt).any fun l => (c.barrierWord a l).isNone then .wait
          else { c with s := t }.asLoad f
            ((lanesOf c.cnt).map fun l => Loc.ls c.w.tid ((c.reg a l).toNat / 4)).eraseDups (c.barrierTest a b))) s

/-- Lanes of a wave whose TSYNC arrival is not performed. -/
def Wave.arriving (w : Wave) : Mask :=
  (w.sbuf ++ w.spilling.getD []).foldl (fun m e => match e.op with
    | .arrive ls => m ||| ls
    | _ => m) 0

/-- Whether instance n of TSYNC is complete (R352). -/
def State.tsyncDone (s : State) (tid n : Nat) : Bool :=
  (s.teamWaves tid).all fun e => (lanesOf e.2.counted).all fun l => decide (n ≤ e.2.tsCount.get 0 l)

/-- Whether a lane passes TSYNC in a wave. -/
def State.tsyncPass (s : State) (w : Wave) (l : Nat) : Bool :=
  hasLane w.helper l || (hasLane w.tsMark l && s.tsyncDone w.tid (w.tsCount.get 0 l))

/-- The lanes that arrive at TSYNC: counted lanes whose mark is clear (R352). -/
def Ctx.newcomers (c : Ctx) : Mask := c.cnt &&& ~~~c.w.tsMark

/-- Their arrivals enter the store buffer and their marks are set. -/
def Ctx.tsyncArrive (c : Ctx) : State :=
  c.s.updWave c.wid fun w =>
    { (w.enter c.s.seq [(7, .arrive c.newcomers)]) with tsMark := w.tsMark ||| c.newcomers }

/-- The lanes of the set that pass TSYNC. -/
def Ctx.tsyncPassing (c : Ctx) : Mask := maskOf ((lanesOf c.set).filter (c.s.tsyncPass c.w))

/-- TSYNC's completion test once it may read: the lanes that pass lose their mark and go on, the others stay as at BWAIT (R352). -/
def Ctx.tsyncTest (c : Ctx) (s : State) : Res :=
  let ps := c.tsyncPassing
  c.passOrStay (hasLane ps) .wait (s.updWave c.wid fun w => { w with tsMark := w.tsMark &&& ~~~ps })

/-- Whether the execution ends for its lanes, all of which pass or some of which stay behind as other sets do (R350). -/
def Ctx.tsyncEnds (c : Ctx) : Bool := c.w.divided || (lanesOf c.set).all (hasLane c.tsyncPassing)

/-- TSYNC (R352): lanes whose mark is clear arrive. The completion test, a load that joins the read set where the execution ends
(R327, R337), waits until the wave's own arrivals are performed (R255). -/
def execTsync (s : State) : Out :=
  issue {}
    (fun c =>
      if c.newcomers ≠ 0#64 then (if c.w.sbuf.any (·.held) then .wait else .hold c.tsyncArrive)
      else if c.cnt ≠ 0#64 ∧ c.w.arriving ≠ 0#64 then .wait
      else if c.cnt ≠ 0#64 ∧ c.tsyncEnds then c.asLoad {} [.tsync c.w.tid] c.tsyncTest
      else c.tsyncTest c.s) s

/-- TRIGGER (R353). -/
def execTrigger (s : State) : Out := issue {} (fun c => .go (c.s.markTriggered c.wid c.cnt)) s

/-- One lane of LAUNCH: the front reads the record at its home and appends it (R58, R354). -/
def Ctx.launchLane (c : Ctx) (q : Word) (p : Phys) (s : State) : Word × State :=
  let s := s.agentReads c.t.owner p 64
  s.appendRecord c.t.owner q.toNat (s.bytesAt p.sp p.key p.addr 64)

/-- The lanes of LAUNCH, in order: the words they receive and the state after. Log entry 23, DEDUCED. -/
def Ctx.launchLanes (c : Ctx) (b : Reg) (as : List LaneAcc) (s : State) : List (Nat × Word) × State :=
  as.foldl (fun acc a => match a.tgt with
    | .mem p =>
      let x := c.launchLane (c.reg b a.lane) p acc.2
      (acc.1 ++ [(a.lane, x.1)], x.2)
    | _ => acc) ([], s)

/-- LAUNCH (R354). -/
def execLaunch (d a b : Reg) (s : State) : Out :=
  issue { dst := [(d, 1)], src := [(a, 2), (b, 1)] }
    (fun c =>
      let one (l : Nat) := c.globalLane .load 64 l (c.regW a l)
      match c.accStop .load (fun l => c.regW a l) one with
      | some r => r
      | none =>
        if (lanesOf c.cnt).any fun l => 64 ≤ (c.reg b l).toNat then .trap (c.trapOf .illegal)
        else
          let as := passing c.cnt one
          let r := c.launchLanes b as (c.lookedUp (fun l => c.regW a l) one)
          .go (c.writeV d 1 (fun l => ⟨((r.1.find? fun e => e.1 = l).map (·.2)).toList, {}⟩) r.2)) s

end Sys2Proof.Machine
end

