-- ==== Sys2Proof/Machine/Transcend.lean ====
section
/-! DEFINITION. FSQRT and the transcendental functions (R183, R185, R186). A result that R185 leaves open is an
uninterpreted constant of Config wherever that constant keeps the bound; where it does not, the exact value rounded stands
in, so that the bound always holds. Exact values are computed in fixed point with 160 fractional bits. -/

namespace Sys2Proof.Machine

/-- The functions of R185. -/
inductive TFun where
  | rcp | rsq | exp2 | log2 | sin | cos | tanh
  deriving DecidableEq, Repr

/-- FUNARY codes (R183). -/
def TFun.code : TFun → Nat
  | .rcp => 2
  | .rsq => 3
  | .exp2 => 5
  | .log2 => 6
  | .sin => 7
  | .cos => 8
  | .tanh => 9

/-- One in fixed point. -/
def fx : Nat := 2 ^ 160

/-- π in fixed point. -/
def fxPi : Nat := 0x3243f6a8885a308d313198a2e03707344a4093822

/-- The natural logarithm of 2 in fixed point. -/
def fxLn2 : Nat := 0xb17217f7d1cf79abc9e3b39803f2f6af40f34326

/-- The integer square root of n below 2^(2k), bit by bit. -/
def isqrt (n : Nat) : (k : Nat) → Nat → Nat
  | 0, r => r
  | k + 1, r => isqrt n k (if (r + 2 ^ k) * (r + 2 ^ k) ≤ n then r + 2 ^ k else r)

/-- A square root: to 200 fractional bits, with a half unit more where it is not exact. -/
def Mag.sqrt (m : Mag) : Mag :=
  let n := m.n * 2 ^ 400 / m.d
  let r := isqrt n 300 0
  ⟨if r * r * m.d = m.n * 2 ^ 400 then 2 * r else 2 * r + 1, 2 ^ 201⟩

/-- Σ xᵏ/k! from a term on, in fixed point. -/
def expSum (x : Nat) : (fuel k term : Nat) → Nat
  | 0, _, _ => 0
  | n + 1, k, t => t + expSum x n (k + 1) (t * x / fx / k)

/-- 2^f of a fraction in fixed point. -/
def exp2Frac (f : Nat) : Nat := expSum (f * fxLn2 / fx) 50 1 fx

/-- 2^v of a fixed-point number between −400 and 200. -/
def exp2Fix (v : Int) : Mag := Mag.scale ⟨exp2Frac (v % (fx : Int)).toNat, fx⟩ (max (-400) (min 200 (v / (fx : Int))))

/-- A signed magnitude in fixed point. -/
def fxOf (neg : Bool) (m : Mag) : Int := if neg then -(m.n * fx / m.d : Nat) else (m.n * fx / m.d : Nat)

/-- Σ z^(2k+1)/(2k+1) from a power on, in fixed point. -/
def atanhSum (zz : Nat) : (fuel k pow : Nat) → Nat
  | 0, _, _ => 0
  | n + 1, k, p => p / k + atanhSum zz n (k + 2) (p * zz / fx)

/-- log2 of a positive magnitude, in fixed point. -/
def log2Fix (m : Mag) : Int :=
  let e := m.log2
  let y := m.scale (-e)
  let z := (y.n - y.d) * fx / (y.n + y.d)
  e * fx + (2 * atanhSum (z * z / fx) 60 1 z * fx / fxLn2 : Nat)

/-- sin x for x up to π/2, in fixed point, from a term on. -/
def sinSum (xx : Nat) : (fuel k term : Nat) → Int
  | 0, _, _ => 0
  | n + 1, k, t => (t : Int) - sinSum xx n (k + 2) (t * xx / fx / ((k + 1) * (k + 2)))

/-- sin of f turns, 0 ≤ f < 1, in fixed point. -/
def sinTurns (f : Nat) : Int :=
  let g := f % (fx / 2)
  let h := if fx / 4 < g then fx / 2 - g else g
  let x := 2 * h * fxPi / fx
  let s := sinSum (x * x / fx) 30 1 x
  if fx / 2 ≤ f then -s else s

/-- The fraction of a signed value in turns, in fixed point. -/
def turns (neg : Bool) (m : Mag) : Nat := (fxOf neg m % (fx : Int)).toNat

/-- tanh of a positive magnitude. -/
def tanhMag (m : Mag) : Mag :=
  if m.n * 2 ^ 20 < m.d then ⟨m.n * (3 * m.d * m.d - m.n * m.n), 3 * m.d * m.d * m.d⟩
  else if 64 * m.d ≤ m.n then ⟨2 ^ 100 - 1, 2 ^ 100⟩
  else
    let e := exp2Fix (-(2 * (m.n * fx / m.d) * fx / fxLn2 : Nat))
    ⟨e.d - e.n, e.d + e.n⟩

/-- A fixed-point number as a sign and magnitude. -/
def fxNum (v : Int) : Bool × Mag := (decide (v < 0), ⟨v.natAbs, fx⟩)

/-- The function's value at a finite operand that R186 does not list, closely. Log entry 7, DESIGN CHOICE. -/
def TFun.value (f : TFun) (neg : Bool) (m : Mag) : Bool × Mag :=
  match f with
  | .rcp => (neg, ⟨m.d, m.n⟩)
  | .rsq => (false, Mag.sqrt ⟨m.d, m.n⟩)
  | .exp2 => (false, exp2Fix (max (-400 * fx) (min (200 * fx) (fxOf neg m))))
  | .log2 => fxNum (log2Fix m)
  | .sin => fxNum (sinTurns (turns neg m))
  | .cos =>
    if m.n * 2 ^ 40 < m.d then
      (false, ⟨(fx * m.d) ^ 2 - 2 * (fxPi * m.n) ^ 2, (fx * m.d) ^ 2⟩)
    else fxNum (sinTurns ((turns neg m + fx / 4) % fx))
  | .tanh => (neg, tanhMag m)

/-- One ulp of FP32 at a magnitude (R185). -/
def ulp (r : Mag) : Mag := Mag.scale ⟨1, 1⟩ (max (if r.n = 0 then -126 else r.log2) (-126) - 23)

/-- The bound of R185 at an operand with exact value r. -/
def TFun.bound (f : TFun) (m r : Mag) : Mag :=
  match f with
  | .rcp => ulp r
  | .rsq => ulp r
  | .log2 => if Mag.le ⟨1, 2⟩ m ∧ Mag.le m ⟨2, 1⟩ then ⟨1, 2 ^ 21⟩ else (ulp r).mul ⟨2, 1⟩
  | .sin => ⟨1, 2 ^ 22⟩
  | .cos => ⟨1, 2 ^ 22⟩
  | _ => (ulp r).mul ⟨2, 1⟩

/-- Whether a result code keeps the bound of R185 against the exact value. Log entry 7, DESIGN CHOICE. -/
def TFun.keeps (f : TFun) (m : Mag) (r : Bool × Mag) (c : Word) : Bool :=
  match f32 c with
  | .fin n v =>
    let x : Int := if n then -(v.n * r.2.d : Int) else v.n * r.2.d
    let y : Int := if r.1 then -(r.2.n * v.d : Int) else r.2.n * v.d
    Mag.le ⟨(x - y).natAbs, v.d * r.2.d⟩ (f.bound m r.2) && (f != .tanh || Mag.le v ⟨1, 1⟩)
  | _ => false

/-- The result the device returns at such an operand. Log entry 7, DESIGN CHOICE. -/
def TFun.result (f : TFun) (ftz : Bool) (x : Word) (neg : Bool) (m : Mag) : Word :=
  let r := f.value neg m
  let c := Config.transcendental f.code ftz x
  if f.keeps m r c then c else rne32 (.fin r.1 r.2)

/-- An exact FP32 result of a listed case. -/
def exactly (neg : Bool) (m : Mag) : Num × FpFlags := (.fin neg m, {})

/-- k with m = 2^k, if m is a power of two. -/
def Mag.power? (m : Mag) : Option Int := if Mag.scale ⟨1, 1⟩ m.log2 |>.le m then
    (if m.le (Mag.scale ⟨1, 1⟩ m.log2) then some m.log2 else none) else none

/-- Whether 2^k is representable in FP32. -/
def powFits (k : Int) : Bool := decide (-149 ≤ k) && decide (k ≤ 127)

/-- The listed cases of R186. "A power of two" is a positive one. Log entry 7, DESIGN CHOICE. -/
def TFun.special (f : TFun) (x : Num) : Option (Num × FpFlags) :=
  match x with
  | .nan q => some (.nan false, { nv := q })
  | .inf n =>
    match f with
    | .rcp => some (exactly n ⟨0, 1⟩)
    | .rsq => some (if n then (.nan false, { nv := true }) else exactly false ⟨0, 1⟩)
    | .exp2 => some (if n then exactly false ⟨0, 1⟩ else (.inf false, {}))
    | .log2 => some (if n then (.nan false, { nv := true }) else (.inf false, {}))
    | .sin => some (.nan false, { nv := true })
    | .cos => some (.nan false, { nv := true })
    | .tanh => some (exactly n ⟨1, 1⟩)
  | .fin n m =>
    if m.n = 0 then
      match f with
      | .rcp => some (.inf n, { dz := true })
      | .rsq => some (.inf n, { dz := true })
      | .exp2 => none
      | .log2 => some (.inf true, { dz := true })
      | .sin => some (exactly n ⟨0, 1⟩)
      | .cos => some (exactly false ⟨1, 1⟩)
      | .tanh => some (exactly n ⟨0, 1⟩)
    else
      match f with
      | .rcp =>
        if n then none
        else
          match m.power? with
          | some k => if powFits (-k) then some (exactly false (Mag.scale ⟨1, 1⟩ (-k))) else none
          | none => none
      | .rsq =>
        if n then some (.nan false, { nv := true })
        else
          match m.power? with
          | some k => if k % 2 = 0 then some (exactly false (Mag.scale ⟨1, 1⟩ (-(k / 2)))) else none
          | none => none
      | .exp2 =>
        if n then none
        else
          match m.power? with
          | some k => if 0 ≤ k ∧ k ≤ 6 then some (exactly false (Mag.scale ⟨1, 1⟩ (2 ^ k.toNat : Nat))) else none
          | none => none
      | .log2 =>
        if n then some (.nan false, { nv := true })
        else
          match m.power? with
          | some k => some (exactly (decide (k < 0)) ⟨k.natAbs, 1⟩)
          | none => none
      | .sin =>
        let t := turns n m
        if m.n * 4 % m.d ≠ 0 then none
        else if t * 2 % fx = 0 then some (exactly n ⟨0, 1⟩)
        else some (exactly (decide (fx / 2 < t)) ⟨1, 1⟩)
      | .cos =>
        let t := turns n m
        if m.n * 4 % m.d ≠ 0 then none
        else if t * 2 % fx = 0 then some (exactly (decide (t ≠ 0)) ⟨1, 1⟩)
        else some (exactly false ⟨0, 1⟩)
      | .tanh => none

/-- Whether the exact value lies beyond the FP32 range: FRCP of a tiny operand, FEXP2 from 128 on (R186).
Log entry 91, DEDUCED. -/
def TFun.overflows (f : TFun) (neg : Bool) (m : Mag) : Bool :=
  match f with
  | .rcp => Mag.le m (Mag.scale ⟨1, 1⟩ (-128))
  | .exp2 => !neg && Mag.le ⟨128, 1⟩ m
  | _ => false

/-- The function of an operand code (R185, R186), FTZ applied to the operand and the result (R146). Log entry 91, DEDUCED. -/
def TFun.apply (f : TFun) (ftz : Bool) (a : Word) : Word × FpFlags :=
  let x := flush ftz a
  match f.special (f32 x) with
  | some (r, fl) =>
    let o := round32 .rne ftz 0 r false
    (o.1, o.2.or fl)
  | none =>
    match f32 x with
    | .fin n m =>
      if f.overflows n m then (if n then 0xFF800000#32 else 0x7F800000#32, { of := true, nx := true })
      else
        let w := f.result ftz x n m
        let small := w.toNat % 2 ^ 31 < 0x00800000
        (flush ftz w, { nx := true, uf := small })
    | _ => (0x7FC00000#32, {})

/-- FRCP, FRSQ, FEXP2, FLOG2, FSIN, FCOS and FTANH in each lane, class V. -/
def transOp (f : TFun) (d a : Reg) (s : State) : Out :=
  LaneOp.exec
    { d := d, srcs := [a], classV := true
      out := fun c l =>
        let r := f.apply c.w.ftz (c.operand a l)
        ⟨[r.1], r.2⟩ } s

/-- FRCP (R183). -/
def execFrcp (d a : Reg) (s : State) : Out := transOp .rcp d a s

/-- FRSQ (R183). -/
def execFrsq (d a : Reg) (s : State) : Out := transOp .rsq d a s

/-- FEXP2 (R183). -/
def execFexp2 (d a : Reg) (s : State) : Out := transOp .exp2 d a s

/-- FLOG2 (R183). -/
def execFlog2 (d a : Reg) (s : State) : Out := transOp .log2 d a s

/-- FSIN (R183). -/
def execFsin (d a : Reg) (s : State) : Out := transOp .sin d a s

/-- FCOS (R183). -/
def execFcos (d a : Reg) (s : State) : Out := transOp .cos d a s

/-- FTANH (R183). -/
def execFtanh (d a : Reg) (s : State) : Out := transOp .tanh d a s

/-- The exact square root of a value, and whether it is invalid (R183, R186). -/
def Num.sqrt (x : Num) : Num × Bool :=
  match x with
  | .nan q => (.nan false, q)
  | .inf n => if n then (.nan false, true) else (.inf false, false)
  | .fin n m => if m.n = 0 then (.fin n m, false) else if n then (.nan false, true) else (.fin false m.sqrt, false)

/-- FSQRT's rounding mode: RNE when RM is stochastic (R183). -/
def sqrtRm (rm : Rm) : Rm := if rm = .stoch then .rne else rm

/-- FSQRT (R183). -/
def execFsqrt (d a : Reg) (s : State) : Out :=
  LaneOp.exec
    { d := d, srcs := [a], classV := true
      out := fun c l =>
        let x := (c.fop a l).sqrt
        let r := round32 (sqrtRm c.w.rm) c.w.ftz 0 x.1 x.2
        ⟨[r.1], r.2⟩ } s

end Sys2Proof.Machine
end

