-- ==== Sys2Proof/Machine/Dispatch.lean ====
section
/-! DEFINITION. Each instruction, operation and event sent to its meaning. -/

namespace Sys2Proof.Machine

/-- The meaning of an instruction for the set named by `cur`, or of an operation or event with the operands in `ev`. -/
def exec (i : Instr) (s : State) : Host.Outcome State Fault Refusal :=
  match i with
  | .iadd d a b => Sys2Proof.Machine.execIadd d a b s
  | .isub d a b => Sys2Proof.Machine.execIsub d a b s
  | .imul d a b => Sys2Proof.Machine.execImul d a b s
  | .imulh d a b => Sys2Proof.Machine.execImulh d a b s
  | .umulh d a b => Sys2Proof.Machine.execUmulh d a b s
  | .imad d a b => Sys2Proof.Machine.execImad d a b s
  | .imin d a b => Sys2Proof.Machine.execImin d a b s
  | .imax d a b => Sys2Proof.Machine.execImax d a b s
  | .umin d a b => Sys2Proof.Machine.execUmin d a b s
  | .umax d a b => Sys2Proof.Machine.execUmax d a b s
  | .iaddW d a b => Sys2Proof.Machine.execIaddW d a b s
  | .isubW d a b => Sys2Proof.Machine.execIsubW d a b s
  | .imulW d a b => Sys2Proof.Machine.execImulW d a b s
  | .umulW d a b => Sys2Proof.Machine.execUmulW d a b s
  | .and d a b => Sys2Proof.Machine.execAnd d a b s
  | .or d a b => Sys2Proof.Machine.execOr d a b s
  | .xor d a b => Sys2Proof.Machine.execXor d a b s
  | .andn d a b => Sys2Proof.Machine.execAndn d a b s
  | .orn d a b => Sys2Proof.Machine.execOrn d a b s
  | .xnor d a b => Sys2Proof.Machine.execXnor d a b s
  | .shl d a b => Sys2Proof.Machine.execShl d a b s
  | .shr d a b => Sys2Proof.Machine.execShr d a b s
  | .sra d a b => Sys2Proof.Machine.execSra d a b s
  | .rotl d a b => Sys2Proof.Machine.execRotl d a b s
  | .shlW d a b => Sys2Proof.Machine.execShlW d a b s
  | .shrW d a b => Sys2Proof.Machine.execShrW d a b s
  | .sraW d a b => Sys2Proof.Machine.execSraW d a b s
  | .cmpeq d a b => Sys2Proof.Machine.execCmpeq d a b s
  | .cmpne d a b => Sys2Proof.Machine.execCmpne d a b s
  | .cmplt d a b => Sys2Proof.Machine.execCmplt d a b s
  | .cmple d a b => Sys2Proof.Machine.execCmple d a b s
  | .cmpltu d a b => Sys2Proof.Machine.execCmpltu d a b s
  | .cmpleu d a b => Sys2Proof.Machine.execCmpleu d a b s
  | .sel d a b => Sys2Proof.Machine.execSel d a b s
  | .bfe d a b => Sys2Proof.Machine.execBfe d a b s
  | .bfi d a b => Sys2Proof.Machine.execBfi d a b s
  | .pack2 d a b => Sys2Proof.Machine.execPack2 d a b s
  | .permb d a b => Sys2Proof.Machine.execPermb d a b s
  | .clz d a => Sys2Proof.Machine.execClz d a s
  | .popc d a => Sys2Proof.Machine.execPopc d a s
  | .brev d a => Sys2Proof.Machine.execBrev d a s
  | .iabs d a => Sys2Proof.Machine.execIabs d a s
  | .ineg d a => Sys2Proof.Machine.execIneg d a s
  | .not d a => Sys2Proof.Machine.execNot d a s
  | .mov d a => Sys2Proof.Machine.execMov d a s
  | .movW d a => Sys2Proof.Machine.execMovW d a s
  | .sextb d a => Sys2Proof.Machine.execSextb d a s
  | .sexth d a => Sys2Proof.Machine.execSexth d a s
  | .zextb d a => Sys2Proof.Machine.execZextb d a s
  | .zexth d a => Sys2Proof.Machine.execZexth d a s
  | .addi d a n => Sys2Proof.Machine.execAddi d a n s
  | .andi d a n => Sys2Proof.Machine.execAndi d a n s
  | .ori d a n => Sys2Proof.Machine.execOri d a n s
  | .xori d a n => Sys2Proof.Machine.execXori d a n s
  | .shli d a k => Sys2Proof.Machine.execShli d a k s
  | .shri d a k => Sys2Proof.Machine.execShri d a k s
  | .srai d a k => Sys2Proof.Machine.execSrai d a k s
  | .rotli d a k => Sys2Proof.Machine.execRotli d a k s
  | .shliW d a k => Sys2Proof.Machine.execShliW d a k s
  | .shriW d a k => Sys2Proof.Machine.execShriW d a k s
  | .sraiW d a k => Sys2Proof.Machine.execSraiW d a k s
  | .cmpeqi d a k => Sys2Proof.Machine.execCmpeqi d a k s
  | .cmpnei d a k => Sys2Proof.Machine.execCmpnei d a k s
  | .cmplti d a k => Sys2Proof.Machine.execCmplti d a k s
  | .cmplei d a k => Sys2Proof.Machine.execCmplei d a k s
  | .cmpgti d a k => Sys2Proof.Machine.execCmpgti d a k s
  | .cmpgei d a k => Sys2Proof.Machine.execCmpgei d a k s
  | .cmpltui d a k => Sys2Proof.Machine.execCmpltui d a k s
  | .cmpgeui d a k => Sys2Proof.Machine.execCmpgeui d a k s
  | .movi d n => Sys2Proof.Machine.execMovi d n s
  | .movhi d n => Sys2Proof.Machine.execMovhi d n s
  | .ldlit d n => Sys2Proof.Machine.execLdlit d n s
  | .ldlitW d n => Sys2Proof.Machine.execLdlitW d n s
  | .fadd d a b => Sys2Proof.Machine.execFadd d a b s
  | .fsub d a b => Sys2Proof.Machine.execFsub d a b s
  | .fmul d a b => Sys2Proof.Machine.execFmul d a b s
  | .ffma d a b => Sys2Proof.Machine.execFfma d a b s
  | .ffms d a b => Sys2Proof.Machine.execFfms d a b s
  | .fnfma d a b => Sys2Proof.Machine.execFnfma d a b s
  | .fmin d a b => Sys2Proof.Machine.execFmin d a b s
  | .fmax d a b => Sys2Proof.Machine.execFmax d a b s
  | .fcopysign d a b => Sys2Proof.Machine.execFcopysign d a b s
  | .fcmpeq d a b => Sys2Proof.Machine.execFcmpeq d a b s
  | .fcmplt d a b => Sys2Proof.Machine.execFcmplt d a b s
  | .fcmple d a b => Sys2Proof.Machine.execFcmple d a b s
  | .fcmpun d a b => Sys2Proof.Machine.execFcmpun d a b s
  | .fabs d a => Sys2Proof.Machine.execFabs d a s
  | .fneg d a => Sys2Proof.Machine.execFneg d a s
  | .frcp d a => Sys2Proof.Machine.execFrcp d a s
  | .frsq d a => Sys2Proof.Machine.execFrsq d a s
  | .fsqrt d a => Sys2Proof.Machine.execFsqrt d a s
  | .fexp2 d a => Sys2Proof.Machine.execFexp2 d a s
  | .flog2 d a => Sys2Proof.Machine.execFlog2 d a s
  | .fsin d a => Sys2Proof.Machine.execFsin d a s
  | .fcos d a => Sys2Proof.Machine.execFcos d a s
  | .ftanh d a => Sys2Proof.Machine.execFtanh d a s
  | .ffloor d a => Sys2Proof.Machine.execFfloor d a s
  | .fceil d a => Sys2Proof.Machine.execFceil d a s
  | .ftrunc d a => Sys2Proof.Machine.execFtrunc d a s
  | .frint d a => Sys2Proof.Machine.execFrint d a s
  | .fclass d a => Sys2Proof.Machine.execFclass d a s
  | .hadd2B d a b => Sys2Proof.Machine.execHadd2B d a b s
  | .hsub2B d a b => Sys2Proof.Machine.execHsub2B d a b s
  | .hmul2B d a b => Sys2Proof.Machine.execHmul2B d a b s
  | .hfma2B d a b => Sys2Proof.Machine.execHfma2B d a b s
  | .hmin2B d a b => Sys2Proof.Machine.execHmin2B d a b s
  | .hmax2B d a b => Sys2Proof.Machine.execHmax2B d a b s
  | .hadd2H d a b => Sys2Proof.Machine.execHadd2H d a b s
  | .hsub2H d a b => Sys2Proof.Machine.execHsub2H d a b s
  | .hmul2H d a b => Sys2Proof.Machine.execHmul2H d a b s
  | .hfma2H d a b => Sys2Proof.Machine.execHfma2H d a b s
  | .hmin2H d a b => Sys2Proof.Machine.execHmin2H d a b s
  | .hmax2H d a b => Sys2Proof.Machine.execHmax2H d a b s
  | .cvt d a b => Sys2Proof.Machine.execCvt d a b s
  | .cvtPack d a b => Sys2Proof.Machine.execCvtPack d a b s
  | .cvtUnpk d a b => Sys2Proof.Machine.execCvtUnpk d a b s
  | .cvtPack2 d a b => Sys2Proof.Machine.execCvtPack2 d a b s
  | .cvtUnpk2 d a b => Sys2Proof.Machine.execCvtUnpk2 d a b s
  | .cvtPacks d a b => Sys2Proof.Machine.execCvtPacks d a b s
  | .cvtUnpks d a b => Sys2Proof.Machine.execCvtUnpks d a b s
  | .qscale d a b => Sys2Proof.Machine.execQscale d a b s
  | .shfl d a b => Sys2Proof.Machine.execShfl d a b s
  | .shflup d a b => Sys2Proof.Machine.execShflup d a b s
  | .shfldn d a b => Sys2Proof.Machine.execShfldn d a b s
  | .shflx d a b => Sys2Proof.Machine.execShflx d a b s
  | .qxch d a b => Sys2Proof.Machine.execQxch d a b s
  | .ballot d a => Sys2Proof.Machine.execBallot d a s
  | .vany d a => Sys2Proof.Machine.execVany d a s
  | .vall d a => Sys2Proof.Machine.execVall d a s
  | .laneMatch d a => Sys2Proof.Machine.execLaneMatch d a s
  | .ired d a b => Sys2Proof.Machine.execIred d a b s
  | .fred d a b => Sys2Proof.Machine.execFred d a b s
  | .iscan d a b => Sys2Proof.Machine.execIscan d a b s
  | .fscan d a b => Sys2Proof.Machine.execFscan d a b s
  | .elect d => Sys2Proof.Machine.execElect d s
  | .sread d k => Sys2Proof.Machine.execSread d k s
  | .swrite a k => Sys2Proof.Machine.execSwrite a k s
  | .ld d a z off => Sys2Proof.Machine.execLd d a z off s
  | .st d a z off => Sys2Proof.Machine.execSt d a z off s
  | .ldl d a z off => Sys2Proof.Machine.execLdl d a z off s
  | .stl d a z off => Sys2Proof.Machine.execStl d a z off s
  | .ldx d a b z => Sys2Proof.Machine.execLdx d a b z s
  | .stx d a b z => Sys2Proof.Machine.execStx d a b z s
  | .atomAdd d a b => Sys2Proof.Machine.execAtomAdd d a b s
  | .atomAnd d a b => Sys2Proof.Machine.execAtomAnd d a b s
  | .atomOr d a b => Sys2Proof.Machine.execAtomOr d a b s
  | .atomXor d a b => Sys2Proof.Machine.execAtomXor d a b s
  | .atomMin d a b => Sys2Proof.Machine.execAtomMin d a b s
  | .atomMax d a b => Sys2Proof.Machine.execAtomMax d a b s
  | .atomUmin d a b => Sys2Proof.Machine.execAtomUmin d a b s
  | .atomUmax d a b => Sys2Proof.Machine.execAtomUmax d a b s
  | .atomXchg d a b => Sys2Proof.Machine.execAtomXchg d a b s
  | .atomCas d a b => Sys2Proof.Machine.execAtomCas d a b s
  | .atomInc d a b => Sys2Proof.Machine.execAtomInc d a b s
  | .atomFadd d a b => Sys2Proof.Machine.execAtomFadd d a b s
  | .atomHadd2B d a b => Sys2Proof.Machine.execAtomHadd2B d a b s
  | .atomHadd2H d a b => Sys2Proof.Machine.execAtomHadd2H d a b s
  | .atomFmin d a b => Sys2Proof.Machine.execAtomFmin d a b s
  | .atomFmax d a b => Sys2Proof.Machine.execAtomFmax d a b s
  | .atomWAdd d a b => Sys2Proof.Machine.execAtomWAdd d a b s
  | .atomWAnd d a b => Sys2Proof.Machine.execAtomWAnd d a b s
  | .atomWOr d a b => Sys2Proof.Machine.execAtomWOr d a b s
  | .atomWXor d a b => Sys2Proof.Machine.execAtomWXor d a b s
  | .atomWMin d a b => Sys2Proof.Machine.execAtomWMin d a b s
  | .atomWMax d a b => Sys2Proof.Machine.execAtomWMax d a b s
  | .atomWUmin d a b => Sys2Proof.Machine.execAtomWUmin d a b s
  | .atomWUmax d a b => Sys2Proof.Machine.execAtomWUmax d a b s
  | .atomWXchg d a b => Sys2Proof.Machine.execAtomWXchg d a b s
  | .atomWCas d a b => Sys2Proof.Machine.execAtomWCas d a b s
  | .atomWInc d a b => Sys2Proof.Machine.execAtomWInc d a b s
  | .atomlAdd d a b => Sys2Proof.Machine.execAtomlAdd d a b s
  | .atomlAnd d a b => Sys2Proof.Machine.execAtomlAnd d a b s
  | .atomlOr d a b => Sys2Proof.Machine.execAtomlOr d a b s
  | .atomlXor d a b => Sys2Proof.Machine.execAtomlXor d a b s
  | .atomlMin d a b => Sys2Proof.Machine.execAtomlMin d a b s
  | .atomlMax d a b => Sys2Proof.Machine.execAtomlMax d a b s
  | .atomlUmin d a b => Sys2Proof.Machine.execAtomlUmin d a b s
  | .atomlUmax d a b => Sys2Proof.Machine.execAtomlUmax d a b s
  | .atomlXchg d a b => Sys2Proof.Machine.execAtomlXchg d a b s
  | .atomlCas d a b => Sys2Proof.Machine.execAtomlCas d a b s
  | .atomlInc d a b => Sys2Proof.Machine.execAtomlInc d a b s
  | .atomlFadd d a b => Sys2Proof.Machine.execAtomlFadd d a b s
  | .atomlHadd2B d a b => Sys2Proof.Machine.execAtomlHadd2B d a b s
  | .atomlHadd2H d a b => Sys2Proof.Machine.execAtomlHadd2H d a b s
  | .atomlFmin d a b => Sys2Proof.Machine.execAtomlFmin d a b s
  | .atomlFmax d a b => Sys2Proof.Machine.execAtomlFmax d a b s
  | .bra n => Sys2Proof.Machine.execBra n s
  | .bz a n => Sys2Proof.Machine.execBz a n s
  | .bnz a n => Sys2Proof.Machine.execBnz a n s
  | .call d n => Sys2Proof.Machine.execCall d n s
  | .jmp a => Sys2Proof.Machine.execJmp a s
  | .jcall d a => Sys2Proof.Machine.execJcall d a s
  | .ret a => Sys2Proof.Machine.execRet a s
  | .sleep k => Sys2Proof.Machine.execSleep k s
  | .trap k => Sys2Proof.Machine.execTrap k s
  | .tret k => Sys2Proof.Machine.execTret k s
  | .regclm k => Sys2Proof.Machine.execRegclm k s
  | .regrel k => Sys2Proof.Machine.execRegrel k s
  | .wbase k => Sys2Proof.Machine.execWbase k s
  | .regstat d => Sys2Proof.Machine.execRegstat d s
  | .halloc d a b => Sys2Proof.Machine.execHalloc d a b s
  | .hfree a => Sys2Proof.Machine.execHfree a s
  | .hseal a => Sys2Proof.Machine.execHseal a s
  | .hwait a => Sys2Proof.Machine.execHwait a s
  | .hstat d a => Sys2Proof.Machine.execHstat d a s
  | .hgen d a => Sys2Proof.Machine.execHgen d a s
  | .lsfence a => Sys2Proof.Machine.execLsfence a s
  | .tfetch d a b => Sys2Proof.Machine.execTfetch d a b s
  | .tstore d a b => Sys2Proof.Machine.execTstore d a b s
  | .tmcast d a => Sys2Proof.Machine.execTmcast d a s
  | .lrbind a b => Sys2Proof.Machine.execLrbind a b s
  | .lrflush b => Sys2Proof.Machine.execLrflush b s
  | .abclaim d a => Sys2Proof.Machine.execAbclaim d a s
  | .abrel a => Sys2Proof.Machine.execAbrel a s
  | .mzero a => Sys2Proof.Machine.execMzero a s
  | .mma d a b => Sys2Proof.Machine.execMma d a b s
  | .mloop d a b => Sys2Proof.Machine.execMloop d a b s
  | .mdrain d a b => Sys2Proof.Machine.execMdrain d a b s
  | .bcopy d a b => Sys2Proof.Machine.execBcopy d a b s
  | .embag d a b => Sys2Proof.Machine.execEmbag d a b s
  | .tlwait a b => Sys2Proof.Machine.execTlwait a b s
  | .tlread d b => Sys2Proof.Machine.execTlread d b s
  | .qbind a b => Sys2Proof.Machine.execQbind a b s
  | .qunbind a => Sys2Proof.Machine.execQunbind a s
  | .qstat d a => Sys2Proof.Machine.execQstat d a s
  | .binit a b => Sys2Proof.Machine.execBinit a b s
  | .bexpect a b => Sys2Proof.Machine.execBexpect a b s
  | .barrive d a => Sys2Proof.Machine.execBarrive d a s
  | .bwait a b => Sys2Proof.Machine.execBwait a b s
  | .bcredit a b => Sys2Proof.Machine.execBcredit a b s
  | .launch d a b => Sys2Proof.Machine.execLaunch d a b s
  | .tkpush a => Sys2Proof.Machine.execTkpush a s
  | .tkpop d => Sys2Proof.Machine.execTkpop d s
  | .tkcancel a b => Sys2Proof.Machine.execTkcancel a b s
  | .tkstat d a => Sys2Proof.Machine.execTkstat d a s
  | .tlbinv d a k => Sys2Proof.Machine.execTlbinv d a k s
  | .icinv k => Sys2Proof.Machine.execIcinv k s
  | .csrrd d k => Sys2Proof.Machine.execCsrrd d k s
  | .csrwr a k => Sys2Proof.Machine.execCsrwr a k s
  | .perfrd d k => Sys2Proof.Machine.execPerfrd d k s
  | .nop => Sys2Proof.Machine.execNop s
  | .exit => Sys2Proof.Machine.execExit s
  | .yield => Sys2Proof.Machine.execYield s
  | .commit => Sys2Proof.Machine.execCommit s
  | .bkpt => Sys2Proof.Machine.execBkpt s
  | .tsync => Sys2Proof.Machine.execTsync s
  | .trigger => Sys2Proof.Machine.execTrigger s
  | .tkdone => Sys2Proof.Machine.execTkdone s
  | .halt => Sys2Proof.Machine.execHalt s
  | .takeRecords => Sys2Proof.Machine.execTakeRecords s
  | .queueEnable => Sys2Proof.Machine.execQueueEnable s
  | .queueReset => Sys2Proof.Machine.execQueueReset s
  | .imageCheck => Sys2Proof.Machine.execImageCheck s
  | .placeGang => Sys2Proof.Machine.execPlaceGang s
  | .colaunchPlace => Sys2Proof.Machine.execColaunchPlace s
  | .drainStart => Sys2Proof.Machine.execDrainStart s
  | .drainDeadline => Sys2Proof.Machine.execDrainDeadline s
  | .restoreGang => Sys2Proof.Machine.execRestoreGang s
  | .clusterOwnerChange => Sys2Proof.Machine.execClusterOwnerChange s
  | .waveRetire => Sys2Proof.Machine.execWaveRetire s
  | .teamRetire => Sys2Proof.Machine.execTeamRetire s
  | .launchComplete => Sys2Proof.Machine.execLaunchComplete s
  | .launchDiscard => Sys2Proof.Machine.execLaunchDiscard s
  | .launchKill => Sys2Proof.Machine.execLaunchKill s
  | .ownerCreate => Sys2Proof.Machine.execOwnerCreate s
  | .ownerDestroy => Sys2Proof.Machine.execOwnerDestroy s
  | .setKeys => Sys2Proof.Machine.execSetKeys s
  | .dbtagWrite => Sys2Proof.Machine.execDbtagWrite s
  | .faultdoneWrite => Sys2Proof.Machine.execFaultdoneWrite s
  | .hdmcfgWrite => Sys2Proof.Machine.execHdmcfgWrite s
  | .biasbaseWrite => Sys2Proof.Machine.execBiasbaseWrite s
  | .registerWrite => Sys2Proof.Machine.execRegisterWrite s
  | .storeEntrySend => Sys2Proof.Machine.execStoreEntrySend s
  | .invalidation => Sys2Proof.Machine.execInvalidation s
  | .storeEntryAck => Sys2Proof.Machine.execStoreEntryAck s
  | .atomicPerform => Sys2Proof.Machine.execAtomicPerform s
  | .classVResult => Sys2Proof.Machine.execClassVResult s
  | .regionCommit => Sys2Proof.Machine.execRegionCommit s
  | .cautiousModeEnd => Sys2Proof.Machine.execCautiousModeEnd s
  | .starvationSweep => Sys2Proof.Machine.execStarvationSweep s
  | .trapEntry => Sys2Proof.Machine.execTrapEntry s
  | .teamPark => Sys2Proof.Machine.execTeamPark s
  | .faultPost => Sys2Proof.Machine.execFaultPost s
  | .engineCommandRelease => Sys2Proof.Machine.execEngineCommandRelease s
  | .engineCommandComplete => Sys2Proof.Machine.execEngineCommandComplete s
  | .arraySlotStart => Sys2Proof.Machine.execArraySlotStart s
  | .bankSettle => Sys2Proof.Machine.execBankSettle s
  | .abclaimGrant => Sys2Proof.Machine.execAbclaimGrant s
  | .regclmGrant => Sys2Proof.Machine.execRegclmGrant s
  | .sleepEnd => Sys2Proof.Machine.execSleepEnd s
  | .coreGate => Sys2Proof.Machine.execCoreGate s
  | .coreWake => Sys2Proof.Machine.execCoreWake s
  | .coreResume => Sys2Proof.Machine.execCoreResume s
  | .powerThrottle => Sys2Proof.Machine.execPowerThrottle s
  | .railExcursion => Sys2Proof.Machine.execRailExcursion s
  | .moduleReset => Sys2Proof.Machine.execModuleReset s
  | .deviceIdWrite => Sys2Proof.Machine.execDeviceIdWrite s
  | .firmwareUpdate => Sys2Proof.Machine.execFirmwareUpdate s
  | .attestationRequest => Sys2Proof.Machine.execAttestationRequest s
  | .mrExtend => Sys2Proof.Machine.execMrExtend s
  | .debugUnlock => Sys2Proof.Machine.execDebugUnlock s
  | .hkPwrlimWrite => Sys2Proof.Machine.execHkPwrlimWrite s
  | .hkEccClear => Sys2Proof.Machine.execHkEccClear s
  | .memoryError => Sys2Proof.Machine.execMemoryError s
  | .memoryScrub => Sys2Proof.Machine.execMemoryScrub s
  | .arrayFault => Sys2Proof.Machine.execArrayFault s
  | .linkRetry => Sys2Proof.Machine.execLinkRetry s
  | .linkDown => Sys2Proof.Machine.execLinkDown s
  | .fabricRequest => Sys2Proof.Machine.execFabricRequest s
  | .fabricResend => Sys2Proof.Machine.execFabricResend s
  | .fabricUnreachable => Sys2Proof.Machine.execFabricUnreachable s
  | .leaseRequest => Sys2Proof.Machine.execLeaseRequest s
  | .leaseRecall => Sys2Proof.Machine.execLeaseRecall s
  | .leaseBlock => Sys2Proof.Machine.execLeaseBlock s
  | .hostSnoop => Sys2Proof.Machine.execHostSnoop s
  | .hostHdmAccess => Sys2Proof.Machine.execHostHdmAccess s
  | .keyFetch => Sys2Proof.Machine.execKeyFetch s
  | .illegalInstruction => Sys2Proof.Machine.execIllegalInstruction s
  | .instructionFetchFault => Sys2Proof.Machine.execInstructionFetchFault s
  | .elementAccessPerformed => Sys2Proof.Machine.execElementAccessPerformed s
  | .leaseBlockClear => Sys2Proof.Machine.execLeaseBlockClear s

end Sys2Proof.Machine
end

