-- ==== Sys2Proof/Machine/Schedule.lean ====
section
/-! DEFINITION. The acts the machine can take in a state: a wave's issue, an operation or event of the device itself, an
input from outside, or a cycle. The spec orders them only where its rules say so (R325, R326); which one a step takes is
the state's `sched` or a free choice. -/

namespace Sys2Proof.Machine

/-- An act of the machine. -/
inductive Act where
  /-- a wave issues -/
  | issue (wid : Nat)
  /-- an operation or event of the device with its operands -/
  | event (i : Instr) (e : Ev)
  /-- the input at a place of the list `inputs` -/
  | input (n : Nat)
  /-- a cycle passes -/
  | time

/-- Whether an act is a wave's issue. -/
def Act.issues (a : Act) (wid : Nat) : Bool :=
  match a with
  | .issue k => k == wid
  | _ => false

/-- Whether an outcome is a next state. -/
def isNext : Out → Bool
  | .next _ => true
  | _ => false

/-- The event with operands, as `exec` takes it. Log entry 51, DESIGN CHOICE. -/
def State.runEvent (s : State) (i : Instr) (e : Ev) : Out := exec i { s with ev := e }

/-- The word a set stands at is fetched and its instruction carried out, or its fetch or decode trap taken (R106).
Log entry 20, DESIGN CHOICE; log entry 52, DESIGN CHOICE. -/
def State.issueAt (s : State) (wid : Nat) (t : Team) (lv : Level) (x : Stand) : Out :=
  let s := s.forSet wid x.set x.pc x.word
  match s.fetchAccess t lv x.pc.toNat with
  | .ok tr p =>
    let f := s.fetchWord t x.pc.toNat tr p
    match instrOf f.1 with
    | some i => exec i (f.2.forSet wid x.set x.pc f.1)
    | none => exec .illegalInstruction (f.2.forSet wid x.set x.pc f.1)
  | _ => exec .instructionFetchFault s

/-- A wave's issue (R109 to R113), or the trap of R119. Log entry 45, DEDUCED. -/
def State.issueWave (s : State) (wid : Nat) : Out :=
  match s.waves.get? wid with
  | none => .refused .noIssuingWave
  | some w =>
    match s.teams.get? w.tid with
    | none => .refused .noIssuingWave
    | some t =>
      if !s.mayIssue w t then .refused (.notEnabled "the wave does not issue")
      else
        match s.choice wid w t with
        | (w1, some x) =>
          if w.fired ∧ w.waiting.isNone then .refused (.notEnabled "a sweep starts first")
          else (s.setWave wid w1).issueAt wid t w.level x
        | (_, none) =>
          match s.diverged wid w t with
          | some x =>
            .next (s.raise wid ⟨.collectiveDivergence, w.reported x, 0, 0, none⟩ x.set x.pc x.word)
          | none => .refused (.notEnabled "no set is eligible")

/-- An operation or event on numbered agents. -/
def doing (i : Instr) (x : Nat) (y z : Nat := 0) : Instr × Ev := (i, Ev.at x y z)

/-- The owners' queues. -/
def State.queueEvents (s : State) : List (Instr × Ev) :=
  s.owners.flatMap fun o =>
    (o.2.queues.map fun q => doing .takeRecords o.1 q.1) ++ o.2.faults.map fun f => doing .faultPost o.1 f.seq

/-- What the front may do for a launch. -/
def State.launchEvents (s : State) : List (Instr × Ev) :=
  s.launches.flatMap fun l =>
    [doing .imageCheck l.1, doing .drainStart l.1, doing .launchComplete l.1, doing .launchDiscard l.1]

/-- The clusters that must pass to an owner before the front places or restores there (R89). -/
def State.passing (s : State) : List (Instr × Ev) :=
  (s.awaited.map fun e => doing .clusterOwnerChange e.1 e.2) ++ (s.saved.filter fun g => s.nextRestore g.1 g.2).flatMap fun g =>
    (s.mustPass g.2.owner (List.range 800)).map fun x => doing .clusterOwnerChange x g.2.owner

/-- Placing, draining and restoring (R81 to R89, R402, R404). -/
def State.placeEvents (s : State) : List (Instr × Ev) :=
  [doing .placeGang 0, doing .colaunchPlace 0] ++ s.passing ++
    (s.drains.flatMap fun d => doing .drainDeadline d.cluster ::
      (s.clusterTeams d.cluster).map fun t => doing .drainDeadline d.cluster t.1) ++
    (s.saved.filter fun g => g.2.ready.isSome).flatMap fun g =>
      (List.range 800).map fun y => doing .restoreGang g.1 y

/-- What the machinery may do for a wave. -/
def State.waveEvents (s : State) : List (Instr × Ev) :=
  s.waves.flatMap fun w =>
    [doing .storeEntrySend w.1, doing .storeEntryAck w.1, doing .regionCommit w.1, doing .cautiousModeEnd w.1,
      doing .starvationSweep w.1, doing .trapEntry w.1, doing .sleepEnd w.1, doing .waveRetire w.1] ++
    ((List.range 17).map fun d => doing .invalidation w.1 d) ++
    ((List.range 64).map fun l => doing .atomicPerform w.1 l) ++
    (List.range w.2.outst.length).map fun i => doing .classVResult w.1 i

/-- What may happen to a team or a core. -/
def State.coreEvents (s : State) : List (Instr × Ev) :=
  (s.teams.flatMap fun t => [doing .teamPark t.1, doing .teamRetire t.1, doing .regclmGrant t.1]) ++
    (List.range 3200).flatMap fun c =>
      [doing .coreGate c, doing .coreWake c, (Instr.coreWake, { Ev.at c with flag := true })]

/-- The keys that Utino buffers have requested (R311). -/
def State.keyEvents (s : State) : List (Instr × Ev) := s.keyWants.map fun k => doing .keyFetch k.1 k.2

/-- What the engines and the arrays may do. -/
def State.engineEvents (s : State) : List (Instr × Ev) :=
  (s.cmds.flatMap fun c =>
    [doing .engineCommandRelease c.1, doing .engineCommandComplete c.1] ++
      c.2.elems.map fun e => doing .elementAccessPerformed c.1 e) ++
    (s.clusters.flatMap fun c =>
      [doing .arraySlotStart c.1, doing .abclaimGrant c.1] ++ c.2.banks.map fun b => doing .bankSettle c.1 b.1) ++
    s.keyEvents

/-- What may happen on the fabric without a peer's doing. -/
def State.fabricEvents (s : State) : List (Instr × Ev) :=
  ((List.range s.fabOut.length).map fun i => doing .fabricResend i) ++
    (((s.fabOut.map (·.device)).eraseDups).map fun d => doing .fabricUnreachable d) ++
    s.dies.flatMap fun d => d.2.recalls.map fun p => doing .leaseRecall d.1 p 1

/-- The operations and events the device may take by itself; inputs alone bring the others. Log entry 51, DESIGN CHOICE. -/
def State.ownEvents (s : State) : List (Instr × Ev) :=
  s.waveEvents ++ s.engineEvents ++ s.queueEvents ++ s.launchEvents ++ s.placeEvents ++ s.coreEvents ++ s.fabricEvents

/-- Whether a cycle may pass: no sleep is past its window (R176), no core is due to end its entry phase, or to start or end its wake (R445).
Log entry 53, DESIGN CHOICE. -/
def State.mayPass (s : State) : Bool :=
  !(s.waves.any fun e => match e.2.sleep with
    | some u => decide (u + 32 ≤ s.clock.toNat)
    | none => false) &&
  !(s.cores.any fun e => s.mustWake e.1 || match e.2.gate with
    | .entering u => decide (u ≤ s.clock.toNat)
    | .waking u _ => decide (u ≤ s.clock.toNat)
    | _ => false)

/-- A cycle: the module's counter (R131), and each core's count of cycles with a wave parked on an absent line (R416).
Log entry 53, DESIGN CHOICE; log entry 74, DESIGN CHOICE. -/
def State.passCycle (s : State) : State :=
  let cs := ((s.waves.filter fun e => e.2.absentWait).filterMap fun e => (s.teams.get? e.2.tid).map (·.core)).eraseDups
  cs.foldl (fun s c => s.count c 7) { s with clock := s.clock + 1 }

/-- What an act does if nothing keeps it waiting. -/
def State.attempt (s : State) : Act → Out
  | .issue wid => s.issueWave wid
  | .event i e => s.runEvent i e
  | .input n =>
    match s.inputs[n]? with
    | some (i, e) => { s with inputs := s.inputs.eraseIdx n }.runEvent i e
    | none => .refused (.notEnabled "no input")
  | .time => .next s.passCycle

/-- What an act that leads from `s` to `t` needs and has not: keys its buffers lack (R311) and answers of peers that have not come
(R231). -/
def State.unmet (s t : State) : List Want := t.wants.filter fun w => !s.met.contains w

/-- A key is requested of the anchor die (R311), or a line's request goes out to a peer, where none has yet and a stream and a port
take it (R230, R231). -/
def State.request (s : State) (w : Want) : State :=
  match w with
  | .key u k => s.wantKeys [(u, k)]
  | .line die own p bytes =>
    if s.fabOut.any fun r => r.who == .device w then s else s.fabSend die own (.device w) p bytes

/-- What becomes of an act that leads from `s` to `t`: it is carried out when all it needs is there; else its requests go out and it
waits as if it had not begun. None where it waits already. Log entry 57, DESIGN CHOICE; log entry 80, DEDUCED. -/
def State.transact (s t : State) : Option State :=
  if (s.unmet t).isEmpty then some { t with wants := [], met := t.met.filter fun w => !t.wants.contains w }
  else
    let u := (s.unmet t).foldl State.request s
    if u.keyWants.length = s.keyWants.length ∧ u.fabOut.length = s.fabOut.length then none else some u

/-- Carry out an act, or send the requests it must wait for; a cycle that passes needs nothing. -/
def State.act (s : State) (a : Act) : Out :=
  match a, s.attempt a with
  | .time, x => x
  | _, .next t =>
    match s.transact t with
    | some u => .next u
    | none => .refused (.notEnabled "a key or an answer is on its way")
  | _, x => x

/-- The waves that may issue. -/
def State.issues (s : State) : List Act := (s.waves.map fun e => Act.issue e.1).filter fun a => isNext (s.act a)

/-- The first input that may be taken; one that must wait leaves its turn to the next. Log entry 51, DESIGN CHOICE. -/
def State.nextInput (s : State) : List Act :=
  (((List.range s.inputs.length).map Act.input).find? fun a => !match s.act a with
    | .refused _ => true
    | _ => false).toList

/-- The operations and events that may happen now. -/
def State.events (s : State) : List Act :=
  (s.ownEvents.map fun e => Act.event e.1 e.2).filter fun a => isNext (s.act a)

/-- The acts the machine may take in a state. Log entry 2, DESIGN CHOICE; log entry 74, DESIGN CHOICE. -/
def State.acts (s : State) : List Act :=
  s.issues ++ s.nextInput ++ s.events ++ if s.mayPass then [.time] else []

/-- The state as a step's act finds it: the choice is used up, the model's counter has moved. -/
def State.stepping (s : State) : State := { s with sched := s.sched.drop 1, tick := s.tick + 1 }

/-- The act a step takes: `sched` names it by its place, else a free choice does; with no such act a cycle passes.
Log entry 2, DESIGN CHOICE. -/
def State.chosen (s : State) : Act :=
  match s.sched with
  | k :: _ => (s.stepping.acts[k]?).getD .time
  | [] => (s.stepping.acts[Config.choose s.tick % s.stepping.acts.length]?).getD .time

/-- Pages that have crossed a threshold are posted (R222), once what that needs is there. -/
def State.postNow (s : State) : State := if s.crossings.isEmpty then s else (s.transact s.postCrossings).getD s

/-- The answers of peers to requests of the device itself that come now, which is free: the acts that wait for them may go on (R231).
Log entry 57, DESIGN CHOICE. -/
def State.hear (s : State) : State :=
  let come : List Want := (s.fabOut.mapIdx fun i r => match r.who with
    | .device w => if Config.freeBit s.tick 6 i then [w] else []
    | _ => []).flatten
  if come.isEmpty then s
  else
    let got (r : OutReq) : Bool := match r.who with
      | .device w => come.contains w
      | _ => false
    { s.fabAnswered got with met := s.met ++ come }

/-- What follows an act at the same instant: regions whose conditions hold commit (R338), pages that have crossed a threshold are
posted (R222), multicasts without a target complete (R285), answers of peers come, sweep turns of sets no longer eligible end
(R113). -/
def State.instant (s : State) : State := s.commitAll.postNow.commitAll.endEmpty.hear.endTurns

/-- One step. Log entry 2, DESIGN CHOICE. -/
def State.stepOne (s : State) : Out :=
  match s.stepping.act s.chosen with
  | .next t => .next t.instant
  | x => x

end Sys2Proof.Machine
end

