-- ==== Sys2Proof/Machine/Program.lean ====
section
/-! DEFINITION. A program of one word as its loading from outside leaves the machine: an owner with a page table and one page
mapped, a launch of one team of one wave with four threads standing at the word (log entry 3). -/

namespace Sys2Proof.Machine

/-- The virtual address of the program's word; its page, the page of address 0, may be read, written and executed. -/
def programPc : Nat := 0x104

/-- A pointer entry to a table (R211). -/
def pointerEntry (pa : Nat) : Nat := 1 + pa / 4096 * 2 ^ 60

/-- A leaf with R, W and X for a frame under key identifier 0, TIER 0 (R211, R212). -/
def leafEntry (pa : Nat) : Nat := 0x73 + pa / 4096 * 2 ^ 60

/-- The bytes of the page tables and of the word: four tables at 64 KiB steps, the page behind them. -/
def programBytes (w : Nat) : List (Nat × Byte) :=
  placed 0 (leBytes 16 (pointerEntry 0x10000)) ++ placed 0x10000 (leBytes 16 (pointerEntry 0x20000)) ++
    placed 0x20000 (leBytes 16 (pointerEntry 0x30000)) ++ placed 0x30000 (leBytes 16 (leafEntry 0x40000)) ++
    placed (0x40000 + programPc) (leBytes 4 w)

/-- The program's shape. -/
def programShape : Shape where
  nWaves := 1
  nThreads := 4
  regs := 128
  localBytes := 16384
  nTeams := 1
  banks := 1
  entry := programPc
  trapvec := none
  fpmode := 0
  seed := 0

/-- The program's launch. -/
def programLaunch : Launch where
  owner := 0
  queue := 0
  seq := 0
  image := 0
  args := 0
  compl := 0
  pred0 := none
  pred1 := none
  ovf := 0
  ovfN := 0
  gangs := 1
  threadsO := 0
  regsO := 0
  localO := 0
  banksO := 0
  gangO := 0
  notify := false
  persist := false
  colaunch := false
  prio := 0
  sat0 := true
  sat1 := true
  stage := .running
  shape := some programShape
  nextGang := 1
  gangsDone := 0
  lastCluster := none
  passed := 0
  reserved := false
  trigDone := 0
  cancel := []
  ovfHead := 0
  ovfTail := 0
  inFlight := 0
  fail := none

/-- The program's team and wave, launch number `lid` and team number `tid`. Log entry 3, DESIGN CHOICE. -/
def State.withTeam (s : State) (lid tid : Nat) : State :=
  { s with
    owners := s.owners.put 0 (Owner.init 0 0)
    launches := s.launches.put lid programLaunch
    teams := s.teams.put tid (Team.start programLaunch lid 0 0 0 programShape)
    waves := s.waves.put (widOf tid 0) (Wave.start programShape 0 tid 0 0 0)
    nextLid := max s.nextLid (lid + 1)
    nextTid := max s.nextTid (tid + 1) }

/-- The state with a program of one word loaded and the wave's issue chosen for the next step. Log entry 3, DESIGN CHOICE. -/
def State.withProgram (s : State) (w : Nat) : State :=
  let tid := s.nextTid
  let s := (if s.keyVer.get 0 0 = 0 then s.freshKey 0 else s).writeBytes .dev 0 (programBytes w)
  let s := s.withTeam s.nextLid tid
  { s with sched := [(s.stepping.issues.findIdx? (·.issues (widOf tid 0))).getD 0] }

end Sys2Proof.Machine
end

