-- ==== Sys2Proof/Machine/Step.lean ====
section
/-! DEFINITION. One step of the machine, and a state whose next step runs a given instruction. -/

namespace Sys2Proof.Machine

/-- One step: the act that the state's `sched`, or else a free choice, picks among those the rules allow. -/
def step (s : State) : Host.Outcome State Fault Refusal := s.stepOne

/-- The state with an instruction placed for the next step, as the loading of a program leaves it. Log entry 3, DESIGN CHOICE. -/
def State.withFetchWord (s : State) (nbits w : Nat) : State := s.withProgram (w % 2 ^ nbits)

end Sys2Proof.Machine
end

