-- ==== Sys2Proof/Safety.lean ====
section
/-! DEFINITION. The terms the statements use: what a safe run keeps, when an instruction is ready, and what an issue, an
operation or an event leaves as it was. -/

namespace Sys2Proof.Machine

/-- The memories of the three spaces are in canonical form. -/
def State.MemOk (s : State) : Prop :=
  Memory.wf s.mem = true ∧ Memory.wf s.host = true ∧ Memory.wf s.peer = true

/-- Every byte of every space reads as before, under every key. -/
def SameBytes (s t : State) : Prop := ∀ sp key a, t.byteAt sp key a = s.byteAt sp key a

/-- Every byte of a space reads as before outside a range of addresses. -/
def SameBytesOutside (s t : State) (inside : Space → Nat → Prop) : Prop :=
  ∀ sp key a, ¬ inside sp a → t.byteAt sp key a = s.byteAt sp key a

/-- The instruction is well formed, `cur` names an issuing wave and set, and the decode checks 3 to 5 of R106 and the
room of R336 let it execute. -/
structure Ready (s : State) (i : Instr) (c : Ctx) : Prop where
  wf : i.wf = true
  ctx : s.ctx = some c
  checks : c.check (s.formOf i) = none
  room : c.w.shadowRoom (c.targets (s.formOf i)) = true

/-- The registers of an instruction's destination and source fields are window registers. -/
def windowOnly (i : Instr) : Prop := ∀ e ∈ (unitsOf i).1 ++ (unitsOf i).2, e.1.isQ = false

/-- `t` is `s` but for the issuing wave, the counters of cores and the number of issues; memory is as it was. -/
structure OnlyWave (s t : State) (wid : Nat) : Prop where
  rest : t = { s with waves := t.waves, cores := t.cores, seq := t.seq }
  waves : ∀ k, k ≠ wid → t.waves.get? k = s.waves.get? k
  cores : ∀ k, t.core k = { s.core k with perf := (t.core k).perf }
  bytes : SameBytes s t

/-- The lanes of the issuing set stand at their next PCs, every other lane where it stood. -/
structure Moved (c : Ctx) (w : Wave) (next : Nat → PC) : Prop where
  set : ∀ l, hasLane c.set l = true → pcOfLane w.pcs l = next l
  others : ∀ l, hasLane c.set l = false → pcOfLane w.pcs l = pcOfLane c.w.pcs l

/-- A wave after an issue that writes registers and flags: every other part of it but the schedule's books is kept, and
the open region has taken the copies of R336. -/
def KeepsWave (w : Wave) (ps : List PReg) (flags seed : Word) (w' : Wave) : Prop :=
  w' = { w with
    regs := w'.regs, hidden := w'.hidden, outst := w'.outst, fflags := flags, srseed := seed, pcs := w'.pcs
    region := (w.shadowed ps).region
    brCount := w'.brCount, qCount := w'.qCount, sweep := w'.sweep, parked := w'.parked, waiting := none
    absentWait := false, cautious := w'.cautious }

/-- Whether a register of a wave exists: at or above the allocation it reads 0 and takes no write (R392). -/
def Wave.has (w : Wave) (p : PReg) : Bool := p.hidden || decide (p.n < w.alloc)

/-- The registers `ps` hold the values in the lanes of a set, by place in the list; every other register and lane reads
as before. -/
structure Written (w w' : Wave) (set : Mask) (ps : List PReg) (val : Nat → Nat → Word) : Prop where
  new : ∀ i p l, ps[i]? = some p → hasLane set l = true → w'.read p l = if w.has p then val l i else 0
  old : ∀ p l, l < 64 → ¬ (p ∈ ps ∧ hasLane set l = true) → w'.read p l = w.read p l

/-- Results still to come for other registers or lanes stay as they are. -/
def KeepsOwed (w w' : Wave) (set : Mask) (ps : List PReg) : Prop :=
  ∀ o ∈ w.outst, (∀ p, o.dst = some p → ¬ (p ∈ ps ∧ hasLane set o.lane = true)) → o ∈ w'.outst

/-- An issue that writes class F results: the next state's wave holds the words `val l i` in word i of the unit `(d, u)`
in every lane l of the set, the flags and the generator as given, and all lanes have gone on to `next`. -/
structure WritesF (s t : State) (c : Ctx) (d : Reg) (u : Nat) (val : Nat → Nat → Word) (flags seed : Word)
    (next : Nat → PC) : Prop where
  only : OnlyWave s t c.wid
  wave : ∃ w', t.waves.get? c.wid = some w' ∧ KeepsWave c.w (c.unit (d, u)) flags seed w' ∧
    Written c.w w' c.set (c.unit (d, u)) val ∧ KeepsOwed c.w w' c.set (c.unit (d, u)) ∧ Moved c w' next

/-- What a wave keeps when only the schedule's books change, its lanes having moved. -/
def BooksOnly (w w' : Wave) : Prop :=
  w' = { w with
    pcs := w'.pcs, brCount := w'.brCount, qCount := w'.qCount, sweep := w'.sweep, parked := w'.parked
    waiting := none, absentWait := false, cautious := w'.cautious }

/-- An issue ends: `sB` is the machine and `wB` the issuing wave with the instruction's own effect; beside it only the
schedule's books, the counters of cores and the number of issues change, and the lanes go on to `next`. -/
structure Ends (sB t : State) (c : Ctx) (wB : Wave) (next : Nat → PC) : Prop where
  only : OnlyWave sB t c.wid
  wave : ∃ w', t.waves.get? c.wid = some w' ∧ BooksOnly wB w' ∧ Moved c w' next

/-- The class V results of the lanes of a mask for the unit `(d, u)`, as they go outstanding with the issue numbered `seq`:
word i of lane l is `val l i`; a counted lane's flags come with its first word (R120, R121, R148). -/
def Ctx.results (c : Ctx) (seq : Nat) (m : Mask) (d : Reg) (u : Nat) (val : Nat → Nat → Word) (flags : Nat → Word)
    (ready : Bool) : List Outst :=
  (lanesOf m).flatMap fun l => (c.unit (d, u)).mapIdx fun i p =>
    ⟨seq, i, some p, true, l, val l i, if i = 0 ∧ hasLane c.cnt l then flags l else 0, ready⟩

/-- The issuing wave with the copies of R336 for the unit and with class V results outstanding in every lane of the set. -/
def Ctx.owing (c : Ctx) (d : Reg) (u : Nat) (val : Nat → Nat → Word) (flags : Nat → Word) : Wave :=
  { c.w with
    region := (c.w.shadowed (c.unit (d, u))).region
    outst := c.w.outst ++ c.results c.s.seq c.set d u val flags true }

end Sys2Proof.Machine
end

