-- ==== Sys2Proof/Certificates/Slice0/Obligations.lean ====
section
/-! DEFINITION. The statements for the provers. -/

namespace Sys2Proof.Machine.Spec

/-- A signed reading of a word. -/
abbrev si (x : Word) : Int := x.toInt

/-- A condition as the compares write it (R159). -/
def cond (p : Prop) [Decidable p] : Word := if p then 1 else 0

/-- The single-register results of the groups INT, LOGIC, CMPSEL and UNARY and of the immediate forms, as the effect
tables of R157 to R166 give them: the destination, and the result in a lane from the lane's operands before: a window register's word, or the
value it pops from a queue register (R100). -/
def intResult : Instr → Option (Reg × (Ctx → Nat → Word))
  | .iadd d a b => some (d, fun c l => BitVec.ofNat 32 ((c.operand a l).toNat + (c.operand b l).toNat))
  | .isub d a b => some (d, fun c l => BitVec.ofInt 32 (si (c.operand a l) - si (c.operand b l)))
  | .imul d a b => some (d, fun c l => BitVec.ofNat 32 ((c.operand a l).toNat * (c.operand b l).toNat))
  | .imulh d a b => some (d, fun c l => BitVec.ofInt 32 (si (c.operand a l) * si (c.operand b l) / 2 ^ 32))
  | .umulh d a b => some (d, fun c l => BitVec.ofNat 32 ((c.operand a l).toNat * (c.operand b l).toNat / 2 ^ 32))
  | .imad d a b => some (d, fun c l =>
      BitVec.ofNat 32 ((c.operand a l).toNat * (c.operand b l).toNat + (c.reg d l).toNat))
  | .imin d a b => some (d, fun c l => if si (c.operand a l) < si (c.operand b l) then c.operand a l else c.operand b l)
  | .imax d a b => some (d, fun c l => if si (c.operand a l) > si (c.operand b l) then c.operand a l else c.operand b l)
  | .umin d a b => some (d, fun c l => if (c.operand a l).toNat < (c.operand b l).toNat then c.operand a l else c.operand b l)
  | .umax d a b => some (d, fun c l => if (c.operand a l).toNat > (c.operand b l).toNat then c.operand a l else c.operand b l)
  | .and d a b => some (d, fun c l => c.operand a l &&& c.operand b l)
  | .or d a b => some (d, fun c l => c.operand a l ||| c.operand b l)
  | .xor d a b => some (d, fun c l => c.operand a l ^^^ c.operand b l)
  | .andn d a b => some (d, fun c l => c.operand a l &&& ~~~c.operand b l)
  | .orn d a b => some (d, fun c l => c.operand a l ||| ~~~c.operand b l)
  | .xnor d a b => some (d, fun c l => ~~~(c.operand a l ^^^ c.operand b l))
  | .shl d a b => some (d, fun c l => BitVec.ofNat 32 ((c.operand a l).toNat * 2 ^ ((c.operand b l).toNat % 32)))
  | .shr d a b => some (d, fun c l => BitVec.ofNat 32 ((c.operand a l).toNat / 2 ^ ((c.operand b l).toNat % 32)))
  | .sra d a b => some (d, fun c l => BitVec.ofInt 32 (si (c.operand a l) / 2 ^ ((c.operand b l).toNat % 32)))
  | .rotl d a b => some (d, fun c l => (c.operand a l).rotateLeft ((c.operand b l).toNat % 32))
  | .cmpeq d a b => some (d, fun c l => cond (c.operand a l = c.operand b l))
  | .cmpne d a b => some (d, fun c l => cond (c.operand a l ≠ c.operand b l))
  | .cmplt d a b => some (d, fun c l => cond (si (c.operand a l) < si (c.operand b l)))
  | .cmple d a b => some (d, fun c l => cond (si (c.operand a l) ≤ si (c.operand b l)))
  | .cmpltu d a b => some (d, fun c l => cond ((c.operand a l).toNat < (c.operand b l).toNat))
  | .cmpleu d a b => some (d, fun c l => cond ((c.operand a l).toNat ≤ (c.operand b l).toNat))
  | .sel d a b => some (d, fun c l => if c.operand a l ≠ 0 then c.operand b l else c.reg d l)
  | .bfe d a b => some (d, fun c l => bfe (c.operand a l) (c.operand b l))
  | .bfi d a b => some (d, fun c l => bfi (c.operand a l) (c.operand b l) (c.reg d l))
  | .pack2 d a b => some (d, fun c l =>
      BitVec.ofNat 32 ((c.operand b l).toNat % 2 ^ 16 * 2 ^ 16 + (c.operand a l).toNat % 2 ^ 16))
  | .permb d a b => some (d, fun c l => permb (c.operand a l) (c.operand b l))
  | .clz d a => some (d, fun c l => BitVec.ofNat 32 (32 - bitLen (c.operand a l).toNat))
  | .popc d a => some (d, fun c l => BitVec.ofNat 32 (popCount (c.operand a l).toNat 32))
  | .brev d a => some (d, fun c l => brev (c.operand a l))
  | .iabs d a => some (d, fun c l => if si (c.operand a l) < 0 then BitVec.ofInt 32 (-si (c.operand a l)) else c.operand a l)
  | .ineg d a => some (d, fun c l => BitVec.ofInt 32 (-si (c.operand a l)))
  | .not d a => some (d, fun c l => ~~~c.operand a l)
  | .mov d a => some (d, fun c l => c.operand a l)
  | .sextb d a => some (d, fun c l => ((c.operand a l).setWidth 8).signExtend 32)
  | .sexth d a => some (d, fun c l => ((c.operand a l).setWidth 16).signExtend 32)
  | .zextb d a => some (d, fun c l => ((c.operand a l).setWidth 8).setWidth 32)
  | .zexth d a => some (d, fun c l => ((c.operand a l).setWidth 16).setWidth 32)
  | .addi d a i => some (d, fun c l => BitVec.ofInt 32 ((c.operand a l).toNat + i))
  | .andi d a i => some (d, fun c l => c.operand a l &&& BitVec.ofNat 32 i)
  | .ori d a i => some (d, fun c l => c.operand a l ||| BitVec.ofNat 32 i)
  | .xori d a i => some (d, fun c l => c.operand a l ^^^ BitVec.ofNat 32 i)
  | .shli d a k => some (d, fun c l => BitVec.ofNat 32 ((c.operand a l).toNat * 2 ^ k))
  | .shri d a k => some (d, fun c l => BitVec.ofNat 32 ((c.operand a l).toNat / 2 ^ k))
  | .srai d a k => some (d, fun c l => BitVec.ofInt 32 (si (c.operand a l) / 2 ^ k))
  | .rotli d a k => some (d, fun c l => (c.operand a l).rotateLeft k)
  | .cmpeqi d a k => some (d, fun c l => cond (si (c.operand a l) = k))
  | .cmpnei d a k => some (d, fun c l => cond (si (c.operand a l) ≠ k))
  | .cmplti d a k => some (d, fun c l => cond (si (c.operand a l) < k))
  | .cmplei d a k => some (d, fun c l => cond (si (c.operand a l) ≤ k))
  | .cmpgti d a k => some (d, fun c l => cond (si (c.operand a l) > k))
  | .cmpgei d a k => some (d, fun c l => cond (si (c.operand a l) ≥ k))
  | .cmpltui d a k => some (d, fun c l => cond ((c.operand a l).toNat < k))
  | .cmpgeui d a k => some (d, fun c l => cond ((c.operand a l).toNat ≥ k))
  | .movi d i => some (d, fun _ _ => BitVec.ofInt 32 i)
  | .movhi d i => some (d, fun c l => BitVec.ofNat 32 (i * 2 ^ 14 + (c.reg d l).toNat % 2 ^ 14))
  | _ => none

/-- The pair results of R157, R158, R162 and R164: the destination, and the 64-bit result in a lane. -/
def pairResult : Instr → Option (Reg × (Ctx → Nat → DWord))
  | .iaddW d a b => some (d, fun c l => BitVec.ofNat 64 ((c.regW a l).toNat + (c.regW b l).toNat))
  | .isubW d a b => some (d, fun c l => BitVec.ofInt 64 ((c.regW a l).toInt - (c.regW b l).toInt))
  | .imulW d a b => some (d, fun c l => BitVec.ofInt 64 (si (c.operand a l) * si (c.operand b l)))
  | .umulW d a b => some (d, fun c l => BitVec.ofNat 64 ((c.operand a l).toNat * (c.operand b l).toNat))
  | .shlW d a b => some (d, fun c l => BitVec.ofNat 64 ((c.regW a l).toNat * 2 ^ ((c.operand b l).toNat % 64)))
  | .shrW d a b => some (d, fun c l => BitVec.ofNat 64 ((c.regW a l).toNat / 2 ^ ((c.operand b l).toNat % 64)))
  | .sraW d a b => some (d, fun c l => BitVec.ofInt 64 ((c.regW a l).toInt / 2 ^ ((c.operand b l).toNat % 64)))
  | .movW d a => some (d, fun c l => c.regW a l)
  | .shliW d a k => some (d, fun c l => BitVec.ofNat 64 ((c.regW a l).toNat * 2 ^ k))
  | .shriW d a k => some (d, fun c l => BitVec.ofNat 64 ((c.regW a l).toNat / 2 ^ k))
  | .sraiW d a k => some (d, fun c l => BitVec.ofInt 64 ((c.regW a l).toInt / 2 ^ k))
  | _ => none

/-- Word i of a pair (R8). -/
def pairWord (x : DWord) (i : Nat) : Word := BitVec.ofNat 32 (x.toNat / 2 ^ (32 * i))

end Sys2Proof.Machine.Spec

open Sys2Proof Sys2Proof.Machine Sys2Proof.Machine.Spec

/-- R155, R157 to R166: every instruction of `intResult`, on window registers, completes; every lane of the set, helper
lanes included, gets the result of the effect tables; no flag, no other register or lane, no other part of the wave or of
the machine changes; the lanes go on to the next word. -/
def Sys2Proof.Machine.Spec.integerEffectsHold : Prop :=
  ∀ (s : State) (i : Instr) (c : Ctx) (d : Reg) (f : Ctx → Nat → Word),
    intResult i = some (d, f) → Ready s i c → windowOnly i →
    ∃ t, exec i s = .next t ∧ WritesF s t c d 1 (fun l _ => f c l) c.w.fflags c.w.srseed (fun _ => c.pc + 4)

/-- R155, R157, R158, R162, R164: the same of the instructions of `pairResult`, whose results are pairs. -/
def Obligations.PairEffects : Prop :=
  ∀ (s : State) (i : Instr) (c : Ctx) (d : Reg) (f : Ctx → Nat → DWord),
    pairResult i = some (d, f) → Ready s i c → windowOnly i →
    ∃ t, exec i s = .next t ∧
      WritesF s t c d 2 (fun l k => pairWord (f c l) k) c.w.fflags c.w.srseed (fun _ => c.pc + 4)

/-- R160 to R162 bit by bit: BFE, BFI, PERMB, CLZ, POPC and BREV of any words. -/
def Sys2Proof.Machine.Spec.bitFieldResultsHold : Prop :=
  ∀ (a b d : Word),
    let pos := b.toNat % 32
    let len := min (min (b.toNat / 2 ^ 8 % 64) 32) (32 - pos)
    (∀ k, k < 32 → (bfe a b).getLsbD k =
      if k < len then a.getLsbD (pos + k) else decide (0 < len) && b.getLsbD 16 && a.getLsbD (pos + len - 1)) ∧
    (∀ k, k < 32 → (bfi a b d).getLsbD k = if pos ≤ k ∧ k < pos + len then a.getLsbD (k - pos) else d.getLsbD k) ∧
    (∀ j k, j < 4 → k < 8 → (permb a b).getLsbD (8 * j + k) =
      if b.getLsbD (4 * j + 2) then false
      else
        let src := 8 * (b.toNat / 2 ^ (4 * j) % 4)
        if b.getLsbD (4 * j + 3) then a.getLsbD (src + 7) else a.getLsbD (src + k)) ∧
    (∀ k, k < 32 → (k < 32 - bitLen a.toNat ↔ ∀ j, j ≤ k → a.getLsbD (31 - j) = false)) ∧
    popCount a.toNat 32 = ((List.range 32).filter fun k => a.getLsbD k).length ∧
    (∀ k, k < 32 → (brev a).getLsbD k = a.getLsbD (31 - k))

/-- The integer, logic and move instructions write the results of their rules, and BFE and BFI those of R160. -/
def Obligations.IntegerEffects : Prop :=
  Sys2Proof.Machine.Spec.integerEffectsHold ∧ Sys2Proof.Machine.Spec.bitFieldResultsHold

namespace Sys2Proof.Machine.Spec

/-- A class F floating-point operation: its destination, whether the stochastic generator steps when $fpmode.RM is
stochastic, and a lane's result and flags given the lane's random numbers by element (R144). -/
structure FpOp where
  d : Reg
  draws : Bool
  out : Ctx → Nat → (Nat → Nat) → Word × FpFlags

/-- An FP32 operand, a subnormal one flushed under FTZ (R180). -/
def fp (c : Ctx) (r : Reg) (l : Nat) : Num := f32 (flush c.w.ftz (c.operand r l))

/-- The old destination as an FP32 operand. -/
def fpd (c : Ctx) (d : Reg) (l : Nat) : Num := f32 (flush c.w.ftz (c.reg d l))

/-- round(fp32, RM, x) of an exact value and its invalid flag, FTZ applied (R180, R141, R146). -/
def fpRound (c : Ctx) (u : Nat) (x : Num × Bool) : Word × FpFlags := round32 c.w.rm c.w.ftz u x.1 x.2

/-- A comparison of two values that answers `nan` beside a NaN, with its NV rule (R181). -/
def fpCmp (x y : Num) (quiet nan : Bool) (p : Prop) [Decidable p] : Word × FpFlags :=
  (if x.isNan || y.isNan then cond (nan = true) else cond p,
    { nv := if quiet then x.signals || y.signals else x.isNan || y.isNan })

/-- A packed operation: each half by itself, the flags together (R187). -/
def halves (f : Nat → Coded) : Word × FpFlags :=
  (BitVec.ofNat 32 ((f 1).code * 2 ^ 16 + (f 0).code), (f 0).flags.or (f 1).flags)

/-- Half h of a register as a number of the format. -/
def hf (k : Kind) (c : Ctx) (r : Reg) (l h : Nat) : Num := k.decode ((c.operand r l).toNat / 2 ^ (16 * h) % 2 ^ 16)

/-- Half h of the old destination as a number of the format. -/
def hfd (k : Kind) (c : Ctx) (d : Reg) (l h : Nat) : Num := k.decode ((c.reg d l).toNat / 2 ^ (16 * h) % 2 ^ 16)

/-- A rounded half. -/
def hRound (k : Kind) (c : Ctx) (u : Nat) (x : Num × Bool) : Coded :=
  let r := k.round false c.w.rm u x.1
  ⟨r.code, { r.flags with nv := r.flags.nv || x.2 }⟩

/-- minimumNumber or maximumNumber of two halves (R182, R187). -/
def hMinMax (k : Kind) (max : Bool) (c : Ctx) (a b : Reg) (l h : Nat) : Coded :=
  let r := minMaxNum max k.nanOr0 ((c.operand a l).toNat / 2 ^ (16 * h) % 2 ^ 16) ((c.operand b l).toNat / 2 ^ (16 * h) % 2 ^ 16)
    (hf k c a l h) (hf k c b l h)
  ⟨r.1, r.2⟩

/-- The operations of R181 to R184 and R187 that are class F. -/
def fpResult : Instr → Option FpOp
  | .fadd d a b => some ⟨d, true, fun c l u => fpRound c (u 0) ((fp c a l).add c.w.rm (fp c b l))⟩
  | .fsub d a b => some ⟨d, true, fun c l u => fpRound c (u 0) ((fp c a l).add c.w.rm (fp c b l).neg)⟩
  | .fmul d a b => some ⟨d, true, fun c l u => fpRound c (u 0) ((fp c a l).mul (fp c b l))⟩
  | .ffma d a b => some ⟨d, true, fun c l u => fpRound c (u 0) (Num.fma c.w.rm (fp c a l) (fp c b l) (fpd c d l))⟩
  | .ffms d a b => some ⟨d, true, fun c l u => fpRound c (u 0) (Num.fma c.w.rm (fp c a l) (fp c b l) (fpd c d l).neg)⟩
  | .fnfma d a b => some ⟨d, true, fun c l u => fpRound c (u 0) (Num.fma c.w.rm (fp c a l).neg (fp c b l) (fpd c d l))⟩
  | .fmin d a b => some ⟨d, false, fun c l _ => minMax32 false c.w.ftz (c.operand a l) (c.operand b l)⟩
  | .fmax d a b => some ⟨d, false, fun c l _ => minMax32 true c.w.ftz (c.operand a l) (c.operand b l)⟩
  | .fcopysign d a b => some ⟨d, false, fun c l _ =>
      (BitVec.ofNat 32 ((c.operand b l).toNat / 2 ^ 31 * 2 ^ 31 + (c.operand a l).toNat % 2 ^ 31), {})⟩
  | .fcmpeq d a b => some ⟨d, false, fun c l _ => fpCmp (fp c a l) (fp c b l) true false ((fp c a l).cmp (fp c b l) = 0)⟩
  | .fcmplt d a b => some ⟨d, false, fun c l _ => fpCmp (fp c a l) (fp c b l) false false ((fp c a l).cmp (fp c b l) < 0)⟩
  | .fcmple d a b => some ⟨d, false, fun c l _ => fpCmp (fp c a l) (fp c b l) false false ((fp c a l).cmp (fp c b l) ≤ 0)⟩
  | .fcmpun d a b => some ⟨d, false, fun c l _ => fpCmp (fp c a l) (fp c b l) true true False⟩
  | .fabs d a => some ⟨d, false, fun c l _ => (BitVec.ofNat 32 ((c.operand a l).toNat % 2 ^ 31), {})⟩
  | .fneg d a => some ⟨d, false, fun c l _ => (BitVec.ofNat 32 ((c.operand a l).toNat + 2 ^ 31), {})⟩
  | .ffloor d a => some ⟨d, false, fun c l _ =>
      let r := toIntegral .rdn 0 false (fp c a l)
      ((round32 .rne false 0 r.1 false).1, r.2)⟩
  | .fceil d a => some ⟨d, false, fun c l _ =>
      let r := toIntegral .rup 0 false (fp c a l)
      ((round32 .rne false 0 r.1 false).1, r.2)⟩
  | .ftrunc d a => some ⟨d, false, fun c l _ =>
      let r := toIntegral .rtz 0 false (fp c a l)
      ((round32 .rne false 0 r.1 false).1, r.2)⟩
  | .frint d a => some ⟨d, true, fun c l u =>
      let r := toIntegral c.w.rm (u 0) true (fp c a l)
      ((round32 .rne false 0 r.1 false).1, r.2)⟩
  | .fclass d a => some ⟨d, false, fun c l _ => (BitVec.ofNat 32 (2 ^ fclass (c.operand a l)), {})⟩
  | .hadd2B d a b => some ⟨d, true, fun c l u =>
      halves fun h => hRound .bf16 c (u h) ((hf .bf16 c a l h).add c.w.rm (hf .bf16 c b l h))⟩
  | .hsub2B d a b => some ⟨d, true, fun c l u =>
      halves fun h => hRound .bf16 c (u h) ((hf .bf16 c a l h).add c.w.rm (hf .bf16 c b l h).neg)⟩
  | .hmul2B d a b => some ⟨d, true, fun c l u =>
      halves fun h => hRound .bf16 c (u h) ((hf .bf16 c a l h).mul (hf .bf16 c b l h))⟩
  | .hfma2B d a b => some ⟨d, true, fun c l u =>
      halves fun h => hRound .bf16 c (u h) (Num.fma c.w.rm (hf .bf16 c a l h) (hf .bf16 c b l h) (hfd .bf16 c d l h))⟩
  | .hmin2B d a b => some ⟨d, false, fun c l _ => halves (hMinMax .bf16 false c a b l)⟩
  | .hmax2B d a b => some ⟨d, false, fun c l _ => halves (hMinMax .bf16 true c a b l)⟩
  | .hadd2H d a b => some ⟨d, true, fun c l u =>
      halves fun h => hRound .fp16 c (u h) ((hf .fp16 c a l h).add c.w.rm (hf .fp16 c b l h))⟩
  | .hsub2H d a b => some ⟨d, true, fun c l u =>
      halves fun h => hRound .fp16 c (u h) ((hf .fp16 c a l h).add c.w.rm (hf .fp16 c b l h).neg)⟩
  | .hmul2H d a b => some ⟨d, true, fun c l u =>
      halves fun h => hRound .fp16 c (u h) ((hf .fp16 c a l h).mul (hf .fp16 c b l h))⟩
  | .hfma2H d a b => some ⟨d, true, fun c l u =>
      halves fun h => hRound .fp16 c (u h) (Num.fma c.w.rm (hf .fp16 c a l h) (hf .fp16 c b l h) (hfd .fp16 c d l h))⟩
  | .hmin2H d a b => some ⟨d, false, fun c l _ => halves (hMinMax .fp16 false c a b l)⟩
  | .hmax2H d a b => some ⟨d, false, fun c l _ => halves (hMinMax .fp16 true c a b l)⟩
  | _ => none

/-- The class V operations of R183: FRCP, FRSQ, FSQRT, FEXP2, FLOG2, FSIN, FCOS and FTANH. -/
def fpUnitResult : Instr → Option (Reg × (Ctx → Nat → Word × FpFlags))
  | .frcp d a => some (d, fun c l => TFun.rcp.apply c.w.ftz (c.operand a l))
  | .frsq d a => some (d, fun c l => TFun.rsq.apply c.w.ftz (c.operand a l))
  | .fexp2 d a => some (d, fun c l => TFun.exp2.apply c.w.ftz (c.operand a l))
  | .flog2 d a => some (d, fun c l => TFun.log2.apply c.w.ftz (c.operand a l))
  | .fsin d a => some (d, fun c l => TFun.sin.apply c.w.ftz (c.operand a l))
  | .fcos d a => some (d, fun c l => TFun.cos.apply c.w.ftz (c.operand a l))
  | .ftanh d a => some (d, fun c l => TFun.tanh.apply c.w.ftz (c.operand a l))
  | .fsqrt d a => some (d, fun c l =>
      let x := (fp c a l).sqrt
      round32 (if c.w.rm = .stoch then .rne else c.w.rm) c.w.ftz 0 x.1 x.2)
  | _ => none

/-- The flags that the counted lanes raise (R148). -/
def raised (c : Ctx) (f : Nat → FpFlags) : Word := (lanesOf c.cnt).foldl (fun x l => x ||| (f l).word) 0

end Sys2Proof.Machine.Spec

open Sys2Proof Sys2Proof.Machine Sys2Proof.Machine.Spec

/-- R179 to R184, R187, R144, R148: every instruction of `fpResult`, on window registers, completes with its result in
every lane of the set and the counted lanes' flags merged; the generator steps once exactly when the operation rounds and
RM is stochastic; nothing else changes. -/
def Obligations.FloatEffects : Prop :=
  ∀ (s : State) (i : Instr) (c : Ctx) (o : FpOp),
    fpResult i = some o → Ready s i c → windowOnly i →
    let seed := if o.draws = true ∧ c.w.rm = .stoch then seedStep c.w.srseed else c.w.srseed
    let r : Nat → Word × FpFlags := fun l => o.out c l (stochBits seed l)
    ∃ t, exec i s = .next t ∧
      WritesF s t c o.d 1 (fun l _ => (r l).1) (c.w.fflags ||| raised c fun l => (r l).2) seed (fun _ => c.pc + 4)

/-- R120, R121, R148, R183 to R186: FRCP, FRSQ, FSQRT, FEXP2, FLOG2, FSIN, FCOS and FTANH complete, their results and flags
outstanding in every lane of the set. -/
def Sys2Proof.Machine.Spec.floatUnitEffectsHold : Prop :=
  ∀ (s : State) (i : Instr) (c : Ctx) (d : Reg) (f : Ctx → Nat → Word × FpFlags),
    fpUnitResult i = some (d, f) → Ready s i c → windowOnly i →
    ∃ t, exec i s = .next t ∧
      Ends s t c (c.owing d 1 (fun l _ => (f c l).1) fun l => (f c l).2.word) (fun _ => c.pc + 4)

namespace Sys2Proof.Machine.Spec

/-- A magnitude as a rational number. -/
def rat (m : Mag) : ℚ := (m.n : ℚ) / m.d

/-- A sign and a magnitude as a rational number. -/
def ratOf (neg : Bool) (m : Mag) : ℚ := if neg then -rat m else rat m

/-- The bound of R185 at an operand x and exact result r, when 2^e ≤ |r| < 2^(e + 1): an ulp is 2^(max(e, -126) - 23). -/
def errorBound (f : TFun) (x : ℚ) (e : ℤ) : ℚ :=
  let ulp : ℚ := 2 ^ (max e (-126) - 23)
  match f with
  | .rcp => ulp
  | .rsq => ulp
  | .exp2 => 2 * ulp
  | .log2 => if 1 / 2 ≤ x ∧ x ≤ 2 then 2 ^ (-21 : ℤ) else 2 * ulp
  | .sin => 2 ^ (-22 : ℤ)
  | .cos => 2 ^ (-22 : ℤ)
  | .tanh => 2 * ulp

/-- No flag. -/
def noFlags : FpFlags := {}

/-- FSQRT of an operand code (R183, R180). -/
def sqrtOf (rm : Rm) (ftz : Bool) (a : Word) : Word × FpFlags :=
  let x := (f32 (flush ftz a)).sqrt
  round32 (if rm = .stoch then .rne else rm) ftz 0 x.1 x.2

/-- The code of 2^k, a normal FP32 number. -/
def powCode (k : ℤ) : Word := BitVec.ofInt 32 ((127 + k) * 2 ^ 23)

end Sys2Proof.Machine.Spec

/-- R185 at a finite operand that R186 does not list and whose result does not overflow: the result is finite and within
the bound of the exact value, an ulp measured at that value, and FTANH's never exceeds 1. FRCP's exact value is the
operand's inverse; the other functions' exact values are taken as `TFun.value` works them out (log entry 7). Its flags are
NX, and UF where the result is below the smallest normal; one beyond the range is an infinity with OF and NX (R186). That it is
an infinity, and that UF is judged on the returned code, is log entry 91. FSQRT truncates and rounds down to the greatest code whose square is no more than the operand. -/
def Sys2Proof.Machine.Spec.unitBoundsHold : Prop :=
  (∀ (f : TFun) (ftz : Bool) (a : Word) (neg : Bool) (m : Mag) (e : ℤ),
    f32 (flush ftz a) = .fin neg m → f.special (f32 (flush ftz a)) = none → f.overflows neg m = false →
    let r := ratOf (f.value neg m).1 (f.value neg m).2
    let w := f.result ftz (flush ftz a) neg m
    (2 : ℚ) ^ e ≤ |r| → |r| < 2 ^ (e + 1) →
    (∃ n v, f32 w = .fin n v ∧ |ratOf n v - r| ≤ errorBound f (ratOf neg m) e ∧ (f = .tanh → rat v ≤ 1)) ∧
    (f = .rcp → r * ratOf neg m = 1) ∧
    f.apply ftz a = (flush ftz w, { nx := true, uf := decide (w.toNat % 2 ^ 31 < 2 ^ 23) })) ∧
  (∀ (f : TFun) (ftz : Bool) (a : Word) (neg : Bool) (m : Mag),
    f32 (flush ftz a) = .fin neg m → f.special (f32 (flush ftz a)) = none → f.overflows neg m = true →
    f.apply ftz a = (if neg then 0xFF800000#32 else 0x7F800000#32, { of := true, nx := true })) ∧
  (∀ (rm : Rm) (ftz : Bool) (a : Word) (m : Mag), rm = .rtz ∨ rm = .rdn → f32 (flush ftz a) = .fin false m → m.n ≠ 0 →
    let w := (sqrtOf rm ftz a).1
    (∃ v, f32 w = .fin false v ∧ rat v ^ 2 ≤ rat m) ∧ ∃ v, f32 (w + 1) = .fin false v ∧ rat m < rat v ^ 2)

/-- R186, row by row: the results and flags of the listed cases under either FTZ. -/
def Sys2Proof.Machine.Spec.unitSpecialsHold : Prop :=
  ∀ ftz : Bool,
    let y := fun (f : TFun) (a : Word) => f.apply ftz a
    let dz : FpFlags := { dz := true }
    let nv : FpFlags := { nv := true }
    let inf := 0x7F800000#32
    let minf := 0xFF800000#32
    let zero := 0#32
    let mzero := 0x80000000#32
    let one := 0x3F800000#32
    let mone := 0xBF800000#32
    let nan := 0x7FC00000#32
    (y .rcp zero = (inf, dz) ∧ y .rcp mzero = (minf, dz) ∧ y .rcp inf = (zero, noFlags) ∧ y .rcp minf = (mzero, noFlags)) ∧
    (y .rsq zero = (inf, dz) ∧ y .rsq mzero = (minf, dz) ∧ y .rsq inf = (zero, noFlags) ∧ y .rsq minf = (nan, nv)) ∧
    (y .exp2 minf = (zero, noFlags) ∧ y .exp2 inf = (inf, noFlags)) ∧
    (y .log2 zero = (minf, dz) ∧ y .log2 mzero = (minf, dz) ∧ y .log2 inf = (inf, noFlags) ∧ y .log2 minf = (nan, nv)) ∧
    (y .sin zero = (zero, noFlags) ∧ y .sin mzero = (mzero, noFlags) ∧ y .cos zero = (one, noFlags) ∧ y .cos mzero = (one, noFlags)) ∧
    (y .sin inf = (nan, nv) ∧ y .sin minf = (nan, nv) ∧ y .cos inf = (nan, nv) ∧ y .cos minf = (nan, nv)) ∧
    (y .tanh zero = (zero, noFlags) ∧ y .tanh mzero = (mzero, noFlags) ∧ y .tanh inf = (one, noFlags) ∧
      y .tanh minf = (mone, noFlags)) ∧
    (∀ f a q, f32 a = .nan q → y f a = (nan, { nv := q })) ∧
    (∀ a m, f32 (flush ftz a) = .fin true m → m.n ≠ 0 → y .rsq a = (nan, nv) ∧ y .log2 a = (nan, nv)) ∧
    (∀ k : ℤ, -126 ≤ k → k ≤ 126 → y .rcp (powCode k) = (powCode (-k), noFlags)) ∧
    (∀ k : ℤ, -126 ≤ k → k ≤ 127 → k % 2 = 0 → y .rsq (powCode k) = (powCode (-(k / 2)), noFlags)) ∧
    (∀ k : ℤ, 0 ≤ k → k ≤ 6 → y .exp2 (powCode k) = (powCode (2 ^ k.toNat), noFlags)) ∧
    (∀ k : ℤ, -126 ≤ k → k ≤ 127 → (y .log2 (powCode k)).2 = noFlags ∧
      ∃ n v, f32 (y .log2 (powCode k)).1 = .fin n v ∧ ratOf n v = k) ∧
    (∀ a n m (z : ℤ), f32 (flush ftz a) = .fin n m → m.n ≠ 0 →
      (ratOf n m = z / 2 → y .sin a = (if n then mzero else zero, noFlags)) ∧
      (ratOf n m = z + 1 / 4 → y .sin a = (one, noFlags) ∧ y .cos a = (zero, noFlags)) ∧
      (ratOf n m = z + 3 / 4 → y .sin a = (mone, noFlags) ∧ y .cos a = (zero, noFlags)) ∧
      (ratOf n m = z → y .cos a = (one, noFlags)) ∧
      (ratOf n m = z + 1 / 2 → y .cos a = (mone, noFlags))) ∧
    ∀ rm,
      (sqrtOf rm ftz zero = (zero, noFlags) ∧ sqrtOf rm ftz mzero = (mzero, noFlags) ∧ sqrtOf rm ftz inf = (inf, noFlags) ∧
        sqrtOf rm ftz minf = (nan, nv)) ∧
      (∀ a q, f32 a = .nan q → sqrtOf rm ftz a = (nan, { nv := q })) ∧
      (∀ a m, f32 (flush ftz a) = .fin true m → m.n ≠ 0 → sqrtOf rm ftz a = (nan, nv)) ∧
      ∀ k : ℤ, -126 ≤ k → k ≤ 127 → k % 2 = 0 → sqrtOf rm ftz (powCode k) = (powCode (k / 2), noFlags)

open Sys2Proof Sys2Proof.Machine Sys2Proof.Machine.Spec

/-- R141 step 3, R144: rounding n ÷ d to an integer answers one of the two neighbours and keeps an integer; each mode
picks its neighbour. `u` is the 24-bit random number of the lane. -/
def Sys2Proof.Machine.Spec.roundingModesHold : Prop :=
  ∀ (neg : Bool) (u n d : Nat), 0 < d → u < 2 ^ 24 →
    let r := fun rm => roundNat rm neg u n d
    (∀ rm, (r rm = n / d ∨ r rm = n / d + 1) ∧ (n % d = 0 → r rm = n / d)) ∧
    r .rtz = n / d ∧
    (n % d ≠ 0 → (r .rdn = n / d + if neg then 1 else 0) ∧ (r .rup = n / d + if neg then 0 else 1)) ∧
    (2 * (n % d) < d → r .rne = n / d ∧ r .rna = n / d) ∧
    (d < 2 * (n % d) → r .rne = n / d + 1 ∧ r .rna = n / d + 1) ∧
    (2 * (n % d) = d → r .rne % 2 = 0 ∧ r .rna = n / d + 1) ∧
    (r .stoch = n / d + 1 ↔ u < n % d * 2 ^ 24 / d)

namespace Sys2Proof.Machine.Spec

/-- FP32, FP16 and BF16 (R132): trailing bits, bias, the code of +∞. -/
def fpFormat : Kind → Option (Nat × Nat × Nat)
  | .fp32 => some (23, 127, 0x7F800000)
  | .fp16 => some (10, 15, 0x7C00)
  | .bf16 => some (7, 127, 0x7F80)
  | _ => none

/-- The magnitude of a code without its sign (R132); that of +∞'s code is the power of two past the largest finite value. -/
def codeMag (t bias c : Nat) : ℚ :=
  if c < 2 ^ t then (c : ℚ) * 2 ^ ((1 : ℤ) - bias - t)
  else ((2 ^ t + c % 2 ^ t : Nat) : ℚ) * 2 ^ (((c / 2 ^ t : Nat) : ℤ) - bias - t)

/-- A magnitude at a part f, 0 ≤ f < 1, of the way from code c to the next rounds to the next (R141 step 3, R144). -/
def goesUp (rm : Rm) (neg : Bool) (u c : Nat) (f : ℚ) : Bool :=
  match rm with
  | .rne => decide (1 / 2 < f ∨ (f = 1 / 2 ∧ c % 2 = 1))
  | .rtz => false
  | .rdn => neg && decide (f ≠ 0)
  | .rup => !neg && decide (f ≠ 0)
  | .rna => decide (1 / 2 ≤ f)
  | .stoch => decide (f ≠ 0 ∧ (u : ℤ) < ⌊f * 2 ^ 24⌋)

end Sys2Proof.Machine.Spec

/-- R132, R141, R144, R146, R180: FP32, FP16 and BF16. A finite code decodes to its value and rounds back to itself with no flag; a
NaN gives the canonical one, with NV where it signals; an infinity stays, or is the largest finite value under SAT. A finite
value at or between two neighbouring codes, subnormal ones included, rounds to the one the mode picks, with NX where it is
inexact and UF where it also lies below the smallest normal; past the largest finite value OF and NX come with that value
under SAT and the modes toward it, else with an infinity. FTZ makes a subnormal FP32 result a zero of its sign, with UF and
NX. -/
def Sys2Proof.Machine.Spec.formatRoundingHold : Prop :=
  (∀ (k : Kind) (t bias top : Nat) (sat : Bool) (rm : Rm) (u : Nat), fpFormat k = some (t, bias, top) → u < 2 ^ 24 →
    let sign (neg : Bool) : Nat := if neg then 2 ^ (k.bits - 1) else 0
    let beyond (neg : Bool) : Coded :=
      ⟨sign neg + if sat = true ∨ rm = .rtz ∨ (rm = .rdn ∧ neg = false) ∨ (rm = .rup ∧ neg = true) then top - 1 else top,
        { of := true, nx := true }⟩
    (∀ neg c, c < top → ∃ m, k.decode (sign neg + c) = .fin neg m ∧ 0 < m.d ∧ rat m = codeMag t bias c ∧
      k.round sat rm u (.fin neg m) = ⟨sign neg + c, {}⟩) ∧
    (∀ q, k.round sat rm u (.nan q) = ⟨top + 2 ^ (t - 1), { nv := q }⟩) ∧
    (∀ neg, k.decode (sign neg + top) = .inf neg ∧
      k.round sat rm u (.inf neg) = ⟨sign neg + if sat then top - 1 else top, {}⟩) ∧
    (∀ (neg : Bool) (m : Mag) (c : Nat), 0 < m.d → c < top → codeMag t bias c ≤ rat m → rat m < codeMag t bias (c + 1) →
      let f := (rat m - codeMag t bias c) / (codeMag t bias (c + 1) - codeMag t bias c)
      let c' := if goesUp rm neg u c f then c + 1 else c
      k.round sat rm u (.fin neg m) = if c' = top then beyond neg
        else ⟨sign neg + c', { nx := decide (f ≠ 0), uf := decide (f ≠ 0 ∧ rat m < 2 ^ ((1 : ℤ) - bias)) }⟩) ∧
    ∀ (neg : Bool) (m : Mag), 0 < m.d → codeMag t bias top ≤ rat m → k.round sat rm u (.fin neg m) = beyond neg) ∧
  ∀ (rm : Rm) (ftz : Bool) (u : Nat) (x : Machine.Num) (nv : Bool),
    let r := Kind.fp32.round false rm u x
    let flags : FpFlags := { r.flags with nv := r.flags.nv || nv }
    round32 rm ftz u x nv = if ftz = true ∧ 0 < r.code % 2 ^ 31 ∧ r.code % 2 ^ 31 < 2 ^ 23
      then (BitVec.ofNat 32 (r.code / 2 ^ 31 * 2 ^ 31), { flags with uf := true, nx := true })
      else (BitVec.ofNat 32 r.code, flags)

/-- R132 to R135, R141, R142: a finite code of a binary8 format, and every code of an integer format, decodes to a value
that rounds back to the code under every mode, saturating or not, with no flag. -/
def Sys2Proof.Machine.Spec.formatsRoundTripHold : Prop :=
  (∀ (p code : Nat) (inf sat : Bool) (rm : Rm) (u : Nat), 1 ≤ p → p ≤ 7 → code < 2 ^ 8 →
    (∀ n m, (Kind.b8 p inf).decode code = .fin n m →
      (Kind.b8 p inf).round sat rm u ((Kind.b8 p inf).decode code) = ⟨code, {}⟩) ∧
    (∀ n m, (Kind.u8 p inf).decode code = .fin n m →
      (Kind.u8 p inf).round sat rm u ((Kind.u8 p inf).decode code) = ⟨code, {}⟩)) ∧
  (∀ (k : Kind) (code : Nat) (sat : Bool) (rm : Rm) (u : Nat), k = .int8 ∨ k = .uint8 ∨ k = .int16 ∨ k = .int32 →
    code < 2 ^ k.bits → k.round sat rm u (k.decode code) = ⟨code, {}⟩)

/-- FRCP, FRSQ, FSQRT, FEXP2, FLOG2, FSIN, FCOS and FTANH: their issue, the bounds of R185 and the cases of R186. -/
def Obligations.FloatUnitEffects : Prop :=
  Sys2Proof.Machine.Spec.floatUnitEffectsHold ∧ Sys2Proof.Machine.Spec.unitBoundsHold ∧ Sys2Proof.Machine.Spec.unitSpecialsHold

/-- Rounding to the floating-point formats, and reading back what was rounded (R135 to R144). -/
def Obligations.RoundingModes : Prop :=
  Sys2Proof.Machine.Spec.roundingModesHold ∧ Sys2Proof.Machine.Spec.formatRoundingHold ∧ Sys2Proof.Machine.Spec.formatsRoundTripHold

namespace Sys2Proof.Machine.Spec

/-- A conversion of the CVT group but QSCALE: the destination unit, the format register, the formats it accepts, its
class, and what a lane's destination words and flags become from the source and destination halves, the old destination
word, the source words and the lane's random numbers. -/
structure CvtOp where
  d : Reg
  du : Nat
  a : Reg
  b : Reg
  fmt : CvtFmt
  classV : Bool
  out : Half → Half → Word → (Nat → Nat) → (Nat → Nat) → List Word × FpFlags

/-- Conversion results of one lane, each in a register of its own (R188). -/
def inRegs (k : Kind) (rs : List Coded) : List Word × FpFlags :=
  (rs.map fun r => k.toWord r.code, rs.foldl (fun f r => f.or r.flags) {})

/-- Conversion results of one lane packed into fields of a width, the first lowest. -/
def inFields (width : Nat) (rs : List Coded) : List Word × FpFlags :=
  ([BitVec.ofNat 32 ((rs.mapIdx fun i r => r.code % 2 ^ width * 2 ^ (width * i)).sum)], rs.foldl (fun f r => f.or r.flags) {})

/-- round(destination, x) of R190 for the element x of a source code; a NaN of the binary8 family sets no NV (R134). -/
def cvtTo (x y : Half) (u code : Nat) : Coded :=
  let r := y.kind.round y.sat y.rm u (x.kind.decode code)
  if x.kind.is8 ∧ (x.kind.decode code).isNan then ⟨r.code, { r.flags with nv := false }⟩ else r

/-- round(destination, x) of R191 for an element under a scale code: NV exactly where the scale makes a NaN of an element
that is none. -/
def unpacksTo (y : Half) (scale u : Nat) (x : Num) : Coded :=
  let e := unscaled scale x
  let r := y.kind.round y.sat y.rm u e.1
  if e.1.isNan then ⟨r.code, { nv := !x.isNan }⟩ else r

/-- The conversions of R190 and R191. -/
def cvtResult : Instr → Option CvtOp
  | .cvt d a b => some ⟨d, 1, a, b, {}, false, fun x y _ v u => inRegs y.kind [cvtTo x y (u 0) (v 0)]⟩
  | .cvtPack d a b => some ⟨d, 1, a, b, { dst := Kind.isByte }, false, fun x y _ v u =>
      inFields 8 ((List.range 4).map fun i => cvtTo x y (u i) (v i))⟩
  | .cvtUnpk d a b => some ⟨d, 4, a, b, { src := Kind.isByte }, false, fun x y _ v u =>
      inRegs y.kind ((List.range 4).map fun i => cvtTo x y (u i) (v 0 / 2 ^ (8 * i)))⟩
  | .cvtPack2 d a b => some ⟨d, 1, a, b, { dst := Kind.isHalf }, false, fun x y _ v u =>
      inFields 16 ((List.range 2).map fun i => cvtTo x y (u i) (v i))⟩
  | .cvtUnpk2 d a b => some ⟨d, 2, a, b, { src := Kind.isHalf }, false, fun x y _ v u =>
      inRegs y.kind ((List.range 2).map fun i => cvtTo x y (u i) (v 0 / 2 ^ (16 * i)))⟩
  | .cvtPacks d a b =>
    some ⟨d, 1, a, b, { src := fun k => k = .fp32, dst := Kind.isByte, dstBlk := fun _ => true }, true, fun x y old v u =>
      inFields 8 ((List.range 4).map fun i => y.packScaled (old.toNat % 2 ^ 8) (u i) (x.kind.decode (v i)))⟩
  | .cvtUnpks d a b =>
    some ⟨d, 4, a, b, { src := Kind.isByte, srcBlk := fun _ => true }, true, fun x y old v u =>
      inRegs y.kind ((List.range 4).map fun i =>
        unpacksTo y (old.toNat % 2 ^ 8) (u i) (x.kind.decode (v 0 / 2 ^ (8 * i))))⟩
  | _ => none

/-- Whether some lane of the set converts under the stochastic mode (R144). -/
def CvtOp.stochastic (o : CvtOp) (c : Ctx) : Bool :=
  (lanesOf c.set).any fun l => match o.fmt.halves (c.operand o.b l) with
    | some h => decide (h.2.rm = .stoch)
    | none => false

/-- The generator after the issue (R144). -/
def CvtOp.seed (o : CvtOp) (c : Ctx) : Word := if o.stochastic c = true then seedStep c.w.srseed else c.w.srseed

/-- A lane's words and flags; a helper lane whose format word fails gets 0 (R15). -/
def CvtOp.lane (o : CvtOp) (c : Ctx) (l : Nat) : List Word × FpFlags :=
  match o.fmt.halves (c.operand o.b l) with
  | some (x, y) => o.out x y (c.reg o.d l) (fun i => (if i = 0 then c.operand o.a l else c.reg o.a l i).toNat) (stochBits (o.seed c) l)
  | none => ([], {})

/-- Every counted lane's format word passes the checks of R140 and R189. -/
def CvtOp.legal (o : CvtOp) (c : Ctx) : Prop := ∀ l, hasLane c.cnt l = true → (o.fmt.halves (c.operand o.b l)).isSome = true

/-- The generator's state put into a wave. -/
def withSeed (w : Wave) (seed : Word) : Wave := { w with srseed := seed }

/-- The value that an aligned group of 8 lanes gives QSCALE: its counted lanes' 32 elements, absent ones +0 (R192). -/
def groupElems (c : Ctx) (a : Reg) (g : Nat) : List Num :=
  (List.range 32).map fun i => if hasLane c.cnt (8 * g + i / 4) then f32 (c.reg a (8 * g + i / 4) (i % 4)) else .zero

/-- emax of a quantiser's destination (R136). -/
def emaxOf : Kind → ℤ
  | .b8 p inf => if p = 1 ∧ inf = true then 62 else 2 ^ (7 - p) - 1
  | .u8 p inf => if p = 1 then (if inf then 125 else 126) else if p = 2 ∧ inf = true then 62 else 2 ^ (8 - p) - 1
  | .int8 => 6
  | _ => 7

/-- An exact value times 2^k. -/
def timesPow : Machine.Num → ℤ → Machine.Num
  | .fin n m, k => .fin n ⟨m.n * 2 ^ k.toNat, m.d * 2 ^ (-k).toNat⟩
  | x, _ => x

/-- The magnitude of a finite value. -/
def absOf : Machine.Num → ℚ
  | .fin _ m => rat m
  | _ => 0

/-- A value is a NaN or infinite. -/
def nonfinite (x : Machine.Num) : Bool := x.isNan || x.isInf

/-- The error sum of a block under a candidate scale code (R151). -/
def blockError (y : Half) (xs : List Machine.Num) (c : ℤ) : Machine.Num :=
  let rm := if y.rm = .stoch then .rne else y.rm
  let r (x : Machine.Num) : Machine.Num := f32 (rne32 x)
  xs.foldl (fun err x =>
    let q := y.kind.decode (y.kind.round y.sat rm 0 (timesPow x (128 - c))).code
    let d := r (x.add .rne (timesPow q (c - 128)).neg).1
    if nonfinite q then .inf false else r (err.add .rne (r (d.mul d).1)).1) .zero

/-- One error sum is below another; +∞ is the greatest. -/
def lessError : Machine.Num → Machine.Num → Prop
  | .fin _ a, .fin _ b => rat a < rat b
  | .fin _ _, .inf _ => True
  | _, _ => False

/-- The scale code of a block and the flags of the search for it (R151): 0xFF with NONFINITE; 1 for zeros alone; else of the
three candidates about c0, clamped, the one of least error, a tie going to the larger code, with UNDERSCALE where c0 was below 1. -/
def isScale (y : Half) (xs : List Machine.Num) (c : Nat) (f : FpFlags) : Prop :=
  let bad : Prop := ∃ x ∈ xs, nonfinite x = true
  (bad → c = 0xFF ∧ f = { nonfinite := true }) ∧
  (¬ bad → (∀ x ∈ xs, absOf x = 0) → c = 1 ∧ f = {}) ∧
  ∀ (amax : ℚ) (e : ℤ), ¬ bad → (∃ x ∈ xs, absOf x = amax) → (∀ x ∈ xs, absOf x ≤ amax) → 2 ^ e ≤ amax → amax < 2 ^ (e + 1) →
    let k := e - emaxOf y.kind + 128
    let clamp (z : ℤ) : ℤ := max 1 (min 254 z)
    let candidates := [clamp (clamp k + 1), clamp k, clamp (clamp k - 1)]
    let err := blockError y xs
    (c : ℤ) ∈ candidates ∧ f = { underscale := decide (k < 1) } ∧
      ∀ c' ∈ candidates, c' = c ∨ lessError (err c) (err c') ∨ (¬ lessError (err c') (err c) ∧ c' < c)

/-- The final conversion of an element of a block under its scale code (R151). -/
def scaledElement (y : Half) (xs : List Machine.Num) (c u : Nat) (x : Machine.Num) : Coded :=
  if xs.any nonfinite then
    ⟨match y.kind with
      | .b8 _ _ => 0x80
      | .u8 _ _ => 0xFF
      | _ => 0, {}⟩
  else if xs.all (·.isZero) then ⟨0, {}⟩
  else y.kind.round y.sat y.rm u (timesPow x (128 - c))

/-- The lanes of the set in a group of 8 with a counted lane (R192). -/
def groupLanes (c : Ctx) : Mask :=
  maskOf ((lanesOf c.set).filter fun l => (List.range 8).any fun i => hasLane c.cnt (l / 8 * 8 + i))

end Sys2Proof.Machine.Spec

/-- R188 to R191, R144, R148: CVT, CVT.PACK, CVT.UNPK, CVT.PACK2 and CVT.UNPK2 (class F) and CVT.PACKS and CVT.UNPKS
(class V) complete on window registers when every counted lane's format word is legal; every lane gets its converted
words, the flags are the counted lanes', and the generator steps once if a lane of the set rounds stochastically. That a
helper lane's rounding alone steps it is log entry 9; that a NaN of another format converted to an integer sets NV is log
entry 60. -/
def Sys2Proof.Machine.Spec.conversionEffectsHold : Prop :=
  ∀ (s : State) (i : Instr) (c : Ctx) (o : CvtOp), cvtResult i = some o → Ready s i c → windowOnly i → o.legal c →
    let val := fun l k => (o.lane c l).1.getD k 0
    ∃ t, exec i s = .next t ∧
      if o.classV then
        Ends s t c (withSeed (c.owing o.d o.du val fun l => (o.lane c l).2.word) (o.seed c)) (fun _ => c.pc + 4)
      else
        WritesF s t c o.d o.du val (c.w.fflags ||| raised c fun l => (o.lane c l).2) (o.seed c) (fun _ => c.pc + 4)

/-- R140, R388: a counted lane's illegal format word raises the format trap for the set; $tval is the failing half of the
lowest such lane, the low half first. -/
def Sys2Proof.Machine.Spec.conversionFormatTrapHold : Prop :=
  ∀ (s : State) (i : Instr) (c : Ctx) (o : CvtOp) (l : Nat), cvtResult i = some o → Ready s i c → windowOnly i →
    hasLane c.cnt l = true → o.fmt.halves (c.operand o.b l) = none →
    (∀ k, k < l → hasLane c.cnt k = true → (o.fmt.halves (c.operand o.b k)).isSome = true) →
    let bits := (c.operand o.b l).toNat
    let half := if (o.fmt.srcHalf (c.operand o.b l)).isNone then bits % 2 ^ 16 else bits / 2 ^ 16
    exec i s = .next (s.raise c.wid ⟨.format, c.cnt, BitVec.ofNat 32 half, 0, none⟩ c.set c.pc c.word)

/-- R192, R151, R117: QSCALE completes when the counted lanes agree in a legal format word: each aligned group of 8 lanes
with a counted lane gets the scale code of its 32 elements in every lane of the set, with the search's flags (`isScale`: R151's
amax, c0 and its clamps, its three candidates, the least error, a tie to the larger code). A word that
fails a check of R140 or R189 raises the format trap, $tval its failing half, the low half first (R388). -/
def Obligations.QscaleEffects : Prop :=
  ∀ (s : State) (c : Ctx) (d a b : Reg), Ready s (.qscale d a b) c → c.cnt ≠ 0 →
    (∀ l, hasLane c.cnt l = true → c.reg b l = c.reg b c.first) →
    (qscaleFmt.halves (c.reg b c.first) = none →
      let bits := (c.reg b c.first).toNat
      let half := if (qscaleFmt.srcHalf (c.reg b c.first)).isNone then bits % 2 ^ 16 else bits / 2 ^ 16
      exec (.qscale d a b) s = .next (s.raise c.wid ⟨.format, c.cnt, BitVec.ofNat 32 half, 0, none⟩ c.set c.pc c.word)) ∧
    ∀ (x y : Half), qscaleFmt.halves (c.reg b c.first) = some (x, y) →
    ∃ (t : State) (q : Nat → Nat × FpFlags), exec (.qscale d a b) s = .next t ∧
      (∀ l, hasLane (groupLanes c) l = true → isScale y (groupElems c a (l / 8)) (q l).1 (q l).2) ∧
      Ends s t c { c.w with
        region := (c.w.shadowed (c.unit (d, 1))).region
        outst := c.w.outst ++ c.results s.seq (groupLanes c) d 1 (fun l _ => BitVec.ofNat 32 (q l).1)
          (fun l => (q l).2.word) true } (fun _ => c.pc + 4)

/-- The conversions, and the format trap of an illegal format word (R145, R186). -/
def Obligations.ConversionEffects : Prop :=
  Sys2Proof.Machine.Spec.conversionEffectsHold ∧ Sys2Proof.Machine.Spec.conversionFormatTrapHold

namespace Sys2Proof.Machine.Spec

/-- The counted lanes agree in a register's low bits (R117). -/
def agree (c : Ctx) (b : Reg) (bits : Nat) : Prop :=
  ∀ l, hasLane c.cnt l = true → (c.reg b l).toNat % 2 ^ bits = (c.reg b c.first).toNat % 2 ^ bits

/-- Lane l's word from lane m of the set, its own where m is no lane of it (R195). -/
def fromLane (c : Ctx) (a : Reg) (l : Nat) (m : Int) : Word :=
  if 0 ≤ m ∧ m < 64 ∧ hasLane c.set m.toNat = true then c.reg a m.toNat else c.reg a l

/-- The mask of the counted lanes that meet a condition. -/
def votes (c : Ctx) (p : Nat → Prop) [DecidablePred p] : Mask := BitVec.ofNat 64
  (((List.range 64).filter fun l => hasLane c.cnt l && decide (p l)).map (2 ^ ·)).sum

/-- A vote's pair (R197). -/
def maskWords (m : Mask) : List Word := [m.setWidth 32, (m >>> 32).setWidth 32]

/-- The integer operations of R198. -/
def redOp (sel : Nat) (x y : Word) : Word :=
  match sel with
  | 0 => BitVec.ofNat 32 (x.toNat + y.toNat)
  | 1 => if x.toInt < y.toInt then x else y
  | 2 => if x.toInt > y.toInt then x else y
  | 3 => if x.toNat < y.toNat then x else y
  | 4 => if x.toNat > y.toNat then x else y
  | 5 => x &&& y
  | 6 => x ||| y
  | _ => x ^^^ y

/-- The values of a list joined from the left; 0 where there is none. -/
def joined (op : Word → Word → Word) : List Word → Word
  | [] => 0
  | x :: xs => xs.foldl op x

/-- A LANE instruction: destination unit, the register and low bits in which the counted lanes must agree, a lane's words. -/
structure LaneFn where
  d : Reg
  u : Nat
  uniform : Option (Reg × Nat)
  out : Ctx → Nat → List Word

/-- The low bits of a uniform operand, as the lowest counted lane has them (R117). -/
def low (c : Ctx) (b : Reg) (bits : Nat) : Nat := (c.reg b c.first).toNat % 2 ^ bits

/-- The cross-lane instructions of R195 to R198 but the floating-point ones. -/
def laneResult : Instr → Option LaneFn
  | .shfl d a b => some ⟨d, 1, none, fun c l => [fromLane c a l ((c.reg b l).toNat % 64)]⟩
  | .shflup d a b => some ⟨d, 1, some (b, 6), fun c l => [fromLane c a l (l - low c b 6)]⟩
  | .shfldn d a b => some ⟨d, 1, some (b, 6), fun c l => [fromLane c a l (l + low c b 6)]⟩
  | .shflx d a b => some ⟨d, 1, some (b, 6), fun c l => [fromLane c a l ((l ^^^ low c b 6 : Nat) : Int)]⟩
  | .qxch d a b => some ⟨d, 1, some (b, 3), fun c l =>
      [fromLane c a l ((l / 4 * 4 + if low c b 3 / 4 = 1 then low c b 3 % 4 else (l % 4) ^^^ (low c b 3 % 4) : Nat) : Int)]⟩
  | .ballot d a => some ⟨d, 2, none, fun c _ => maskWords (votes c fun k => c.reg a k ≠ 0)⟩
  | .vany d a => some ⟨d, 1, none, fun c _ => [cond (votes c (fun k => c.reg a k ≠ 0) ≠ 0)]⟩
  | .vall d a => some ⟨d, 1, none, fun c _ => [cond (votes c (fun k => c.reg a k = 0) = 0)]⟩
  | .laneMatch d a => some ⟨d, 2, none, fun c l => maskWords (votes c fun k => c.reg a k = c.reg a l)⟩
  | .elect d => some ⟨d, 1, none, fun c l => [cond (l = c.first)]⟩
  | .ired d a b => some ⟨d, 1, some (b, 3), fun c _ => [joined (redOp (low c b 3)) ((lanesOf c.cnt).map fun k => c.reg a k)]⟩
  | .iscan d a b => some ⟨d, 1, some (b, 3), fun c l =>
      [joined (redOp (low c b 3)) (((lanesOf c.cnt).filter fun k => k ≤ l).map fun k => c.reg a k)]⟩
  | _ => none

/-- One step of a floating-point reduction or scan under element numbers l and j (R198, R144): FADD, FMIN, FMAX or FMUL. -/
def fpStep (c : Ctx) (sel seed l j : Nat) (x y : Word) : Word × FpFlags :=
  let a := f32 (flush c.w.ftz x)
  let b := f32 (flush c.w.ftz y)
  let u := stochBits (BitVec.ofNat 32 seed) l j
  match sel with
  | 0 => fpRound c u (a.add c.w.rm b)
  | 1 => minMax32 false c.w.ftz x y
  | 2 => minMax32 true c.w.ftz x y
  | _ => fpRound c u (a.mul b)

/-- What two inputs that may be absent come to, each with the flags raised so far: an absent one passes the other unchanged. -/
def combined (f : Word → Word → Word × FpFlags) : Option Word × FpFlags → Option Word × FpFlags → Option Word × FpFlags
  | (some a, x), (some b, y) => (some (f a b).1, (x.or y).or (f a b).2)
  | (some a, x), (none, _) => (some a, x)
  | (none, _), y => y

/-- The node at level v of R152's tree whose left subtree begins at lane m: element numbers m and v. -/
def node (f : Nat → Nat → Word → Word → Word × FpFlags) (leaf : Nat → Option Word) : Nat → Nat → Option Word × FpFlags
  | 0, m => (leaf m, {})
  | v + 1, m => combined (f m (v + 1)) (node f leaf v m) (node f leaf v (m + 2 ^ v))

/-- Lane l's partial after step v of R153, with the flags of the lane's own steps: element numbers l and v. -/
def scanned (f : Nat → Nat → Word → Word → Word × FpFlags) (leaf : Nat → Option Word) : Nat → Nat → Option Word × FpFlags
  | 0, l => (leaf l, {})
  | v + 1, l =>
    if l < 2 ^ v then scanned f leaf v l
    else combined (f l (v + 1)) ((scanned f leaf v (l - 2 ^ v)).1, {}) (scanned f leaf v l)

/-- The value that a lane brings to a reduction or scan: absent where the lane does not count (R152). -/
def leafOf (c : Ctx) (a : Reg) (l : Nat) : Option Word := if hasLane c.cnt l = true then some (c.reg a l) else none

end Sys2Proof.Machine.Spec

/-- R194 to R198, R117, R121: SHFL, SHFLUP, SHFLDN, SHFLX, QXCH, BALLOT, VANY, VALL, MATCH, ELECT, IRED and ISCAN complete
when the set has a counted lane and the counted lanes agree in the uniform operand; their results are outstanding in every
lane of the set, helper lanes included, and no flag comes with them. That ISCAN writes 0 in a helper lane with no counted lane
below it is the model's choice: log entry 62. -/
def Sys2Proof.Machine.Spec.crossLaneEffectsHold : Prop :=
  ∀ (s : State) (i : Instr) (c : Ctx) (o : LaneFn), laneResult i = some o → Ready s i c → c.cnt ≠ 0 →
    (∀ b bits, o.uniform = some (b, bits) → agree c b bits) →
    ∃ t, exec i s = .next t ∧
      Ends s t c (c.owing o.d o.u (fun l k => (o.out c l).getD k 0) fun _ => 0) (fun _ => c.pc + 4)

/-- R198, R152, R153, R144: FRED and FSCAN complete under the same conditions: FADD and FMUL step the generator under the
stochastic mode, the counted lanes' values are joined by the tree of R152 or the steps of R153, and each lane's flags are
those of the steps that make its result. A node at level v whose left subtree begins at lane m draws with element numbers m
and v, step v of lane l with l and v. That FSCAN writes 0 in a helper lane with no counted lane below it is the model's choice:
log entry 62. -/
def Sys2Proof.Machine.Spec.floatReductionsHold : Prop :=
  ∀ (s : State) (c : Ctx) (d a b : Reg), c.cnt ≠ 0 → agree c b 2 →
    let sel := low c b 2
    let seed := if (sel = 0 ∨ sel = 3) ∧ c.w.rm = .stoch then seedStep c.w.srseed else c.w.srseed
    let f := fpStep c sel seed.toNat
    let tree := node f (leafOf c a) 6 0
    let scan (l : Nat) := scanned f (leafOf c a) 6 l
    (Ready s (.fred d a b) c → ∃ t, exec (.fred d a b) s = .next t ∧
      Ends s t c (withSeed (c.owing d 1 (fun _ _ => tree.1.getD 0) fun _ => tree.2.word) seed) (fun _ => c.pc + 4)) ∧
    (Ready s (.fscan d a b) c → ∃ t, exec (.fscan d a b) s = .next t ∧
      Ends s t c (withSeed (c.owing d 1 (fun l _ => (scan l).1.getD 0)
        fun l => (scan l).2.word) seed) (fun _ => c.pc + 4))

/-- The cross-lane instructions, the floating-point reductions and scans among them. -/
def Obligations.CrossLaneEffects : Prop :=
  Sys2Proof.Machine.Spec.crossLaneEffectsHold ∧ Sys2Proof.Machine.Spec.floatReductionsHold

namespace Sys2Proof.Machine.Spec

/-- A lane-wise instruction that R99 lets name queue registers: destination unit, source fields, the generator after it,
a lane's words and flags, and what its operands must meet. -/
structure QOp where
  d : Reg
  u : Nat
  srcs : List Reg
  seed : Ctx → Word
  out : Ctx → Nat → List Word × Word
  legal : Ctx → Prop

/-- The lane-wise instructions with single-register fields. -/
def qOp (i : Instr) : Option QOp :=
  let srcs := (unitsOf i).2.map (·.1)
  match intResult i, fpResult i, fpUnitResult i, i with
  | some (d, f), _, _, _ => some ⟨d, 1, srcs, fun c => c.w.srseed, fun c l => ([f c l], 0), fun _ => True⟩
  | _, some o, _, _ =>
    let seed (c : Ctx) : Word := if o.draws = true ∧ c.w.rm = .stoch then seedStep c.w.srseed else c.w.srseed
    some ⟨o.d, 1, srcs, seed, fun c l => ([(o.out c l (stochBits (seed c) l)).1], (o.out c l (stochBits (seed c) l)).2.word),
      fun _ => True⟩
  | _, _, some (d, f), _ => some ⟨d, 1, srcs, fun c => c.w.srseed, fun c l => ([(f c l).1], (f c l).2.word), fun _ => True⟩
  | _, _, _, .imulW d a b =>
    some ⟨d, 2, [a, b], fun c => c.w.srseed, fun c l =>
      let x : DWord := BitVec.ofInt 64 (si (c.operand a l) * si (c.operand b l))
      ([pairWord x 0, pairWord x 1], 0), fun _ => True⟩
  | _, _, _, .umulW d a b =>
    some ⟨d, 2, [a, b], fun c => c.w.srseed, fun c l =>
      let x : DWord := BitVec.ofNat 64 ((c.operand a l).toNat * (c.operand b l).toNat)
      ([pairWord x 0, pairWord x 1], 0), fun _ => True⟩
  | _, _, _, .shlW d a b =>
    some ⟨d, 2, [b], fun c => c.w.srseed, fun c l =>
      let x : DWord := BitVec.ofNat 64 ((c.regW a l).toNat * 2 ^ ((c.operand b l).toNat % 64))
      ([pairWord x 0, pairWord x 1], 0), fun _ => True⟩
  | _, _, _, .shrW d a b =>
    some ⟨d, 2, [b], fun c => c.w.srseed, fun c l =>
      let x : DWord := BitVec.ofNat 64 ((c.regW a l).toNat / 2 ^ ((c.operand b l).toNat % 64))
      ([pairWord x 0, pairWord x 1], 0), fun _ => True⟩
  | _, _, _, .sraW d a b =>
    some ⟨d, 2, [b], fun c => c.w.srseed, fun c l =>
      let x : DWord := BitVec.ofInt 64 ((c.regW a l).toInt / 2 ^ ((c.operand b l).toNat % 64))
      ([pairWord x 0, pairWord x 1], 0), fun _ => True⟩
  | _, _, _, .cvt d a b =>
    match cvtResult (.cvt d a b) with
    | some o => some ⟨d, 1, [a, b], o.seed, fun c l => ((o.lane c l).1, (o.lane c l).2.word), o.legal⟩
    | none => none
  | _, _, _, _ => none

/-- The different queue registers of a list of fields, a's before b's (R100). -/
def sourceQueues (rs : List Reg) : List Nat := (rs.filterMap fun r => match r with
  | .q n => some n
  | .v _ => none).eraseDups

/-- Every counted lane has a value to pop (R100, R359). -/
def canPop (c : Ctx) (q : Nat) : Prop :=
  ∃ b, c.t.queues.get? q = some b ∧ ∀ l, hasLane c.cnt l = true → 0 < b.count l

/-- The wave may push, and every counted lane has room (R100, R358). -/
def canPush (c : Ctx) (q : Nat) : Prop :=
  ∃ b, c.t.queues.get? q = some b ∧ b.port = false ∧ b.prod.testBit c.w.idx = true ∧
    ∀ l, hasLane c.cnt l = true → c.s.hasRoom c.w.tid q b l = true

/-- The team with one value popped per counted lane from each queue. -/
def poppedTeam (c : Ctx) (qs : List Nat) (t : Team) : Team :=
  qs.foldl (fun t q => { t with queues := t.queues.upd q fun b => b.pop c.cnt }) t

/-- The trap a read of a queue register meets (R359): unbound, or counted lanes for which no value can come. -/
def popTrap (c : Ctx) (q : Nat) : Option TrapInfo :=
  match c.t.queues.get? q with
  | none => some ⟨.queue, c.cnt, BitVec.ofNat 32 q, 0, none⟩
  | some b =>
    let orphans := (lanesOf c.cnt).filter fun l => b.count l == 0 && c.s.noneComing c.w.tid q b l
    if orphans.isEmpty then none else some ⟨.orphanedQueue, maskOf orphans, BitVec.ofNat 32 q, 0, none⟩

/-- The trap a push meets (R358): unbound, a port, or a wave that is no producer. -/
def pushTrap (c : Ctx) (q : Nat) : Option TrapInfo :=
  match c.t.queues.get? q with
  | none => some ⟨.queue, c.cnt, BitVec.ofNat 32 q, 0, none⟩
  | some b => if b.port = true ∨ b.prod.testBit c.w.idx = false then some ⟨.queue, c.cnt, BitVec.ofNat 32 q, 0, none⟩ else none

/-- The traps of an instruction's queue fields in the order a, b, d. -/
def queueTraps (c : Ctx) (o : QOp) : List (Option TrapInfo) :=
  (sourceQueues o.srcs).map (popTrap c) ++ match o.d with
    | .q q => [pushTrap c q]
    | .v _ => []

end Sys2Proof.Machine.Spec

/-- R99, R100, R120, R156, R342, R358: a lane-wise instruction with queue registers among its fields completes when every counted
lane can pop from each source queue and push to a destination queue: one value is popped per lane and queue; a window
destination gets its result as a class V result, a destination queue as a store-buffer entry with one value per counted
lane, its flags at once: in lane order, an entry for each run of lanes whose next slots share a line of the local store (R254,
log entry 63). Where it pops, no region is open in its wave (R342), and no other wave's region has read the
queue. -/
def Sys2Proof.Machine.Spec.queueOperandEffectsHold : Prop :=
  ∀ (s : State) (i : Instr) (c : Ctx) (o : QOp), qOp i = some o → Ready s i c → ¬ windowOnly i → o.legal c →
    let qs := sourceQueues o.srcs
    (∀ q ∈ qs, canPop c q ∧ s.readers [.chan c.w.tid q] (some c.wid) = []) → (qs ≠ [] → c.w.region = none) →
    (∀ q, o.d = .q q → canPush c q) →
    let sB := { s with teams := s.teams.upd c.w.tid (poppedTeam c qs) }
    ∃ t, exec i s = .next t ∧ SameBytes s t ∧
      match o.d with
      | .v _ =>
        Ends sB t c (withSeed (c.owing o.d o.u (fun l k => (o.out c l).1.getD k 0) fun l => (o.out c l).2) (o.seed c))
          (fun _ => c.pc + 4)
      | .q q =>
        ∃ es : List (Nat × List (Nat × Word)),
          es.flatMap (·.2) = (lanesOf c.cnt).map (fun l => (l, (o.out c l).1.getD 0 0)) ∧
          (∀ e ∈ es, e.2 ≠ [] ∧ ∀ v ∈ e.2, c.pushLine q v.1 = e.1) ∧
          (∀ n x y, es[n]? = some x → es[n + 1]? = some y → x.1 ≠ y.1) ∧
          Ends sB t c { c.w.enter s.seq (es.map fun e => (e.1, .push q e.2)) with
            fflags := c.w.fflags ||| (lanesOf c.cnt).foldl (fun x l => x ||| (o.out c l).2) 0, srseed := o.seed c }
            (fun _ => c.pc + 4)

/-- R100, R358, R359, R388: of the queue fields in the order a, b, d the first that traps raises its trap for the set, and
nothing is popped; with no trap, a value or room that is missing makes the set wait, with no other effect. That these
traps and waits come before CVT's own format trap is log entry 21. -/
def Sys2Proof.Machine.Spec.queueOperandStopsHold : Prop :=
  ∀ (s : State) (i : Instr) (c : Ctx) (o : QOp), qOp i = some o → Ready s i c → c.cnt ≠ 0 →
    (∀ pre x post, queueTraps c o = pre ++ some x :: post → (∀ y ∈ pre, y = none) →
      exec i s = .next (s.raise c.wid x c.set c.pc c.word)) ∧
    ((∀ y ∈ queueTraps c o, y = none) →
      (∃ q ∈ sourceQueues o.srcs, ¬ canPop c q) ∨ (∃ q, o.d = .q q ∧ ¬ canPush c q) → exec i s = .next s.wait)

/-- Queue registers as operands: what a pop and a push do, where they trap and where they wait. -/
def Obligations.QueueOperands : Prop :=
  Sys2Proof.Machine.Spec.queueOperandEffectsHold ∧ Sys2Proof.Machine.Spec.queueOperandStopsHold

namespace Sys2Proof.Machine.Spec

/-- Where a branch or jump leads: the PC of a displacement (R168). -/
def displaced (c : Ctx) (i : Int) : PC := BitVec.ofInt 57 (c.pc.toNat + 4 + 4 * i)

/-- The PC in bits [56:0] of a lane's pair (R170). -/
def pairPc (c : Ctx) (a : Reg) (l : Nat) : PC := BitVec.ofNat 57 (c.regW a l).toNat

/-- A PC is a multiple of 4 (R90). -/
def aligned (p : PC) : Prop := p.toNat % 4 = 0


/-- Where a jump through a pair takes a lane; a helper lane with a misaligned target goes on (R15). -/
def jumpNext (c : Ctx) (a : Reg) (l : Nat) : PC := if (pairPc c a l).toNat % 4 = 0 then pairPc c a l else c.pc + 4

/-- What an instruction of the CONTROL group without results does: its condition, the wave, where each lane goes. -/
structure ControlOp where
  legal : Ctx → Prop := fun _ => True
  wave : Ctx → Wave := fun c => c.w
  next : Ctx → Nat → PC := fun c _ => c.pc + 4

/-- The control instructions of R168, R170 and R172 to R176 that write no register. -/
def control : Instr → Option ControlOp
  | .bra i => some { next := fun c _ => displaced c i }
  | .bz a i => some { next := fun c l => if c.reg a l = 0 then displaced c i else c.pc + 4 }
  | .bnz a i => some { next := fun c l => if c.reg a l ≠ 0 then displaced c i else c.pc + 4 }
  | .jmp a => some { legal := fun c => ∀ l, hasLane c.cnt l = true → aligned (pairPc c a l), next := fun c => jumpNext c a }
  | .ret a => some { legal := fun c => ∀ l, hasLane c.cnt l = true → aligned (pairPc c a l), next := fun c => jumpNext c a }
  | .nop => some {}
  | .yield => some {}
  | .commit => some { legal := fun c => c.w.region = none }
  | .sleep k => some { wave := fun c => { c.w with
      sleep := some (c.s.clock.toNat + (8 + k % 8) * 2 ^ (k / 8) * 8), slept := some (c.pc, c.set) } }
  | _ => none

/-- The target of an instruction that jumps through a pair. -/
def jumpPair : Instr → Option Reg
  | .jmp a => some a
  | .ret a => some a
  | .jcall _ a => some a
  | _ => none

/-- The lanes that leave with a set that exits: its threads, and helper lanes of quads with no thread left (R15, R173). -/
def leaves (c : Ctx) (l : Nat) : Bool :=
  (hasLane c.set l && hasLane c.w.counted l) || (hasLane c.w.helper l && hasLane c.w.live l &&
    (List.range 4).all fun i => !(hasLane c.w.counted (l / 4 * 4 + i) && !hasLane c.set (l / 4 * 4 + i)))

end Sys2Proof.Machine.Spec

/-- R168, R170, R172 to R176: BRA, BZ, BNZ, JMP, RET, NOP, YIELD, COMMIT and SLEEP complete: every lane of the set goes to
its next PC; a sleeping wave keeps the clock value from which it may be ready; COMMIT completes with no region open, JMP
and RET where every counted lane's target is a multiple of 4. No register, flag or byte changes. -/
def Sys2Proof.Machine.Spec.controlEffectsHold : Prop :=
  ∀ (s : State) (i : Instr) (c : Ctx) (o : ControlOp), control i = some o → Ready s i c → o.legal c →
    ∃ t, exec i s = .next t ∧ Ends s t c (o.wave c) (o.next c)

/-- R169, R170: CALL and JCALL write the PC of the next word to their pair in every lane, 0 where a helper lane's target
is misaligned, and go to their targets. -/
def Sys2Proof.Machine.Spec.linkEffectsHold : Prop :=
  (∀ (s : State) (c : Ctx) (d : Reg) (i : Int), Ready s (.call d i) c →
    ∃ t, exec (.call d i) s = .next t ∧
      WritesF s t c d 2 (fun _ k => pairWord ((c.pc + 4).setWidth 64) k) c.w.fflags c.w.srseed fun _ => displaced c i) ∧
  (∀ (s : State) (c : Ctx) (d a : Reg), Ready s (.jcall d a) c → (∀ l, hasLane c.cnt l = true → aligned (pairPc c a l)) →
    ∃ t, exec (.jcall d a) s = .next t ∧
      WritesF s t c d 2 (fun l k => if (pairPc c a l).toNat % 4 = 0 then pairWord ((c.pc + 4).setWidth 64) k else 0)
        c.w.fflags c.w.srseed (jumpNext c a))

/-- R90, R170, R388: a counted lane's misaligned target raises the misaligned trap for the set, with $taddr the target of
the lowest counted lane; no link is written. -/
def Sys2Proof.Machine.Spec.misalignedTargetHold : Prop :=
  ∀ (s : State) (i : Instr) (c : Ctx) (a : Reg) (l : Nat), jumpPair i = some a → Ready s i c → hasLane c.cnt l = true →
    ¬ aligned (pairPc c a l) →
    exec i s = .next (s.raise c.wid ⟨.misaligned, c.cnt, 0, BitVec.ofNat 64 (pairPc c a c.first).toNat, none⟩ c.set c.pc c.word)

/-- R15, R63, R122, R173, R367, R431: EXIT completes unless it would leave no lane while results are to return, and then it
waits. The set's threads leave, with the helper lanes of quads left without a thread; the tasks they hold end and the
threads that had not triggered count as triggered; the other lanes, waves and every byte stay. That a helper lane of the set
whose quad still has a thread stays live where it stands is log entry 19. -/
def Obligations.ExitEffects : Prop :=
  ∀ (s : State) (c : Ctx), Ready s .exit c → s.readers [.task c.t.lid] (some c.wid) = [] →
    let last := ∀ l, hasLane c.w.live l = true → leaves c l = true
    (last → c.w.outst ≠ [] → exec .exit s = .next s.wait) ∧
    (¬ last ∨ c.w.outst = [] → ∃ t w', exec .exit s = .next t ∧ t.waves.get? c.wid = some w' ∧
      (∀ l, l < 64 → hasLane w'.live l = (hasLane c.w.live l && !leaves c l)) ∧
      (∀ l, l < 64 → hasLane w'.exited l = (hasLane c.w.exited l || (leaves c l && hasLane c.w.threads l))) ∧
      (∀ l, leaves c l = false → pcOfLane w'.pcs l = pcOfLane c.w.pcs l) ∧
      w'.holds = c.w.holds &&& ~~~c.set ∧ w'.triggered = c.w.triggered ||| (c.set &&& c.w.threads) ∧
      w'.regs = c.w.regs ∧ w'.hidden = c.w.hidden ∧ w'.fflags = c.w.fflags ∧ w'.sbuf = c.w.sbuf ∧
      (∀ k, k ≠ c.wid → t.waves.get? k = s.waves.get? k) ∧
      (∀ x, s.launches.get? c.t.lid = some x → ∃ y, t.launches.get? c.t.lid = some y ∧
        y.inFlight = x.inFlight - (lanesOf (c.w.holds &&& c.set)).length ∧
        y.trigDone = x.trigDone + (lanesOf (c.set &&& c.w.threads &&& ~~~c.w.triggered)).length) ∧
      t = { s with waves := t.waves, cores := t.cores, launches := t.launches, seq := t.seq } ∧ SameBytes s t)

/-- R130, R131, R199, R389: SREAD completes with the special register's value in every lane: 0 to 11 and 16 to 19 as class
F results, the others outstanding; SREAD of 12 latches the counter's high word. SWRITE takes the value of the lowest
counted lane. -/
def Obligations.SpecialRegisters : Prop :=
  (∀ (s : State) (c : Ctx) (d : Reg) (k : Nat), Ready s (.sread d k) c →
    let launch := s.launches.get? c.t.lid
    let val : Nat → Nat → Word := fun l _ => match k with
      | 0 => BitVec.ofNat 32 l
      | 1 => BitVec.ofNat 32 (l / 4)
      | 2 => BitVec.ofNat 32 c.w.idx
      | 3 => BitVec.ofNat 32 c.t.team
      | 4 => BitVec.ofNat 32 c.t.gang
      | 5 => BitVec.ofNat 32 ((launch.map fun x => x.queue * 2 ^ 26 + x.seq % 2 ^ 26).getD 0)
      | 6 => BitVec.ofNat 32 (4 * c.t.cluster + c.t.pos)
      | 7 => BitVec.ofNat 32 c.t.cluster
      | 8 => BitVec.ofNat 32 (c.t.cluster / 50)
      | 9 => BitVec.ofNat 32 s.deviceId
      | 10 => BitVec.ofNat 32 c.t.nWaves
      | 11 => BitVec.ofNat 32 ((launch.map fun x => x.gangs * ((x.shape.map (·.nTeams)).getD 1)).getD 0)
      | 12 => pairWord s.clock 0
      | 13 => c.w.clockh
      | 14 => pairWord c.set 0
      | 15 => pairWord c.set 1
      | 16 => c.w.fpmode
      | 17 => c.w.fflags
      | 18 => cond (hasLane c.w.helper l = true)
      | 19 => c.w.srseed
      | 20 => BitVec.ofNat 32 c.w.trap.cause
      | 21 => pairWord (c.w.trap.pc.setWidth 64) 0
      | 22 => pairWord (c.w.trap.pc.setWidth 64) 1
      | 23 => c.w.trap.word
      | 24 => pairWord c.w.trap.lanes 0
      | 25 => pairWord c.w.trap.lanes 1
      | 26 => pairWord c.w.trap.addr 0
      | 27 => pairWord c.w.trap.addr 1
      | 28 => c.w.trap.val
      | 29 => BitVec.ofNat 32 (lowestLane c.w.trap.lanes)
      | 30 => BitVec.ofNat 32 ((if c.w.trap.prevLevel = .u then 0 else if c.w.trap.prevLevel = .s then 1 else 2) +
          c.w.trap.prevBase / 8 * 256)
      | _ => BitVec.ofNat 32 (c.w.trap.depth + 256 * c.w.trap.retries)
    ∃ t, exec (.sread d k) s = .next t ∧
      if k ≤ 11 ∨ (16 ≤ k ∧ k ≤ 19) then WritesF s t c d 1 val c.w.fflags c.w.srseed (fun _ => c.pc + 4)
      else
        let w := c.owing d 1 val fun _ => 0
        Ends s t c (if k = 12 then { w with clockh := pairWord s.clock 1 } else w) (fun _ => c.pc + 4)) ∧
  (∀ (s : State) (c : Ctx) (a : Reg) (k : Nat), Ready s (.swrite a k) c →
    let v := c.reg a c.first
    let w : Wave := match k with
      | 16 => { c.w with fpmode := fpmodeWrite c.w.fpmode v }
      | 17 => { c.w with fflags := BitVec.ofNat 32 (v.toNat % 2 ^ 8) }
      | _ => { c.w with srseed := v }
    ∃ t, exec (.swrite a k) s = .next t ∧ Ends s t c (if c.cnt = 0 then c.w else w) (fun _ => c.pc + 4))

/-- Branches, jumps, calls and returns, and the trap of a misaligned target. -/
def Obligations.ControlFlow : Prop :=
  Sys2Proof.Machine.Spec.controlEffectsHold ∧ Sys2Proof.Machine.Spec.linkEffectsHold ∧ Sys2Proof.Machine.Spec.misalignedTargetHold

namespace Sys2Proof.Machine.Spec

/-- The trap registers at entry (R388, R389), but the count of retries. -/
def entryRegs (w : Wave) (code : Nat) (i : TrapInfo) (pc : PC) (word : Word) : TrapRegs where
  cause := code
  pc := pc
  word := word
  lanes := i.lanes
  addr := i.addr
  val := i.val
  prevLevel := w.level
  prevBase := w.base
  depth := 1
  retries := if w.trap.pc = pc ∧ w.trap.cause = code then w.trap.retries else 0

/-- The cause codes of R388. -/
def causeCodes : List (Cause × Nat) :=
  [(.illegal, 0x01), (.privileged, 0x02), (.window, 0x03), (.misaligned, 0x04), (.uniformity, 0x05),
    (.formatDivergence, 0x06), (.collectiveDivergence, 0x07), (.format, 0x08), (.alignment, 0x09), (.bounds, 0x0A),
    (.protection, 0x0B), (.hostAtomic, 0x0C), (.handle, 0x0D), (.bank, 0x0E), (.engineOperand, 0x0F), (.multicast, 0x10),
    (.layout, 0x11), (.index, 0x12), (.barrier, 0x13), (.queue, 0x14), (.orphanedQueue, 0x15), (.claimDeadlock, 0x16),
    (.task, 0x17), (.breakpoint, 0x18), (.software, 0x19)]

/-- The interrupted code is recorded and the wave stands at its handler (R389 to R392): every live lane in one set at the
entry, at S, $fpmode and $fflags 0, $srseed kept, both starvation counters reset; registers and hidden registers as they
were. -/
def atHandler (w : Wave) (code : Nat) (i : TrapInfo) (set : Mask) (pc : PC) (word : Word) (h : Nat) : Wave :=
  { w with
    recd := some { pcs := w.pcs, base := w.base, level := w.level, fpmode := w.fpmode, fflags := w.fflags,
                   srseed := w.srseed, trapped := set }
    trap := entryRegs w code i pc word
    pcs := [(BitVec.ofNat 57 h, w.live)]
    level := .s
    fpmode := 0
    fflags := 0
    brCount := 0
    qCount := 0
    sweep := none
    parked := false
    waiting := none
    absentWait := false
    sleep := none
    claiming := none
    stop := none }

/-- `t` is `s` with a wave in its handler; nothing else but a counter of the core changes. -/
structure Entered (s t : State) (wid : Nat) (w' : Wave) : Prop where
  rest : t = { s with waves := t.waves, cores := t.cores }
  wave : t.waves.get? wid = some w'
  others : ∀ k, k ≠ wid → t.waves.get? k = s.waves.get? k
  cores : ∀ k, t.core k = { s.core k with perf := (t.core k).perf }
  bytes : SameBytes s t

/-- The handler of a team (R387): the image's entry, else its owner's default. -/
def handlerEntry (s : State) (t : Team) : Option Nat :=
  match t.handler with
  | some h => some h
  | none => match s.owners.get? t.owner with
    | some o => o.handler
    | none => none

/-- A failure of a launch: the first stands (R410). -/
def failing (s : State) (lid status detail : Nat) : State :=
  { s with launches := s.launches.upd lid fun l => if l.fail = none then { l with fail := some (status, detail) } else l }

/-- A wave may take a trap at once (R343, R390): no region, no result still to return, nothing unperformed. -/
def quiet (w : Wave) : Prop := w.region = none ∧ w.outst = [] ∧ w.sbuf = [] ∧ w.irrev = none ∧ w.spilling = none

/-- The n bytes of a number, the low-order one first. -/
def le (n x : Nat) : List Byte := (List.range n).map fun k => BitVec.ofNat 8 (x / 2 ^ (8 * k))

/-- A violation log entry (R411). -/
def violationBytes (v : Viol) (pc launch core seq : Nat) : List Byte :=
  let cause := match v.cause with
    | .permission => 1
    | .malformed => 2
    | .range => 3
    | .bulletinTag => 4
    | .keyAbsent => 5
    | .unusedRange => 6
  let kind := match v.kind with
    | .load => 0
    | .store => 1
    | .atomic => 2
    | .fetch => 3
    | .engineRead => 4
    | .engineWrite => 5
    | .walk => 6
  le 8 v.addr ++ le 8 pc ++ le 4 launch ++ [BitVec.ofNat 8 cause, BitVec.ofNat 8 kind] ++ le 2 core ++
    [if v.phys then 1 else 0, 0, 0, 0] ++ le 4 seq

end Sys2Proof.Machine.Spec

/-- R343, R387 to R392: BKPT and TRAP k take their traps at once where the wave is quiet, runs at U and has a handler: the
wave stands at the handler with the interrupted code recorded, $tcause the cause's code, $tval k for TRAP. -/
def Obligations.SoftwareTraps : Prop :=
  ∀ (s : State) (c : Ctx) (h : Nat), quiet c.w → c.w.level = .u → handlerEntry s c.t = some h → c.cnt ≠ 0 →
    (Ready s .bkpt c → ∃ t, exec .bkpt s = .next t ∧
      Entered s t c.wid (atHandler c.w 0x18 ⟨.breakpoint, c.cnt, 0, 0, none⟩ c.set c.pc c.word h)) ∧
    (∀ k, Ready s (.trap k) c → ∃ t, exec (.trap k) s = .next t ∧
      Entered s t c.wid (atHandler c.w 0x19 ⟨.software, c.cnt, BitVec.ofNat 32 k, 0, none⟩ c.set c.pc c.word h))

/-- R221, R222, R411: a protection violation's entry. Where the owner's violation log has room it is the entry at TAIL, TAIL
goes up by 1 and the sequence number with it; where it is full, STATUS gets OVF and one more DROPPED; with no log the
violation leaves nothing. (`ringReady`: the homes have served the reads of the control block.) -/
def Sys2Proof.Machine.Spec.violationLogHold : Prop :=
  (∀ (s : State) (own pc launch core : Nat) (v : Viol),
    (∀ o, s.owners.get? own = some o → o.vlog = none) → s.logViol own v pc launch core = s) ∧
  ∀ (s : State) (own pc launch core : Nat) (o : Owner) (r : Ring) (v : Viol) (head tail : Nat),
    s.owners.get? own = some o → o.vlog = some r →
    let s0 := s.ringReady own r .withVlog
    s0.frontWord own r.block = .ok head → s0.frontWord own (r.block + 8) = .ok tail →
    (tail - head < 2 ^ r.logSize → ∀ s1 s2,
      s0.frontWrite own (r.block + 256 + 32 * (tail % 2 ^ r.logSize)) (violationBytes v pc launch core o.vlogSeq) = .ok s1 →
      s1.frontWrite own (r.block + 8) (le 8 (tail + 1)) = .ok s2 →
      s.logViol own v pc launch core =
        { s2 with owners := s2.owners.upd own fun o => { o with vlogSeq := o.vlogSeq + 1 } }) ∧
    (2 ^ r.logSize ≤ tail - head → ∀ x s1, s0.frontWord own (r.block + 16) = .ok x →
      s0.frontWrite own (r.block + 16) (le 8 (2 ^ 63 + min (x % 2 ^ 32 + 1) (2 ^ 32 - 1))) = .ok s1 →
      s.logViol own v pc launch core = s1)

/-- R343, R388 to R393, R396, R411: raising any trap; the violation behind one is logged as it is taken. A wave that is not quiet stops issuing and holds the trap; TRAP_ENTRY
takes it once the wave is quiet. A quiet wave at U with a handler enters it, with the cause's code; at S it is a double
trap, without a handler an unhandled one: the launch fails with STATUS 8 and DETAIL 0x200 or 0x100 + cause. -/
def Sys2Proof.Machine.Spec.takingATrapHold : Prop :=
  ∀ (s : State) (wid : Nat) (w : Wave) (m : Team) (i : TrapInfo) (code : Nat) (set : Mask) (pc : PC) (word : Word),
    s.waves.get? wid = some w → s.teams.get? w.tid = some m → (i.cause, code) ∈ causeCodes →
    let s' := match i.viol with
      | some v => s.logViol m.owner v pc.toNat (((s.launches.get? m.lid).map fun x => x.queue * 2 ^ 26 + x.seq % 2 ^ 26).getD 0)
          (4 * m.cluster + m.pos)
      | none => s
    (¬ quiet w → s.raise wid i set pc word =
      { s with waves := s.waves.put wid { w with stop := some ⟨.trap i, set, pc, word⟩, waiting := none } }) ∧
    (quiet w → ∀ t, (t = s.raise wid i set pc word ∨
        (w.stop = some ⟨.trap i, set, pc, word⟩ ∧ s.failed m.lid = false ∧ s.ev.x = wid ∧ exec .trapEntry s = .next t)) →
      (∀ h, w.level = .u → handlerEntry s' m = some h → Entered s' t wid (atHandler w code i set pc word h)) ∧
      (w.level = .u → handlerEntry s' m = none → t = failing s' m.lid 8 (0x100 + code)) ∧
      (w.level ≠ .u → t = failing s' m.lid 8 (0x200 + code))) ∧
    (quiet w → w.stop = some ⟨.trap i, set, pc, word⟩ → s.failed m.lid = false → s.ev.x = wid →
      ∃ t, exec .trapEntry s = .next t)

/-- R97, R104, R106 to R108: an instruction word that fails the checks 3 to 5 traps for any set with a counted lane; reached
by helper lanes alone it does nothing and they go on. A privileged one outside S and M fails with the
privileged-instruction trap (SREAD of 20 and above by R131); a unit past the allocation with the window trap, $tval the
register field (R388), of several such units the first in the order d, a, b (log entry 84). -/
def Obligations.DecodeChecks : Prop :=
  (∀ (s : State) (i : Instr) (c : Ctx) (x : TrapInfo), i.isWord = true → i.wf = true → s.ctx = some c →
    c.check (s.formOf i) = some x →
    (c.cnt ≠ 0 → exec i s = .next (s.raise c.wid x c.set c.pc c.word)) ∧
    (c.cnt = 0 → ∃ t, exec i s = .next t ∧ Ends s t c c.w fun _ => c.pc + 4)) ∧
  (∀ (s : State) (i : Instr) (c : Ctx), i.wf = true → s.ctx = some c → c.w.level = .u →
    let privileged := match i with
      | .tret _ | .tlbinv _ _ _ | .icinv _ | .csrrd _ _ | .csrwr _ _ | .perfrd _ _ | .halt => true
      | .sread _ k => decide (20 ≤ k)
      | _ => false
    let past := ((unitsOf i).1 ++ (unitsOf i).2).filter fun e => match e.1 with
      | .v n => decide (c.w.alloc < c.w.base + n + e.2)
      | .q _ => false
    (privileged = true → c.check (s.formOf i) = some ⟨.privileged, c.cnt, 0, 0, none⟩) ∧
    (privileged = false → s.barredField i = false → ∀ n u rest, past = (.v n, u) :: rest →
      c.check (s.formOf i) = some ⟨.window, c.cnt, BitVec.ofNat 32 n, 0, none⟩) ∧
    (privileged = false → s.barredField i = false → past = [] → c.check (s.formOf i) = none))

/-- R391, R394, R395: TRET 0, 1 and 2 complete at S: level, window base, $fpmode, $fflags and $srseed are the recorded
ones, trapped lanes resume at $tepc, at $tepc + 4 or at their own address in hidden registers 14:15 (a helper lane with a
misaligned one at $tepc + 4), the others at their recorded PCs; registers keep what the handler wrote, and the flags of
results still to return are dropped (R391). A trapped counted lane's misaligned address at TRET 2 is the misaligned trap,
so a double trap of cause 0x04; that and the helper lane's resumption are log entry 17. -/
def Sys2Proof.Machine.Spec.trapReturnHold : Prop :=
  ∀ (s : State) (c : Ctx) (k : TretAct) (r : Recorded), Ready s (.tret k) c → c.w.level = .s → c.w.recd = some r →
    k = .retry ∨ k = .skip ∨ k = .fixed →
    let target (l : Nat) : DWord := pair (c.w.hidden.get 0 (64 * 14 + l)) (c.w.hidden.get 0 (64 * 15 + l))
    let bad (l : Nat) : Prop := (target l).toNat % 4 ≠ 0
    let resume (l : Nat) : PC :=
      if k = .retry then c.w.trap.pc
      else if k = .skip then c.w.trap.pc + 4
      else if hasLane c.w.helper l = true ∧ bad l then c.w.trap.pc + 4
      else BitVec.ofNat 57 (target l).toNat
    ((k = .fixed → ∀ l, hasLane (r.trapped &&& c.w.counted) l = true → ¬ bad l) →
      ∃ t w', exec (.tret k) s = .next t ∧ OnlyWave s t c.wid ∧ t.waves.get? c.wid = some w' ∧
        w' = { c.w with
          pcs := w'.pcs, level := .u, base := r.base, fpmode := r.fpmode, fflags := r.fflags, srseed := r.srseed, recd := none
          outst := c.w.outst.map fun o => { o with flags := 0 }
          trap := { c.w.trap with depth := 0, retries := if k = .retry then min (c.w.trap.retries + 1) 255 else 0 }
          brCount := 0, qCount := 0, sweep := w'.sweep, parked := w'.parked, waiting := none, absentWait := false
          cautious := w'.cautious } ∧
        (∀ l, hasLane c.w.live l = true → pcOfLane w'.pcs l = if hasLane r.trapped l then resume l else pcOfLane r.pcs l)) ∧
    (k = .fixed → (∃ l, hasLane (r.trapped &&& c.w.counted) l = true ∧ bad l) → c.cnt ≠ 0 →
      exec (.tret k) s = .next (s.raise c.wid ⟨.misaligned, c.cnt, 0, 0, none⟩ c.set c.pc c.word))

/-- R395, R410, R431: TRET 3 lets every lane of the team's waves exit; TRET 4 fails the launch with STATUS 7 and DETAIL 1. -/
def Sys2Proof.Machine.Spec.trapKillsHold : Prop :=
  (∀ (s : State) (c : Ctx), Ready s (.tret .killTeam) c → Tbl.ascending 0 s.waves = true →
    (∀ w, s.readers [.task c.t.lid] w = []) → s.begun c.w.tid = [] →
    ∃ t, exec (.tret .killTeam) s = .next t ∧ SameBytes s t ∧
      (∀ k w, s.waves.get? k = some w → w.tid = c.w.tid → ∃ w', t.waves.get? k = some w' ∧
        w'.live = 0 ∧ w'.exited = w.exited ||| (w.live &&& w.threads) ∧ w'.holds = w.holds &&& ~~~w.live) ∧
      (∀ k w, s.waves.get? k = some w → w.tid ≠ c.w.tid → t.waves.get? k = some w) ∧
      (∀ m, t.teams.get? c.w.tid = some m → m.claims = [])) ∧
  (∀ (s : State) (c : Ctx), Ready s (.tret .killLaunch) c →
    ∃ t, exec (.tret .killLaunch) s = .next t ∧ Ends (failing s c.t.lid 7 1) t c c.w fun _ => c.pc + 4)

/-- Taking a trap, and the violation log's entry. -/
def Obligations.TakingATrap : Prop :=
  Sys2Proof.Machine.Spec.violationLogHold ∧ Sys2Proof.Machine.Spec.takingATrapHold

/-- TRET: the return from a handler, and the kill actions. -/
def Obligations.TrapReturn : Prop :=
  Sys2Proof.Machine.Spec.trapReturnHold ∧ Sys2Proof.Machine.Spec.trapKillsHold

namespace Sys2Proof.Machine.Spec

/-- A memory instruction: its data register, size, access bytes and kind; a lane's address (R250), zero-extended where it
is local; whether a lane is within its bound (R251 step 1); what steps 2 to 5 of R251 make of a lane's access. -/
structure MemOp where
  r : Reg
  z : Size
  kind : AccKind
  n : Nat
  ea : Ctx → Nat → DWord
  within : Ctx → Nat → Bool := fun _ _ => true
  index : Ctx → Nat → Word := fun _ _ => 0
  place : Ctx → Nat → Except AccStop LaneAcc

/-- The access bytes of a size (R34). -/
def accessBytes : Size → Nat
  | .ub | .sb => 1
  | .uh | .sh => 2
  | .word => 4
  | .pr => 8
  | .qd => 16

/-- The address of LD and ST. -/
def eaOff (a : Reg) (z : Size) (off : Int) (c : Ctx) (l : Nat) : DWord :=
  BitVec.ofInt 64 ((c.regW a l).toNat + off * accessBytes z)

/-- The address of LDL and STL. -/
def eaLoc (a : Reg) (z : Size) (off : Int) (c : Ctx) (l : Nat) : Word :=
  BitVec.ofInt 32 ((c.reg a l).toNat + off * accessBytes z)

/-- The address of LDX and STX. -/
def eaIdx (a b : Reg) (z : Size) (c : Ctx) (l : Nat) : DWord :=
  BitVec.ofNat 64 ((c.regW a l).toNat + (c.reg b l).toNat * accessBytes z)

/-- A global access. -/
def globalOp (r : Reg) (z : Size) (k : AccKind) (n : Nat) (ea : Ctx → Nat → DWord) : MemOp :=
  ⟨r, z, k, n, ea, fun _ _ => true, fun _ _ => 0, fun c l => c.globalLane k n l (ea c l)⟩

/-- A local access. -/
def localOp (r : Reg) (z : Size) (k : AccKind) (n : Nat) (ea : Ctx → Nat → Word) : MemOp :=
  ⟨r, z, k, n, fun c l => (ea c l).setWidth 64, fun _ _ => true, fun _ _ => 0, fun c l => c.localLane k n l (ea c l)⟩

/-- An access of LDX or STX. -/
def boundedOp (r a b : Reg) (z : Size) (k : AccKind) : MemOp :=
  ⟨r, z, k, accessBytes z, eaIdx a b z, fun c l => decide ((c.reg b l).toNat < (c.reg b l 1).toNat), fun c l => c.reg b l,
    fun c l => c.globalLane k (accessBytes z) l (eaIdx a b z c l)⟩

/-- The loads of R256 to R258. -/
def loadOp : Instr → Option MemOp
  | .ld d a z off => some (globalOp d z .load (accessBytes z) (eaOff a z off))
  | .ldl d a z off => some (localOp d z .load (accessBytes z) (eaLoc a z off))
  | .ldx d a b z => some (boundedOp d a b z .load)
  | _ => none

/-- The stores of R256 to R258. -/
def storeOp : Instr → Option MemOp
  | .st d a z off => some (globalOp d z .store (accessBytes z) (eaOff a z off))
  | .stl d a z off => some (localOp d z .store (accessBytes z) (eaLoc a z off))
  | .stx d a b z => some (boundedOp d a b z .store)
  | _ => none

/-- An atomic instruction: its operation, width, registers, and whether it is ATOML. -/
structure AtomForm where
  op : AtomOp
  wide : Bool
  d : Reg
  a : Reg
  b : Reg
  loc : Bool

/-- The atomics of R261 to R264. -/
def atomForm : Instr → Option AtomForm
  | .atomAdd d a b => some ⟨.add, false, d, a, b, false⟩
  | .atomAnd d a b => some ⟨.and, false, d, a, b, false⟩
  | .atomOr d a b => some ⟨.or, false, d, a, b, false⟩
  | .atomXor d a b => some ⟨.xor, false, d, a, b, false⟩
  | .atomMin d a b => some ⟨.min, false, d, a, b, false⟩
  | .atomMax d a b => some ⟨.max, false, d, a, b, false⟩
  | .atomUmin d a b => some ⟨.umin, false, d, a, b, false⟩
  | .atomUmax d a b => some ⟨.umax, false, d, a, b, false⟩
  | .atomXchg d a b => some ⟨.xchg, false, d, a, b, false⟩
  | .atomCas d a b => some ⟨.cas, false, d, a, b, false⟩
  | .atomInc d a b => some ⟨.inc, false, d, a, b, false⟩
  | .atomFadd d a b => some ⟨.fadd, false, d, a, b, false⟩
  | .atomHadd2B d a b => some ⟨.hadd2b, false, d, a, b, false⟩
  | .atomHadd2H d a b => some ⟨.hadd2h, false, d, a, b, false⟩
  | .atomFmin d a b => some ⟨.fmin, false, d, a, b, false⟩
  | .atomFmax d a b => some ⟨.fmax, false, d, a, b, false⟩
  | .atomWAdd d a b => some ⟨.add, true, d, a, b, false⟩
  | .atomWAnd d a b => some ⟨.and, true, d, a, b, false⟩
  | .atomWOr d a b => some ⟨.or, true, d, a, b, false⟩
  | .atomWXor d a b => some ⟨.xor, true, d, a, b, false⟩
  | .atomWMin d a b => some ⟨.min, true, d, a, b, false⟩
  | .atomWMax d a b => some ⟨.max, true, d, a, b, false⟩
  | .atomWUmin d a b => some ⟨.umin, true, d, a, b, false⟩
  | .atomWUmax d a b => some ⟨.umax, true, d, a, b, false⟩
  | .atomWXchg d a b => some ⟨.xchg, true, d, a, b, false⟩
  | .atomWCas d a b => some ⟨.cas, true, d, a, b, false⟩
  | .atomWInc d a b => some ⟨.inc, true, d, a, b, false⟩
  | .atomlAdd d a b => some ⟨.add, false, d, a, b, true⟩
  | .atomlAnd d a b => some ⟨.and, false, d, a, b, true⟩
  | .atomlOr d a b => some ⟨.or, false, d, a, b, true⟩
  | .atomlXor d a b => some ⟨.xor, false, d, a, b, true⟩
  | .atomlMin d a b => some ⟨.min, false, d, a, b, true⟩
  | .atomlMax d a b => some ⟨.max, false, d, a, b, true⟩
  | .atomlUmin d a b => some ⟨.umin, false, d, a, b, true⟩
  | .atomlUmax d a b => some ⟨.umax, false, d, a, b, true⟩
  | .atomlXchg d a b => some ⟨.xchg, false, d, a, b, true⟩
  | .atomlCas d a b => some ⟨.cas, false, d, a, b, true⟩
  | .atomlInc d a b => some ⟨.inc, false, d, a, b, true⟩
  | .atomlFadd d a b => some ⟨.fadd, false, d, a, b, true⟩
  | .atomlHadd2B d a b => some ⟨.hadd2b, false, d, a, b, true⟩
  | .atomlHadd2H d a b => some ⟨.hadd2h, false, d, a, b, true⟩
  | .atomlFmin d a b => some ⟨.fmin, false, d, a, b, true⟩
  | .atomlFmax d a b => some ⟨.fmax, false, d, a, b, true⟩
  | _ => none

/-- The access of an atomic. -/
def AtomForm.access (f : AtomForm) : MemOp :=
  if f.loc then localOp f.d .word .atomic 4 fun c l => c.reg f.a l
  else globalOp f.d (if f.wide then .pr else .word) .atomic (if f.wide then 8 else 4) fun c l => c.regW f.a l

/-- The access a lane makes. -/
def MemOp.lane (o : MemOp) (c : Ctx) (l : Nat) : Option LaneAcc :=
  if o.within c l then
    match o.place c l with
    | .ok a => some a
    | .error _ => none
  else none

/-- Every counted lane passes the checks of R251. -/
def MemOp.passes (o : MemOp) (c : Ctx) : Prop := ∀ l, hasLane c.cnt l = true → (o.lane c l).isSome = true

/-- The accesses of the lanes of a mask that make one, in lane order. -/
def MemOp.accesses (o : MemOp) (c : Ctx) (m : Mask) : List LaneAcc := (lanesOf m).filterMap (o.lane c)

/-- The register words of loaded bytes (R256): the low-order byte first, a single extended by its size's sign. -/
def loadedWord (z : Size) (bs : List Byte) (k : Nat) : Word :=
  match z with
  | .sb => ((bs.getD 0 0).signExtend 32)
  | .sh => (((bs.getD 1 0) ++ (bs.getD 0 0) : BitVec 16).signExtend 32)
  | _ => BitVec.ofNat 32 (bs.getD (4 * k) 0).toNat + BitVec.ofNat 32 ((bs.getD (4 * k + 1) 0).toNat * 2 ^ 8) +
      BitVec.ofNat 32 ((bs.getD (4 * k + 2) 0).toNat * 2 ^ 16) + BitVec.ofNat 32 ((bs.getD (4 * k + 3) 0).toNat * 2 ^ 24)

/-- The bytes that register words store (R256). -/
def storedBytes (z : Size) (w : Nat → Word) : List Byte :=
  (List.range (accessBytes z)).map fun k => BitVec.ofNat 8 ((w (k / 4)).toNat / 2 ^ (8 * (k % 4)))

/-- What steps 1 to 5 of R251 make of a lane's access; a lane out of its bound makes none. -/
def MemOp.one (o : MemOp) (c : Ctx) (l : Nat) : Except AccStop LaneAcc := if o.within c l then o.place c l else .error .align

/-- The state in which an access's lanes hold what their lookups found. -/
def MemOp.found (o : MemOp) (c : Ctx) : State := c.lookedUp (o.ea c) (o.one c)

/-- What an access beside its wave may change: held translations, lines, counters and directories of cores and dies, what
the homes hold, count and need of it, and lines the host held modified, taken back. -/
structure OnlyAccess (s t : State) (wid : Nat) : Prop where
  rest : t = { s with
    waves := t.waves, cores := t.cores, dies := t.dies, seq := t.seq, mem := t.mem, memKey := t.memKey, l2 := t.l2
    homeDir := t.homeDir, hostLines := t.hostLines, agentLines := t.agentLines, accessCnt := t.accessCnt
    crossings := t.crossings, bufKeys := t.bufKeys, wants := t.wants }
  waves : ∀ k, k ≠ wid → t.waves.get? k = s.waves.get? k
  cores : ∀ k, t.core k =
    { s.core k with tlb := (t.core k).tlb, lastPage := (t.core k).lastPage, l1 := (t.core k).l1, perf := (t.core k).perf }
  dies : ∀ k, t.die k =
    { s.die k with walk := (t.die k).walk, leases := (t.die k).leases, recalls := (t.die k).recalls, dir := (t.die k).dir }
  bytes : (∀ k h, s.hostLines.get? k = some h → h.dirty = none) → SameBytes s t

/-- What an access of a peer's page beside its wave may change: what any access may, and requests of the fabric. -/
def OnlyRemote (s t : State) (wid : Nat) : Prop :=
  OnlyAccess s { t with fabOut := s.fabOut, fabSeq := s.fabSeq, links := s.links } wid

/-- The region after a load (R335 to R337): it opens behind something unperformed, and the words read join it. -/
def regionAfter (c : Ctx) (ps : List PReg) (locs : List Loc) : Option Region :=
  let w := if c.w.region = none ∧ c.w.unperformed = true then
      { c.w with region := some ⟨c.s.seq, c.w.pcs, c.w.base, c.w.fpmode, c.w.fflags, c.w.srseed, c.w.tsMark, [], []⟩ }
    else c.w
  ((w.shadowed ps).addReads locs).region

/-- The wave after the copies of R336 for a unit. -/
def shadowWave (c : Ctx) (d : Reg) (u : Nat) : Wave := { c.w with region := (c.w.shadowed (c.unit (d, u))).region }

/-- The place of a stop in the order of R251: the range, the alignment, and of step 4 a violation, then the migration fault,
which a refused lease also is (R238), then the page fault; then atomics on host memory. -/
def stepOf : AccStop → Nat
  | .range _ => 2
  | .align => 3
  | .viol _ => 4
  | .park .migration => 5
  | .park .lease => 5
  | .park .page => 6
  | .host => 7

/-- The distinct bytes of an entry's write. -/
def entryBytes : SbOp → List (Nat × Byte)
  | .ls b => b
  | .mem _ _ _ _ b => b
  | _ => []

/-- Entries in use of a store buffer: one for each instruction and line (R254). -/
def inUse (es : List SbEntry) : Nat := (es.map fun e => (e.seq, e.line)).toFinset.card

end Sys2Proof.Machine.Spec

/-- R250, R251, R256 to R258, R335 to R337: LD, LDL and LDX complete when every counted lane passes the checks, none
reaches a remote page or an absent line, no held entry or cautious mode keeps the load back, what each lane reads is known,
no buffer lacks a key it needs (R311) and the directory and the L1 cache take the lines (R330): each lane's words are
outstanding in its destination unit, 0 in a helper lane that the checks stop; the words read join the open region, which
opens behind unperformed stores. No byte, register or flag changes. -/
def Sys2Proof.Machine.Spec.loadEffectsHold : Prop :=
  ∀ (s : State) (i : Instr) (c : Ctx) (o : MemOp) (got : Nat → List Byte), loadOp i = some o → Ready s i c →
    o.passes c → (∀ e ∈ c.w.sbuf, e.held = false) → (c.w.unperformed = true → c.w.cautious = 0 ∧ c.w.level = .u) →
    (∀ l a, hasLane c.set l = true → o.lane c l = some a →
      a.tgt.remote = false ∧ c.isAbsent a.tgt = false ∧ c.readBytes a.tgt o.n = some (got l)) →
    c.missingKeys o.n (o.accesses c c.set) = [] → (c.touches o.n (o.accesses c c.set) (o.found c)).isSome = true →
    let words (l k : Nat) : Word := if (o.lane c l).isSome then loadedWord o.z (got l) k else 0
    let locs := (o.accesses c c.set).flatMap fun a => a.tgt.locs c.w.tid o.n
    ∃ t w', exec i s = .next t ∧ OnlyAccess s t c.wid ∧ t.waves.get? c.wid = some w' ∧
      BooksOnly { c.w with
        region := regionAfter c (c.unit (o.r, o.z.regs)) locs.eraseDups
        outst := c.w.outst ++ c.results s.seq c.set o.r o.z.regs words (fun _ => 0) true } w' ∧
      Moved c w' fun _ => c.pc + 4

/-- R1, R330, R416: reads of lanes through L1 find room while the die's directory and the core's L1 cache have an entry free
for each; each read's sector is then held under its key unless one of its words is pending or the wave's own stores give
every byte (R255, R332). A core that misses counts it on counter 6. The directory's size is `64 + Config.dieDirMore`, log
entry 11; a full cache or directory evicts by the choice of that entry. -/
def Sys2Proof.Machine.Spec.loadRoomHold : Prop :=
  ∀ (c : Ctx) (s : State) (n : Nat) (as : List LaneAcc), c.t.core < 3200 →
    (s.core c.t.core).l1.length + as.length ≤ 4096 →
    (s.die (c.t.core / 200)).dir.length + as.length ≤ 64 + Config.dieDirMore →
    ∃ t, c.touches n as s = some t ∧ OnlyAccess s t c.wid ∧ t.waves = s.waves ∧
      (∀ a ∈ as, ∀ p, a.tgt = .mem p → p.tier ≠ 2 → p.tier ≠ 4 →
        ((t.die (c.t.core / 200)).dir.get 0 (lineId p.sp p.addr)).getLsbD (c.t.core % 200) = true ∧
        (t.homeDir.get 0 (lineId p.sp p.addr)).getLsbD (c.t.core / 200) = true) ∧
      (∀ a p, as = [a] → a.tgt = .mem p → p.tier ≠ 2 → p.tier ≠ 4 →
        (∃ k, k < n ∧ lastByte (c.w.memKnown p.sp) (p.addr + k) = none) → p.sector ∉ (s.core c.t.core).l1 →
        (p.sector ∈ (t.core c.t.core).l1 ↔ ∀ e ∈ s.pend, ∀ w, e.1 = .mem p.sp w → w / 8 ≠ p.addr / 32) ∧
        (t.core c.t.core).perf.get 0 6 = ((s.core c.t.core).perf.get 0 6 + 1) % 2 ^ 32)

/-- R250, R251, R254, R256 to R258: ST, STL and STX complete when every counted lane passes the checks and no line is absent
or in a draining handle: the counted lanes' bytes enter the store buffer, one entry per line. No byte of memory changes
until an entry is performed, and no register or flag. -/
def Sys2Proof.Machine.Spec.storeEffectsHold : Prop :=
  ∀ (s : State) (i : Instr) (c : Ctx) (o : MemOp), storeOp i = some o → Ready s i c → o.passes c →
    (∀ l a, hasLane c.cnt l = true → o.lane c l = some a →
      c.isAbsent a.tgt = false ∧ ∀ x, a.tgt = .ls x → c.draining x = false) →
    let data := (lanesOf c.cnt).filterMap fun l => (o.lane c l).map fun a => (a.tgt, storedBytes o.z fun k => c.reg o.r l k)
    ∃ t w', exec i s = .next t ∧ OnlyAccess s t c.wid ∧ t.waves.get? c.wid = some w' ∧
      BooksOnly (c.w.enter s.seq (storeEntries data)) w' ∧ Moved c w' fun _ => c.pc + 4

/-- R254, R325, R338: the entries of one store. In order they hold the lanes' bytes in lane order; each holds bytes of one
128-byte line, none twice, under that line's number; they go into the buffer behind the older ones, held exactly while a
region is open, while it uses at most 32, one for each instruction and line. That lanes of one line share an entry's place
as far as their order allows is log entry 63. -/
def Sys2Proof.Machine.Spec.storeBufferEntriesHold : Prop :=
  (∀ (bs : List (Nat × List Byte)) (mk : Nat → AtomTgt) (sp : Space) (key tier : Nat) (ace : Bool),
    mk = .ls ∨ mk = (fun a => .mem ⟨sp, a, key, tier, ace⟩) →
    (∀ e ∈ bs, e.2 ≠ [] ∧ e.1 / 128 = (e.1 + e.2.length - 1) / 128) →
    let es := (storeEntries (bs.map fun e => (mk e.1, e.2))).map fun o => (o.1, entryBytes o.2)
    es.flatMap (·.2) = bs.flatMap (fun e => placed e.1 e.2) ∧
    (∀ b ∈ es, b.2 ≠ [] ∧ (b.2.map (·.1)).Nodup) ∧
    ∀ b ∈ es, ∀ d ∈ es, ∀ x ∈ b.2, ∀ y ∈ d.2, (b.1 = d.1 ↔ x.1 / 128 = y.1 / 128)) ∧
  (∀ (w : Wave) (seq : Nat) (ops : List (Nat × SbOp)), w.spilling = none → inUse w.sbuf ≤ 32 →
    let w' := w.enter seq ops
    w'.sbuf ++ w'.spilling.getD [] = w.sbuf ++ ops.map (fun o => ⟨o.2, seq, o.1, w.region.isSome, false, []⟩) ∧
    inUse w'.sbuf ≤ 32 ∧ w' = { w with sbuf := w'.sbuf, spilling := w'.spilling } ∧
    ∀ l, w'.spilling = some l → inUse w'.sbuf = 32 ∧
      ∃ e r, l = e :: r ∧ ∀ x ∈ w'.sbuf, ¬ (x.seq = e.seq ∧ x.line = e.line))

/-- R253, R255, R332: what a read of global memory receives: each byte from the wave's youngest unperformed store of it,
else from its home; it waits behind an unperformed read-modify-write of one of its words, and while a word is pending at
its home whose sector the core does not hold. That the read-modify-writes it waits behind are, in global memory, the atomics is the
model's choice: log entry 64. -/
def Sys2Proof.Machine.Spec.readsForwardHold : Prop :=
  ∀ (c : Ctx) (p : Phys) (n : Nat) (bs : List Byte),
    let own (a : Nat) : Option Byte := lastByte (c.w.sbuf.flatMap fun e => match e.op with
      | .mem q _ _ _ b => if q = p.sp then b else []
      | _ => []) a
    let words := (AtomTgt.mem p).locs c.w.tid n
    (c.readBytes (.mem p) n = some bs → bs.length = n ∧ (∀ x ∈ words, x ∉ c.w.undecided) ∧
      ∀ k, k < n → bs[k]? = some ((own (p.addr + k)).getD (c.s.byteAt p.sp p.key (p.addr + k)))) ∧
    (c.readBytes (.mem p) n = none ↔ (∃ x ∈ words, x ∈ c.w.undecided) ∨
      ((∃ k, k < n ∧ own (p.addr + k) = none) ∧ ⟨p.sp, p.addr / 32, p.key⟩ ∉ (c.s.core c.t.core).l1 ∧
        ∃ x ∈ words, ∃ y, (x, y) ∈ c.s.pend))

/-- R217, R251, R258, R259, R388, R398: of a load, store or atomic the first step that a counted lane fails decides: the
reported lanes are those that fail it, $taddr the address of the lowest, $tval its index at step 1; a parking fault stops
the wave. No lane acts; from step 4 on the lanes that found a translation hold it, and the copies of R336 are made. An
atomic on host memory, a TIER 4 page, is step 5's trap (R242). -/
def Sys2Proof.Machine.Spec.accessTrapsHold : Prop :=
  (∀ (s : State) (i : Instr) (c : Ctx) (o : MemOp) (l : Nat),
    (loadOp i = some o ∨ storeOp i = some o ∨ ∃ f, atomForm i = some f ∧ o = f.access) → Ready s i c →
    let step (l : Nat) : Option Nat :=
      if o.within c l = false then some 1
      else match o.place c l with
        | .ok _ => none
        | .error e => some (stepOf e)
    let mine := (lanesOf c.cnt).filter fun k => step k = step l
    hasLane c.cnt l = true → (step l).isSome = true →
    (∀ k, hasLane c.cnt k = true → ∀ n, step k = some n → (step l).getD 0 ≤ n) →
    (∀ k, hasLane c.cnt k = true → step k = step l → l ≤ k) →
    let trap (s : State) (x : Cause) (val : Word) (v : Option Viol) : State :=
      s.raise c.wid ⟨x, maskOf mine, val, o.ea c l, v⟩ c.set c.pc c.word
    let w := if (storeOp i).isSome then c.w else shadowWave c o.r o.z.regs
    ∃ u, OnlyAccess s u c.wid ∧ u.waves.get? c.wid = some w ∧
      exec i s = .next (if o.within c l = false then trap s .bounds (o.index c l) none
        else match o.place c l with
          | .error (.range v) => trap s .protection 0 (some v)
          | .error .align => trap s .alignment 0 none
          | .error (.viol v) => trap u .protection 0 (some v)
          | .error (.park p) => u.setWave c.wid
              { w with stop := some ⟨.park ⟨p, o.kind, (o.ea c l).toNat⟩, c.set, c.pc, c.word⟩, waiting := none }
          | .error .host => trap u .hostAtomic 0 none
          | .ok _ => s)) ∧
  (∀ (c : Ctx) (k : AccKind) (n l : Nat) (ea : DWord), ea.toNat < 2 ^ 57 → ea.toNat % n = 0 →
    ∀ tr p, c.s.access c.t.core c.t.die c.t.owner c.w.level k l ea.toNat = .ok tr p →
      c.globalLane k n l ea = if k = .atomic ∧ p.tier = 4 then .error .host else .ok ⟨l, .mem p, some tr⟩)

/-- R231, R234, R255, R257, R259, R311, R332, R338, R341, R342: what makes a load, store or atomic wait with no effect: held
entries, cautious mode behind something unperformed, a remote page or an atomic behind a region or something unperformed or
with no room on the die's streams, a read that is not known, a directory or L1 cache without room, a draining handle under
a store; an absent line parks the wave, a buffer without the key requests it. -/
def Sys2Proof.Machine.Spec.accessWaitsHold : Prop :=
  ∀ (s : State) (i : Instr) (c : Ctx) (o : MemOp), Ready s i c → o.passes c →
    let some_ (m : Mask) (p : LaneAcc → Prop) := ∃ a ∈ o.accesses c m, p a
    let parked (w : Wave) : State := s.setWave c.wid { w with absentWait := true, waiting := some s.cur.set }
    let crowded (m : Mask) (bytes : Nat) := s.fabRoom c.t.die bytes < (remoteLines (accPlaces (o.accesses c m))).length
    let busy := c.w.region ≠ none ∨ c.w.unperformed = true
    (loadOp i = some o →
      let remote := some_ c.set fun a => a.tgt.remote = true
      let known := c.w.unperformed = true → c.w.cautious = 0 ∧ c.w.level = .u
      let free := ∀ e ∈ c.w.sbuf, e.held = false
      let absent := some_ c.set fun a => c.isAbsent a.tgt = true
      let unread := some_ c.set fun a => c.readBytes a.tgt o.n = none
      (remote → busy ∨ crowded c.set 0 → exec i s = .next s.wait) ∧
      (¬ remote → ¬ known ∨ ¬ free → exec i s = .next s.wait) ∧
      (¬ remote → known → free → absent → exec i s = .next (parked (shadowWave c o.r o.z.regs))) ∧
      (¬ remote → known → free → ¬ absent → unread → exec i s = .next s.wait) ∧
      (¬ remote → known → free → ¬ absent → ¬ unread → c.missingKeys o.n (o.accesses c c.set) ≠ [] →
        ∃ t, exec i s = .next t ∧ t = { s with waves := t.waves, keyWants := t.keyWants } ∧
          (∀ k, k ∈ t.keyWants ↔ k ∈ s.keyWants ∨ k ∈ c.missingKeys o.n (o.accesses c c.set)) ∧
          t.waves.get? c.wid = some { shadowWave c o.r o.z.regs with waiting := some s.cur.set }) ∧
      (¬ remote → known → free → ¬ absent → ¬ unread → c.missingKeys o.n (o.accesses c c.set) = [] →
        c.touches o.n (o.accesses c c.set) (o.found c) = none → exec i s = .next s.wait)) ∧
    (storeOp i = some o →
      let absent := some_ c.cnt fun a => c.isAbsent a.tgt = true
      (absent → exec i s = .next (parked c.w)) ∧
      (¬ absent → (some_ c.cnt fun a => ∃ x, a.tgt = .ls x ∧ c.draining x = true) → exec i s = .next s.wait)) ∧
    (∀ f, atomForm i = some f → o = f.access →
      let absent := some_ c.cnt fun a => c.isAbsent a.tgt = true
      (busy ∨ crowded c.cnt 16 → exec i s = .next s.wait) ∧
      (¬ busy → ¬ crowded c.cnt 16 → absent → exec i s = .next (parked c.w)))

/-- Stores, and the store-buffer entries they make. -/
def Obligations.StoreEffects : Prop :=
  Sys2Proof.Machine.Spec.storeEffectsHold ∧ Sys2Proof.Machine.Spec.storeBufferEntriesHold

/-- Loads, and the bytes they read. -/
def Obligations.LoadEffects : Prop :=
  Sys2Proof.Machine.Spec.loadEffectsHold ∧ Sys2Proof.Machine.Spec.loadRoomHold ∧ Sys2Proof.Machine.Spec.readsForwardHold

/-- Where an access traps, parks and waits. -/
def Obligations.AccessStops : Prop :=
  Sys2Proof.Machine.Spec.accessTrapsHold ∧ Sys2Proof.Machine.Spec.accessWaitsHold

namespace Sys2Proof.Machine.Spec

/-- The words of a destination. -/
def AtomForm.words (f : AtomForm) : Nat := if f.wide then 2 else 1

/-- Operand number i of a lane: words of b from the unit's i-th register or pair. -/
def AtomForm.arg (f : AtomForm) (c : Ctx) (i l : Nat) : DWord :=
  if f.wide then c.regW f.b l (2 * i) else BitVec.ofNat 64 (c.reg f.b l i).toNat

/-- The new value of an integer atomic (R261, R263). -/
def atomInt {n : Nat} (op : AtomOp) (old x y : BitVec n) : BitVec n :=
  match op with
  | .add => BitVec.ofNat n (old.toNat + x.toNat)
  | .and => old &&& x
  | .or => old ||| x
  | .xor => old ^^^ x
  | .min => if x.toInt ≤ old.toInt then x else old
  | .max => if old.toInt ≤ x.toInt then x else old
  | .umin => if x.toNat ≤ old.toNat then x else old
  | .umax => if old.toNat ≤ x.toNat then x else old
  | .xchg => x
  | .cas => if old = x then y else old
  | .inc => if x.toNat ≤ old.toNat then 0 else BitVec.ofNat n (old.toNat + 1)
  | _ => old

/-- The new value of a word's atomic (R261, R262): ATOM.FADD rounds to nearest even with subnormals kept, the halves of
HADD2 each by themselves. -/
def atomWord (op : AtomOp) (old x y : Word) : Word :=
  let halfSum (k : Kind) (h : Nat) : Nat :=
    (k.round false .rne 0 ((k.decode (old.toNat / 2 ^ (16 * h) % 2 ^ 16)).add .rne
      (k.decode (x.toNat / 2 ^ (16 * h) % 2 ^ 16))).1).code
  match op with
  | .fadd => (round32 .rne false 0 ((f32 old).add .rne (f32 x)).1 false).1
  | .hadd2b => BitVec.ofNat 32 (halfSum .bf16 1 * 2 ^ 16 + halfSum .bf16 0)
  | .hadd2h => BitVec.ofNat 32 (halfSum .fp16 1 * 2 ^ 16 + halfSum .fp16 0)
  | .fmin => (minMax32 false false old x).1
  | .fmax => (minMax32 true false old x).1
  | _ => atomInt op old x y

/-- The new value at a place. -/
def atomNew (op : AtomOp) (wide : Bool) (old x y : DWord) : DWord :=
  if wide then atomInt op old x y
  else (atomWord op (old.setWidth 32) (x.setWidth 32) (y.setWidth 32)).setWidth 64

/-- Lanes on one place, one after the other: each lane's old value, and the last new one (R260). -/
def atomSeries (op : AtomOp) (wide : Bool) (v : DWord) : List AtomLane → List (Nat × DWord) × DWord
  | [] => ([], v)
  | l :: r =>
    let x := atomSeries op wide (atomNew op wide v l.x l.y) r
    ((l.lane, v) :: x.1, x.2)

/-- No wave has a region open. -/
def noRegion (s : State) : Prop := ∀ e ∈ s.waves, e.2.region = none

/-- No line that the host holds is modified. -/
def cleanHost (s : State) : Prop := ∀ k h, s.hostLines.get? k = some h → h.dirty = none

/-- The lines of a place of memory that a directory tracks, of bytes from `a` to below `a + n` (R330). -/
def linesFrom (sp : Space) (a n id : Nat) : Prop := sp ≠ .peer ∧ ∃ k, k < n ∧ id = lineId sp (a + k)

/-- The dies an invalidation of some lines goes to (R330, R331 step 3): those in the home's mask of one of them, 16 the anchor
die, but the writer's own only where its mask names another core or an agent of the die. -/
def toldDies (s : State) (core : Nat) (lines : Nat → Prop) (d : Nat) : Prop :=
  d ≤ 16 ∧ ∃ id, lines id ∧ (s.homeDir.get 0 id).getLsbD d = true ∧
    ¬ (core / 200 = d ∧ ∀ k, k < 202 → ((s.die d).dir.get 0 id).getLsbD k = true → k = core % 200)

/-- The host lines of the granules whose bias bits a change of the word at a place sets (R245, R247). -/
def flipped (s : State) (p : Phys) (n : Nat) (old new : DWord) (k : Nat) : Prop :=
  p.sp = .dev ∧ s.inBias p.addr = true ∧ ∃ i, i < 8 * n ∧ old.getLsbD i = false ∧ new.getLsbD i = true ∧
    let first := (s.hdm.base * 2 ^ 30 + ((p.addr - s.biasBase) * 8 + i) * 4096) / 64
    first ≤ k ∧ k < first + 64

/-- Nothing that watches the words of some bytes of a space is a STATUS word of a ring (R222). -/
def noStatus (s : State) (sp : Space) (a n : Nat) : Prop :=
  ∀ e ∈ s.owners, ∀ r ∈ e.2.rings, ∀ p, r.place = some p → p.sp = sp → ∀ k, k < n → (a + k) / 8 ≠ (p.addr + 16) / 8

/-- The buffer of a place has the key a request needs, and none is on its way (R311). -/
def keyed (s : State) (p : Phys) : Prop := s.missingKey p = none

end Sys2Proof.Machine.Spec

/-- R250, R251, R259, R231, R342: every ATOM, ATOM.W and ATOML completes its issue when the counted lanes pass the checks, on
present lines, with no region open, nothing unperformed and room on the die's streams for its requests: the access is the
wave's unperformed atomic with each counted lane's place and operands, its results are awaited, a helper lane's are 0. No
byte, register or flag changes yet. -/
def Sys2Proof.Machine.Spec.atomicIssuesHold : Prop :=
  ∀ (s : State) (i : Instr) (c : Ctx) (f : AtomForm), atomForm i = some f → Ready s i c → f.access.passes c →
    c.w.region = none → c.w.unperformed = false →
    (∀ l a, hasLane c.cnt l = true → f.access.lane c l = some a → c.isAbsent a.tgt = false) →
    (remoteLines (accPlaces (f.access.accesses c c.cnt))).length ≤ s.fabRoom c.t.die 16 →
    let lanes := (f.access.accesses c c.cnt).map fun a => (⟨a.lane, a.tgt, f.arg c 0 a.lane, f.arg c 1 a.lane⟩ : AtomLane)
    ∃ t w', exec i s = .next t ∧ OnlyRemote s t c.wid ∧ t.waves.get? c.wid = some w' ∧
      BooksOnly { c.w with
        irrev := if c.cnt = 0 then none else some (.atom s.seq f.op f.wide lanes none)
        outst := c.w.outst ++ c.results s.seq (c.set &&& c.w.helper) f.d f.words (fun _ _ => 0) (fun _ => 0) true ++
          c.results s.seq c.cnt f.d f.words (fun _ _ => 0) (fun _ => 0) false } w' ∧
      Moved c w' fun _ => c.pc + 4

/-- R247, R259 to R264, R311, R331, R332: ATOMIC_PERFORM on lane y of wave x's atomic. Its lanes on that place act one after
the other in lane order. Where they change a word of memory that some die must be told of, or set bias bits of granules
with lines the host may hold, the word is pending first, and those lines have come back; performed once every die has
acknowledged, or at once where there is none to tell, each lane receives the value before its own step, the place holds the
last one, and other bytes and the other lanes' steps stay. (With no region open, no line modified at the host, no barrier
at a local place, and no STATUS word of a ring.) -/
def Sys2Proof.Machine.Spec.atomicPerformsHold : Prop :=
  ∀ (s : State) (w : Wave) (m : Team) (seq : Nat) (op : AtomOp) (wide : Bool) (ls : List AtomLane) (a : AtomLane)
      (aw : Option (Nat × List Nat)),
    s.waves.get? s.ev.x = some w → s.teams.get? w.tid = some m → w.irrev = some (.atom seq op wide ls aw) →
    ls.Pairwise (fun p q => p.lane < q.lane) → a ∈ ls → a.lane = s.ev.y → noRegion s → cleanHost s →
    let x := s.ev.x
    let n := if wide then 8 else 4
    let mine := ls.filter fun l => l.tgt = a.tgt
    let rest := ls.filter fun l => l.tgt ≠ a.tgt
    let words := a.tgt.locs w.tid n
    (∀ x, a.tgt = .ls x → ∀ b ∈ m.barriers, b / 8 ≠ x / 8 ∧ b / 8 ≠ (x + n - 1) / 8) →
    (∀ l, a.tgt = .bull l → wide = false ∧ ((∃ k j, l = .cb k j) ∨ ∃ k j, l = .db k j)) →
    (∀ p, a.tgt = .mem p → noStatus s p.sp p.addr n) →
    let now := BitVec.ofNat 64 (leValue (s.homeBytes w.tid a.tgt n))
    let r := atomSeries op wide now mine
    let changes := r.2 ≠ now ∨ ∃ e ∈ r.1, e.2 ≠ now
    let told (d : Nat) : Prop := ∃ p, a.tgt = .mem p ∧
      toldDies s m.core (linesFrom p.sp p.addr n) d
    let sets (k : Nat) : Prop := ∃ p, a.tgt = .mem p ∧ (flipped s p n now r.2 k ∨ ∃ e ∈ r.1, flipped s p n now e.2 k)
    let held (k : Nat) : Prop := sets k ∧ (s.hostLines.get? k).isSome = true
    let free := (∀ l ∈ words, ∀ e ∈ s.pend, e.1 ≠ l) ∧ ∀ p, a.tgt = .mem p → keyed s p
    (aw = none → free → changes → (∃ d, told d) ∨ (∃ k, held k) →
      ∃ t ds, exec .atomicPerform s = .next t ∧ SameBytes s t ∧
        t = { s with waves := t.waves, pend := t.pend, hostLines := t.hostLines } ∧
        t.waves = s.waves.put x { w with irrev := some (.atom seq op wide ls (some (s.ev.y, ds))) } ∧
        (∀ d, d ∈ ds ↔ told d) ∧ (∀ e, e ∈ t.pend ↔ e ∈ s.pend ∨ (e.1 ∈ words ∧ e.2 = x)) ∧
        ∀ k, (sets k → t.hostLines.get? k = none) ∧ (¬ sets k → t.hostLines.get? k = s.hostLines.get? k)) ∧
    ((aw = none ∧ free ∧ ¬ (changes ∧ ((∃ d, told d) ∨ ∃ k, held k))) ∨
      (∃ b, aw = some (b.lane, []) ∧ b ∈ mine) →
    ∃ t w', exec .atomicPerform s = .next t ∧ t.waves.get? x = some w' ∧
      w' = { w with
        irrev := if rest = [] then none else some (.atom seq op wide rest none)
        outst := w.outst.map fun o => match r.1.find? fun e => e.1 = o.lane with
          | some e => if o.seq = seq ∧ o.ready = false then
              { o with val := if o.idx = 0 then pairWord e.2 0 else if o.idx = 1 then pairWord e.2 1 else 0, ready := true } else o
          | none => o } ∧
      BitVec.ofNat 64 (leValue (t.homeBytes w.tid a.tgt n)) = r.2 ∧
      (∀ e, e ∈ t.pend ↔ e ∈ s.pend ∧ ¬ (e.1 ∈ words ∧ e.2 = x)) ∧
      (∀ k, (∃ p, a.tgt = .mem p ∧ flipped s p n now r.2 k) → t.hostLines.get? k = none) ∧
      (∀ k, k ≠ x → t.waves.get? k = s.waves.get? k) ∧
      (∀ sp key b, (∀ p, a.tgt = .mem p → ¬ (sp = p.sp ∧ (if key = p.key then p.addr ≤ b ∧ b < p.addr + n
          else p.addr / 32 ≤ b / 32 ∧ b / 32 ≤ (p.addr + n - 1) / 32))) → t.byteAt sp key b = s.byteAt sp key b) ∧
      (∀ tid b, ¬ (tid = w.tid ∧ ∃ x, a.tgt = .ls x ∧ x ≤ b ∧ b < x + n) →
        (t.teams.get? tid).map (·.lsByte b) = (s.teams.get? tid).map (·.lsByte b))) ∧
    (∀ p k, aw = none → a.tgt = .mem p → (∀ l ∈ words, ∀ e ∈ s.pend, e.1 ≠ l) → s.missingKey p = some k → k ∉ s.keyWants →
      exec .atomicPerform s = .next { s with keyWants := (s.keyWants ++ [k]).eraseDups })

/-- R234, R253, R342: a load that reaches a remote page issues with no region open, nothing unperformed and room on the
die's streams, and is then the wave's unperformed access; ATOMIC_PERFORM on one of its lanes, no word of that lane's 32-byte
sector pending, reads the home's bytes for every lane of that sector into their results, and no byte changes. -/
def Sys2Proof.Machine.Spec.remoteLoadsHold : Prop :=
  (∀ (s : State) (i : Instr) (c : Ctx) (o : MemOp), loadOp i = some o → Ready s i c → o.passes c →
    c.w.region = none → c.w.unperformed = false →
    (∃ l a p, hasLane c.set l = true ∧ o.lane c l = some a ∧ a.tgt = .mem p ∧ (p.tier = 2 ∨ p.tier = 4)) →
    (remoteLines (accPlaces (o.accesses c c.set))).length ≤ s.fabRoom c.t.die 0 →
    let lanes := (lanesOf c.set).filterMap fun l => match o.lane c l with
      | some ⟨_, .mem p, _⟩ => some (l, p)
      | _ => none
    let asked := maskOf (lanes.map (·.1))
    ∃ t w', exec i s = .next t ∧ OnlyRemote s t c.wid ∧ t.waves.get? c.wid = some w' ∧
      BooksOnly { c.w with
        irrev := some (.load s.seq o.z lanes)
        outst := c.w.outst ++ c.results s.seq (c.set &&& ~~~asked) o.r o.z.regs (fun _ _ => 0) (fun _ => 0) true ++
          c.results s.seq asked o.r o.z.regs (fun _ _ => 0) (fun _ => 0) false } w' ∧
      Moved c w' fun _ => c.pc + 4) ∧
  (∀ (s : State) (w : Wave) (seq : Nat) (z : Size) (ls : List (Nat × Phys)) (p : Phys),
    s.waves.get? s.ev.x = some w → w.irrev = some (.load seq z ls) → ls.find? (fun e => e.1 = s.ev.y) = some (s.ev.y, p) →
    let rest := ls.filter fun e => ¬ (e.2.sp = p.sp ∧ e.2.addr / 32 = p.addr / 32)
    (∀ e ∈ ls, e ∉ rest → ∀ l ∈ (AtomTgt.mem e.2).locs 0 (accessBytes z), ∀ e ∈ s.pend, e.1 ≠ l) →
    ∃ t, exec .atomicPerform s = .next t ∧ SameBytes s t ∧
      t = { s with waves := t.waves, fabOut := t.fabOut, fabHeard := t.fabHeard, links := t.links } ∧
      t.waves.get? s.ev.x = some { w with
        irrev := if rest = [] then none else some (.load seq z rest)
        outst := w.outst.map fun o =>
          match ls.find? fun e => e.1 = o.lane ∧ e.2.sp = p.sp ∧ e.2.addr / 32 = p.addr / 32 with
          | some e => if o.seq = seq ∧ o.ready = false then
              { o with
                val := if o.idx < z.regs then loadedWord z (s.bytesAt e.2.sp e.2.key e.2.addr (accessBytes z)) o.idx else 0
                ready := true } else o
          | none => o })

/-- Atomics from issue to performance, and the remote loads that wait like them. -/
def Obligations.Atomics : Prop :=
  Sys2Proof.Machine.Spec.atomicIssuesHold ∧ Sys2Proof.Machine.Spec.atomicPerformsHold ∧ Sys2Proof.Machine.Spec.remoteLoadsHold

namespace Sys2Proof.Machine.Spec

/-- The memory words that some bytes of a space touch. -/
def touches (sp : Space) (bs : List (Nat × Byte)) (l : Loc) : Prop := ∃ e ∈ bs, l = .mem sp (e.1 / 4)

/-- The launch of a wave runs. -/
def running (s : State) (w : Wave) : Prop := ∃ m, s.teams.get? w.tid = some m ∧ s.failed m.lid = false

/-- Keys rise through the tables of waves and cores. -/
def keysRise (s : State) : Prop := Tbl.ascending 0 s.waves = true ∧ Tbl.ascending 0 s.cores = true

end Sys2Proof.Machine.Spec

/-- R311, R330 to R333: the course of a global store-buffer entry. Sent, its words are pending and the dies of its lines'
masks are to acknowledge, the writer's own only if another core there may hold a sector or an agent of it watches; a buffer
without the key requests it first. At a die's acknowledgement its cores hold no sector of the words, its waves' regions
that had read one are rolled back, and of the die's directory the lines' masks keep of its cores only those that hold a sector or have
read a word; with every acknowledgement in, the bytes are the home's, the words are no longer pending, and the next entry
is at the head. Until then no byte has changed. (No line modified at the host.) -/
def Sys2Proof.Machine.Spec.storeEntryCourseHold : Prop :=
  ∀ (s : State) (w : Wave) (m : Team) (e : SbEntry) (rest : List SbEntry) (sp : Space) (tier key : Nat) (ace : Bool)
    (a : Nat) (b : Byte) (bs' : List (Nat × Byte)),
    s.waves.get? s.ev.x = some w → s.teams.get? w.tid = some m → w.sbuf = e :: rest →
    e.op = .mem sp tier key ace ((a, b) :: bs') → keysRise s → cleanHost s →
    let x := s.ev.x
    let bs := (a, b) :: bs'
    let hit := touches sp bs
    let lines (id : Nat) : Prop := sp ≠ .peer ∧ ∃ c ∈ bs, id = lineId sp c.1
    let p : Phys := ⟨sp, a, key, tier, ace⟩
    let ready := e.held = false ∧ e.sent = false ∧ w.irrev = none ∧ s.failed m.lid = false ∧ (∀ p ∈ s.pend, ¬ hit p.1) ∧
      (tier = 2 → 0 < s.fabRoom m.die 128)
    (ready → keyed s p →
      ∃ t e', exec .storeEntrySend s = .next t ∧ SameBytes s t ∧ t.waves.get? x = some { w with sbuf := e' :: rest } ∧
        e' = { e with sent := true, await := e'.await } ∧
        (∀ d, d ∈ e'.await ↔ toldDies s m.core lines d) ∧
        (∀ p, p ∈ t.pend ↔ p ∈ s.pend ∨ (hit p.1 ∧ p.2 = x)) ∧
        t = { s with
          waves := t.waves, pend := t.pend, l2 := t.l2, hostLines := t.hostLines, agentLines := t.agentLines
          accessCnt := t.accessCnt, crossings := t.crossings, bufKeys := t.bufKeys, fabOut := t.fabOut, fabSeq := t.fabSeq
          links := t.links, wants := t.wants }) ∧
    (∀ k, ready → s.missingKey p = some k → k ∉ s.keyWants →
      exec .storeEntrySend s = .next { s with keyWants := (s.keyWants ++ [k]).eraseDups }) ∧
    (e.sent = true → s.ev.y ∈ e.await → w.irrev = none →
      ∃ t, exec .invalidation s = .next t ∧ SameBytes s t ∧
        (∃ w', t.waves.get? x = some w' ∧ w'.sbuf.head? = some { e with await := e.await.filter (· != s.ev.y) }) ∧
        (∀ k, k / 200 = s.ev.y → ∀ l, (t.core k).l1 = l → ∀ c ∈ l, c.sp = sp → ∀ d ∈ bs, c.n ≠ d.1 / 32) ∧
        (∀ k, k / 200 ≠ s.ev.y → (t.core k).l1 = (s.core k).l1) ∧
        (∀ v u r m l, v ≠ x → s.waves.get? v = some u → u.region = some r → s.teams.get? u.tid = some m →
          m.die = s.ev.y → hit l → l ∈ r.reads → ∃ u', t.waves.get? v = some u' ∧ u'.region = none) ∧
        ∀ id k, lines id → k < 200 → ((t.die s.ev.y).dir.get 0 id).getLsbD k = true →
          (s.die s.ev.y).dir.get 0 id ≠ 0 ∧
          ((∃ c ∈ (t.core (200 * s.ev.y + k)).l1, lineId c.sp (32 * c.n) = id) ∨
            ∃ v u m, s.waves.get? v = some u ∧ s.teams.get? u.tid = some m ∧ m.core = 200 * s.ev.y + k ∧ u.covers id = true)) ∧
    (e.sent = true → e.await = [] → (∀ c ∈ bs, sp = .dev → s.inBias c.1 = false) → noRegion s →
      (∀ c ∈ bs, noStatus s sp c.1 1) →
      ∃ t w', exec .storeEntryAck s = .next t ∧ t.waves.get? x = some w' ∧
        w'.sbuf ++ w'.spilling.getD [] = rest ++ w.spilling.getD [] ∧ w' = { w with sbuf := w'.sbuf, spilling := w'.spilling } ∧
        (∀ a, t.byteAt sp key a = (lastByte bs a).getD (s.byteAt sp key a)) ∧
        (∀ q k a, (q ≠ sp ∨ ∀ b ∈ bs, b.1 / 32 ≠ a / 32) → t.byteAt q k a = s.byteAt q k a) ∧
        (∀ p, p ∈ t.pend ↔ p ∈ s.pend ∧ ¬ (hit p.1 ∧ p.2 = x)) ∧
        (∀ v, v ≠ x → t.waves.get? v = s.waves.get? v) ∧ t.teams = s.teams)

/-- R331, R332: INVALIDATION of a word that an atomic has made pending: the die acknowledges it, its cores hold no sector of
the word, and the atomic may be performed when the last has. -/
def Sys2Proof.Machine.Spec.atomicInvalidationsHold : Prop :=
  ∀ (s : State) (w : Wave) (seq : Nat) (op : AtomOp) (wide : Bool) (ls : List AtomLane) (l : Nat) (ds : List Nat)
    (a : AtomLane) (p : Phys),
    s.waves.get? s.ev.x = some w → w.irrev = some (.atom seq op wide ls (some (l, ds))) → s.ev.y ∈ ds →
    ls.find? (fun e => e.lane = l) = some a → a.tgt = .mem p → keysRise s → noRegion s →
    let n := if wide then 8 else 4
    ∃ t, exec .invalidation s = .next t ∧ SameBytes s t ∧ t.waves = s.waves.put s.ev.x { w with
        irrev := some (.atom seq op wide ls (some (l, ds.filter (· != s.ev.y)))) } ∧ t.pend = s.pend ∧
      (∀ k, k / 200 = s.ev.y → ∀ c ∈ (t.core k).l1, c.sp = p.sp → ∀ j, j < n → c.n ≠ (p.addr + j) / 32) ∧
      ∀ k, k / 200 ≠ s.ev.y → (t.core k).l1 = (s.core k).l1

/-- R202, R254, R334, R352: an entry of the local store, a bulletin word, TSYNC or a queue is performed as it is sent, and
leaves the buffer. (Here with no region open that has read its words; the entries of barriers have a statement of their
own, `BarrierStores`.) -/
def Sys2Proof.Machine.Spec.localEntriesHold : Prop :=
  ∀ (s : State) (w : Wave) (m : Team) (e : SbEntry) (rest : List SbEntry),
    s.waves.get? s.ev.x = some w → s.teams.get? w.tid = some m → w.sbuf = e :: rest → w.spilling = none → e.held = false →
    e.sent = false → w.irrev = none → s.failed m.lid = false → noRegion s →
    let popped : Wave := { w with sbuf := rest }
    (∀ bs, e.op = .ls bs → (∀ b ∈ m.barriers, ∀ c ∈ bs, b / 8 ≠ c.1 / 8) →
      ∃ t m', exec .storeEntrySend s = .next t ∧ t = { s with waves := s.waves.put s.ev.x popped, teams := t.teams } ∧
        t.teams.get? w.tid = some m' ∧ m' = { m with ls := m'.ls } ∧
        (∀ a, m'.lsByte a = (lastByte bs a).getD (m.lsByte a)) ∧ ∀ k, k ≠ w.tid → t.teams.get? k = s.teams.get? k) ∧
    (∀ k i v, e.op = .bull (.cb k i) v →
      ∃ t, exec .storeEntrySend s = .next t ∧ t = { s with waves := s.waves.put s.ev.x popped, clusters := t.clusters } ∧
        t.bulletin (.cb k i) = v ∧ (∀ j, j ≠ k → t.cluster j = s.cluster j) ∧
        ∀ j, (j ≠ i → t.bulletin (.cb k j) = s.bulletin (.cb k j))) ∧
    (∀ d i v, e.op = .bull (.db d i) v →
      ∃ t, exec .storeEntrySend s = .next t ∧ t = { s with waves := s.waves.put s.ev.x popped, dies := t.dies } ∧
        t.bulletin (.db d i) = v ∧ (∀ j, j ≠ d → t.die j = s.die j) ∧
        ∀ j, (j ≠ i → t.bulletin (.db d j) = s.bulletin (.db d j))) ∧
    (∀ lanes, e.op = .arrive lanes →
      ∃ t w', exec .storeEntrySend s = .next t ∧ t = { s with waves := s.waves.put s.ev.x w' } ∧
        w' = { popped with tsCount := w'.tsCount } ∧
        ∀ l, l < 64 → w'.tsCount.get 0 l = w.tsCount.get 0 l + if hasLane lanes l then 1 else 0) ∧
    (∀ q vs b, e.op = .push q vs → m.queues.get? q = some b → b.port = false → (vs.map (·.1)).Nodup → (∀ v ∈ vs, v.1 < 64) →
      (∀ a ∈ m.barriers, ∀ v ∈ vs, a / 8 ≠ b.slot v.1 (b.pushed.get 0 v.1) / 8) → (∀ v ∈ vs, b.slot v.1 (b.pushed.get 0 v.1) % 4 = 0) →
      ∃ t m' b', exec .storeEntrySend s = .next t ∧ t = { s with waves := s.waves.put s.ev.x popped, teams := t.teams } ∧
        t.teams.get? w.tid = some m' ∧ m'.queues.get? q = some b' ∧ b' = { b with pushed := b'.pushed } ∧
        (∀ l, b'.pushed.get 0 l = b.pushed.get 0 l + if l ∈ vs.map (·.1) then 1 else 0) ∧
        ∀ v ∈ vs, m'.lsWord (b.base + 256 * (b.pushed.get 0 v.1 % 2 ^ b.logCap) + 4 * v.1) = v.2)

/-- R91, R121, R122, R148: CLASS_V_RESULT: a result that has its value returns: its register lane takes the value unless a
later write has taken its place, its flags join $fflags; an earlier instruction's result still to come for the same
register and lane no longer reaches it; the last return lets a parked wave go on. -/
def Obligations.ResultReturns : Prop :=
  ∀ (s : State) (w : Wave) (o : Outst), s.waves.get? s.ev.x = some w → w.outst[s.ev.y]? = some o → o.ready = true →
    o.lane < 64 →
    ∃ t w', exec .classVResult s = .next t ∧ t = { s with waves := s.waves.put s.ev.x w' } ∧
      w' = { w with regs := w'.regs, hidden := w'.hidden, outst := w'.outst, fflags := w.fflags ||| o.flags,
                    region := w'.region, parked := w'.parked } ∧
      (∀ p l, l < 64 → w'.read p l =
        if o.dst = some p ∧ o.lane = l ∧ o.toReg = true ∧ w.has p = true then o.val else w.read p l) ∧
      (∀ z ∈ w.outst, z ≠ o → (z.dst ≠ o.dst ∨ z.lane ≠ o.lane ∨ o.seq ≤ z.seq) → z ∈ w'.outst) ∧
      (w.region = none → ∀ z ∈ w'.outst, o.dst ≠ none → z.dst = o.dst → z.lane = o.lane → o.seq ≤ z.seq) ∧
      w'.outst.length = (w.outst.filter fun z => z ≠ o).length ∧
      w'.parked = (if w'.outst = [] then false else w.parked)

/-- R338, R341: a step leaves no region open whose conditions for commit hold: it commits at that instant. REGION_COMMIT, where every entry made before the waymark and every atomic or remote access is performed: no
region is open, the rollback count is 0, held entries are ordinary ones, the wave's held commands are released.
CAUTIOUS_MODE_END, where the wave's 1,024 cautious issues are over: regions may open again. -/
def Sys2Proof.Machine.Spec.regionCommitsHold : Prop :=
  (∀ s t, step s = .next t → ∀ k w, t.waves.get? k = some w → w.mayCommit = false) ∧
  (∀ (s : State) (w : Wave) (r : Region), s.waves.get? s.ev.x = some w → w.region = some r → w.irrev = none →
    (∀ e ∈ w.sbuf, r.seq ≤ e.seq) → Tbl.ascending 0 s.cmds = true →
    (∀ k c q, s.cmds.get? k = some c → c.wid = s.ev.x → c.held = true → c.kind ≠ .qunbind q) →
    ∃ t w', exec .regionCommit s = .next t ∧ SameBytes s t ∧ t.waves.get? s.ev.x = some w' ∧
      w' = { w with region := none, rollbacks := 0, outst := w'.outst, sbuf := w'.sbuf, spilling := w'.spilling } ∧
      w'.sbuf = w.sbuf.map (fun e => { e with held := false }) ∧
      w'.spilling = w.spilling.map (fun l => l.map fun e => { e with held := false }) ∧
      w'.outst = w.outst.map (fun o => if o.toReg = true then o else { o with dst := none, toReg := true }) ∧
      (∀ k c, s.cmds.get? k = some c →
        t.cmds.get? k = some { c with held := if c.wid = s.ev.x then false else c.held }) ∧
      (∀ k, k ≠ s.ev.x → t.waves.get? k = s.waves.get? k) ∧
      t = { s with waves := t.waves, cores := t.cores, cmds := t.cmds }) ∧
  (∀ (s : State) (w : Wave), s.waves.get? s.ev.x = some w → w.cautious = 1 →
    exec .cautiousModeEnd s = .next { s with waves := s.waves.put s.ev.x { w with cautious := 0 } })

/-- R115, R122, R149, R279, R340, R341, R352: a write to words that one open region has read rolls that wave back, for every
PC set at once: PCs, window base, $fpmode, $fflags, $srseed and shadowed registers are those of the waymark; entries and
results from before it stay, later ones are gone; the fourth rollback in a row begins cautious mode. -/
def Sys2Proof.Machine.Spec.rollbackRestoresHold : Prop :=
  ∀ (s : State) (ls : List Loc) (writer : Option Nat) (v : Nat) (w : Wave) (r : Region),
    s.readers ls writer = [v] → s.waves.get? v = some w → w.region = some r → Tbl.ascending 0 r.shadow = true →
    (∀ e ∈ s.cmds, ¬ (e.2.wid = v ∧ e.2.held = true)) →
    ∃ w', (s.check ls writer).waves.get? v = some w' ∧ SameBytes s (s.check ls writer) ∧
      w' = { w with
        regs := w'.regs, pcs := pcsRemove (~~~w.live) r.pcs, base := r.base, fpmode := r.fpmode, fflags := r.fflags
        srseed := r.srseed, tsMark := r.tsMark, sbuf := w.sbuf.filter fun e => e.seq < r.seq
        outst := (w.outst.filter fun o => o.seq < r.seq).map fun o => { o with toReg := true }
        sleep := none, waiting := none, absentWait := false, stop := none, parked := false, spilling := none, region := none
        rollbacks := if w.rollbacks = 3 then 0 else w.rollbacks + 1
        cautious := if w.rollbacks = 3 then 1025 else w.cautious } ∧
      (∀ n l, l < 64 → n < w.alloc → w'.read ⟨false, n⟩ l = match r.shadow.get? n with
        | some vals => vals.get 0 l
        | none => w.read ⟨false, n⟩ l) ∧
      (∀ k, k ≠ v → (s.check ls writer).waves.get? k = s.waves.get? k)

/-- The course of store-buffer entries, global and local. -/
def Obligations.StoreEntries : Prop :=
  Sys2Proof.Machine.Spec.storeEntryCourseHold ∧ Sys2Proof.Machine.Spec.atomicInvalidationsHold ∧ Sys2Proof.Machine.Spec.localEntriesHold

/-- Speculation regions: commit, the end of cautious mode, and rollback. -/
def Obligations.Regions : Prop :=
  Sys2Proof.Machine.Spec.regionCommitsHold ∧ Sys2Proof.Machine.Spec.rollbackRestoresHold

namespace Sys2Proof.Machine.Spec

/-- The 4 bytes at a place, little-endian (R5, R90). -/
def wordOf (s : State) (p : Phys) : Word := BitVec.ofNat 32 (leValue (s.bytesAt p.sp p.key p.addr 4))

/-- A word as an instruction cache may give it: memory's, or one the core holds under the same key (R49, R101), of a page that is
neither a peer's nor uncached (R234, R242). -/
def mayRead (s : State) (core : Nat) (p : Phys) (v : Word) : Prop :=
  v = wordOf s p ∨ (p.tier ≠ 2 ∧ p.tier ≠ 4 ∧
    ∃ tag, (s.codeOf core).get? (codeKey p.sp p.addr) = some (tag, v) ∧ (tag = 0 ∨ tag = s.tagOf p.sp p.key))

/-- The LDLIT forms: destination, displacement, words. -/
def literalForm : Instr → Option (Reg × Int × Nat)
  | .ldlit d i => some (d, i, 1)
  | .ldlitW d i => some (d, i, 2)
  | _ => none

/-- What holding a translation and a code word changes: caches of cores and dies, and what the homes hold, count and need of the
accesses. -/
def onlyCaches (s t : State) : Prop := t = { s with
  cores := t.cores, icache := t.icache, wants := t.wants, dies := t.dies, mem := t.mem, memKey := t.memKey, l2 := t.l2, hostLines := t.hostLines
  agentLines := t.agentLines, accessCnt := t.accessCnt, crossings := t.crossings, bufKeys := t.bufKeys }

/-- The opcode of an instruction's word: P and F (R92). -/
def opOf (i : Instr) : Nat × Nat := (encode false i / 2 ^ 25 % 2 ^ 6, encode false i / 2 ^ 21 % 2 ^ 4)

/-- QXCH and TRET, for which every live lane counts (R116, R394). -/
def needsLive (i : Instr) : Bool := i.isWord && (opOf i == (0x14, 4) || opOf i == (0x25, 7))

/-- The other collectives of R116: the LANE, HANDLE, TILE, MATRIX, ENGINE and REG groups, QSCALE and TKPOP. -/
def needsCounted (i : Instr) : Bool :=
  i.isWord && !needsLive i &&
    ([0x14, 0x28, 0x29, 0x2A, 0x2B, 0x26].contains (opOf i).1 || opOf i == (0x13, 7) || opOf i == (0x2D, 1))

/-- The table of R342 and TRET (R394): ATOM, ATOM.W, ATOML and SYS; TKPUSH, TKPOP, TKDONE, TKCANCEL; BARRIVE, TRIGGER, LAUNCH;
REGCLM, REGREL; QBIND; HALLOC, HFREE, HSEAL; LRBIND, LRFLUSH; ABCLAIM, ABREL; EXIT, TRAP, TRET. -/
def issuesDrained (i : Instr) : Bool :=
  i.isWord && ([0x1D, 0x1E, 0x1F, 0x2E].contains (opOf i).1 ||
    [(0x2D, 0), (0x2D, 1), (0x2D, 2), (0x2D, 3), (0x2C, 2), (0x2C, 6), (0x2C, 7), (0x26, 0), (0x26, 1), (0x2B, 4), (0x28, 0),
      (0x28, 1), (0x28, 2), (0x29, 3), (0x29, 4), (0x2A, 0), (0x2A, 1), (0x25, 1), (0x25, 6), (0x25, 7)].contains (opOf i))

/-- The instructions that add an entry to the store buffer (R109): ST, STL, STX, BINIT, BEXPECT, BCREDIT, TSYNC and those whose
d names a queue register. -/
def storesEntry (i : Instr) : Bool :=
  match i with
  | .st _ _ _ _ => true
  | .stl _ _ _ _ => true
  | .stx _ _ _ _ => true
  | _ => (i.isWord && [(0x2C, 0), (0x2C, 1), (0x2C, 4), (0x2C, 5)].contains (opOf i)) || (unitsOf i).1.any fun e => e.1.isQ

/-- An instruction of R342 at a set: of its table, reading a queue register, or a load that reaches a remote page. -/
def ofR342 (c : Ctx) (i : Instr) : Prop :=
  issuesDrained i = true ∨ (∃ e ∈ (unitsOf i).2, e.1.isQ = true) ∨ c.loadsRemote i = true

end Sys2Proof.Machine.Spec

/-- R101, R167, R214, R388, R398: LDLIT and LDLIT.W complete where the page may be fetched from: the word or pair at PC + 4 +
imm × 4, as memory or the instruction cache holds it, is outstanding in every lane; a page without the permission raises
the protection trap, a page not there stops the wave. (No line modified at the host. Which of memory's word and an older
cached one is read is free, log entry 54.) -/
def Sys2Proof.Machine.Spec.literalLoadsHold : Prop :=
  ∀ (s : State) (i : Instr) (c : Ctx) (d : Reg) (k : Int) (n : Nat), literalForm i = some (d, k, n) → Ready s i c → cleanHost s →
    let va := (displaced c k).toNat
    (∀ tr p, s.fetchAccess c.t c.w.level va = .ok tr p →
      ∃ (t : State) (v : Nat → Word), exec i s = .next t ∧ SameBytes s t ∧
        (∀ j, j < n → mayRead s (4 * c.t.cluster + c.t.pos) { p with addr := p.addr + 4 * j } (v j)) ∧
        ∃ sB, onlyCaches s sB ∧ Ends sB t c (c.owing d n (fun _ j => v j) fun _ => 0) fun _ => c.pc + 4) ∧
    (∀ x, s.fetchAccess c.t c.w.level va = .viol x → c.cnt ≠ 0 →
      exec i s = .next (s.raise c.wid ⟨.protection, c.cnt, 0, BitVec.ofNat 64 x.addr, some x⟩ c.set c.pc c.word)) ∧
    (∀ x, s.fetchAccess c.t c.w.level va = .park x → c.cnt ≠ 0 →
      exec i s = .next (s.setWave c.wid
        { c.w with stop := some ⟨.park ⟨x, .fetch, va⟩, c.set, c.pc, c.word⟩, waiting := none }))

/-- R105 to R108, R398: the two outcomes of a word that is no instruction. ILLEGAL_INSTRUCTION raises the
illegal-instruction trap; INSTRUCTION_FETCH_FAULT raises the protection trap or stops the wave; for helper lanes alone
both only pass the word. -/
def Sys2Proof.Machine.Spec.fetchFaultsHold : Prop :=
  ∀ (s : State) (c : Ctx), s.ctx = some c →
    (c.cnt ≠ 0 → exec .illegalInstruction s = .next (s.raise c.wid ⟨.illegal, c.cnt, 0, 0, none⟩ c.set c.pc c.word)) ∧
    (c.cnt = 0 → ∃ t, exec .illegalInstruction s = .next t ∧ Ends s t c c.w fun _ => c.pc + 4) ∧
    (∀ x, s.fetchAccess c.t c.w.level c.pc.toNat = .viol x → c.cnt ≠ 0 →
      exec .instructionFetchFault s =
        .next (s.raise c.wid ⟨.protection, c.cnt, 0, BitVec.ofNat 64 x.addr, some x⟩ c.set c.pc c.word)) ∧
    (∀ x, s.fetchAccess c.t c.w.level c.pc.toNat = .park x → c.cnt ≠ 0 →
      exec .instructionFetchFault s = .next (s.setWave c.wid { c.w with
        stop := some ⟨.park ⟨x, .fetch, c.pc.toNat⟩, c.set, c.pc, c.word⟩, waiting := none })) ∧
    ((∀ tr p, s.fetchAccess c.t c.w.level c.pc.toNat ≠ .ok tr p) → c.cnt = 0 →
      ∃ t, exec .instructionFetchFault s = .next t ∧ Ends s t c c.w fun _ => c.pc + 4)

/-- R106, R109 to R111, R113, R222, R338: a step whose act is a wave's issue fetches the word at the PC of the set that
issues and carries out the instruction it decodes to, for that set; the fetch changes caches only, and a word that decodes
to nothing is the illegal instruction. With no wait and no sweep under way, the set that issues is the eligible one at the
lowest PC. What follows at the same instant, `State.instant`, changes nothing where no page has crossed a threshold, no
region may commit, no sweep is under way, no multicast without a target is open and no request of the device itself is out. An
issue that needs a key its buffers lack (R311) or an answer of a peer that has not come (R231) waits as if it had not begun,
once its requests are out; that the whole issue waits so is log entries 57 and 80. -/
def Sys2Proof.Machine.Spec.stepIssuesHold : Prop :=
  (∀ (s : State) (wid : Nat), s.chosen = .issue wid →
    (∀ t, s.stepping.issueWave wid = .next t → t.wants = [] → step s = .next t.instant) ∧
    (∀ t, s.stepping.issueWave wid = .next t → (∀ w ∈ t.wants, w ∈ s.met) →
      step s = .next { t with wants := [], met := t.met.filter (· ∉ t.wants) }.instant) ∧
    (∀ t w, s.stepping.issueWave wid = .next t → w ∈ t.wants → w ∉ s.met → ∀ t', step s = .next t' →
      ∃ u : State, t' = u.instant ∧ u = { s.stepping with keyWants := u.keyWants, fabOut := u.fabOut, fabSeq := u.fabSeq, links := u.links } ∧
        (∀ k ∈ s.keyWants, k ∈ u.keyWants) ∧ ∀ r ∈ s.fabOut, r ∈ u.fabOut) ∧
    ((∀ t, s.stepping.issueWave wid ≠ .next t) → step s = s.stepping.issueWave wid)) ∧
  (∀ s : State, s.crossings = [] → (∀ k w, s.waves.get? k = some w → w.mayCommit = false ∧ w.sweep = none) →
    (∀ e ∈ s.cmds, ∀ h b, e.2.kind = .mcast h b [] → e.2.held = true) → (∀ r ∈ s.fabOut, ∀ w, r.who ≠ .device w) →
    Tbl.ascending 0 s.waves = true → s.instant = s) ∧
  (∀ (s : State) (wid : Nat) (w w1 : Wave) (m : Team) (x : Stand) (tr : Trans) (p : Phys), s.waves.get? wid = some w →
    s.teams.get? w.tid = some m → s.mayIssue w m = true → s.choice wid w m = (w1, some x) →
    ¬ (w.fired = true ∧ w.waiting = none) →
    let at_ := (s.setWave wid w1).forSet wid x.set x.pc x.word
    at_.fetchAccess m w.level x.pc.toNat = .ok tr p →
    ∃ v t, mayRead at_ (4 * m.cluster + m.pos) p v ∧ onlyCaches (at_.forSet wid x.set x.pc v) t ∧
      (cleanHost s → SameBytes at_ t) ∧
      (∀ i, decodeWord v.toNat = .ok i → s.issueWave wid = exec i t) ∧
      (∀ e, decodeWord v.toNat = .error e → s.issueWave wid = exec .illegalInstruction t)) ∧
  (∀ (s : State) (wid : Nat) (w : Wave) (m : Team), w.waiting = none → w.sweep = none →
    w.pcs.Pairwise (fun a b => a.1.toNat < b.1.toNat) →
    (s.choice wid w m).1 = w ∧
    ∀ x, (s.choice wid w m).2 = some x → x ∈ s.eligibleSets wid w m ∧ ∀ y ∈ s.eligibleSets wid w m, x.pc.toNat ≤ y.pc.toNat)

/-- R109, R116, R118, R338, R342, R394: when a PC set is eligible. One whose word traps is. One that stands at an instruction
is unless a lane that counts for it stands elsewhere; it is one of R342's and the wave has a region open or something
unperformed; it would add an entry while another set waits for R342; or it would add a word to the read set while the wave
holds an entry of its region. Helper lanes alone pass every collective but QXCH, reading nothing there, and issue no more where
they stand at EXIT (R15). That a set at an instruction of R342 that also lacks lanes holds back the others as well is log entry
61, that helper lanes stop where they stand at EXIT is log entry 19. -/
def Sys2Proof.Machine.Spec.eligibilityHold : Prop :=
  ∀ (s : State) (wid : Nat) (w : Wave) (m : Team) (x : Stand), s.waves.get? wid = some w → s.teams.get? w.tid = some m →
    x ∈ s.standing wid w m →
    (x.instr = none → x ∈ s.eligibleSets wid w m) ∧
    ∀ i c, x.instr = some i → s.at_ wid x = some c →
      let drained := w.region = none ∧ w.unperformed = false
      (x ∈ s.eligibleSets wid w m ↔
        (i = .exit → c.cnt ≠ 0) ∧
        (∀ l, l < 64 → hasLane c.set l = false →
          (needsLive i = true → hasLane c.w.live l = false) ∧
          (needsCounted i = true → c.cnt ≠ 0 → hasLane c.w.counted l = false)) ∧
        (ofR342 c i → drained) ∧
        ((∃ e ∈ w.sbuf, e.held = true) → c.addsRead i = false ∨ (c.cnt = 0 ∧ needsCounted i = true)) ∧
        (storesEntry i = true → ∀ y ∈ s.standing wid w m, y.pc ≠ x.pc →
          ∀ j d, y.instr = some j → s.at_ wid y = some d → ofR342 d j → ¬ (j = .exit ∧ d.cnt = 0) → drained))

/-- R91, R110, R416: the end of an issue: it is counted on counter 0 of the core, and a word with S = 1 parks the wave while
results are to return; a parked wave does not issue. -/
def Sys2Proof.Machine.Spec.switchMarkerHold : Prop :=
  (∀ (s : State) (next : Next) (back : Bool) (w : Wave) (m : Team), s.waves.get? s.cur.wid = some w →
    s.teams.get? w.tid = some m →
    let t := s.finish next back
    (∃ w', t.waves.get? s.cur.wid = some w' ∧
      (w'.parked = true ↔ w.parked = true ∨ (s.cur.word.getLsbD 31 = true ∧ (w.outst ≠ [] ∨ w.irrev ≠ none)))) ∧
    (t.core m.core).perf.get 0 0 = ((s.core m.core).perf.get 0 0 + 1) % 2 ^ 32 ∧ t.seq = s.seq + 1) ∧
  ∀ (s : State) (w : Wave) (m : Team), w.parked = true → s.mayIssue w m = false

/-- The bytes a leaf of a level maps: 128 GiB, 64 MiB or 64 KiB (R210). -/
def leafSize : Nat → Nat
  | 2 => 2 ^ 37
  | 3 => 2 ^ 26
  | _ => 2 ^ 16

/-- The bytes of a level's table (R210). -/
def levelBytes : Nat → Nat
  | 1 => 8192
  | 4 => 16384
  | _ => 32768

/-- Where the entry of an address lies in a level's table (R210). -/
def entryPlace (level table va : Nat) : Nat := table + 16 * match level with
  | 1 => va / 2 ^ 48 % 2 ^ 9
  | 2 => va / 2 ^ 37 % 2 ^ 11
  | 3 => va / 2 ^ 26 % 2 ^ 11
  | _ => va / 2 ^ 16 % 2 ^ 10

/-- The fields of an entry: the address in FRAME, TIER, KEYID and DEVICE (R211). -/
def frameOf (e : Nat) : Nat := e / 2 ^ 60 % 2 ^ 44 * 4096
@[inherit_doc frameOf] def tierOf (e : Nat) : Nat := e / 2 ^ 38 % 2 ^ 3
@[inherit_doc frameOf] def keyidOf (e : Nat) : Nat := e / 2 ^ 41 % 2 ^ 7
@[inherit_doc frameOf] def deviceOf (e : Nat) : Nat := e / 2 ^ 108 % 2 ^ 20

/-- R207, R211 to R213, R224: the valid entries that are malformed: a reserved field that is not zero, DEVICE included where
the entry is no leaf of TIER 2; a leaf at level 1 or a pointer at level 4; a pointer with a field other than V and FRAME, or
whose FRAME is outside HBM4E or not aligned to the next table; a leaf not aligned to its page, outside its tier's range, of
TIER 5 to 7, naming this device as its peer, with ACE outside TIER 1, or under a key identifier not granted. TIER 3 is
malformed also while the port has trained as a PCIe endpoint (R239; log entry 81, the model's choice). -/
def malformedEntry (s : State) (o : Owner) (level e : Nat) : Prop :=
  let leaf := e.testBit 1 = true
  let size := leafSize level
  e / 2 ^ 104 % 2 ^ 4 ≠ 0 ∨ e / 2 ^ 48 % 2 ^ 12 ≠ 0 ∨ e / 2 ^ 8 % 2 ^ 28 ≠ 0 ∨ e / 2 ^ 2 % 2 ^ 2 ≠ 0 ∨
    ((¬ leaf ∨ tierOf e ≠ 2) ∧ deviceOf e ≠ 0) ∨ (leaf ∧ level = 1) ∨ (¬ leaf ∧ level = 4) ∨
    (¬ leaf ∧ (e / 2 % 2 ^ 59 ≠ 0 ∨ frameOf e % levelBytes (level + 1) ≠ 0 ∨
      0x20000000000 < frameOf e + levelBytes (level + 1))) ∨
    (leaf ∧ (frameOf e % size ≠ 0 ∨ (tierOf e = 0 ∧ 0x20000000000 < frameOf e + size) ∨
      (tierOf e = 1 ∧ (frameOf e < 0x20000000000 ∨ 0x50000000000 < frameOf e + size)) ∨
      (tierOf e = 2 ∧ (2 ^ 44 ≤ frameOf e ∨ deviceOf e = s.deviceId)) ∨ (tierOf e = 3 ∧ s.hk.pcieOnly = true) ∨
      5 ≤ tierOf e ∨ (e.testBit 36 = true ∧ tierOf e ≠ 1) ∨ o.grant.contains (keyidOf e) = false))

/-- R206, R210 to R213: a walk reads one entry of a level under the owner's key. With V = 0 it ends in a page fault, and a
malformed entry is a violation. A pointer leads on to the next table and is kept for the walk cache. A leaf ends the walk at
its page of 128 GiB, 64 MiB or 64 KiB: the address names the byte at FRAME plus the offset in that page, in device memory,
host memory or at the peer DEVICE, a peer's page being held as the 64 KiB piece that has the address (R236). -/
def Sys2Proof.Machine.Spec.pageWalkHold : Prop :=
  (∀ (s : State) (own : Nat) (o : Owner) (va fuel level table e : Nat) (ps : List WalkEnt), va < 2 ^ 57 → 1 ≤ level → level ≤ 4 →
    leValue (s.bytesAt .dev o.key (entryPlace level table va) 16) = e →
    let ends := s.walkFrom own o va (fuel + 1) level table ps
    (e.testBit 0 = false → ends = (.pageFault, ps)) ∧
    (e.testBit 0 = true → malformedEntry s o level e → ends = (.violation .malformed, ps)) ∧
    (e.testBit 0 = true → ¬ malformedEntry s o level e → e.testBit 1 = false →
      ends = s.walkFrom own o va fuel (level + 1) (frameOf e)
        (⟨own, level, va / 2 ^ (match level with | 1 => 48 | 2 => 37 | _ => 26), frameOf e⟩ :: ps)) ∧
    (e.testBit 0 = true → ¬ malformedEntry s o level e → e.testBit 1 = true →
      ∃ t, ends = (.ok t, ps) ∧ t.owner = own ∧ t.page = va / 2 ^ t.bits ∧
        2 ^ t.bits = (if tierOf e = 2 then 65536 else leafSize level) ∧
        t.phys va = ⟨if tierOf e < 2 then .dev else if tierOf e = 2 then .peer else .host,
          deviceOf e * 2 ^ 44 + frameOf e + va % leafSize level, keyidOf e, tierOf e, e.testBit 36⟩ ∧
        t.leaf.moving = e.testBit 37 ∧ t.leaf.sonly = e.testBit 7 ∧ t.leaf.x = e.testBit 6 ∧ t.leaf.w = e.testBit 5 ∧
        t.leaf.r = e.testBit 4)) ∧
  ∀ (s : State) (own : Nat) (o : Owner) (va e1 e2 e3 e4 : Nat), va < 2 ^ 57 →
    let entry (a : Nat) : Nat := leValue (s.bytesAt .dev o.key a 16)
    let bit (e k : Nat) : Bool := e.testBit k
    let pointer (e size : Nat) : Prop := e % 2 ^ 60 = 1 ∧ e < 2 ^ 104 ∧ frameOf e % size = 0 ∧ frameOf e + size ≤ 0x20000000000
    entry (o.root + 16 * (va / 2 ^ 48)) = e1 → entry (frameOf e1 + 16 * (va / 2 ^ 37 % 2 ^ 11)) = e2 →
    entry (frameOf e2 + 16 * (va / 2 ^ 26 % 2 ^ 11)) = e3 → entry (frameOf e3 + 16 * (va / 2 ^ 16 % 2 ^ 10)) = e4 →
    pointer e1 32768 → pointer e2 32768 → pointer e3 16384 →
    e4 % 16 = 3 → e4 / 2 ^ 8 % 2 ^ 28 = 0 → e4 / 2 ^ 36 % 2 ^ 5 = 0 →
    e4 / 2 ^ 48 % 2 ^ 12 = 0 → e4 < 2 ^ 104 → o.grant.contains (keyidOf e4) = true →
    frameOf e4 % 65536 = 0 → frameOf e4 + 65536 ≤ 0x20000000000 →
    ∃ ps, s.walkFrom own o va 4 1 o.root [] = (.ok ⟨own, va / 65536, 16,
        { frame := e4 / 2 ^ 60 % 2 ^ 44, dev := 0, key := keyidOf e4, tier := 0, moving := false, ace := false,
          sonly := bit e4 7, x := bit e4 6, w := bit e4 5, r := bit e4 4 }⟩, ps) ∧
      (Trans.phys ⟨own, va / 65536, 16, Leaf.ofEntry e4⟩ va) = ⟨.dev, frameOf e4 + va % 65536, keyidOf e4, 0, false⟩

/-- R201, R207, R213, R214, R223, R235, R238: what a translated access meets. An address past 2^57 is a violation, a page
fault parks, a malformed entry is a violation of the walk, and a refused lease parks. Then, in this order (log entry 79, the
model's choice), a violation is a permission the page does not give the kind and level, a peer without the key, and a peer's
address past its memory, logged as the global physical address. A page being moved parks, and else the access reaches the
page's frame at its offset. -/
def Sys2Proof.Machine.Spec.accessRightsHold : Prop :=
  ∀ (s : State) (core die own lane va : Nat) (lv : Level) (k : AccKind),
    (2 ^ 57 ≤ va → s.access core die own lv k lane va = .viol ⟨va, .range, k, false⟩) ∧
    (va < 2 ^ 57 → s.xlate core die own lane va = .pageFault → s.access core die own lv k lane va = .park .page) ∧
    (∀ c, va < 2 ^ 57 → s.xlate core die own lane va = .violation c →
      s.access core die own lv k lane va = .viol ⟨va, c, .walk, false⟩) ∧
    (va < 2 ^ 57 → s.xlate core die own lane va = .moving → s.access core die own lv k lane va = .park .lease) ∧
    (∀ t, va < 2 ^ 57 → s.xlate core die own lane va = .ok t →
      let l := t.leaf
      let place := l.frame * 4096 + va % 2 ^ t.bits
      let denied := (lv = .u ∧ l.sonly = true) ∨ ((k = .load ∨ k = .engineRead) ∧ l.r = false) ∨
        ((k = .store ∨ k = .engineWrite) ∧ l.w = false) ∨ (k = .atomic ∧ (l.r = false ∨ l.w = false)) ∨
        (k = .fetch ∧ l.x = false)
      let unkeyed := l.tier = 2 ∧ Config.peerHasKey l.dev l.key = false
      let unused := l.tier = 2 ∧ 0x50000000000 ≤ (l.dev * 2 ^ 44 + place) % 2 ^ 44
      (denied → s.access core die own lv k lane va = .viol ⟨va, .permission, k, false⟩) ∧
      (¬ denied → unkeyed → s.access core die own lv k lane va = .viol ⟨va, .keyAbsent, k, false⟩) ∧
      (¬ denied → ¬ unkeyed → unused →
        s.access core die own lv k lane va = .viol ⟨l.dev * 2 ^ 44 + place, .unusedRange, k, true⟩) ∧
      (¬ denied → ¬ unkeyed → ¬ unused → l.moving = true → s.access core die own lv k lane va = .park .migration) ∧
      (¬ denied → ¬ unkeyed → ¬ unused → l.moving = false → ∃ p, s.access core die own lv k lane va = .ok t p ∧
        (l.tier < 2 → p = ⟨.dev, place, l.key, l.tier, l.ace⟩) ∧
        (l.tier = 2 → p = ⟨.peer, l.dev * 2 ^ 44 + place, l.key, 2, false⟩) ∧
        (l.tier = 3 ∨ l.tier = 4 → p = ⟨.host, place, l.key, l.tier, false⟩)))

/-- Literal loads, and the faults of instruction fetch. -/
def Obligations.Fetches : Prop :=
  Sys2Proof.Machine.Spec.literalLoadsHold ∧ Sys2Proof.Machine.Spec.fetchFaultsHold

/-- A step that issues: the set, its instruction, and the switch marker. -/
def Obligations.StepRunsDecoded : Prop :=
  Sys2Proof.Machine.Spec.stepIssuesHold ∧ Sys2Proof.Machine.Spec.eligibilityHold ∧ Sys2Proof.Machine.Spec.switchMarkerHold

/-- Translation by the page tables, and the rights of a leaf. -/
def Obligations.Translation : Prop :=
  Sys2Proof.Machine.Spec.pageWalkHold ∧ Sys2Proof.Machine.Spec.accessRightsHold

namespace Sys2Proof.Machine.Spec

/-- What a collective asks of its set (R116, R117): destination unit, the operands that must be uniform as register, word
and low bits, and the register and word that hold a format word. -/
structure CollForm where
  dst : Option (Reg × Nat) := none
  uni : List (Reg × Nat × Nat) := []
  fmt : Option (Reg × Nat) := none

/-- The first n words of a unit. -/
def wordsOf (r : Reg) (n : Nat) : List (Reg × Nat × Nat) := (List.range n).map fun i => (r, i, 32)

/-- The collectives of R116. -/
def collForm : Instr → Option CollForm
  | .shfl d _ _ => some { dst := (d, 1) }
  | .shflup d _ b | .shfldn d _ b | .shflx d _ b => some { dst := (d, 1), uni := [(b, 0, 6)] }
  | .qxch d _ b | .ired d _ b | .iscan d _ b => some { dst := (d, 1), uni := [(b, 0, 3)] }
  | .fred d _ b | .fscan d _ b => some { dst := (d, 1), uni := [(b, 0, 2)] }
  | .vany d _ | .vall d _ | .elect d => some { dst := (d, 1) }
  | .ballot d _ | .laneMatch d _ => some { dst := (d, 2) }
  | .qscale d _ b => some { dst := (d, 1), fmt := (b, 0) }
  | .halloc d a b => some { dst := (d, 1), uni := wordsOf a 1 ++ wordsOf b 1 }
  | .hfree a | .hseal a | .hwait a | .lsfence a | .abrel a | .mzero a | .qunbind a => some { uni := wordsOf a 1 }
  | .hstat d a | .hgen d a | .abclaim d a | .qstat d a => some { dst := (d, 1), uni := wordsOf a 1 }
  | .tfetch d a b | .tstore d a b | .bcopy d a b => some { dst := (d, 2), uni := wordsOf a 4 ++ wordsOf b 4 }
  | .tmcast d a => some { dst := (d, 2), uni := wordsOf a 4 }
  | .embag d a _ => some { dst := (d, 2), uni := wordsOf a 4 }
  | .lrbind a b | .tlwait a b => some { uni := wordsOf a 2 ++ wordsOf b 1 }
  | .lrflush b => some { uni := wordsOf b 1 }
  | .mma d a b | .mdrain d a b => some { dst := (d, 2), uni := wordsOf a 3 ++ wordsOf b 1, fmt := (a, 3) }
  | .mloop d a b => some { dst := (d, 2), uni := wordsOf a 3 ++ wordsOf b 4, fmt := (a, 3) }
  | .tlread d b => some { dst := (d, 2), uni := wordsOf b 1 }
  | .qbind a b => some { uni := wordsOf a 1 ++ wordsOf b 1 }
  | .tkpop d => some { dst := (d, 8) }
  | .regrel _ | .wbase _ => some {}
  | .regstat d => some { dst := (d, 1) }
  | _ => none

/-- The counted lanes hold one value in a word of a register. -/
def sameWord (c : Ctx) (r : Reg) (i bits : Nat) : Prop :=
  ∀ l, hasLane c.cnt l = true → (c.reg r l i).toNat % 2 ^ bits = (c.reg r c.first i).toNat % 2 ^ bits

/-- The uniform operands are uniform. -/
def CollForm.uniform (f : CollForm) (c : Ctx) : Prop := ∀ e ∈ f.uni, sameWord c e.1 e.2.1 e.2.2

/-- The format words agree. -/
def CollForm.oneFormat (f : CollForm) (c : Ctx) : Prop := ∀ e, f.fmt = some e → sameWord c e.1 e.2 32

/-- The counted lanes agree in all that a collective asks. -/
def agreed (i : Instr) (c : Ctx) : Prop := ∀ f, collForm i = some f → f.uniform c ∧ f.oneFormat c ∧ c.cnt ≠ 0

/-- The value of a uniform register. -/
def uval (c : Ctx) (r : Reg) (i : Nat := 0) : Nat := (c.reg r c.first i).toNat

/-- An instruction that only reads state words, as a load of them (R327, R337): the wave after, with results `f`. -/
def reading (c : Ctx) (ps : List PReg) (locs : List Loc) (w : Wave) : Wave := { w with region := regionAfter c ps locs }

/-- Such a read is held back by no held entry, and by no cautious mode or level behind something unperformed. -/
def mayReadWords (c : Ctx) : Prop :=
  (c.w.unperformed = true → c.w.cautious = 0 ∧ c.w.level = .u) ∧ ∀ e ∈ c.w.sbuf, e.held = false

/-- The handle a word names for the issuing team (R269). -/
def namedHandle (c : Ctx) (v : Nat) : Option Handle :=
  if v < 64 then
    match (c.s.core c.t.core).handles.get? v with
    | some h => if h.tid = c.w.tid then some h else none
    | none => none
  else none

/-- The core's handle table with an entry, and its generation. The change is counted, by which R279 later tells whether
another has followed. -/
def withHandle (s : State) (core i : Nat) (h : Handle) (gen : Nat) : State :=
  s.updCore core fun k => { k with
    handles := k.handles.put i h, gen := k.gen.set 0 i gen, changes := k.changes.set 0 i (k.changes.get 0 i + 1) }

/-- The core's handle table without an entry. -/
def withoutHandle (s : State) (core i : Nat) : State :=
  s.updCore core fun k => { k with handles := k.handles.del i, changes := k.changes.set 0 i (k.changes.get 0 i + 1) }

/-- The same with the operand cache's tiles of the handle gone (R306). -/
def withoutTiles (s : State) (core i : Nat) : State :=
  s.updCluster (core / 4) fun k =>
    { k with opCache := k.opCache.filter fun o => !(o.key.core == core && o.key.handle == i) }

/-- Two ranges of bytes lie apart. -/
def apart (a n b m : Nat) : Prop := a + n ≤ b ∨ b + m ≤ a

/-- A range that HALLOC accepts (R274). -/
def allocatable (c : Ctx) (base len : Nat) : Prop :=
  base % 128 = 0 ∧ len % 128 = 0 ∧ 0 < len ∧ base + len ≤ c.t.localBytes ∧
  (∀ e ∈ (c.s.core c.t.core).handles, e.2.tid = c.w.tid → apart base len e.2.base e.2.len) ∧
  ∀ e ∈ c.t.queues, e.2.port = false → apart base len e.2.base (256 * 2 ^ e.2.logCap)

end Sys2Proof.Machine.Spec

/-- R15, R117, R118: a set of helper lanes alone passes a collective with 0 in its destination and no other effect; counted
lanes that differ in a format word raise the format-divergence trap, else ones that differ in another uniform operand
the uniformity trap. -/
def Sys2Proof.Machine.Spec.collectiveChecksHold : Prop :=
  ∀ (s : State) (i : Instr) (c : Ctx) (f : CollForm), collForm i = some f → Ready s i c →
    (c.cnt = 0 → (∀ d a b, i ≠ .qxch d a b) → ∃ t, exec i s = .next t ∧ Ends s t c (match f.dst with
      | some (d, u) => c.owing d u (fun _ _ => 0) fun _ => 0
      | none => c.w) fun _ => c.pc + 4) ∧
    (c.cnt ≠ 0 → ¬ f.oneFormat c →
      exec i s = .next (s.raise c.wid ⟨.formatDivergence, c.cnt, 0, 0, none⟩ c.set c.pc c.word)) ∧
    (c.cnt ≠ 0 → f.oneFormat c → ¬ f.uniform c →
      exec i s = .next (s.raise c.wid ⟨.uniformity, c.cnt, 0, 0, none⟩ c.set c.pc c.word))

/-- R118, R128: REGCLM has no operand that must be uniform, and a set of helper lanes alone passes it with no effect. (Its wave
has not retired and has no claim.) -/
def Sys2Proof.Machine.Spec.claimChecksHold : Prop :=
  ∀ (s : State) (c : Ctx) (k : Nat), Ready s (.regclm k) c → c.w.retired = false → (∀ q ∈ c.t.claims, q.1 ≠ c.w.idx) → c.cnt = 0 →
    ∃ t, exec (.regclm k) s = .next t ∧ Ends s t c c.w fun _ => c.pc + 4

/-- R116, R119: where no set of a wave is eligible and every set with a counted lane stands at a collective that lacks lanes,
the wave's issue raises the collective-divergence trap at the lowest PC of such a set, whose lanes are reported. A helper lane
counts where a set stands at QXCH or TRET (R116, R394). That a set at a complete collective, which waits for the wave's region or
entries, is not one of these, and that a set of helper lanes alone reports none, is log entry 61. -/
def Sys2Proof.Machine.Spec.collectiveDivergenceHold : Prop :=
  ∀ (s : State) (wid : Nat) (w : Wave) (m : Team) (x : Stand) (count : Mask), s.waves.get? wid = some w →
    s.teams.get? w.tid = some m →
    let live := ∃ y ∈ s.standing wid w m, ∃ i, y.instr = some i ∧ needsLive i = true
    (live → count = w.live) → (¬ live → count = w.counted) →
    s.mayIssue w m = true → w.waiting = none → w.sweep = none → w.pcs.Pairwise (fun a b => a.1.toNat < b.1.toNat) →
    s.eligibleSets wid w m = [] → x ∈ s.standing wid w m → x.set &&& count ≠ 0 →
    (∀ y ∈ s.standing wid w m, y.set &&& count ≠ 0 → x.pc.toNat ≤ y.pc.toNat ∧ ∃ i c, y.instr = some i ∧
      s.at_ wid y = some c ∧ ∃ l, l < 64 ∧ hasLane c.set l = false ∧
        ((needsLive i = true ∧ hasLane c.w.live l = true) ∨
          (needsCounted i = true ∧ c.cnt ≠ 0 ∧ hasLane c.w.counted l = true))) →
    s.issueWave wid = .next (s.raise wid
      ⟨.collectiveDivergence, if x.set &&& w.counted = 0 then 0 else x.set, 0, 0, none⟩ x.set x.pc x.word)

/-- R269, R270, R273, R274, R306, R327: the HANDLE group on the handle its operand names. HALLOC takes the lowest free
index, or answers 0xFFFFFFFF; HFREE, HSEAL and LSFENCE change the entry and its generation; HWAIT, HSTAT and HGEN read it as
a load does, HGEN by log entry 68, as R327 does not name it. The operand cache's tiles of an old generation go by log entry
48. (Here with no other wave's region having read the handle.) -/
def Sys2Proof.Machine.Spec.handleEffectsHold : Prop :=
  (∀ (s : State) (c : Ctx) (d a b : Reg), Ready s (.halloc d a b) c → agreed (.halloc d a b) c →
    allocatable c (uval c a) (uval c b) →
    let core := 4 * c.t.cluster + c.t.pos
    (∀ n, n < 64 → (s.core core).handles.get? n = none → (∀ k, k < n → ((s.core core).handles.get? k).isSome = true) →
      s.readers [.handle core n] (some c.wid) = [] →
      ∃ t, exec (.halloc d a b) s = .next t ∧
        Ends (withoutTiles (withHandle s core n ⟨c.w.tid, uval c a, uval c b, .filling, 0, 0, false⟩
            (((s.core core).gen.get 0 n + 1) % 2 ^ 32)) core n) t c
          (c.owing d 1 (fun _ _ => BitVec.ofNat 32 n) fun _ => 0) fun _ => c.pc + 4) ∧
    ((∀ k, k < 64 → ((s.core core).handles.get? k).isSome = true) →
      ∃ t, exec (.halloc d a b) s = .next t ∧
        Ends s t c (c.owing d 1 (fun _ _ => 0xFFFFFFFF) fun _ => 0) fun _ => c.pc + 4)) ∧
  (∀ (s : State) (c : Ctx) (a : Reg) (h : Handle), namedHandle c (uval c a) = some h → c.s = s →
    let core := 4 * c.t.cluster + c.t.pos
    let n := uval c a
    let gen := (s.core core).gen.get 0 n
    s.readers [.handle core n] (some c.wid) = [] →
    (Ready s (.hfree a) c → agreed (.hfree a) c → h.st = .full ∨ (h.st = .filling ∧ h.fills = 0) →
      ∃ t, exec (.hfree a) s = .next t ∧
        Ends (withoutTiles (withoutHandle s core n) core n) t c c.w fun _ => c.pc + 4) ∧
    (Ready s (.hseal a) c → agreed (.hseal a) c → h.st ≠ .filling →
      ∃ t, exec (.hseal a) s = .next t ∧ Ends s t c c.w fun _ => c.pc + 4) ∧
    (Ready s (.hseal a) c → agreed (.hseal a) c → h.st = .filling → h.fills = 0 →
      ∃ t, exec (.hseal a) s = .next t ∧
        Ends (withHandle s core n { h with st := .full } gen) t c c.w fun _ => c.pc + 4) ∧
    (Ready s (.lsfence a) c → agreed (.lsfence a) c →
      ∃ t, exec (.lsfence a) s = .next t ∧
        Ends (if h.st = .filling then s
          else withoutTiles (withHandle s core n h ((gen + 1) % 2 ^ 32)) core n) t c c.w fun _ => c.pc + 4) ∧
    (Ready s (.hwait a) c → agreed (.hwait a) c → h.st ≠ .filling → mayReadWords c →
      ∃ t, exec (.hwait a) s = .next t ∧ Ends s t c (reading c [] [.handle core n] c.w) fun _ => c.pc + 4) ∧
    (∀ d, Ready s (.hgen d a) c → agreed (.hgen d a) c → mayReadWords c →
      ∃ t, exec (.hgen d a) s = .next t ∧
        Ends s t c (reading c (c.unit (d, 1)) [.handle core n] (c.owing d 1 (fun _ _ => BitVec.ofNat 32 gen) fun _ => 0))
          fun _ => c.pc + 4)) ∧
  (∀ (s : State) (c : Ctx) (d a : Reg), Ready s (.hstat d a) c → agreed (.hstat d a) c → uval c a < 64 → mayReadWords c →
    let v := match namedHandle c (uval c a) with
      | some h => (match h.st with
          | .filling => 1
          | .full => 2
          | .draining => 3) + min h.fills 255 * 2 ^ 8 + min h.refs 255 * 2 ^ 16
      | none => 0
    ∃ t, exec (.hstat d a) s = .next t ∧
      Ends s t c (reading c (c.unit (d, 1)) [.handle (4 * c.t.cluster + c.t.pos) (uval c a)]
        (c.owing d 1 (fun _ _ => BitVec.ofNat 32 v) fun _ => 0)) fun _ => c.pc + 4)

/-- R269, R273, R274, R388: a word that names no handle of the team, and a range that HALLOC does not accept, raise the
handle trap with $tval the word, or a's word; HFREE and HSEAL of a handle in use, and HWAIT of one that fills, wait. -/
def Sys2Proof.Machine.Spec.handleStopsHold : Prop :=
  ∀ (s : State) (c : Ctx) (a b d : Reg),
    (∀ i, (i = .hfree a ∨ i = .hseal a ∨ i = .hwait a ∨ i = .hgen d a ∨ i = .lsfence a) → Ready s i c → agreed i c →
      (namedHandle c (uval c a) = none →
        exec i s = .next (s.raise c.wid ⟨.handle, c.cnt, BitVec.ofNat 32 (uval c a), 0, none⟩ c.set c.pc c.word)) ∧
      (∀ h, namedHandle c (uval c a) = some h →
        (i = .hfree a ∧ (h.st = .draining ∨ (h.st = .filling ∧ h.fills ≠ 0))) ∨
        (i = .hseal a ∧ h.st = .filling ∧ h.fills ≠ 0) ∨ (i = .hwait a ∧ h.st = .filling) → exec i s = .next s.wait)) ∧
    (Ready s (.halloc d a b) c → agreed (.halloc d a b) c → ¬ allocatable c (uval c a) (uval c b) →
      exec (.halloc d a b) s = .next (s.raise c.wid ⟨.handle, c.cnt, BitVec.ofNat 32 (uval c a), 0, none⟩ c.set c.pc c.word)) ∧
    (Ready s (.hstat d a) c → agreed (.hstat d a) c → 64 ≤ uval c a →
      exec (.hstat d a) s = .next (s.raise c.wid ⟨.handle, c.cnt, BitVec.ofNat 32 (uval c a), 0, none⟩ c.set c.pc c.word))

/-- What a collective asks of its set, and the traps where it is not met. -/
def Obligations.CollectiveChecks : Prop :=
  Sys2Proof.Machine.Spec.collectiveChecksHold ∧ Sys2Proof.Machine.Spec.claimChecksHold ∧ Sys2Proof.Machine.Spec.collectiveDivergenceHold

/-- The handle instructions: effects, traps and waits. -/
def Obligations.Handles : Prop :=
  Sys2Proof.Machine.Spec.handleEffectsHold ∧ Sys2Proof.Machine.Spec.handleStopsHold

namespace Sys2Proof.Machine.Spec

/-- An inbound command's step on a handle (R270, R271): a full one fills again, under the next generation. -/
def inboundStep (s : State) (h : Nat × Nat) : State :=
  match (s.core h.1).handles.get? h.2 with
  | none => s
  | some e =>
    let gen := (s.core h.1).gen.get 0 h.2
    if e.st = .full then
      withoutTiles (withHandle s h.1 h.2 { e with st := .filling, fills := 1, auto := true } ((gen + 1) % 2 ^ 32)) h.1 h.2
    else withHandle s h.1 h.2 { e with fills := e.fills + 1, auto := true } gen

/-- An outbound command's step on a handle (R270): it drains. -/
def outboundStep (s : State) (h : Nat × Nat) : State :=
  match (s.core h.1).handles.get? h.2 with
  | none => s
  | some e =>
    withHandle s h.1 h.2 { e with st := .draining, refs := (if e.st = .full then 0 else e.refs) + 1 } ((s.core h.1).gen.get 0 h.2)

/-- The handles of a command have taken their steps. -/
def handlesStepped (p : Plan) (s : State) : State := p.outb.foldl outboundStep (p.inb.foldl inboundStep s)

/-- A void completion's way back for a handle (R279). -/
def wayBack (s s1 : State) (h : Nat × Nat) : List Undo :=
  match (s.core h.1).handles.get? h.2, (s1.core h.1).handles.get? h.2 with
  | some b, some _ => [⟨h.1, h.2, b, (s.core h.1).gen.get 0 h.2, (s1.core h.1).changes.get 0 h.2⟩]
  | _, _ => []

/-- Lines of teams lose their presence bits (R268). -/
def withAbsent (s : State) (ls : List (Nat × Nat)) : State :=
  { s with teams := ls.foldl (fun ts e => ts.upd e.1 fun t => { t with absent := t.absent ++ [e.2] }) s.teams }

/-- The next ticket of a counter (R278). -/
def nextTicket (c : Ctx) (k : Nat) : Nat := (c.t.ctr.get Ctr.init k).taken + 1

/-- The counter and the ticket a command takes. -/
def ticketOf (c : Ctx) (p : Plan) : Option (Nat × Nat) := p.ctr.map fun k => (k, nextTicket c k)

/-- The team's largest ticket on a counter moves on. -/
def withTicket (c : Ctx) (p : Plan) (s : State) : State :=
  match p.ctr with
  | none => s
  | some k => { s with teams := s.teams.upd c.w.tid fun t =>
      { t with ctr := t.ctr.set Ctr.init k { t.ctr.get Ctr.init k with taken := nextTicket c k } } }

/-- The command in the queue: held while a region is open, as one is once it has read handle words behind something
unperformed (R279, R335), its operands as captured. -/
def queued (c : Ctx) (p : Plan) (undo : List Undo) : Cmd where
  tid := c.w.tid
  wid := c.wid
  seq := c.s.seq
  owner := c.t.owner
  level := c.w.level
  kind := p.kind
  counter := ticketOf c p
  inb := p.inb
  outb := p.outb
  barriers := p.barriers
  lines := p.lines
  undo := undo
  held := (if p.inb ++ p.outb = [] then c.w.region else regionAfter c [] []).isSome
  released := false
  queued := true
  engine := none
  slots := p.slots
  slotsDone := 0
  done := []
  got := []
  outBytes := []
  flags := 0
  faults := []
  fatal := false

/-- Step 4 of R278. -/
def orderIssued (c : Ctx) (p : Plan) (s : State) : State :=
  let s1 := handlesStepped p s
  let s2 := withTicket c p (withAbsent s1 p.lines)
  { s2 with
    cmds := s2.cmds.put s.nextCid (queued c p ((p.inb ++ p.outb).flatMap (wayBack s s1)))
    nextCid := s.nextCid + 1 }

/-- Steps 2 and 3 of R278 let the command issue: handles, present lines, a free entry of the queue; and its handle waits,
loads by R327, may read (R338, R341, R393). -/
def mayOrder (c : Ctx) (p : Plan) : Prop :=
  (p.inb ++ p.outb ≠ [] → mayReadWords c) ∧
  (∀ h ∈ p.inb, ∃ e, (c.s.core h.1).handles.get? h.2 = some e ∧ e.st ≠ .draining) ∧
  (∀ h ∈ p.outb, ∃ e, (c.s.core h.1).handles.get? h.2 = some e ∧ e.st ≠ .filling) ∧
  (∀ l ∈ p.lines, ∃ t, c.s.teams.get? l.1 = some t ∧ l.2 ∉ t.absent) ∧
  c.s.queueUse (4 * c.t.cluster + c.t.pos) < 64

/-- The handles' words of R327. -/
def handleWords (hs : List (Nat × Nat)) : List Loc := hs.map fun h => .handle h.1 h.2

/-- Word k of a ticket, 0 without one. -/
def ticketWord (t : Option (Nat × Nat)) (k : Nat) : Word :=
  match t with
  | some (_, n) => pairWord (BitVec.ofNat 64 n) k
  | none => 0

/-- The issuing wave after a command: its ticket outstanding, the handles' words read as loads of them. -/
def ordering (c : Ctx) (d : Option Reg) (p : Plan) : Wave :=
  let w := match d with
    | some d => c.owing d 2 (fun _ k => ticketWord (ticketOf c p) k) fun _ => 0
    | none => c.w
  let ps := match d with
    | some d => c.unit (d, 2)
    | none => []
  if p.inb ++ p.outb = [] then w else reading c ps (handleWords (p.inb ++ p.outb)) w

/-- An instruction whose checks have passed issues the command at once or waits with no effect (R278). -/
def issuesOrder (s : State) (i : Instr) (c : Ctx) (d : Option Reg) (p : Plan) (seed : Word) : Prop :=
  (¬ mayOrder c p → exec i s = .next s.wait) ∧
  (mayOrder c p → s.readers (handleWords (p.inb ++ p.outb)) (some c.wid) = [] →
    ∃ t, exec i s = .next t ∧ Ends (orderIssued c p s) t c { ordering c d p with srseed := seed } fun _ => c.pc + 4)

/-- A barrier word that R278 accepts. -/
def barrierWordOk (c : Ctx) (v : Nat) : Prop := v = 0xFFFFFFFF ∨ (v % 8 = 0 ∧ v + 8 ≤ c.t.localBytes)

/-- The barrier a word names in a team. -/
def barrierNamed (tid v : Nat) : List (Nat × Nat) := if v = 0xFFFFFFFF then [] else [(tid, v)]

/-- A field of a word. -/
def field (v lo n : Nat) : Nat := v / 2 ^ lo % 2 ^ n

/-- The record an identifier names in the cluster's cache (R276). -/
def recordOf (c : Ctx) (id : Nat) : Option Layout :=
  if id < 64 then ((c.s.cluster c.t.cluster).recs.get? id).map (·.layout) else none

/-- The bytes of a box in the local store (R284). -/
def boxBytes (x : Tensor) (tr : Bool) : Nat :=
  x.boxes.getD 3 1 * x.boxes.getD 2 1 * x.boxes.getD (if tr then 0 else 1) 1 * x.pitch

/-- The operands of TFETCH and TSTORE (R282, R283) and the command they order. -/
def tileOrder (store : Bool) (c : Ctx) (a b : Reg) (p : Plan) : Prop :=
  ∃ (x : Tensor) (h : Handle), recordOf c (uval c a) = some (.tensor x) ∧ namedHandle c (uval c a 1) = some h ∧
    barrierWordOk c (uval c a 2) ∧
    let v := uval c a 3
    let off := field v 8 12
    let tr := v.testBit 0
    let hs := [(4 * c.t.cluster + c.t.pos, uval c a 1)]
    field v 20 12 = 0 ∧ field v 1 7 = 0 ∧ off * 128 + boxBytes x tr ≤ h.len ∧
    (tr = true → x.boxes.getD 1 1 * x.es ≤ x.pitch ∧ boxBytes x true ≤ 524288) ∧
    p = { kind := .tile store x h.base off tr ((List.range 4).map fun k => (c.reg b c.first k).toInt)
          ctr := some 0
          inb := if store then [] else hs
          outb := if store then hs else []
          barriers := barrierNamed c.w.tid (uval c a 2)
          lines := if store then [] else linesOf c.w.tid (h.base + 128 * off) (boxBytes x tr) }

/-- The one team of a gang at a position (R13). -/
def gangAt (s : State) (lid gang pos : Nat) (e : Nat × Team) : Prop :=
  let at_ (x : Nat × Team) : Prop := x.2.lid = lid ∧ x.2.gang = gang ∧ x.2.pos = pos
  e ∈ s.teams ∧ at_ e ∧ ∀ x ∈ s.teams, at_ x → x = e

/-- The operands of TMCAST (R285), with the targets' teams and handles in the order of their core positions. -/
def castOrder (c : Ctx) (a : Reg) (p : Plan) : Prop :=
  ∃ (h : Handle) (to_ : List (Nat × Team × Handle)), namedHandle c (uval c a) = some h ∧ barrierWordOk c (uval c a 2) ∧
    let i := uval c a 1
    let m := uval c a 3
    m < 16 ∧ i < 64 ∧ ¬ (m.testBit c.t.pos = true ∧ i = uval c a) ∧
    to_.map (·.2.1.pos) = (List.range 4).filter (m.testBit ·) ∧
    (∀ e ∈ to_, gangAt c.s c.t.lid c.t.gang e.2.1.pos (e.1, e.2.1) ∧
      (c.s.core (4 * e.2.1.cluster + e.2.1.pos)).handles.get? i = some e.2.2 ∧ e.2.2.tid = e.1 ∧ h.len ≤ e.2.2.len) ∧
    p = { kind := .mcast h.base h.len (to_.map fun e => (e.1, e.2.2.base))
          ctr := some 0
          inb := to_.map fun e => (4 * e.2.1.cluster + e.2.1.pos, i)
          outb := [(4 * c.t.cluster + c.t.pos, uval c a)]
          barriers := to_.flatMap fun e => barrierNamed e.1 (uval c a 2)
          lines := to_.flatMap fun e => linesOf e.1 e.2.2.base h.len }

/-- The operands of BCOPY (R286). -/
def copyOrder (c : Ctx) (a b : Reg) (p : Plan) : Prop :=
  let mode := uval c a
  let dir := field mode 0 2
  let off := field mode 8 12
  let len := uval c a 3
  let src := (c.regW b c.first).toNat
  let dst := (c.regW b c.first 2).toNat
  let global (x : Nat) : Prop := x < 2 ^ 57 ∧ x % 4 = 0
  let hs := [(4 * c.t.cluster + c.t.pos, uval c a 1)]
  dir ≠ 3 ∧ mode < 2 ^ 20 ∧ field mode 2 6 = 0 ∧ len % 4 = 0 ∧ 4 ≤ len ∧ len ≤ 2 ^ 31 ∧ barrierWordOk c (uval c a 2) ∧
  (dir ≠ 2 → global src) ∧ (dir ≠ 1 → global dst) ∧
  ((dir = 0 ∧ uval c a 1 = 0 ∧
      p = { kind := .bcopy 0 ((namedHandle c 0).elim 0 (·.base)) off len src dst
            ctr := some 2
            barriers := barrierNamed c.w.tid (uval c a 2) }) ∨
    ∃ h, namedHandle c (uval c a 1) = some h ∧ off * 128 + len ≤ h.len ∧
      ((dir = 1 ∧ p = { kind := .bcopy 1 h.base off len src dst
                        ctr := some 2
                        inb := hs
                        barriers := barrierNamed c.w.tid (uval c a 2)
                        lines := linesOf c.w.tid (h.base + 128 * off) len }) ∨
        (dir = 2 ∧ p = { kind := .bcopy 2 h.base off len src dst
                         ctr := some 2
                         outb := hs
                         barriers := barrierNamed c.w.tid (uval c a 2) })))

/-- A multicast without a target is complete at its issue (R285): its source, core `k` and index `i` with entry `e`, drains as
before, its ticket is taken and complete. -/
def castDone (c : Ctx) (p : Plan) (k i : Nat) (e : Handle) (s : State) : State :=
  let gen := (s.core k).gen.get 0 i
  let refs := if e.st = .full then 0 else e.refs
  let s1 := outboundStep s (k, i)
  let s2 := withTicket c p (withHandle s1 k i { e with st := if refs = 0 then .full else .draining, refs := refs } gen)
  { s2 with
    teams := s2.teams.upd c.w.tid fun t => { t with ctr := t.ctr.set Ctr.init 0 ((t.ctr.get Ctr.init 0).complete (nextTicket c 0)) }
    nextCid := s.nextCid + 1 }

end Sys2Proof.Machine.Spec

/-- R268, R270, R277 to R279, R282 to R286, R326, R338: TFETCH, TSTORE, TMCAST and BCOPY with legal operands issue their command
when its handles admit it, its lines are present and the core's command queue has room, and else wait: handles step,
presence bits clear, the next ticket of the team's counter is taken and outstanding in d, and the command, held while a
region is open, is queued with its operands; a TMCAST without a target that no region holds is complete at once. What counts in the queue is log entry 24, and that the handle waits read as loads do is log
entry 68. (Here with no other wave's region having read one of the handles.) -/
def Sys2Proof.Machine.Spec.engineCommandsHold : Prop :=
  ∀ (s : State) (c : Ctx) (d a b : Reg) (p : Plan),
    (Ready s (.tfetch d a b) c → agreed (.tfetch d a b) c → tileOrder false c a b p →
      issuesOrder s (.tfetch d a b) c (some d) p c.w.srseed) ∧
    (Ready s (.tstore d a b) c → agreed (.tstore d a b) c → tileOrder true c a b p →
      issuesOrder s (.tstore d a b) c (some d) p c.w.srseed) ∧
    (Ready s (.tmcast d a) c → agreed (.tmcast d a) c → castOrder c a p →
      (∀ e ∈ s.cmds, e.1 < s.nextCid ∧ ∀ h n, e.2.kind = .mcast h n [] → e.2.held = true) →
      ((queued c p []).held = true ∨ uval c a 3 ≠ 0 → issuesOrder s (.tmcast d a) c (some d) p c.w.srseed) ∧
      (¬ mayOrder c p → exec (.tmcast d a) s = .next s.wait) ∧
      ∀ e, (queued c p []).held = false → uval c a 3 = 0 → mayOrder c p → namedHandle c (uval c a) = some e →
        s.readers (.ctr c.w.tid 0 :: handleWords p.outb) (some c.wid) = [] →
        ∃ t, exec (.tmcast d a) s = .next t ∧
          Ends (castDone c p (4 * c.t.cluster + c.t.pos) (uval c a) e s) t c (ordering c (some d) p) fun _ => c.pc + 4) ∧
    (Ready s (.bcopy d a b) c → agreed (.bcopy d a b) c → copyOrder c a b p →
      issuesOrder s (.bcopy d a b) c (some d) p c.w.srseed)

/-- R269, R278, R282, R285, R286, R388: of TFETCH, TSTORE, TMCAST and BCOPY, a word that names no handle of the team raises the
handle trap with $tval the word; else operands that the command does not accept raise the engine operand trap: reserved bits,
a barrier word R278 does not accept, a record, footprint, length or address. TMCAST's barrier word belongs to its first check
by log entry 25. -/
def Sys2Proof.Machine.Spec.engineTrapsHold : Prop :=
  ∀ (s : State) (i : Instr) (c : Ctx) (d a b : Reg),
    (i = .tfetch d a b ∨ i = .tstore d a b ∨ i = .tmcast d a ∨ i = .bcopy d a b) → Ready s i c → agreed i c →
    let v := if i = .tmcast d a then uval c a else uval c a 1
    let needed := i = .bcopy d a b → field (uval c a) 0 2 = 1 ∨ field (uval c a) 0 2 = 2
    let reserved := (i = .tmcast d a ∧ 16 ≤ uval c a 3) ∨
      ((i = .tfetch d a b ∨ i = .tstore d a b) ∧ (field (uval c a 3) 20 12 ≠ 0 ∨ field (uval c a 3) 1 7 ≠ 0)) ∨
      (i = .bcopy d a b ∧ (2 ^ 20 ≤ uval c a ∨ field (uval c a) 2 6 ≠ 0 ∨ field (uval c a) 0 2 = 3))
    (needed → namedHandle c v = none →
      exec i s = .next (s.raise c.wid ⟨.handle, c.cnt, BitVec.ofNat 32 v, 0, none⟩ c.set c.pc c.word)) ∧
    ((needed → (namedHandle c v).isSome = true) → reserved ∨ ¬ barrierWordOk c (uval c a 2) →
      exec i s = .next (s.raise c.wid ⟨.engineOperand, c.cnt, 0, 0, none⟩ c.set c.pc c.word)) ∧
    ((needed → (namedHandle c v).isSome = true) →
      (i = .tfetch d a b ∧ ∀ p, ¬ tileOrder false c a b p) ∨ (i = .tstore d a b ∧ ∀ p, ¬ tileOrder true c a b p) ∨
        (i = .bcopy d a b ∧ ∀ p, ¬ copyOrder c a b p) ∨
        (i = .tmcast d a ∧ (64 ≤ uval c a 1 ∨ ((uval c a 3).testBit c.t.pos = true ∧ uval c a 1 = uval c a))) →
      exec i s = .next (s.raise c.wid ⟨.engineOperand, c.cnt, 0, 0, none⟩ c.set c.pc c.word))

/-- R269, R285, R388: TMCAST, where its own operands are legal. A mask bit for a position without a team of the gang raises the
multicast-target trap, with $tval the mask. Then the wave waits while a target has not allocated the index, and a target's
handle shorter than the source raises the handle trap, with $tval the index. -/
def Sys2Proof.Machine.Spec.castTargetsHold : Prop :=
  ∀ (s : State) (c : Ctx) (d a : Reg) (h : Handle), Ready s (.tmcast d a) c → agreed (.tmcast d a) c →
    namedHandle c (uval c a) = some h → barrierWordOk c (uval c a 2) →
    let i := uval c a 1
    let m := uval c a 3
    m < 16 → i < 64 → ¬ (m.testBit c.t.pos = true ∧ i = uval c a) →
    let handleAt (e : Nat × Team) : Option Handle :=
      ((c.s.core (4 * e.2.cluster + e.2.pos)).handles.get? i).filter fun x => x.tid = e.1
    ((∃ p, p < 4 ∧ m.testBit p = true ∧ ∀ e ∈ s.teams, ¬ (e.2.lid = c.t.lid ∧ e.2.gang = c.t.gang ∧ e.2.pos = p)) →
      exec (.tmcast d a) s = .next (s.raise c.wid ⟨.multicast, c.cnt, BitVec.ofNat 32 m, 0, none⟩ c.set c.pc c.word)) ∧
    ∀ to_ : List (Nat × Team), to_.map (·.2.pos) = (List.range 4).filter (m.testBit ·) →
      (∀ e ∈ to_, gangAt c.s c.t.lid c.t.gang e.2.pos e) →
      ((∃ e ∈ to_, handleAt e = none) → exec (.tmcast d a) s = .next s.wait) ∧
      ((∀ e ∈ to_, (handleAt e).isSome = true) → (∃ e ∈ to_, ∃ x, handleAt e = some x ∧ x.len < h.len) →
        exec (.tmcast d a) s = .next (s.raise c.wid ⟨.handle, c.cnt, BitVec.ofNat 32 i, 0, none⟩ c.set c.pc c.word))

/-- The data-movement commands: what their issue does and where it traps. -/
def Obligations.EngineOrders : Prop :=
  Sys2Proof.Machine.Spec.engineCommandsHold ∧ Sys2Proof.Machine.Spec.engineTrapsHold ∧ Sys2Proof.Machine.Spec.castTargetsHold

namespace Sys2Proof.Machine.Spec

/-- A half of the format word that the array accepts (R139, R140, R289). -/
def arrayHalfOk (f : Nat) : Prop :=
  f < 2 ^ 14 ∧ field f 8 4 = 0 ∧
  (((f % 16 = 1 ∨ f % 16 = 2 ∨ f % 16 = 5) ∧ field f 4 4 = 0 ∧ field f 12 2 = 0) ∨ (f % 16 = 3 ∧ field f 4 3 ≠ 0))

/-- Two halves the array accepts together (R289): one width, integers with integers. -/
def arrayFormatsOk (fa fb : Nat) : Prop :=
  arrayHalfOk fa ∧ arrayHalfOk fb ∧ (fa % 16 < 3 ↔ fb % 16 < 3) ∧ (fa % 16 = 5 ↔ fb % 16 = 5)

/-- The footprint of an operand tile (R290). -/
def footprintOf (f : Nat) : Nat := 32768 + if field f 12 2 = 0 then 0 else 128 * 256 / (8 * 2 ^ field f 12 2)

/-- The physical bank of a team number (R292). -/
def bankNamed (c : Ctx) (k : Nat) : Option Nat := if k < 8 then c.t.bankMap.get? k else none

/-- The operands of MMA and MLOOP (R289, R290, R298, R299): placement word, increment word, steps. -/
def matrixOrder (c : Ctx) (a : Reg) (place incs n : Nat) (p : Plan) : Prop :=
  ∃ (ha hb : Handle) (bank : Nat), namedHandle c (uval c a 1) = some ha ∧ namedHandle c (uval c a 2) = some hb ∧
    bankNamed c (uval c a) = some bank ∧
    let core := 4 * c.t.cluster + c.t.pos
    let i := uval c a 1
    let j := uval c a 2
    let fa := uval c a 3 % 2 ^ 16
    let fb := uval c a 3 / 2 ^ 16
    let gen (k : Nat) : Nat := (c.s.core core).gen.get 0 k
    arrayFormatsOk fa fb ∧ field place 12 4 = 0 ∧ field place 28 4 = 0 ∧ field incs 12 4 = 0 ∧ field incs 28 4 = 0 ∧
    1 ≤ n ∧ n ≤ 4096 ∧
    (field place 0 12 + (n - 1) * field incs 0 12) * 128 + footprintOf fa ≤ ha.len ∧
    (field place 16 12 + (n - 1) * field incs 16 12) * 128 + footprintOf fb ≤ hb.len ∧
    p = { kind := .mma bank ⟨i, gen i, ha.base, 128 * field place 0 12, 128 * field incs 0 12, fa⟩
            ⟨j, gen j, hb.base, 128 * field place 16 12, 128 * field incs 16 12, fb⟩ n
          ctr := some 1
          outb := if i = j then [(core, i)] else [(core, i), (core, j)]
          slots := n }

/-- The output footprint of MDRAIN (R301). -/
def drainFootprint (y : Half) : Nat :=
  16384 * (y.kind.bits / 8) + if y.blk = 0 then 0 else 16384 / (8 * 2 ^ y.blk)

/-- The operands of MDRAIN (R300), with its destination format. -/
def drainOrder (c : Ctx) (a b : Reg) (y : Half) (p : Plan) : Prop :=
  let ctl := uval c a
  let place := uval c b
  let fmt := uval c a 3
  let core := 4 * c.t.cluster + c.t.pos
  let seed : Word := if y.rm = .stoch then seedStep c.w.srseed else c.w.srseed
  ∃ (h : Handle) (bank : Nat), namedHandle c (uval c a 1) = some h ∧ bankNamed c (ctl % 8) = some bank ∧
    (fmt % 2 ^ 16 = 0 ∨ fmt % 2 ^ 16 = 8) ∧ Half.ofBits (fmt / 2 ^ 16) = some y ∧
    field ctl 13 19 = 0 ∧ field ctl 3 6 = 0 ∧ field place 12 4 = 0 ∧ field place 28 4 = 0 ∧
    field place 0 12 * 128 + drainFootprint y ≤ h.len ∧
    ((uval c a 2 = 0xFFFFFFFF ∧ field ctl 9 2 = 0 ∧
        p = { kind := .mdrain bank ctl (h.base + 128 * field place 0 12) (128 * field place 16 12) fmt seed.toNat
              ctr := some 1
              inb := [(core, uval c a 1)]
              lines := linesOf c.w.tid (h.base + 128 * field place 0 12) (drainFootprint y)
              slots := 1 }) ∨
      ∃ e, namedHandle c (uval c a 2) = some e ∧ field ctl 9 2 ≠ 0 ∧ uval c a 2 ≠ uval c a 1 ∧
        field place 16 12 * 128 + 1024 ≤ e.len ∧
        p = { kind := .mdrain bank ctl (h.base + 128 * field place 0 12) (e.base + 128 * field place 16 12) fmt seed.toNat
              ctr := some 1
              inb := [(core, uval c a 1)]
              outb := [(core, uval c a 2)]
              lines := linesOf c.w.tid (h.base + 128 * field place 0 12) (drainFootprint y)
              slots := 1 })

/-- The lowest n of the numbers below a bound that are free. -/
def lowestFree (n bound : Nat) (free : Nat → Bool) (ks : List Nat) : Prop :=
  ks = ((List.range bound).filter free).take n ∧ ks.length = n

/-- A cluster with a change of its banks. -/
def withBanks (s : State) (x : Nat) (banks : Tbl Bank) : State := s.updCluster x fun k => { k with banks := banks }

/-- The bytes of an operand tile at a step: each as it stands, or as the operand cache holds it (R306). -/
def tileReads (s : State) (x : Nat) (t : Team) (k : Nat) (a : TileArg) (v : Nat → Nat) : Prop :=
  ∀ o, let now := t.lsByte (a.base + (a.off + k * a.inc) + o)
    v o = now.toNat ∨ ∃ e ∈ (s.cluster x).opCache,
      e.key = ⟨4 * t.cluster + t.pos, a.handle, a.gen, a.off + k * a.inc⟩ ∧ v o = (e.bytes.getD o now).toNat

/-- The team that the array of a cluster takes (R304): of the highest class with a ready team, the first after the class's
pointer. -/
def servedNext (s : State) (x : Nat) (r : Nat × Nat × Nat × Cmd) : Prop :=
  let after (n : Nat) : Nat := (n + 63 - (s.cluster x).ptr.get 0 r.1 % 64) % 64
  r ∈ s.readyTeams x ∧ ∀ q ∈ s.readyTeams x, r.1 ≤ q.1 ∧ (q.1 = r.1 → q = r ∨ after r.2.1 < after q.2.1)

/-- What a slot leaves beside its command and the cluster's bank, operand cache and pointer: everything. -/
structure OnlySlot (s t : State) (x cid bank : Nat) (r : Nat × Nat) (f : Cmd → Cmd) : Prop where
  rest : t = { s with clusters := t.clusters, cmds := s.cmds.upd cid f }
  others : ∀ k, k ≠ x → t.cluster k = s.cluster k
  cluster : t.cluster x =
    { s.cluster x with ptr := (s.cluster x).ptr.set 0 r.1 r.2, banks := (t.cluster x).banks, opCache := (t.cluster x).opCache }
  banks : ∀ k, k ≠ bank → (t.cluster x).banks.get? k = (s.cluster x).banks.get? k

/-- A word of a bank. -/
def bankWord (s : State) (x p i : Nat) : Word := (((s.cluster x).banks.get? p).map fun b => b.words.get 0 i).getD 0

end Sys2Proof.Machine.Spec

/-- R278, R289, R290, R296 to R301: MZERO, MMA, MLOOP and MDRAIN with legal operands issue their command for the physical bank
of the team's number, as R278 says; MMA, MLOOP and MDRAIN take a ticket of the array counter; MDRAIN steps the generator
when its destination rounds stochastically. What counts in the command queue is log entry 24. -/
def Sys2Proof.Machine.Spec.matrixCommandsHold : Prop :=
  ∀ (s : State) (c : Ctx) (d a b : Reg) (p : Plan),
    (∀ bank, Ready s (.mzero a) c → agreed (.mzero a) c → bankNamed c (uval c a) = some bank →
      p = { kind := .mzero bank, ctr := none, slots := 1 } → issuesOrder s (.mzero a) c none p c.w.srseed) ∧
    (Ready s (.mma d a b) c → agreed (.mma d a b) c → matrixOrder c a (uval c b) 0 1 p →
      issuesOrder s (.mma d a b) c (some d) p c.w.srseed) ∧
    (Ready s (.mloop d a b) c → agreed (.mloop d a b) c → uval c b 3 = 0 →
      matrixOrder c a (uval c b) (uval c b 1) (uval c b 2) p → issuesOrder s (.mloop d a b) c (some d) p c.w.srseed) ∧
    (∀ y, Ready s (.mdrain d a b) c → agreed (.mdrain d a b) c → drainOrder c a b y p →
      issuesOrder s (.mdrain d a b) c (some d) p (if y.rm = .stoch then seedStep c.w.srseed else c.w.srseed))

/-- R295 to R301, R140, R269, R388: the issue checks of the matrix commands in their order. Of MMA, MLOOP and MDRAIN a word that
names no handle of the team raises the handle trap with $tval the word. Of these and MZERO a number that is not claimed raises
the bank trap with $tval the number (log entry 33, the model's choice). Then a half of the format word that fails raises the
format trap with $tval the half, and operands the command does not accept the engine operand trap. -/
def Sys2Proof.Machine.Spec.matrixTrapsHold : Prop :=
  (∀ (s : State) (c : Ctx) (a : Reg), Ready s (.mzero a) c → agreed (.mzero a) c → bankNamed c (uval c a) = none →
    exec (.mzero a) s = .next (s.raise c.wid ⟨.bank, c.cnt, BitVec.ofNat 32 (uval c a), 0, none⟩ c.set c.pc c.word)) ∧
  ∀ (s : State) (i : Instr) (c : Ctx) (d a b : Reg), (i = .mma d a b ∨ i = .mloop d a b ∨ i = .mdrain d a b) →
    Ready s i c → agreed i c →
    let trap (x : Cause) (v : Nat) : Prop :=
      exec i s = .next (s.raise c.wid ⟨x, c.cnt, BitVec.ofNat 32 v, 0, none⟩ c.set c.pc c.word)
    let drains := i = .mdrain d a b
    let two := drains → uval c a 2 ≠ 0xFFFFFFFF
    let bank := if i = .mdrain d a b then uval c a % 8 else uval c a
    let named (k : Nat) : Prop := (namedHandle c (uval c a k)).isSome = true
    let held := named 1 ∧ (two → named 2) ∧ (bankNamed c bank).isSome = true
    let lo := uval c a 3 % 2 ^ 16
    let hi := uval c a 3 / 2 ^ 16
    let loOk := if i = .mdrain d a b then lo = 0 ∨ lo = 8 else arrayHalfOk lo
    let hiOk := if i = .mdrain d a b then (Half.ofBits hi).isSome = true else arrayFormatsOk lo hi
    (¬ named 1 → trap .handle (uval c a 1)) ∧
    (named 1 → two → ¬ named 2 → trap .handle (uval c a 2)) ∧
    (named 1 → (two → named 2) → bankNamed c bank = none → trap .bank bank) ∧
    (held → ¬ loOk → trap .format lo) ∧
    (held → loOk → ¬ hiOk → trap .format hi) ∧
    (held → loOk → hiOk →
      (i = .mma d a b ∧ ∀ p, ¬ matrixOrder c a (uval c b) 0 1 p) ∨
      (i = .mloop d a b ∧ ∀ p, ¬ (uval c b 3 = 0 ∧ matrixOrder c a (uval c b) (uval c b 1) (uval c b 2) p)) ∨
      (drains ∧ ∀ y p, ¬ drainOrder c a b y p) → trap .engineOperand 0)

/-- R292 to R294, R388: ABCLAIM enters the cluster's order of claims and waits; ABCLAIM_GRANT maps the oldest claim's lowest
unclaimed numbers to the lowest-numbered free banks, which read zero, and the mask of the numbers is outstanding in d;
ABREL unmaps numbers, whose banks are unsettled until BANK_SETTLE clears and frees them once the team's earlier array
commands on them are done. Numbers out of range or not claimed raise the bank trap. The unclaimed numbers are those below
BANKS (log entry 32), and a bank trap's $tval is log entry 33. -/
def Obligations.BankClaims : Prop :=
  (∀ (s : State) (c : Ctx) (d a : Reg), Ready s (.abclaim d a) c → agreed (.abclaim d a) c → c.w.region = none →
    let n := uval c a
    (n < 1 ∨ 8 < n ∨ c.t.banks < c.t.bankMap.length + n →
      exec (.abclaim d a) s = .next (s.raise c.wid ⟨.bank, c.cnt, BitVec.ofNat 32 n, 0, none⟩ c.set c.pc c.word)) ∧
    (1 ≤ n → n ≤ 8 → c.t.bankMap.length + n ≤ c.t.banks →
      exec (.abclaim d a) s = .next { s.updCluster c.t.cluster (fun k => { k with abq := k.abq ++ [(c.wid, n)] }) with
        waves := s.waves.put c.wid { c.w with claiming := some c.word, waiting := some s.cur.set } })) ∧
  (∀ (s : State) (x wid n tid : Nat) (rest : List (Nat × Nat)) (w : Wave) (m : Team) (word : Word) (set : Mask) (ks ps : List Nat),
    s.ev.x = x → (s.cluster x).abq = (wid, n) :: rest → tid = wid / 16 → s.teams.get? tid = some m → s.failed m.lid = false →
    s.waves.get? wid = some w → w.tid = tid → w.claiming = some word → w.waiting = some set → w.region = none →
    lowestFree n m.banks (fun k => (m.bankMap.get? k).isNone) ks →
    lowestFree n 8 (fun k => ((s.cluster x).banks.get? k).isNone) ps →
    let pc := pcOfLane w.pcs (lowestLane set)
    let c : Ctx := ⟨s, wid, w, m, set &&& w.live, pc, word⟩
    let mask := (ks.map (2 ^ ·)).sum
    let sB := { s.updCluster x (fun k => { k with
        abq := rest, banks := ps.foldl (fun b p => b.put p ⟨.mapped, []⟩) k.banks }) with
      teams := s.teams.upd tid fun m => { m with bankMap := (ks.zip ps).foldl (fun b e => b.put e.1 e.2) m.bankMap }
      cur := ⟨wid, set, pc, word⟩ }
    ∃ t, exec .abclaimGrant s = .next t ∧
      Ends sB t c { c.owing (regOf (field word.toNat 14 7)) 1 (fun _ _ => BitVec.ofNat 32 mask) (fun _ => 0) with
        claiming := none } fun _ => pc + 4) ∧
  (∀ (s : State) (c : Ctx) (a : Reg), Ready s (.abrel a) c → agreed (.abrel a) c →
    let v := uval c a
    let named (k : Nat) : Prop := k < 8 ∧ v.testBit k = true
    (2 ^ 8 ≤ v ∨ (∃ k, named k ∧ c.t.bankMap.get? k = none) →
      exec (.abrel a) s = .next (s.raise c.wid ⟨.bank, c.cnt, BitVec.ofNat 32 v, 0, none⟩ c.set c.pc c.word)) ∧
    (v < 2 ^ 8 → (∀ k, named k → (c.t.bankMap.get? k).isSome = true) →
      ∃ banks,
        (∀ p, (∃ k, named k ∧ c.t.bankMap.get? k = some p) →
          banks.get? p = ((s.cluster c.t.cluster).banks.get? p).map fun b => { b with st := .unsettled s.seq c.w.tid }) ∧
        (∀ p, (¬ ∃ k, named k ∧ c.t.bankMap.get? k = some p) → banks.get? p = (s.cluster c.t.cluster).banks.get? p) ∧
        ∃ t, exec (.abrel a) s = .next t ∧
          Ends { withBanks s c.t.cluster banks with
            teams := s.teams.upd c.w.tid fun m => { m with bankMap := m.bankMap.filter fun e => !v.testBit e.1 } }
            t c c.w fun _ => c.pc + 4)) ∧
  (∀ (s : State) (x y seq tid : Nat) (b : Bank), s.ev.x = x → s.ev.y = y → (s.cluster x).banks.get? y = some b →
    b.st = .unsettled seq tid → (∀ e ∈ s.cmds, e.2.tid = tid → e.2.kind.bank? = some y → seq ≤ e.2.seq) →
    exec .bankSettle s = .next (withBanks s x ((s.cluster x).banks.del y)))

namespace Sys2Proof.Machine.Spec

/-- A word is an exact value rounded once to FP32 with RNE; `minus` says when an exact zero is −0 (R141). -/
def exactly (q : ℚ) (minus : Prop) (z : Word) : Prop :=
  ∃ n m, 0 < m.d ∧ ratOf n m = q ∧ (q = 0 → (n = true ↔ minus)) ∧ z = rne32 (.fin n m)

/-- The canonical FP32 NaN (R143) and the infinities. -/
def nan32 : Word := 0x7FC00000
@[inherit_doc nan32] def inf32 (neg : Bool) : Word := if neg then 0xFF800000 else 0x7F800000

/-- round(fp32, rne, x + y) (R141): exact where both are finite, NaN beside a NaN or for infinities of two signs, else the
infinity. -/
def sumOf (x y z : Word) : Prop :=
  (∀ n m k l, f32 x = .fin n m → f32 y = .fin k l → exactly (ratOf n m + ratOf k l) (n = true ∧ k = true) z) ∧
  ((f32 x).isNan = true ∨ (f32 y).isNan = true ∨ (∃ n, f32 x = .inf n ∧ f32 y = .inf (!n)) → z = nan32) ∧
  ∀ n, (f32 x = .inf n ∧ ((∃ k l, f32 y = .fin k l) ∨ f32 y = .inf n)) ∨ ((∃ k l, f32 x = .fin k l) ∧ f32 y = .inf n) →
    z = inf32 n

/-- An infinity times zero. -/
def infTimesZero (x y : Num) : Prop := (x.isInf = true ∧ y.isZero = true) ∨ (x.isZero = true ∧ y.isInf = true)

/-- The scale code of the block of a row or column m that holds k (R290). -/
def scaleCode (t : TileView) (m k : Nat) : Nat :=
  let bs := 8 * 2 ^ t.half.blk
  t.byte (32768 + m * (256 / bs) + k / bs)

/-- The scale of a block as a rational number: 1 in an unscaled tile (R150, R290). -/
def scaleIs (t : TileView) (m k : Nat) (q : ℚ) : Prop :=
  (t.half.blk = 0 ∧ q = 1) ∨
    (t.half.blk ≠ 0 ∧ scaleCode t m k < 0xFF ∧ q = if scaleCode t m k = 0 then 0 else 2 ^ ((scaleCode t m k : ℤ) - 128))

/-- A scale of the block is a NaN (R150). -/
def scaleNan (t : TileView) (m k : Nat) : Prop := t.half.blk ≠ 0 ∧ scaleCode t m k = 0xFF

/-- Element k of a tile's row or column m: its bytes, little-endian, in the tile's format (R288). -/
def tileElem (t : TileView) (m k : Nat) : Num :=
  t.half.kind.decode (if t.half.kind.bits = 16 then t.byte (256 * m + 2 * k) + 256 * t.byte (256 * m + 2 * k + 1)
    else t.byte (256 * m + k))

end Sys2Proof.Machine.Spec

open Sys2Proof Sys2Proof.Machine Sys2Proof.Machine.Spec

/-- R154, R288, R290, R291, R301: the array's arithmetic. In a step on floating-point tiles of finite elements the groups of 8
are summed exactly, scaled, rounded once and added in increasing k, each sum rounded. A NaN bank word, element or scale, or an
infinity times zero, makes the word the canonical NaN. In the epilogue of MDRAIN the scale's product and the bias's sum are
rounded once each, RELU clamps negative values and −0 at +0 and leaves a NaN, and without them the word's value passes. -/
def Sys2Proof.Machine.Spec.arrayArithmeticHold : Prop :=
  (∀ (a b : TileView) (m n : Nat) (old : Word), a.half.kind ≠ .int8 → b.half.kind ≠ .int8 →
    (a.half.kind.bits = 8 ∨ a.half.kind.bits = 16) → b.half.kind.bits = a.half.kind.bits →
    let groups := 32 / (a.half.kind.bits / 8)
    (∀ (sa sb : Nat → ℚ) (xn yn : Nat → Bool) (x y : Nat → Mag), (∀ g, g < groups → scaleIs a m (8 * g) (sa g) ∧ scaleIs b n (8 * g) (sb g)) →
      (∀ k, k < 8 * groups → tileElem a m k = .fin (xn k) (x k) ∧ tileElem b n k = .fin (yn k) (y k)) →
      let product (k : Nat) : ℚ := ratOf (xn k) (x k) * ratOf (yn k) (y k)
      ∃ r c : Nat → Word, c 0 = old ∧ stepWord a b m n old = c groups ∧ ∀ g, g < groups →
        exactly (((List.range 8).map fun k => product (8 * g + k)).sum * sa g * sb g)
          (∀ k, k < 8 → product (8 * g + k) = 0 ∧ xn (8 * g + k) ≠ yn (8 * g + k)) (r g) ∧
        sumOf (c g) (r g) (c (g + 1))) ∧
    ((f32 old).isNan = true ∨ (∃ k, k < 8 * groups ∧ ((tileElem a m k).isNan = true ∨ (tileElem b n k).isNan = true ∨
        infTimesZero (tileElem a m k) (tileElem b n k))) ∨ (∃ g, g < groups ∧ (scaleNan a m (8 * g) ∨ scaleNan b n (8 * g))) →
      stepWord a b m n old = nan32)) ∧
  (∀ (ctl : Nat) (int : Bool) (scale bias word : Word),
    let v : Num := (epilogue ctl int scale bias word).1
    let relu (z : Num) : Num := if ctl.testBit 11 = true ∧ z.isNeg = true then .zero else z
    let x : Num := if int then .fin (decide (word.toInt < 0)) ⟨word.toInt.natAbs, 1⟩ else f32 word
    ∃ y z : Num, v = relu z ∧ (ctl.testBit 9 = false → y = x) ∧ (ctl.testBit 10 = false → z = y) ∧
      (ctl.testBit 9 = true → ∀ n m k l, x = .fin n m → f32 scale = .fin k l →
        ∃ w, y = f32 w ∧ exactly (ratOf n m * ratOf k l) (n ≠ k) w) ∧
      (ctl.testBit 10 = true → ∀ n m k l, y = .fin n m → f32 bias = .fin k l →
        ∃ w, z = f32 w ∧ exactly (ratOf n m + ratOf k l) (n = true ∧ k = true) w) ∧
      (x.isNan = true → v.isNan = true))

/-- R288, R291, R297, R301 to R306: ARRAY_SLOT_START runs the next slot of the team that R304 chooses. A slot of MZERO clears
its bank; a step of MMA or MLOOP adds its products to every word, the words of INT8 tiles exactly modulo 2^32; the slot
of an MDRAIN to an unscaled format forms the 16,384 outputs and clears the bank under ZERO; one to a scaled format forms, block
by block, the elements and the block's scale code of R151, of values taken in FP32 (`isScale`). No byte of memory changes. Where the
rotation of R304 begins, that a slot is one act, and which operand bytes the cache holds are the model's: log entries 26, 54, 55. -/
def Sys2Proof.Machine.Spec.arraySlotsHold : Prop :=
  (∀ (s : State) (x : Nat) (r : Nat × Nat × Nat × Cmd) (m : Team), s.ev.x = x → s.withheld = none → servedNext s x r →
    s.teams.get? r.2.2.2.tid = some m →
    let cmd := r.2.2.2
    (∀ p, cmd.kind = .mzero p → ∃ t, exec .arraySlotStart s = .next t ∧ SameBytes s t ∧
      OnlySlot s t x r.2.2.1 p (r.1, r.2.1) (fun k => { k with slotsDone := k.slotsDone + 1 }) ∧
      ∀ i, bankWord t x p i = 0) ∧
    (∀ p a b n, cmd.kind = .mma p a b n → ((s.cluster x).banks.get? p).isSome = true →
      ∃ (t : State) (va vb : Nat → Nat), exec .arraySlotStart s = .next t ∧ SameBytes s t ∧
        OnlySlot s t x r.2.2.1 p (r.1, r.2.1) (fun k => { k with slotsDone := k.slotsDone + 1 }) ∧
        tileReads s x m cmd.slotsDone a va ∧ tileReads s x m cmd.slotsDone b vb ∧
        ∀ i j, i < 128 → j < 128 →
          bankWord t x p (128 * i + j) = stepWord ⟨a.half, va⟩ ⟨b.half, vb⟩ i j (bankWord s x p (128 * i + j))) ∧
    (∀ p ctl out epi fmt seed y, cmd.kind = .mdrain p ctl out epi fmt seed → Half.ofBits (fmt / 2 ^ 16) = some y → y.blk = 0 →
      let val (i : Nat) : Machine.Num × FpFlags := epilogue ctl (fmt % 2 ^ 16 == 8) (m.lsWord (epi + 4 * (i % 128)))
        (m.lsWord (epi + 512 + 4 * (i % 128))) (bankWord s x p i)
      let coded (i : Nat) : Coded := y.kind.round y.sat y.rm (stochBits (BitVec.ofNat 32 seed) (i / 128) (i % 128)) (val i).1
      let es := y.kind.bits / 8
      ∃ t, exec .arraySlotStart s = .next t ∧ SameBytes s t ∧
        OnlySlot s t x r.2.2.1 p (r.1, r.2.1) (fun k => { k with
          slotsDone := k.slotsDone + 1
          outBytes := (List.range 16384).map fun i => (out + i * es, leBytes es (coded i).code)
          flags := ((List.range 16384).foldl (fun (f : FpFlags) i => (f.or (val i).2).or (coded i).flags) {}).word }) ∧
        ∀ i, bankWord t x p i = if ctl.testBit 12 then 0 else bankWord s x p i) ∧
    (∀ p ctl out epi fmt seed y, cmd.kind = .mdrain p ctl out epi fmt seed → Half.ofBits (fmt / 2 ^ 16) = some y → y.blk ≠ 0 →
      let val (i : Nat) : Machine.Num × FpFlags := epilogue ctl (fmt % 2 ^ 16 == 8) (m.lsWord (epi + 4 * (i % 128)))
        (m.lsWord (epi + 512 + 4 * (i % 128))) (bankWord s x p i)
      let in32 (i : Nat) : Machine.Num × FpFlags := if fmt % 2 ^ 16 = 8
        then (f32 (round32 .rne false 0 (val i).1 false).1, (val i).2.or (round32 .rne false 0 (val i).1 false).2) else val i
      let bs := 8 * 2 ^ y.blk
      let block (j : Nat) : List Machine.Num := (List.range bs).map fun i => (in32 (bs * j + i)).1
      let es := y.kind.bits / 8
      ∃ (t : State) (q : Nat → Nat × FpFlags), exec .arraySlotStart s = .next t ∧ SameBytes s t ∧
        (∀ j, j < 16384 / bs → isScale y (block j) (q j).1 (q j).2) ∧
        let coded (j i : Nat) : Coded := scaledElement y (block j) (q j).1
          (stochBits (BitVec.ofNat 32 seed) ((bs * j + i) / 128) ((bs * j + i) % 128)) (in32 (bs * j + i)).1
        OnlySlot s t x r.2.2.1 p (r.1, r.2.1) (fun k => { k with
          slotsDone := k.slotsDone + 1
          outBytes := (List.range (16384 / bs)).flatMap fun j =>
            ((List.range bs).map fun i => (out + (bs * j + i) * es, leBytes es (coded j i).code)) ++
              [(out + 16384 * es + j, [BitVec.ofNat 8 (q j).1])]
          flags := ((List.range (16384 / bs)).foldl (fun (f : FpFlags) j =>
            ((List.range bs).foldl (fun (f : FpFlags) i => (f.or (in32 (bs * j + i)).2).or (coded j i).flags) f).or (q j).2) {}).word }) ∧
        ∀ i, bankWord t x p i = if ctl.testBit 12 then 0 else bankWord s x p i)) ∧
  (∀ (va vb : Nat → Nat) (i j : Nat) (old : Word),
    let half : Half := ⟨.int8, .rne, false, 0⟩
    let signed (n : Nat) : Int := if n % 256 < 128 then (n % 256 : Nat) else (n % 256 : Nat) - 256
    stepWord ⟨half, va⟩ ⟨half, vb⟩ i j old =
      old + BitVec.ofInt 32 ((List.range 256).map fun k => signed (va (256 * i + k)) * signed (vb (256 * j + k))).sum)

/-- The array commands: their issue and its traps, the array's arithmetic, and the slots in which it works. -/
def Obligations.MatrixWork : Prop :=
  Sys2Proof.Machine.Spec.matrixCommandsHold ∧ Sys2Proof.Machine.Spec.matrixTrapsHold ∧ Sys2Proof.Machine.Spec.arrayArithmeticHold ∧ Sys2Proof.Machine.Spec.arraySlotsHold

namespace Sys2Proof.Machine.Spec

/-- Bytes of a record that must be zero. -/
def zeroBytes (bs : List Byte) (lo n : Nat) : Prop := ∀ k, lo ≤ k → k < lo + n → bs.getD k 0 = 0

/-- The bytes of a record stand for a tensor record (R275). -/
def tensorBytes (bs : List Byte) (x : Tensor) : Prop :=
  fieldAt bs 0 1 = 1 ∧ fieldAt bs 2 1 ≤ 2 ∧ zeroBytes bs 3 5 ∧ zeroBytes bs 76 116 ∧
  x.rank = fieldAt bs 1 1 ∧ x.es = 2 ^ fieldAt bs 2 1 ∧ x.base = fieldAt bs 8 8 ∧ x.pitch = fieldAt bs 72 4 ∧
  x.dims = [fieldAt bs 16 4, fieldAt bs 20 4, fieldAt bs 24 4, fieldAt bs 28 4] ∧
  x.strides = [fieldAt bs 32 8, fieldAt bs 40 8, fieldAt bs 48 8, fieldAt bs 56 8] ∧
  x.boxes = [fieldAt bs 64 2, fieldAt bs 66 2, fieldAt bs 68 2, fieldAt bs 70 2] ∧
  1 ≤ x.rank ∧ x.rank ≤ 4 ∧ x.base % x.es = 0 ∧ x.base < 2 ^ 57 ∧ x.pitch % 4 = 0 ∧ x.boxes.getD 0 0 * x.es ≤ x.pitch ∧
  x.boxes.getD 3 0 * x.boxes.getD 2 0 * x.boxes.getD 1 0 * x.pitch ≤ 524288 ∧
  ∀ j, j < 4 → 1 ≤ x.dims.getD j 0 ∧ 1 ≤ x.boxes.getD j 0 ∧ x.strides.getD j 0 % x.es = 0 ∧
    (x.rank ≤ j → x.dims.getD j 0 = 1 ∧ x.boxes.getD j 0 = 1)

/-- The width in bytes of the elements of a format half (R139). -/
def halfBytes (f : Nat) : Nat :=
  match f % 16 with
  | 0 => 4
  | 1 | 2 => 2
  | _ => 1

/-- The bytes of a record stand for an embedding-table record (R313). -/
def tableBytes (bs : List Byte) (x : EmbTable) : Prop :=
  fieldAt bs 0 1 = 2 ∧ zeroBytes bs 1 1 ∧ zeroBytes bs 5 3 ∧ zeroBytes bs 26 166 ∧
  x = ⟨fieldAt bs 8 8, fieldAt bs 16 4, fieldAt bs 20 4, fieldAt bs 24 2, fieldAt bs 2 2, fieldAt bs 4 1⟩ ∧
  x.efmt < 2 ^ 8 ∧ x.efmt % 16 ≤ 6 ∧
  (if x.efmt % 16 = 3 ∨ x.efmt % 16 = 4 then field x.efmt 4 3 ≠ 0 else field x.efmt 4 4 = 0) ∧
  (x.okind = 0 ∨ x.okind = 2) ∧ 1 ≤ x.rows ∧ 1 ≤ x.dim ∧ x.dim ≤ 4096 ∧ (∃ k, 2 ≤ k ∧ k ≤ 16 ∧ x.pitch = 2 ^ k) ∧
  x.base % x.pitch = 0 ∧ x.base < 2 ^ 57 ∧ x.dim * halfBytes x.efmt ≤ x.pitch ∧
  x.dim * (if x.okind = 0 then 4 else 2) % 4 = 0

/-- The bytes of a record stand for a layout record of either kind. -/
def layoutBytes (bs : List Byte) : Layout → Prop
  | .tensor x => tensorBytes bs x
  | .table x => tableBytes bs x

/-- Six of a thing. -/
def six {α : Type} (f : Nat → α) : List α := (List.range 6).map f

/-- The six sectors of the 192 bytes at an address as the issuing wave's loads reach and read them (R276 step 2), none of
them under a key that a buffer lacks (R311). -/
def recordRead (c : Ctx) (addr : Nat) (as : Nat → LaneAcc) (bs : Nat → List Byte) : Prop :=
  (∀ k, k < 6 → c.globalLane .load 32 c.first (BitVec.ofNat 64 (addr + 32 * k)) = .ok (as k) ∧
    c.readBytes (as k).tgt 32 = some (bs k)) ∧ c.missingKeys 32 (six as) = []

/-- The state that the translations of a record's sectors leave (R217), with the answers of peers its reads need (R231). -/
def recordLooked (c : Ctx) (addr : Nat) (as : Nat → LaneAcc) : State :=
  let s := (List.range 6).foldl (fun s k => match (as k).tr with
    | some tr => s.held c.t.core c.t.die c.t.owner c.first (addr + 32 * k) tr
    | none => s) c.s
  (accPlaces (six as)).foldl (fun s p => s.askLines c.t.die c.t.owner p 32 0) s

/-- The state after the reads of a record's sectors, one after the other: none while one finds no room (R330). -/
def recordTouched (c : Ctx) (addr : Nat) (as : Nat → LaneAcc) : Option State :=
  (List.range 6).foldl (fun s k => s.bind fun s => c.touch 32 (accLines (six as)) s (as k)) (some (recordLooked c addr as))

/-- A team's timeline counter. -/
def counterOf (c : Ctx) (k : Nat) : Ctr := c.t.ctr.get Ctr.init k

/-- The bag of each counted lane (R315). -/
def bagsOf (c : Ctx) (b : Reg) : List Bag :=
  (lanesOf c.cnt).map fun l => ⟨l, (c.reg b l).toNat % 2 ^ 16, (c.reg b l).toNat / 2 ^ 16⟩

/-- The static checks of EMBAG (R316 step 1) and the command they let through, with the index handle. -/
def bagOrder (c : Ctx) (a b : Reg) (hi : Handle) (x : EmbTable) (p : Plan) : Prop :=
  let k := uval c a
  let oes := if x.okind = 0 then 4 else 2
  let q := uval c a 2
  let bags := bagsOf c b
  let plan (out : Option Nat) (inb : List (Nat × Nat)) (lines : List (Nat × Nat)) : Plan :=
    { kind := .embag x (field k 8 2) hi.base out q bags, ctr := some 3, inb := inb, barriers := barrierNamed c.w.tid (uval c a 3)
      lines := lines }
  namedHandle c (uval c a 1) = some hi ∧ recordOf c (field k 0 6) = some (.table x) ∧
  field k 6 2 = 0 ∧ field k 10 2 = 0 ∧ field k 13 3 = 0 ∧ field k 28 4 = 0 ∧ barrierWordOk c (uval c a 3) ∧
  (∀ g ∈ bags, 8 * (g.off + g.count) ≤ hi.len) ∧
  ((k.testBit 12 = true ∧ field k 16 12 = 0 ∧ q < 8 ∧ (∃ b, c.t.queues.get? q = some b ∧ b.port = true) ∧ p = plan none [] []) ∨
    (k.testBit 12 = false ∧ ∃ ho, namedHandle c q = some ho ∧ q ≠ uval c a 1 ∧
      field k 16 12 * 128 + 64 * x.dim * oes ≤ ho.len ∧
      p = plan (some (ho.base + 128 * field k 16 12)) [(4 * c.t.cluster + c.t.pos, q)]
        (linesOf c.w.tid (ho.base + 128 * field k 16 12) (64 * x.dim * oes))))

/-- The index of an entry's bytes. -/
def entryIndex (bs : List Byte) : Nat := leValue (bs.take 4)

/-- The wave has no embedding command begun (R316 step 2), and the number of the next command is free. -/
def bagless (c : Ctx) : Prop :=
  (∀ e ∈ c.s.cmds, ¬ (e.2.wid = c.wid ∧ e.2.queued = false ∧ e.2.kind.isBag = true)) ∧
  c.s.cmds.get? c.s.nextCid = none ∧ Tbl.ascending 0 c.s.cmds = true

end Sys2Proof.Machine.Spec

/-- R251, R275, R276, R313, R388: LRBIND with a legal identifier and address, its 192 bytes readable, binds the identifier to
the record in the cluster's cache and in the team; LRFLUSH does so again from the bound address. Bytes that are no valid
record, an identifier past 63 and one that LRFLUSH finds unbound raise the layout trap, and the record's first sector whose
read is stopped stops the instruction as it would a load. That only types 1 and 2 are records is log entry 28, and that the
record is read a sector at a time, in order, is the model's choice (log entry 11). -/
def Obligations.LayoutRecords : Prop :=
  ∀ (s : State) (i : Instr) (c : Ctx) (a b : Reg) (addr id : Nat), (i = .lrbind a b ∨ i = .lrflush b) →
    Ready s i c → agreed i c → id = uval c b →
    (64 ≤ id → exec i s = .next (s.raise c.wid ⟨.layout, c.cnt, BitVec.ofNat 32 id,
      if i = .lrbind a b then c.regW a c.first else 0, none⟩ c.set c.pc c.word)) ∧
    (i = .lrflush b → id < 64 → (s.cluster c.t.cluster).recs.get? id = none →
      exec i s = .next (s.raise c.wid ⟨.layout, c.cnt, BitVec.ofNat 32 id, 0, none⟩ c.set c.pc c.word)) ∧
    (i = .lrbind a b → id < 64 → uval c a % 64 ≠ 0 →
      exec i s = .next (s.raise c.wid ⟨.alignment, c.cnt, 0, c.regW a c.first, none⟩ c.set c.pc c.word)) ∧
    (id < 64 → (i = .lrbind a b → addr = (c.regW a c.first).toNat ∧ addr % 64 = 0) →
      (i = .lrflush b → ∃ r, (s.cluster c.t.cluster).recs.get? id = some r ∧ addr = r.addr ∧ addr < 2 ^ 64) →
      (∀ as bs, recordRead c addr as bs →
        (recordTouched c addr as = none → exec i s = .next s.wait) ∧
        ∀ u, recordTouched c addr as = some u →
          OnlyAccess s u c.wid ∧ u.waves = s.waves ∧
          (∀ l, layoutBytes ((six bs).flatMap fun b => b) l →
            let sB := { s.updCluster c.t.cluster (fun k => { k with recs := k.recs.put id ⟨addr, l⟩ }) with
              teams := s.teams.upd c.w.tid fun m => { m with recs := m.recs.put id addr } }
            ∃ t w', exec i s = .next t ∧ OnlyAccess sB t c.wid ∧ t.waves.get? c.wid = some w' ∧ BooksOnly c.w w' ∧
              Moved c w' fun _ => c.pc + 4) ∧
          ((∀ l, ¬ layoutBytes ((six bs).flatMap fun b => b) l) →
            exec i s = .next
              (u.raise c.wid ⟨.layout, c.cnt, BitVec.ofNat 32 id, BitVec.ofNat 64 addr, none⟩ c.set c.pc c.word))) ∧
      ∀ k e, k < 6 → (∀ j, j < k → ∃ a, c.globalLane .load 32 c.first (BitVec.ofNat 64 (addr + 32 * j)) = .ok a) →
        c.globalLane .load 32 c.first (BitVec.ofNat 64 (addr + 32 * k)) = .error e →
        let ea := BitVec.ofNat 64 (addr + 32 * k)
        (∀ v, e = .range v ∨ e = .viol v →
          exec i s = .next (s.raise c.wid ⟨.protection, c.cnt, 0, ea, some v⟩ c.set c.pc c.word)) ∧
        (∀ p, e = .park p →
          exec i s = .next (s.setWave c.wid
            { c.w with stop := some ⟨.park ⟨p, .load, ea.toNat⟩, c.set, c.pc, c.word⟩, waiting := none })))

/-- R355, R388: TLWAIT on a ticket the team has taken goes on once the counter is at or above it and waits before; TLREAD
answers the counter's value; both read it as a load does, and that they open a region is log entry 68. A counter past 3, or
a ticket never taken, raises the engine operand trap. -/
def Sys2Proof.Machine.Spec.timelineCountersHold : Prop :=
  ∀ (s : State) (c : Ctx) (d a b : Reg),
    let k := uval c b
    let n := (c.regW a c.first).toNat
    let bad (i : Instr) : Prop :=
      exec i s = .next (s.raise c.wid ⟨.engineOperand, c.cnt, 0, 0, none⟩ c.set c.pc c.word)
    (Ready s (.tlwait a b) c → agreed (.tlwait a b) c →
      (4 ≤ k ∨ (counterOf c k).taken < n → bad (.tlwait a b)) ∧
      (k < 4 → n ≤ (counterOf c k).taken → (counterOf c k).value < n → exec (.tlwait a b) s = .next s.wait) ∧
      (k < 4 → n ≤ (counterOf c k).taken → n ≤ (counterOf c k).value → mayReadWords c →
        ∃ t, exec (.tlwait a b) s = .next t ∧ Ends s t c (reading c [] [.ctr c.w.tid k] c.w) fun _ => c.pc + 4)) ∧
    (Ready s (.tlread d b) c → agreed (.tlread d b) c →
      (4 ≤ k → bad (.tlread d b)) ∧
      (k < 4 → mayReadWords c → ∃ t, exec (.tlread d b) s = .next t ∧
        Ends s t c (reading c (c.unit (d, 2)) [.ctr c.w.tid k]
          (c.owing d 2 (fun _ j => pairWord (BitVec.ofNat 64 (counterOf c k).value) j) fun _ => 0)) fun _ => c.pc + 4))

namespace Sys2Proof.Machine.Spec

/-- round(fp32, rne, x × y): exact where both are finite, NaN beside a NaN or for an infinity times zero, else the infinity. -/
def prodOf (x y z : Word) : Prop :=
  (∀ n m k l, f32 x = .fin n m → f32 y = .fin k l → exactly (ratOf n m * ratOf k l) (n ≠ k) z) ∧
  ((f32 x).isNan = true ∨ (f32 y).isNan = true ∨ infTimesZero (f32 x) (f32 y) → z = nan32)

/-- round(fp32, rne, x × y + p), rounded once. -/
def fusedOf (x y p z : Word) : Prop :=
  (∀ n m k l g q, f32 x = .fin n m → f32 y = .fin k l → f32 p = .fin g q →
    exactly (ratOf n m * ratOf k l + ratOf g q) (n ≠ k ∧ g = true) z) ∧
  ((f32 x).isNan = true ∨ (f32 y).isNan = true ∨ (f32 p).isNan = true ∨ infTimesZero (f32 x) (f32 y) → z = nan32)

/-- maximumNumber (R182): a NaN gives way, two are the canonical NaN, and the greater value wins. -/
def maxOf (x y z : Word) : Prop :=
  ((f32 x).isNan = true → (f32 y).isNan = true → z = nan32) ∧
  ((f32 x).isNan = true → (f32 y).isNan = false → z = y) ∧
  ((f32 x).isNan = false → (f32 y).isNan = true → z = x) ∧
  ((f32 x).isNan = false → (f32 y).isNan = false → (z = x ∨ z = y) ∧ (f32 x).cmp (f32 z) ≤ 0 ∧ (f32 y).cmp (f32 z) ≤ 0 ∧
    ((f32 x).cmp (f32 y) = 0 → (f32 z).isNeg = true → (f32 x).isNeg = true ∧ (f32 y).isNeg = true))

/-- The join of two partials, absent ones skipped (R317). -/
def joins (mode : Nat) (x y z : Option Word) : Prop :=
  match x, y with
  | none, y => z = y
  | some a, none => z = some a
  | some a, some b => ∃ w, z = some w ∧ if mode = 3 then maxOf a b w else sumOf a b w

/-- A rank's partial takes an entry of the rank: weight w, value v (R317). -/
def takesEntry (mode : Nat) (w v : Word) (p z : Option Word) : Prop :=
  ∃ x, z = some x ∧ match p with
    | none => if mode = 1 then prodOf w v x else x = v
    | some p => if mode = 1 then fusedOf w v p x else if mode = 3 then maxOf p v x else sumOf p v x

end Sys2Proof.Machine.Spec

open Sys2Proof Sys2Proof.Machine Sys2Proof.Machine.Spec

/-- R317: the pooled value of a bag's entries, each a rank, a weight and a value. A rank's partial takes its entries in list
order, the partials of four ranks join in a buffer, and the buffers' join in theirs. MEAN divides by the number of entries,
rounded once, and an empty bag gives +0. The output element is the value, or its rounding to BF16 with overflow to an
infinity. -/
def Sys2Proof.Machine.Spec.pooledValuesHold : Prop :=
  (∀ (mode : Nat) (es : List (Nat × Word × Word)), mode < 4 → (∀ e ∈ es, e.1 < 128) →
    ∃ (p : Nat → Nat → Option Word) (j : Nat → Nat → Option Word) (y : Nat → Option Word),
      (∀ r, p r 0 = none) ∧
      (∀ r i e, es[i]? = some e → if e.1 = r then takesEntry mode e.2.1 e.2.2 (p r i) (p r (i + 1)) else p r (i + 1) = p r i) ∧
      (∀ u, j u 0 = none ∧ ∀ k, k < 4 → joins mode (j u k) (p (4 * u + k) es.length) (j u (k + 1))) ∧
      (y 0 = none ∧ ∀ u, u < 32 → joins mode (y u) (j u 4) (y (u + 1))) ∧
      (es = [] → pooled mode es = 0) ∧
      ∀ w, y 32 = some w →
        (mode ≠ 2 → pooled mode es = w) ∧
        (mode = 2 → (∀ n m, f32 w = .fin n m → exactly (ratOf n m / es.length) (n = true) (pooled mode es)) ∧
          ((f32 w).isNan = true → pooled mode es = nan32) ∧ ∀ n, f32 w = .inf n → pooled mode es = inf32 n)) ∧
  ∀ (t : EmbTable) (y : Word), t.output y = if t.okind = 0 then y.toNat else (Kind.bf16.round false .rne 0 (f32 y)).code

/-- R270, R278, R315, R316, R388: EMBAG with legal operands whose index list lies in the store and names rows of the table: the
index handle drains, the output handle fills, the ticket of the embedding counter is taken and outstanding in d, and the
command is queued with the list it has scanned. An index at or above ROWS raises the index trap for the lanes that have
one, and no handle, ticket or command is changed. That handles which no state can admit make it wait is log entry 72.
(Here from a state in which no EMBAG of the wave is begun.) -/
def Sys2Proof.Machine.Spec.embeddingBagsHold : Prop :=
  ∀ (s : State) (c : Ctx) (d a b : Reg) (hi : Handle) (x : EmbTable) (p : Plan) (entry : Nat → List Byte),
    Ready s (.embag d a b) c → (∀ k, k < 4 → sameWord c a k 32) → c.cnt ≠ 0 → bagOrder c a b hi x p → bagless c →
    hi.st ≠ .filling → mayReadWords c →
    (∀ g ∈ bagsOf c b, ∀ k, k < g.count → c.readBytes (.ls (hi.base + 8 * (g.off + k))) 8 = some (entry (g.off + k))) →
    let idx := (4 * c.t.cluster + c.t.pos, uval c a 1)
    let bad (g : Bag) (k : Nat) : Prop := k < g.count ∧ x.rows ≤ entryIndex (entry (g.off + k))
    s.readers (handleWords (p.inb ++ [idx])) (some c.wid) = [] →
    ((∀ g ∈ bagsOf c b, ∀ k, ¬ bad g k) → mayOrder c p →
      let s0 := outboundStep s idx
      let s1 := p.inb.foldl inboundStep s0
      let s2 := withTicket c p (withAbsent s1 p.lines)
      ∃ (t : State) (got : Tbl Nat), exec (.embag d a b) s = .next t ∧
        (∀ g ∈ bagsOf c b, ∀ k, k < g.count → got.get 0 (2 ^ 42 + (g.off + k)) =
          entryIndex (entry (g.off + k)) + 2 ^ 32 * leValue ((entry (g.off + k)).drop 4)) ∧
        Ends { s2 with
            cmds := s.cmds.put (s.nextCid + 1) { queued c { p with outb := [idx] } (p.inb.flatMap (wayBack s0 s1) ++ wayBack s s0 idx) with
              got := got }
            nextCid := s.nextCid + 2 } t c
          (reading c (c.unit (d, 2)) (handleWords (idx :: p.inb)) (c.owing d 2 (fun _ k => ticketWord (ticketOf c p) k) fun _ => 0))
          fun _ => c.pc + 4) ∧
    (∀ g ∈ bagsOf c b, ∀ k lanes, bad g k → (∀ j, j < k → ¬ bad g j) →
      (∀ f ∈ bagsOf c b, ∀ j, bad f j → g.lane ≤ f.lane) →
      (∀ l, hasLane lanes l = true ↔ ∃ f ∈ bagsOf c b, f.lane = l ∧ ∃ j, bad f j) →
      ∃ s' : State, s' = { s with cores := s'.cores, nextCid := s.nextCid + 1, waves := s'.waves } ∧
        s'.waves.get? c.wid = some (reading c (c.unit (d, 2)) (handleWords [idx]) c.w) ∧
        (∀ n, n ≠ c.wid → s'.waves.get? n = s.waves.get? n) ∧
        (∀ n, s'.core n = { s.core n with
          handles := (s'.core n).handles, gen := (s'.core n).gen, changes := (s'.core n).changes }) ∧
        (∀ n j, (s'.core n).handles.get? j = (s.core n).handles.get? j ∧ (s'.core n).gen.get 0 j = (s.core n).gen.get 0 j) ∧
        exec (.embag d a b) s = .next (s'.raise c.wid ⟨.index, lanes, BitVec.ofNat 32 (entryIndex (entry (g.off + k))),
          BitVec.ofNat 64 (hi.base + 8 * (g.off + k)), none⟩ c.set c.pc c.word))

namespace Sys2Proof.Machine.Spec

/-- Every access that the wave made before a command was issued is performed (R326). -/
def clearBefore (s : State) (c : Cmd) : Prop :=
  ∀ w, s.waves.get? c.wid = some w → (∀ e ∈ w.sbuf ++ w.spilling.getD [], c.seq ≤ e.seq) ∧
    (∀ q op b ls sent, w.irrev = some (.atom q op b ls sent) → c.seq ≤ q) ∧ ∀ q z ls, w.irrev = some (.load q z ls) → c.seq ≤ q

/-- A command whose element accesses may be made (R281, R326): released, of a launch that runs. -/
def active (s : State) (c : Cmd) (m : Team) : Prop :=
  c.queued = true ∧ c.released = true ∧ c.held = false ∧ c.fatal = false ∧ s.teams.get? c.tid = some m ∧ s.failed m.lid = false

/-- The number of an access among its command's requests (R229, R231): a bulk copy's by the line of its global address, another
command's by its element; a read's is even, a write's odd. -/
def requestOf (c : Cmd) (e va : Nat) (k : AccKind) : Nat :=
  2 * (if c.kind.isCopy then va / 128 else e) + if k = .engineWrite then 1 else 0

/-- The data that goes with the request of an element's n bytes (R229): with a write its bytes, and a bulk copy's words of the
whole line. -/
def dataWith (c : Cmd) (k : AccKind) (va n : Nat) : Nat :=
  if k ≠ .engineWrite then 0
  else match c.kind with
    | .bcopy _ _ _ len _ dst => 4 * ((List.range (len / 4)).filter fun j => (dst + 4 * j) / 128 = va / 128).length
    | _ => n

/-- What an engine's access to a global address comes to on translation (R281), where the page is no longer waited for and no
request for it has gone out. -/
def engineMeets (s : State) (c : Cmd) (m : Team) (k : AccKind) (e va : Nat) (x : Access) : Prop :=
  c.asked (requestOf c e va k) va = none ∧ (∀ f ∈ c.faults, f.1 ≠ va / 65536) ∧
  s.access (4 * m.cluster + m.pos) (m.cluster / 50) c.owner c.level k 64 va = x

/-- What an engine's access to a global address reaches (R281), none of its words pending (R332): the place its request to a
peer went out for, or a permitted place of this device or the host, whose buffer has the key (R311). `t` holds the
translation. -/
def engineReaches (s t : State) (c : Cmd) (m : Team) (k : AccKind) (e va n : Nat) (p : Phys) : Prop :=
  (∀ q ∈ s.pend, ∀ j, j < n → q.1 ≠ .mem p.sp ((p.addr + j) / 4)) ∧
  ((c.asked (requestOf c e va k) va = some p ∧ t = s) ∨
    ∃ tr, engineMeets s c m k e va (.ok tr p) ∧ p.tier ≠ 2 ∧ t = s.held (4 * m.cluster + m.pos) (m.cluster / 50) c.owner 64 va tr ∧
      keyed t p)

/-- The box element with the indices i0 to i3 (R284). -/
def boxElement (x : Tensor) (i : Nat → Nat) : Nat :=
  i 0 + x.boxes.getD 0 1 * (i 1 + x.boxes.getD 1 1 * (i 2 + x.boxes.getD 2 1 * i 3))

/-- An element of a tile: its number, local address and global address (R284). -/
def tileElement (x : Tensor) (hbase off : Nat) (tr : Bool) (cs : List Int) (e dst va : Nat) : Prop :=
  x.boxes.length = 4 ∧ 1 ≤ x.es ∧ ∃ i : Nat → Nat, (∀ k, k < 4 → i k < x.boxes.getD k 1) ∧ e = boxElement x i ∧
    (∀ k, k < 4 → 0 ≤ cs.getD k 0 + i k ∧ cs.getD k 0 + i k < x.dims.getD k 1) ∧
    (let j0 := if tr then i 1 else i 0
     let j1 := if tr then i 0 else i 1
     let b1 := x.boxes.getD (if tr then 0 else 1) 1
     dst = hbase + 128 * off + ((i 3 * x.boxes.getD 2 1 + i 2) * b1 + j1) * x.pitch + j0 * x.es) ∧
    va = (x.base + ((List.range 4).map fun k => (cs.getD k 0 + i k).toNat * x.strides.getD k 0).sum) % 2 ^ 64

/-- An element that writes a local store: the team and address it writes, and the bytes (R284 to R286, R301, R319). -/
def localElement (s : State) (c : Cmd) (m : Team) (e : Nat) (to_ dst : Nat) (bs : List Byte) : Prop :=
  (∃ x h off tr cs va p, c.kind = .tile false x h off tr cs ∧ tileElement x h off tr cs e dst va ∧ to_ = c.tid ∧
    (∃ t, engineReaches s t c m .engineRead e va x.es p) ∧ bs = s.bytesAt p.sp p.key p.addr x.es) ∨
  (∃ h off len src d p, c.kind = .bcopy 1 h off len src d ∧ e < len / 4 ∧ to_ = c.tid ∧ dst = h + 128 * off + 4 * e ∧
    (∃ t, engineReaches s t c m .engineRead e (src + 4 * e) 4 p) ∧ bs = s.bytesAt p.sp p.key p.addr 4) ∨
  (∃ src len ts b, c.kind = .mcast src len ts ∧ e < ts.length * (len / 4) ∧ ts[e / (len / 4)]? = some (to_, b) ∧
    dst = b + 4 * (e % (len / 4)) ∧ bs = (List.range 4).map fun k => m.lsByte (src + 4 * (e % (len / 4)) + k)) ∨
  (∃ b ctl out epi f sd, c.kind = .mdrain b ctl out epi f sd ∧ c.outBytes[e]? = some (dst, bs) ∧ to_ = c.tid) ∨
  ∃ x mode ib out q bags g k, c.kind = .embag x mode ib (some out) q bags ∧ g ∈ bags ∧ bagOf bags g.lane = some g ∧
    k < x.dim ∧ x.dim ≤ 4096 ∧ g.lane < 64 ∧ e = 4096 * g.lane + k ∧ to_ = c.tid ∧
    dst = out + (g.lane * x.dim + k) * (if x.okind = 0 then 4 else 2) ∧
    (∀ j, j < g.count → gotElem g.lane j k ∈ c.done) ∧
    bs = leBytes (if x.okind = 0 then 4 else 2) (c.bagValue x mode g k)

/-- An element that writes global memory: the place and the bytes (R284, R286). -/
def globalElement (s : State) (c : Cmd) (m : Team) (e : Nat) (p : Phys) (bs : List Byte) : Prop :=
  (∃ x h off tr cs va src, c.kind = .tile true x h off tr cs ∧ tileElement x h off tr cs e src va ∧
    (∃ t, engineReaches s t c m .engineWrite e va x.es p) ∧ bs = (List.range x.es).map fun k => m.lsByte (src + k)) ∨
  (∃ h off len d dst, c.kind = .bcopy 2 h off len d dst ∧ e < len / 4 ∧
    (∃ t, engineReaches s t c m .engineWrite e (dst + 4 * e) 4 p) ∧ bs = (List.range 4).map fun k => m.lsByte (h + 128 * off + 4 * e + k)) ∨
  ∃ h off len src dst q, c.kind = .bcopy 0 h off len src dst ∧ e < len / 4 ∧
    (∃ t u, engineReaches s t c m .engineRead e (src + 4 * e) 4 q ∧ engineReaches t u c m .engineWrite e (dst + 4 * e) 4 p) ∧
    bs = s.bytesAt q.sp q.key q.addr 4

/-- The first access of an element to a global address (R284, R286): its kind, address and bytes. -/
def firstAccess (c : Cmd) (e : Nat) (k : AccKind) (va n : Nat) : Prop :=
  (∃ x h off tr cs dst, c.kind = .tile false x h off tr cs ∧ tileElement x h off tr cs e dst va ∧ k = .engineRead ∧ n = x.es) ∨
  (∃ x h off tr cs src, c.kind = .tile true x h off tr cs ∧ tileElement x h off tr cs e src va ∧ k = .engineWrite ∧ n = x.es) ∨
  (∃ dir h off len src dst, c.kind = .bcopy dir h off len src dst ∧ dir ≤ 1 ∧ e < len / 4 ∧ k = .engineRead ∧ va = src + 4 * e ∧ n = 4) ∨
  ∃ h off len src dst, c.kind = .bcopy 2 h off len src dst ∧ e < len / 4 ∧ k = .engineWrite ∧ va = dst + 4 * e ∧ n = 4

/-- A line's elements are all done once element e is (R268). -/
def lineComplete (c : Cmd) (e to_ line : Nat) : Prop :=
  ∀ k ∈ c.elems, (∃ a, c.dest k = some (to_, a) ∧ a / 128 = line) → k = e ∨ k ∈ c.done

/-- Some bytes of a local store lie in no barrier that the team has initialised. -/
def barrierFree (m : Team) (a n : Nat) : Prop := ∀ b ∈ m.barriers, ∀ k, k < n → b / 8 ≠ (a + k) / 8

end Sys2Proof.Machine.Spec

/-- R268, R280, R281, R284 to R286, R301, R305, R319: ELEMENT_ACCESS_PERFORMED of an element that writes a local store: its
bytes are there, the element is done, and a line whose last element it was is present again. No byte of memory changes. -/
def Sys2Proof.Machine.Spec.localElementsHold : Prop :=
  ∀ (s : State) (c : Cmd) (m n : Team) (to_ dst : Nat) (bs : List Byte),
    s.cmds.get? s.ev.x = some c → active s c m → s.ev.y ∉ c.done → localElement s c m s.ev.y to_ dst bs →
    s.teams.get? to_ = some n → barrierFree n dst bs.length → noRegion s → cleanHost s →
    let line := dst / 128
    ∃ t n' c', exec .elementAccessPerformed s = .next t ∧ SameBytes s t ∧ t.teams.get? to_ = some n' ∧
      n' = { n with ls := n'.ls, absent := n'.absent } ∧
      (∀ a, n'.lsByte a = if dst ≤ a ∧ a < dst + bs.length then bs.getD (a - dst) 0 else n.lsByte a) ∧
      t.cmds.get? s.ev.x = some c' ∧ c' = { c with done := c.done ++ [s.ev.y], lines := c'.lines } ∧
      (lineComplete c s.ev.y to_ line → n'.absent = n.absent.filter (· != line) ∧
        c'.lines = c.lines.filter (· != (to_, line))) ∧
      (¬ lineComplete c s.ev.y to_ line → n'.absent = n.absent ∧ c'.lines = c.lines) ∧
      (∀ k, k ≠ to_ → t.teams.get? k = s.teams.get? k) ∧ (∀ k, k ≠ s.ev.x → t.cmds.get? k = s.cmds.get? k) ∧
      t.waves = s.waves

/-- R280, R281, R284, R286, R331, R340: ELEMENT_ACCESS_PERFORMED of an element that writes global memory: its bytes are at their
home and nothing else of memory has changed; no core of a die in the home's mask of a line holds a sector of them any more; the
element is done. That an engine's write is performed at once, its invalidations with it, is log entry 8. -/
def Sys2Proof.Machine.Spec.globalElementsHold : Prop :=
  ∀ (s : State) (c : Cmd) (m : Team) (p : Phys) (bs : List Byte),
    s.cmds.get? s.ev.x = some c → active s c m → s.ev.y ∉ c.done → globalElement s c m s.ev.y p bs → noRegion s → cleanHost s →
    (p.sp = .dev → ∀ k, k < bs.length → s.inBias (p.addr + k) = false) → noStatus s p.sp p.addr bs.length →
    ∃ t, exec .elementAccessPerformed s = .next t ∧
      (∀ a, t.byteAt p.sp p.key a = if p.addr ≤ a ∧ a < p.addr + bs.length then bs.getD (a - p.addr) 0 else s.byteAt p.sp p.key a) ∧
      (∀ q key a, q ≠ p.sp ∨ (∀ k, k < bs.length → (p.addr + k) / 32 ≠ a / 32) → t.byteAt q key a = s.byteAt q key a) ∧
      (∀ id k, linesFrom p.sp p.addr bs.length id → k < 3200 → (s.homeDir.get 0 id).getLsbD (k / 200) = true →
        ∀ x ∈ (t.core k).l1, lineId x.sp (32 * x.n) = id → x.sp = p.sp → ∀ j, j < bs.length → x.n ≠ (p.addr + j) / 32) ∧
      t.cmds = s.cmds.upd s.ev.x (fun c => { c with done := c.done ++ [s.ev.y] }) ∧ t.waves = s.waves ∧ t.teams = s.teams

/-- R223, R231, R281, R311, R332: what else becomes of an element's first access to a global address. A page fault posts an
entry of the owner's fault queue, once for the page (log entry 30), and the element waits; it waits without one for a page
being moved or a refused lease, for a pending word, and for the room of its die's streams. A violation ends the launch with
STATUS 8 and DETAIL 4. An access to a peer goes out as a request, with its data when it writes, and one whose buffer lacks the
key requests that. No byte changes. That a bulk copy asks a peer once for the words of a line, another command once for each
element, is log entry 12. (Here a bulk copy's address is a multiple of 4, as R286 requires of its operands.) -/
def Sys2Proof.Machine.Spec.elementRequestsHold : Prop :=
  ∀ (s : State) (c : Cmd) (m : Team) (k : AccKind) (va n : Nat) (x : Access),
    s.cmds.get? s.ev.x = some c → active s c m → s.ev.y ∉ c.done → firstAccess c s.ev.y k va n →
    engineMeets s c m k s.ev.y va x → (c.kind.isCopy = true → va % 4 = 0) →
    let data := dataWith c k va n
    let core := 4 * m.cluster + m.pos
    let short := ((s.launches.get? m.lid).map (·.short)).getD 0
    let waits := ∃ r, exec .elementAccessPerformed s = .refused r
    (∀ o, x = .park .page → s.owners.get? c.owner = some o → exec .elementAccessPerformed s = .next { s with
      owners := s.owners.put c.owner { o with
        faults := o.faults ++ [⟨o.faultSeq, va, 0, none, .page, k, core, short, false⟩], faultSeq := o.faultSeq + 1 }
      cmds := s.cmds.put s.ev.x { c with faults := c.faults ++ [(va / 65536, o.faultSeq)] } }) ∧
    (x = .park .migration ∨ x = .park .lease → waits) ∧
    (∀ v l, x = .viol v → s.launches.get? m.lid = some l → l.fail = none →
      let t := s.logViol c.owner v 0 short core
      exec .elementAccessPerformed s = .next { t with
        launches := t.launches.put m.lid { l with fail := some (8, 4) }, cmds := t.cmds.upd s.ev.x fun c => { c with fatal := true } }) ∧
    ∀ tr p, x = .ok tr p →
      let s1 := s.held core (m.cluster / 50) c.owner 64 va tr
      ((∃ q ∈ s.pend, ∃ j, j < n ∧ q.1 = .mem p.sp ((p.addr + j) / 4)) ∨ (p.tier = 2 ∧ s.fabRoom (m.cluster / 50) data = 0) → waits) ∧
      ((∀ q ∈ s.pend, ∀ j, j < n → q.1 ≠ .mem p.sp ((p.addr + j) / 4)) →
        (p.tier = 2 → p.key < 128 → 0 < s.fabRoom (m.cluster / 50) data →
          ∃ t r, exec .elementAccessPerformed s = .next t ∧ t.fabOut = s.fabOut ++ [r] ∧
            (m.cluster < 800 → r.stream / 4 = m.cluster / 50) ∧ r.device = p.addr / 2 ^ 44 ∧ r.owner = c.owner ∧
            r.who = .elem s.ev.x (requestOf c s.ev.y va k) ∧ r.bytes = 16 + data ∧
            (∃ c', t.cmds = s.cmds.put s.ev.x c' ∧ c' = { c with got := c'.got } ∧
              c'.asked (requestOf c s.ev.y va k) va = some ⟨.peer, p.addr, p.key, 2, false⟩) ∧
            t = { s1 with fabOut := t.fabOut, fabSeq := t.fabSeq, links := t.links, cmds := t.cmds }) ∧
        ∀ z, p.tier ≠ 2 → s1.missingKey p = some z →
          (z ∈ s1.keyWants → waits) ∧
          (z ∉ s1.keyWants → exec .elementAccessPerformed s = .next { s1 with keyWants := (s1.keyWants ++ [z]).eraseDups }))

/-- R311, R314, R320, R321: EMBAG's other accesses. A row element on the capacity tier, whose buffer holds the key, is read at
BASE + x × PITCH + e × ES and kept as FP32, and a buffer without the key requests it; a pooled element goes to the port in its
lane's turn while the port has room; KEY_FETCH brings a buffer the key it has requested, as the most recently used of 16 (log entry 80). -/
def Sys2Proof.Machine.Spec.embeddingAccessesHold : Prop :=
  (∀ (s : State) (c : Cmd) (m : Team) (x : EmbTable) (mode ib q : Nat) (out : Option Nat) (bags : List Bag) (g : Bag)
      (i e : Nat) (p : Phys) (y : Half), s.cmds.get? s.ev.x = some c → active s c m → c.kind = .embag x mode ib out q bags →
    bagOf bags g.lane = some g → i < g.count → g.count ≤ 2 ^ 16 → g.lane < 64 → e < x.dim → x.dim ≤ 4096 →
    s.ev.y = gotElem g.lane i e → s.ev.y ∉ c.done → c.got.get? (gotRow g.lane i) = none →
    embHalf x.efmt = some y → cleanHost s →
    let es := y.kind.bits / 8
    let row := x.base + c.got.get 0 (gotEntry (g.off + i)) % 2 ^ 32 * x.pitch
    (∃ tr, s.access (4 * m.cluster + m.pos) (m.cluster / 50) c.owner c.level .engineRead 64 row = .ok tr p ∧
      keyed (s.held (4 * m.cluster + m.pos) (m.cluster / 50) c.owner 64 row tr) p) →
    (∀ f ∈ c.faults, f.1 ≠ row / 65536) → p.tier = 1 → p.ace = false → p.key < 128 →
    c.asked (2 * gotRow g.lane i) row = none → 0x20000000000 ≤ p.addr →
    (∀ l ∈ s.pend, ∀ j, j < es → l.1 ≠ .mem .dev ((p.addr + e * es + j) / 4) ∧ l.1 ≠ .mem .dev ((p.addr + j) / 4)) →
    s.bufferHolds (bufferOf p.addr) p.key = true →
    ∃ t c', exec .elementAccessPerformed s = .next t ∧ SameBytes s t ∧ t.cmds.get? s.ev.x = some c' ∧
      c' = { c with done := c.done ++ [s.ev.y], got := c'.got } ∧
      c'.got.get 0 s.ev.y = (rne32 (y.kind.decode (leValue (s.bytesAt .dev p.key (p.addr + e * es) es)))).toNat ∧
      c'.got.get 0 (gotRow g.lane i) = p.addr * 128 + p.key ∧ t.teams = s.teams ∧ t.waves = s.waves) ∧
  (∀ (s : State) (c : Cmd) (m : Team) (x : EmbTable) (mode ib q : Nat) (bags : List Bag) (g : Bag) (e : Nat) (b : Binding),
    s.cmds.get? s.ev.x = some c → active s c m → c.kind = .embag x mode ib none q bags → bagOf bags g.lane = some g →
    g.lane < 64 → e < x.dim → x.dim ≤ 4096 → s.ev.y = 4096 * g.lane + e → s.ev.y ∉ c.done →
    (∀ j, j < g.count → gotElem g.lane j e ∈ c.done) → (∀ k, k < e → 4096 * g.lane + k ∈ c.done) →
    m.queues.get? q = some b → b.port = true → (b.vals.get [] g.lane).length < 16 → noRegion s →
    (∀ o ∈ s.cmds, o.2.tid = c.tid → o.1 < s.ev.x → o.2.queued = true → o.2.owesLane q g.lane = false) →
    ∃ t m' b', exec .elementAccessPerformed s = .next t ∧ SameBytes s t ∧ t.teams.get? c.tid = some m' ∧
      m' = { m with queues := m'.queues } ∧ m'.queues.get? q = some b' ∧ b' = { b with vals := b'.vals } ∧
      b'.vals.get [] g.lane = b.vals.get [] g.lane ++ [BitVec.ofNat 32 (c.bagValue x mode g e)] ∧
      (∀ l, l ≠ g.lane → b'.vals.get [] l = b.vals.get [] l) ∧
      t.cmds = s.cmds.upd s.ev.x fun c => { c with done := c.done ++ [s.ev.y] }) ∧
  (∀ (s : State), (s.ev.x, s.ev.y) ∈ s.keyWants →
    let kept := (s.bufKeys.get [] s.ev.x).filter (· != s.ev.y)
    exec .keyFetch s = .next { s with
      keyWants := s.keyWants.filter (· != (s.ev.x, s.ev.y)), bufKeys := s.bufKeys.put s.ev.x (s.ev.y :: kept.take 15) })

/-- R1, R270, R280, R286, R326, R327, R348: ENGINE_COMMAND_RELEASE, where every earlier access of the wave is performed and the
command is not held, a bulk copy to one of its die's four engines with one of 16 contexts free (which is log entry 88); ENGINE_COMMAND_COMPLETE, where its slots and elements are done: its handles are released, its lines are
present, its barriers are credited, its ticket is complete and its flags are merged, all in one act (log entry 13). (Here with no region open, and for
a command that names no handle twice and whose lines are its own team's.) -/
def Sys2Proof.Machine.Spec.commandCourseHold : Prop :=
  (∀ (s : State) (c : Cmd) (m : Team), s.cmds.get? s.ev.x = some c → c.queued = true → c.held = false → c.released = false →
    s.teams.get? c.tid = some m → s.failed m.lid = false → clearBefore s c →
    let use (k : Nat) : Nat := (s.cmds.filter fun e => e.2.engine = some k).length
    (c.kind.isCopy = false → exec .engineCommandRelease s = .next
      { s with cmds := s.cmds.put s.ev.x { c with released := true, engine := none } }) ∧
    (c.kind.isCopy = true → (∃ k, k / 4 = m.cluster / 50 ∧ use k < 16) →
      ∃ k, k / 4 = m.cluster / 50 ∧ use k < 16 ∧ exec .engineCommandRelease s = .next
        { s with cmds := s.cmds.put s.ev.x { c with released := true, engine := some k } }) ∧
    (c.kind.isCopy = true → (∀ k, k / 4 = m.cluster / 50 → 16 ≤ use k) →
      ∃ r, exec .engineCommandRelease s = .refused r)) ∧
  (∀ (s : State) (c : Cmd) (m : Team), s.cmds.get? s.ev.x = some c → active s c m → c.slotsDone = c.slots →
    (∀ e ∈ c.elems, e ∈ c.done) → noRegion s → (∀ l ∈ c.lines, l.1 = c.tid) →
    (c.inb ++ c.outb).Nodup →
    ∃ t m', exec .engineCommandComplete s = .next t ∧ SameBytes s t ∧ t.cmds = s.cmds.del s.ev.x ∧
      t.teams.get? c.tid = some m' ∧ (∀ k, k ≠ c.tid → (∀ b ∈ c.barriers, b.1 ≠ k) → t.teams.get? k = s.teams.get? k) ∧
      (∀ h e, h ∈ c.inb → (s.core h.1).handles.get? h.2 = some e →
        (t.core h.1).handles.get? h.2 = some { e with
          fills := e.fills - 1
          st := if e.fills - 1 = 0 ∧ e.auto = true ∧ e.st = .filling then .full else e.st }) ∧
      (∀ h e, h ∈ c.outb → (s.core h.1).handles.get? h.2 = some e →
        (t.core h.1).handles.get? h.2 = some { e with
          refs := e.refs - 1
          st := if e.refs - 1 = 0 ∧ e.st = .draining then .full else e.st }) ∧
      (∀ j h, (j, h) ∉ c.inb ++ c.outb → (t.core j).handles.get? h = (s.core j).handles.get? h) ∧
      m'.absent = m.absent.filter (fun l => !c.lines.contains (c.tid, l)) ∧
      (c.barriers = [] → m' = { m with ctr := m'.ctr, absent := m'.absent }) ∧
      (∀ k n, c.counter = some (k, n) → ∃ r, m'.ctr.get Ctr.init k = r ∧ r.taken = (m.ctr.get Ctr.init k).taken ∧
        (m.ctr.get Ctr.init k).value ≤ r.value ∧
        (n = (m.ctr.get Ctr.init k).value + 1 → n ≤ r.value) ∧
        ((m.ctr.get Ctr.init k).value + 1 ∉ n :: (m.ctr.get Ctr.init k).early → r.value = (m.ctr.get Ctr.init k).value ∧
          r.early = n :: (m.ctr.get Ctr.init k).early)) ∧
      (∀ b, c.barriers = [(c.tid, b)] → ∃ u : Team,
        u = m.lsPutWord (b + 4) (BitVec.ofInt 32 ((m.lsWord (b + 4)).toInt - c.credit)) ∧
        m' = { u.barrierSettled b with
          ctr := m'.ctr, absent := m'.absent, barriers := (m.barriers ++ [b]).eraseDups }) ∧
      ∀ w, s.waves.get? c.wid = some w → t.waves.get? c.wid = some (
        if w.counted = 0 then w
        else match w.recd with
          | some r => { w with recd := some { r with fflags := r.fflags ||| c.flags } }
          | none => { w with fflags := w.fflags ||| c.flags }))

/-- R279, R340: the void completion of a command held in a region that rolls back. It leaves the queue without an element access
or a credit, its presence bits are set, and its ticket completes. A handle that nothing has changed since its issue has its
state, AUTO and generation of before again, and one that was changed gives back the command's FILLS or REFS step by R270. A
rollback makes every held command of the region complete so. That a void completion is one act is log entry 13. -/
def Sys2Proof.Machine.Spec.voidCompletionHold : Prop :=
  (∀ (s : State) (cid : Nat) (c : Cmd), s.cmds.get? cid = some c → (c.undo.map fun u => (u.core, u.idx)).Nodup →
    let t := s.voidCmd cid
    SameBytes s t ∧ t.cmds = s.cmds.del cid ∧ t.waves = s.waves ∧
      (∀ tid m, s.teams.get? tid = some m → ∃ m', t.teams.get? tid = some m' ∧
        m' = { m with ctr := m'.ctr, absent := m.absent.filter fun l => !c.lines.contains (tid, l) } ∧
        (∀ k, (∀ n, ¬ (tid = c.tid ∧ c.counter = some (k, n))) → m'.ctr.get Ctr.init k = m.ctr.get Ctr.init k) ∧
        ∀ k n, tid = c.tid → c.counter = some (k, n) → (m'.ctr.get Ctr.init k).taken = (m.ctr.get Ctr.init k).taken ∧
          (m.ctr.get Ctr.init k).value ≤ (m'.ctr.get Ctr.init k).value ∧
          (n = (m.ctr.get Ctr.init k).value + 1 → n ≤ (m'.ctr.get Ctr.init k).value)) ∧
      (∀ u h, u ∈ c.undo → (s.core u.core).handles.get? u.idx = some h →
        ((s.core u.core).changes.get 0 u.idx = u.changes →
          (t.core u.core).handles.get? u.idx = some u.before ∧ (t.core u.core).gen.get 0 u.idx = u.genBefore) ∧
        ((s.core u.core).changes.get 0 u.idx ≠ u.changes →
          (t.core u.core).gen.get 0 u.idx = (s.core u.core).gen.get 0 u.idx ∧
          (t.core u.core).handles.get? u.idx = some (if (u.core, u.idx) ∈ c.inb then { h with
              fills := h.fills - 1
              st := if h.fills - 1 = 0 ∧ h.auto = true ∧ h.st = .filling then .full else h.st }
            else { h with
              refs := h.refs - 1
              st := if h.refs - 1 = 0 ∧ h.st = .draining then .full else h.st }))) ∧
      ∀ j h, (∀ u ∈ c.undo, (u.core, u.idx) ≠ (j, h)) → (t.core j).handles.get? h = (s.core j).handles.get? h) ∧
  ∀ (s : State) (ls : List Loc) (writer : Option Nat) (v : Nat) (w : Wave) (r : Region) (cid : Nat) (c : Cmd),
    s.readers ls writer = [v] → s.waves.get? v = some w → w.region = some r → s.cmds.get? cid = some c → c.wid = v →
    c.held = true → r.seq ≤ c.seq → (s.check ls writer).cmds.get? cid = none

/-- The element accesses of engine commands, and what holds them up. -/
def Obligations.Elements : Prop :=
  Sys2Proof.Machine.Spec.localElementsHold ∧ Sys2Proof.Machine.Spec.globalElementsHold ∧ Sys2Proof.Machine.Spec.elementRequestsHold

/-- EMBAG, the values it pools, and the accesses it makes. -/
def Obligations.Embedding : Prop :=
  Sys2Proof.Machine.Spec.pooledValuesHold ∧ Sys2Proof.Machine.Spec.embeddingBagsHold ∧ Sys2Proof.Machine.Spec.embeddingAccessesHold

/-- The course of a command: its release, its completion and its void completion. -/
def Obligations.CommandCourse : Prop :=
  Sys2Proof.Machine.Spec.commandCourseHold ∧ Sys2Proof.Machine.Spec.voidCompletionHold

namespace Sys2Proof.Machine.Spec

/-- The operands with which QBIND binds a channel (R357): PROD, LOGCAP and base. -/
def channelOperands (c : Ctx) (v base : Nat) (b : Binding) : Prop :=
  let cap := field v 12 4
  let prod := v / 2 ^ 16
  v.testBit 8 = false ∧ 1 ≤ cap ∧ cap ≤ 10 ∧ prod ≠ 0 ∧ prod < 2 ^ c.t.nWaves ∧ base % 128 = 0 ∧
  base + 256 * 2 ^ cap ≤ c.t.localBytes ∧
  (∀ e ∈ (c.s.core (4 * c.t.cluster + c.t.pos)).handles, e.2.tid = c.w.tid →
    base + 256 * 2 ^ cap ≤ e.2.base ∨ e.2.base + e.2.len ≤ base) ∧
  b = ⟨false, prod, cap, base, [], [], []⟩

/-- The operands with which QBIND binds the embedding result port (R357). -/
def portOperands (c : Ctx) (v base : Nat) (b : Binding) : Prop :=
  v.testBit 8 = true ∧ v / 2 ^ 16 = 0 ∧ field v 12 4 = 0 ∧ base = 0 ∧ (∀ e ∈ c.t.queues, e.2.port = false) ∧
  b = ⟨true, 0, 0, 0, [], [], []⟩

/-- What QBIND may bind. -/
def bindable (c : Ctx) (v base : Nat) (b : Binding) : Prop :=
  field v 3 5 = 0 ∧ field v 9 3 = 0 ∧ c.t.queues.get? (v % 8) = none ∧ (channelOperands c v base b ∨ portOperands c v base b)

/-- QUNBIND must wait (R360): a push to the queue, or an EMBAG of the team on its port, is not complete. -/
def stillUsed (c : Ctx) (q : Nat) (b : Binding) : Prop :=
  (∃ e ∈ c.s.waves, e.2.tid = c.w.tid ∧ ∃ x ∈ e.2.sbuf ++ e.2.spilling.getD [], ∃ vs, x.op = .push q vs) ∨
  (b.port = true ∧ ∃ e ∈ c.s.cmds, e.2.tid = c.w.tid ∧ ∃ t m ib gs, e.2.kind = .embag t m ib none q gs)

/-- The status of a queue in a lane (R361). -/
def statusWord (c : Ctx) (q l : Nat) : Nat :=
  match c.t.queues.get? q with
  | none => 0
  | some b => 2 ^ 31 + (if b.port then 2 ^ 30 else 0) +
      (if b.count l = 0 ∧ c.s.noneComing c.w.tid q b l = true then 2 ^ 29 else 0) + b.count l % 2 ^ 11

end Sys2Proof.Machine.Spec

/-- R356, R357, R360, R361, R388: QBIND binds an unbound queue register to an empty channel or to the port; QUNBIND waits for
pushes and embedding commands, then frees the register, inside a region by a command that the commit releases; QSTAT
answers each lane's status as a load reads it. Other operands raise the queue trap, whose $tval is log entry 59; that reading
a queue's status opens a region is log entry 68. (Here with no other wave's region having read the queue.) -/
def Sys2Proof.Machine.Spec.queueRegistersHold : Prop :=
  ∀ (s : State) (c : Ctx) (d a b : Reg),
    let v := uval c a
    let trap (q : Nat) : Out := .next (s.raise c.wid ⟨.queue, c.cnt, BitVec.ofNat 32 q, 0, none⟩ c.set c.pc c.word)
    (Ready s (.qbind a b) c → agreed (.qbind a b) c →
      (∀ k, bindable c v (uval c b) k → s.readers [.chan c.w.tid (v % 8)] (some c.wid) = [] →
        ∃ t, exec (.qbind a b) s = .next t ∧
          Ends { s with teams := s.teams.upd c.w.tid fun m => { m with queues := m.queues.put (v % 8) k } } t c c.w
            fun _ => c.pc + 4) ∧
      ((∀ k, ¬ bindable c v (uval c b) k) → exec (.qbind a b) s = trap (v % 8))) ∧
    (Ready s (.qunbind a) c → agreed (.qunbind a) c →
      (∀ k, v < 8 → c.t.queues.get? v = some k → stillUsed c v k → exec (.qunbind a) s = .next s.wait) ∧
      (∀ k, v < 8 → c.t.queues.get? v = some k → ¬ stillUsed c v k → c.w.region = none →
        s.readers [.chan c.w.tid v] (some c.wid) = [] →
        ∃ t, exec (.qunbind a) s = .next t ∧
          Ends { s with teams := s.teams.upd c.w.tid fun m => { m with queues := m.queues.del v } } t c c.w fun _ => c.pc + 4) ∧
      (∀ k, v < 8 → c.t.queues.get? v = some k → ¬ stillUsed c v k → c.w.region ≠ none →
        ∃ t, exec (.qunbind a) s = .next t ∧
          Ends { s with
            cmds := s.cmds.put s.nextCid { queued c { kind := .qunbind v, ctr := none } [] with queued := false }
            nextCid := s.nextCid + 1 } t c c.w fun _ => c.pc + 4) ∧
      (8 ≤ v ∨ c.t.queues.get? v = none → exec (.qunbind a) s = trap (v % 8))) ∧
    (Ready s (.qstat d a) c → agreed (.qstat d a) c →
      (v < 8 → mayReadWords c → ∃ t, exec (.qstat d a) s = .next t ∧
        Ends s t c (reading c (c.unit (d, 1)) [.chan c.w.tid v]
          (c.owing d 1 (fun l _ => BitVec.ofNat 32 (statusWord c v l)) fun _ => 0)) fun _ => c.pc + 4) ∧
      (8 ≤ v → exec (.qstat d a) s = trap (v % 8)))

/-- Timeline counters, and the instructions that bind, unbind and read queue registers. -/
def Obligations.CountersAndQueues : Prop :=
  Sys2Proof.Machine.Spec.timelineCountersHold ∧ Sys2Proof.Machine.Spec.queueRegistersHold

namespace Sys2Proof.Machine.Spec

/-- A barrier's address that R346 accepts. -/
def barrierAt (c : Ctx) (a : Nat) : Prop := a % 8 = 0 ∧ a + 8 ≤ c.t.localBytes

/-- The counted lanes name barriers at legal addresses, on present lines. -/
def namesBarriers (c : Ctx) (a : Reg) : Prop :=
  ∀ l, hasLane c.cnt l = true → barrierAt c (c.reg a l).toNat ∧ (c.reg a l).toNat / 128 ∉ c.t.absent

/-- Word 0 of a barrier that R349 and R350 accept. -/
def barrierWord (w : Nat) : Prop := field w 27 4 = 0 ∧ field w 11 5 = 0 ∧ field w 16 11 ≠ 0

/-- A write to a barrier completes the phase when LEFT and BYTES are 0 after it (R346): PHASE flips, LEFT is INIT. -/
def phased (m : Team) (a : Nat) : Team :=
  let w := (m.lsWord a).toNat
  if field w 0 11 = 0 ∧ m.lsWord (a + 4) = 0 then m.lsPutWord a (BitVec.ofNat 32 (w + field w 16 11 + 2 ^ 31)) else m

/-- A barrier of a team takes an arrival (R349). -/
def takesArrival (m : Team) (a : Nat) : Prop := barrierWord (m.lsWord a).toNat ∧ field (m.lsWord a).toNat 0 11 ≠ 0

/-- One arrival (R349): the word received, the team after. -/
def arrival (m m' : Team) (a : Nat) (v : Word) : Prop :=
  v = m.lsWord a ∧ takesArrival m a ∧ m' = phased (m.lsPutWord a (v - 1)) a

/-- The SYNC instructions that are store entries: registers, what their counts must meet, and the entry. -/
def syncStore : Instr → Option (Reg × Reg × (Nat → Prop) × (List (Nat × Nat) → SbOp))
  | .binit a b => some (a, b, fun n => 1 ≤ n ∧ n ≤ 1024, fun bs => .binit bs)
  | .bexpect a b => some (a, b, fun n => n < 2 ^ 31, fun bs => .owed (bs.map fun e => (e.1, (e.2 : Int))))
  | .bcredit a b => some (a, b, fun n => n < 2 ^ 31, fun bs => .owed (bs.map fun e => (e.1, -(e.2 : Int))))
  | _ => none

/-- Instance n of TSYNC is complete (R352). -/
def instanceDone (s : State) (tid n : Nat) : Prop :=
  ∀ e ∈ s.waves, e.2.tid = tid → ∀ l, hasLane e.2.counted l = true → n ≤ e.2.tsCount.get 0 l

/-- A lane with an arrival that is not performed. -/
def arrivalOpen (w : Wave) (l : Nat) : Prop :=
  ∃ e ∈ w.sbuf ++ w.spilling.getD [], ∃ m, e.op = .arrive m ∧ hasLane m l = true

/-- A lane passes TSYNC (R352). -/
def passesTsync (c : Ctx) (l : Nat) : Prop :=
  hasLane c.w.helper l = true ∨ (hasLane c.w.tsMark l = true ∧ instanceDone c.s c.w.tid (c.w.tsCount.get 0 l))

/-- Where lanes of a wait instruction stand after it (R350): those that pass at PC + 4, the others at their PC. -/
def passesOn (c : Ctx) (pass : Nat → Prop) (next : Nat → PC) : Prop :=
  ∀ l, (pass l → next l = c.pc + 4) ∧ (¬ pass l → next l = c.pc)

/-- The execution of a wait instruction ends (R350): all lanes of the set pass, or others of the wave may issue. -/
def testEnds (c : Ctx) (pass : Nat → Prop) : Prop := (∀ l, hasLane c.set l = true → pass l) ∨ 1 < c.w.pcs.length

/-- The team's barriers with those that the set's counted lanes name in a. -/
def namingBarriers (s : State) (c : Ctx) (a : Reg) : State :=
  { s with teams := s.teams.upd c.w.tid fun m => { m with
    barriers := (m.barriers ++ (lanesOf c.cnt).map fun l => (c.reg a l).toNat).eraseDups } }

/-- Word 0 of the barrier that a lane names, as the wave's load reads it. -/
def barrierRead (c : Ctx) (a : Reg) (l : Nat) (w : Word) : Prop :=
  ∃ bs, c.readBytes (.ls (c.reg a l).toNat) 4 = some bs ∧ w = BitVec.ofNat 32 (leValue bs)

/-- The next state stands with the lanes of the set at the next instruction. -/
def Completes (s : State) (i : Instr) (c : Ctx) : Prop :=
  ∃ t w', exec i s = .next t ∧ t.waves.get? c.wid = some w' ∧ Moved c w' fun _ => c.pc + 4

/-- The threads of the set that have not triggered yet (R353). -/
def triggering (c : Ctx) : Mask := c.cnt &&& c.w.threads &&& ~~~c.w.triggered

/-- A predecessor field that waits for a launch to trigger (R63). -/
def awaits (p : Option Pred) (l : Launch) : Prop := ∃ q, p = some q ∧ q.trigger = true ∧ q.queue = l.queue ∧ q.seq = l.seq

/-- The threads of a launch. -/
def threadCount (l : Launch) : Nat := (l.shape.map fun x => l.gangs * x.nTeams * x.nThreads).getD 0

end Sys2Proof.Machine.Spec

/-- R254, R346 to R348, R388: BINIT, BEXPECT and BCREDIT with legal addresses and counts enter their counted lanes' operands in
the store buffer in lane order, one entry for each line of the local store; the parts of an entry performed at one point are
runs of lanes on different barriers of one line (log entry 63). Lanes with an illegal address, else with an illegal count (the
order, and which lanes a bad count reports, are log entry 23), raise the barrier trap, $taddr the lowest one's barrier. No byte, register or flag changes until the entry is performed. -/
def Sys2Proof.Machine.Spec.barrierStoresHold : Prop :=
  ∀ (s : State) (i : Instr) (c : Ctx) (a b : Reg) (ok : Nat → Prop) (op : List (Nat × Nat) → SbOp),
    syncStore i = some (a, b, ok, op) → Ready s i c →
    (namesBarriers c a → (∀ l, hasLane c.cnt l = true → ok (c.reg b l).toNat) →
      let named := (lanesOf c.cnt).map fun l => ((c.reg a l).toNat, (c.reg b l).toNat)
      ∃ (t : State) (runs : List (List (Nat × Nat))), exec i s = .next t ∧ runs.flatten = named ∧
        (∀ r ∈ runs, r ≠ [] ∧ (r.map (·.1)).Nodup ∧ ∀ x ∈ r, ∀ y ∈ r, x.1 / 128 = y.1 / 128) ∧
        Ends s t c (c.w.enter s.seq (runs.map fun r => (8 * ((r.head?.map (·.1)).getD 0 / 128) + 3, op r))) fun _ => c.pc + 4) ∧
    (∀ lanes, (∃ l, hasLane lanes l = true) →
      ((∀ l, hasLane lanes l = true ↔ hasLane c.cnt l = true ∧ ¬ barrierAt c (c.reg a l).toNat) ∨
        (namesBarriers c a ∧ ∀ l, hasLane lanes l = true ↔ hasLane c.cnt l = true ∧ ¬ ok (c.reg b l).toNat)) →
      exec i s = .next (s.raise c.wid ⟨.barrier, lanes, 0, (c.reg a (lowestLane lanes)).setWidth 64, none⟩ c.set c.pc c.word))

/-- R346 to R348: a BINIT entry, performed, gives each barrier INIT = LEFT = its count, PHASE 0 and BYTES 0, the last of one
address remaining; a BEXPECT or BCREDIT entry adds its counts to BYTES modulo 2^32 in turn, a phase completing where LEFT
and BYTES are 0. Nothing else of the local store changes. (Here with no region open and aligned barriers.) -/
def Sys2Proof.Machine.Spec.barrierEntriesHold : Prop :=
  ∀ (s : State) (w : Wave) (m : Team) (e : SbEntry) (rest : List SbEntry),
    s.waves.get? s.ev.x = some w → s.teams.get? w.tid = some m → w.sbuf = e :: rest → w.spilling = none → e.held = false →
    e.sent = false → w.irrev = none → s.failed m.lid = false → noRegion s → (∀ a ∈ m.barriers, a % 8 = 0) →
    let popped : Wave := { w with sbuf := rest }
    (∀ bs, e.op = .binit bs → (∀ b ∈ bs, b.1 % 8 = 0 ∧ 1 ≤ b.2 ∧ b.2 ≤ 1024) →
      ∃ t m', exec .storeEntrySend s = .next t ∧ t = { s with waves := s.waves.put s.ev.x popped, teams := t.teams } ∧
        t.teams.get? w.tid = some m' ∧ m' = { m with ls := m'.ls, barriers := m'.barriers } ∧
        (∀ pre a n post, bs = pre ++ (a, n) :: post → (∀ b ∈ post, b.1 ≠ a) →
          m'.lsWord a = BitVec.ofNat 32 (n * 2 ^ 16 + n) ∧ m'.lsWord (a + 4) = 0 ∧ a ∈ m'.barriers) ∧
        (∀ a, a ∈ m.barriers → a ∈ m'.barriers) ∧ (∀ x, (∀ b ∈ bs, b.1 ≠ x / 8 * 8) → m'.lsByte x = m.lsByte x) ∧
        ∀ k, k ≠ w.tid → t.teams.get? k = s.teams.get? k) ∧
    (∀ (bs : List (Nat × Int)) (T : Nat → Team), e.op = .owed bs → T 0 = m →
      (∀ k a n, bs[k]? = some (a, n) →
        T (k + 1) = { phased ((T k).lsPutWord (a + 4) (BitVec.ofInt 32 (((T k).lsWord (a + 4)).toInt + n))) a with
          barriers := ((T k).barriers ++ [a]).eraseDups }) →
      ∃ t, exec .storeEntrySend s = .next t ∧ t = { s with waves := s.waves.put s.ev.x popped, teams := t.teams } ∧
        t.teams.get? w.tid = some (T bs.length) ∧ ∀ k, k ≠ w.tid → t.teams.get? k = s.teams.get? k)

/-- R255, R346, R349, R350, R352: BARRIVE where every lane may arrive: each in lane order receives word 0 and lowers LEFT, a phase
completing with its last arrival; BWAIT on barriers whose word 0 is well formed: a helper lane, and a lane whose b[31]
differs from PHASE, passes. TSYNC: lanes whose mark is clear arrive by a store entry and set it, and the set waits for the test,
which is made once no arrival of the wave is unperformed: helper lanes, and lanes whose mark is set and whose instance is
complete, pass, their marks cleared, and the others stay; the only set of its wave goes on only when all pass. The test reads as
a load where the execution ends. Which barriers a team has named is log entry 69. -/
def Sys2Proof.Machine.Spec.barrierWaitsHold : Prop :=
  (∀ (s : State) (c : Ctx) (d a : Reg) (T : Nat → Team) (got : Nat → Word), Ready s (.barrive d a) c → namesBarriers c a →
    c.w.region = none → T 0 = c.t →
    (∀ k l, (lanesOf c.cnt)[k]? = some l → arrival (T k) (T (k + 1)) (c.reg a l).toNat (got l)) →
    s.readers ((lanesOf c.cnt).map fun l => .ls c.w.tid ((c.reg a l).toNat / 4)) (some c.wid) = [] →
    ∃ t, exec (.barrive d a) s = .next t ∧
      Ends { namingBarriers s c a with
          teams := (namingBarriers s c a).teams.upd c.w.tid fun m => { m with ls := (T (lanesOf c.cnt).length).ls } } t c
        (c.owing d 1 (fun l _ => if hasLane c.cnt l then got l else 0) fun _ => 0) fun _ => c.pc + 4) ∧
  (∀ (s : State) (c : Ctx) (a b : Reg) (word : Nat → Word) (next : Nat → PC), Ready s (.bwait a b) c → namesBarriers c a →
    mayReadWords c → (∀ l, hasLane c.cnt l = true → barrierRead c a l (word l) ∧ barrierWord (word l).toNat) →
    let pass (l : Nat) : Prop := hasLane c.w.helper l = true ∨ (word l).getLsbD 31 ≠ (c.reg b l).getLsbD 31
    let w := reading c [] ((lanesOf c.cnt).map fun l => .ls c.w.tid ((c.reg a l).toNat / 4)).eraseDups c.w
    (testEnds c pass → passesOn c pass next → ∃ t, exec (.bwait a b) s = .next t ∧ Ends (namingBarriers s c a) t c w next) ∧
    (¬ testEnds c pass → exec (.bwait a b) s = .next (namingBarriers s c a).wait)) ∧
  (∀ (s : State) (c : Ctx) (ps : Mask) (next : Nat → PC), Ready s .tsync c →
    (∀ l, hasLane ps l = true ↔ hasLane c.set l = true ∧ passesTsync c l) →
    let news := c.cnt &&& ~~~c.w.tsMark
    let w0 := if c.cnt = 0 then c.w else reading c [] [.tsync c.w.tid] c.w
    (news ≠ 0 → (∃ e ∈ c.w.sbuf, e.held = true) → exec .tsync s = .next s.wait) ∧
    (news ≠ 0 → (∀ e ∈ c.w.sbuf, e.held = false) → exec .tsync s = .next (s.setWave c.wid
      { c.w.enter s.seq [(7, .arrive news)] with tsMark := c.w.tsMark ||| news, waiting := some s.cur.set })) ∧
    (news = 0 → c.cnt ≠ 0 → (∃ l, arrivalOpen c.w l) → exec .tsync s = .next s.wait) ∧
    (news = 0 → (c.cnt ≠ 0 → ∀ l, ¬ arrivalOpen c.w l) →
      (testEnds c (passesTsync c) → (c.cnt ≠ 0 → mayReadWords c) → passesOn c (passesTsync c) next →
        ∃ t, exec .tsync s = .next t ∧ Ends s t c { w0 with tsMark := w0.tsMark &&& ~~~ps } next) ∧
      (¬ testEnds c (passesTsync c) → exec .tsync s = .next s.wait)))

/-- R346, R349, R350, R352: where BARRIVE, BWAIT and TSYNC complete, with every lane of the set at the next instruction. BARRIVE
where the counted lanes name well-formed barriers with at least as many arrivals left as lanes name them; BWAIT where the phase
that each counted lane arrived in is over; TSYNC where each counted lane has arrived, the wave's arrivals are performed and the
instance is complete. -/
def Sys2Proof.Machine.Spec.waitsCompleteHold : Prop :=
  (∀ (s : State) (c : Ctx) (d a : Reg), Ready s (.barrive d a) c → namesBarriers c a → c.w.region = none →
    (∀ l, hasLane c.cnt l = true → barrierWord (c.t.lsWord (c.reg a l).toNat).toNat ∧
      ((lanesOf c.cnt).filter fun k => c.reg a k = c.reg a l).length ≤ field (c.t.lsWord (c.reg a l).toNat).toNat 0 11) →
    Completes s (.barrive d a) c) ∧
  (∀ (s : State) (c : Ctx) (a b : Reg), Ready s (.bwait a b) c → namesBarriers c a → mayReadWords c →
    (∀ l, hasLane c.cnt l = true → ∃ w, barrierRead c a l w ∧ barrierWord w.toNat ∧ w.getLsbD 31 ≠ (c.reg b l).getLsbD 31) →
    Completes s (.bwait a b) c) ∧
  ∀ (s : State) (c : Ctx), Ready s .tsync c → mayReadWords c →
    (∀ l, hasLane c.cnt l = true → hasLane c.w.tsMark l = true ∧ (∀ k, ¬ arrivalOpen c.w k) ∧
      instanceDone s c.w.tid (c.w.tsCount.get 0 l)) →
    Completes s .tsync c

/-- R251, R346, R349, R350, R388: the barrier traps of BARRIVE and BWAIT. Counted lanes with an illegal address are reported
first. Else, on present lines, so are the lanes whose word 0 has reserved bits or INIT 0, and at BARRIVE those that find LEFT 0
in their turn, and no lane acts. $taddr is the lowest reported lane's barrier. BWAIT's read of word 0 joins the region before the
trap. That illegal addresses come before malformed words and LEFT 0, and which lanes are reported for those, is log entry 23. -/
def Sys2Proof.Machine.Spec.barrierTrapsHold : Prop :=
  ∀ (s : State) (i : Instr) (c : Ctx) (d a b : Reg) (lanes : Mask), i = .barrive d a ∨ i = .bwait a b → Ready s i c →
    (∃ l, hasLane lanes l = true) →
    let trapped := exec i s =
      .next (s.raise c.wid ⟨.barrier, lanes, 0, (c.reg a (lowestLane lanes)).setWidth 64, none⟩ c.set c.pc c.word)
    ((∀ l, hasLane lanes l = true ↔ hasLane c.cnt l = true ∧ ¬ barrierAt c (c.reg a l).toNat) → trapped) ∧
    (namesBarriers c a →
      (∀ word : Nat → Word, i = .bwait a b → mayReadWords c → (∀ l, hasLane c.cnt l = true → barrierRead c a l (word l)) →
        (∀ l, hasLane lanes l = true ↔ hasLane c.cnt l = true ∧ ¬ barrierWord (word l).toNat) →
        let locs := ((lanesOf c.cnt).map fun l => Loc.ls c.w.tid ((c.reg a l).toNat / 4)).eraseDups
        exec i s = .next (((namingBarriers s c a).setWave c.wid (reading c [] locs c.w)).raise c.wid
          ⟨.barrier, lanes, 0, (c.reg a (lowestLane lanes)).setWidth 64, none⟩ c.set c.pc c.word)) ∧
      ∀ T : Nat → Team, i = .barrive d a → T 0 = c.t →
        (∀ k l v, (lanesOf c.cnt)[k]? = some l → v = (T k).lsWord (c.reg a l).toNat →
          (takesArrival (T k) (c.reg a l).toNat → arrival (T k) (T (k + 1)) (c.reg a l).toNat v) ∧
          (¬ takesArrival (T k) (c.reg a l).toNat → T (k + 1) = T k)) →
        (∀ l, hasLane lanes l = true ↔ ∃ k, (lanesOf c.cnt)[k]? = some l ∧ ¬ takesArrival (T k) (c.reg a l).toNat) → trapped)

/-- R63, R353: TRIGGER marks the set's threads, each counted once for its launch; with the last thread of the launch its
"after trigger" dependants are satisfied; that a launch which has failed satisfies none is log entry 70. -/
def Sys2Proof.Machine.Spec.triggerEffectsHold : Prop :=
  ∀ (s : State) (c : Ctx) (l : Launch), Ready s .trigger c → s.launches.get? c.t.lid = some l →
    let l' := { l with trigDone := l.trigDone + (lanesOf (triggering c)).length }
    let all := l.shape.isSome = true ∧ l'.trigDone = threadCount l ∧ l.fail = none
    ∃ (t : State) (ls : Tbl Launch), exec .trigger s = .next t ∧
      Ends { s with launches := ls } t c { c.w with triggered := c.w.triggered ||| (c.cnt &&& c.w.threads) } (fun _ => c.pc + 4) ∧
      (¬ all → ls = s.launches.put c.t.lid l') ∧
      (all → ∀ k x, (s.launches.put c.t.lid l').get? k = some x → ∃ y, ls.get? k = some y ∧
        y = { x with sat0 := y.sat0, sat1 := y.sat1 } ∧
        (y.sat0 = true ↔ x.sat0 = true ∨ (x.owner = l.owner ∧ awaits x.pred0 l)) ∧
        (y.sat1 = true ↔ x.sat1 = true ∨ (x.owner = l.owner ∧ awaits x.pred1 l)))

/-- R54, R58, R354: LAUNCH whose records may be read appends one record per counted lane in lane order, read at its home; each lane
receives its number or a refusal code. Which waits come before its traps is log entry 23, and its stall on a page that is not
there is log entry 29. An append to a running LAUNCH-mode queue with room stores the record in the next slot, then the
tail; a queue that is disabled or in store mode, full, or not running refuses. (Here with no region open.) -/
def Sys2Proof.Machine.Spec.launchAppendsHold : Prop :=
  (∀ (s : State) (c : Ctx) (d a b : Reg) (acc : Nat → LaneAcc), Ready s (.launch d a b) c → noRegion s →
    (∀ l, hasLane c.cnt l = true → (c.reg b l).toNat < 64 ∧ c.globalLane .load 64 l (c.regW a l) = .ok (acc l)) →
    ∃ (s0 : State) (S : Nat → State) (got : Nat → Word) (t : State), OnlyAccess s s0 c.wid ∧ s0.waves = s.waves ∧ S 0 = s0 ∧
      (∀ k l p, (lanesOf c.cnt)[k]? = some l → (acc l).tgt = .mem p →
        let read := (S k).agentReads c.t.owner p 64
        (read.appendRecord c.t.owner (c.reg b l).toNat (read.bytesAt p.sp p.key p.addr 64)) = (got l, S (k + 1))) ∧
      exec (.launch d a b) s = .next t ∧
      Ends (S (lanesOf c.cnt).length) t c (c.owing d 1 (fun l _ => if hasLane c.cnt l then got l else 0) fun _ => 0) fun _ => c.pc + 4) ∧
  (∀ (s : State) (own q : Nat) (rec : List Byte),
    ((s.queue? own q = none ∨ ∃ x, s.queue? own q = some x ∧ (x.state = .disabled ∨ x.desc.launchMode = false)) →
      s.appendRecord own q rec = (0x80000001, s)) ∧
    (∀ x, s.queue? own q = some x → x.desc.launchMode = true →
      (x.state = .stalled ∨ x.state = .resetting → s.appendRecord own q rec = (0x80000003, s)) ∧
      (x.state = .running → 2 ^ x.desc.logSize ≤ x.lastTail - x.taken → s.appendRecord own q rec = (0x80000002, s)) ∧
      (∀ tr p tr' r, x.state = .running → x.lastTail - x.taken < 2 ^ x.desc.logSize → rec.length = 64 → noRegion s →
        s.frontAccess own .store (x.desc.base.toNat + 64 * (x.lastTail % 2 ^ x.desc.logSize)) = .ok tr p →
        s.frontAccess own .store x.desc.tail.toNat = .ok tr' r → cleanHost s →
        (∀ k, k < 64 → p.sp = .dev → s.inBias (p.addr + k) = false) → (∀ k, k < 8 → r.sp = .dev → s.inBias (r.addr + k) = false) →
        noStatus s p.sp p.addr 64 → noStatus s r.sp r.addr 8 →
        (∀ e ∈ s.pend, (∀ k, k < 64 → e.1 ≠ .mem p.sp ((p.addr + k) / 4)) ∧ ∀ k, k < 8 → e.1 ≠ .mem r.sp ((r.addr + k) / 4)) →
        (p.sp = r.sp → p.addr / 32 + 2 ≤ r.addr / 32 ∨ r.addr / 32 < p.addr / 32) →
        p.addr % 32 = 0 → r.addr % 8 = 0 →
        ∃ s', s.appendRecord own q rec = (BitVec.ofNat 32 (x.lastTail % 2 ^ 31), s') ∧
          s'.bytesAt p.sp p.key p.addr 64 = rec ∧ leValue (s'.bytesAt r.sp r.key r.addr 8) = (x.lastTail + 1) % 2 ^ 64 ∧
          ∃ y, s'.queue? own q = some y ∧ y.lastTail = x.lastTail + 1 ∧ y.taken = x.taken ∧ y.desc = x.desc)))

/-- BINIT, BEXPECT and BCREDIT, and what their entries do at the barriers. -/
def Obligations.BarrierStores : Prop :=
  Sys2Proof.Machine.Spec.barrierStoresHold ∧ Sys2Proof.Machine.Spec.barrierEntriesHold

/-- BARRIVE, BWAIT and TSYNC: what they do, where they complete, and the barrier traps. -/
def Obligations.BarrierWaits : Prop :=
  Sys2Proof.Machine.Spec.barrierWaitsHold ∧ Sys2Proof.Machine.Spec.waitsCompleteHold ∧ Sys2Proof.Machine.Spec.barrierTrapsHold

/-- TRIGGER and LAUNCH. -/
def Obligations.TriggersAndLaunches : Prop :=
  Sys2Proof.Machine.Spec.triggerEffectsHold ∧ Sys2Proof.Machine.Spec.launchAppendsHold

namespace Sys2Proof.Machine.Spec

/-- The entry PC of a task entry (R364). -/
def taskPc (e : TaskEntry) : Nat := (e.getD 0 0).toNat + 2 ^ 32 * (e.getD 1 0).toNat

/-- The graph instance of a task entry (R364). -/
def taskGraph (e : TaskEntry) : Nat := (e.getD 2 0).toNat % 2 ^ 16

/-- The entries that a push takes from its counted lanes, in lane order (R365). -/
def pushedEntries (c : Ctx) (a : Reg) : List TaskEntry :=
  ((lanesOf c.cnt).map fun l => (List.range 8).map fun i => c.reg a l i).filter fun e => taskPc e != 0

/-- Where one pushed entry goes (R365 steps 1 and 2): the launch's hamper of its PC with room, or the lowest free hamper
where the launch has none of that PC; `none` for the overflow region. -/
def placedIn (x : Cluster) (lid : Nat) (e : TaskEntry) (y : Option Cluster) : Prop :=
  (∃ k h, x.hampers.get? k = some h ∧ h.lid = lid ∧ h.key = taskPc e ∧
    y = if h.entries.length < 256 then
        some { x with hampers := x.hampers.put k { h with entries := h.entries ++ [e] } } else none) ∨
  ((∀ h ∈ x.hampers, ¬ (h.2.lid = lid ∧ h.2.key = taskPc e)) ∧
    ((∃ k, k < 8 ∧ x.hampers.get? k = none ∧ (∀ j, j < k → (x.hampers.get? j).isSome = true) ∧
        y = some { x with hampers := x.hampers.put k ⟨lid, taskPc e, [e]⟩ }) ∨
      ((∀ k, k < 8 → (x.hampers.get? k).isSome = true) ∧ y = none)))

/-- The entries a wave's counted lanes hold in flight (R367). -/
def heldTasks (c : Ctx) : Nat := (lanesOf (c.w.holds &&& c.cnt)).length

/-- One lane's change of the cancel set (R369). -/
def cancelled (z z' : List Nat) (g b : Nat) : Prop :=
  (b = 0 ∧ g ∈ z ∧ z' = z) ∨ (b = 0 ∧ g ∉ z ∧ z.length < 256 ∧ z' = z ++ [g]) ∨ (b = 1 ∧ z' = z.filter (· != g))

/-- The address of the i-th entry of the overflow ring (R365). -/
def ringEntry (l : Launch) (i : Nat) : Nat := l.ovf + 32 * (i % l.ovfN)

/-- The lanes of an instruction stop in a parking fault at an overflow entry (R365, R398). -/
def parksAt (s : State) (c : Ctx) (p : ParkCause) (k : AccKind) (va : Nat) : State :=
  s.setWave c.wid { c.w with stop := some ⟨.park ⟨p, k, va⟩, c.set, c.pc, c.word⟩, waiting := none }

/-- The protection trap at an overflow entry, logged (R365, R411). -/
def violatesAt (s : State) (c : Ctx) (va : Nat) (v : Viol) : State :=
  s.raise c.wid ⟨.protection, c.cnt, 0, BitVec.ofNat 64 va, some v⟩ c.set c.pc c.word

/-- A pop's context once the overflow entries it reads are read: their translations are held and their home has taken the
reads. -/
def popped (c : Ctx) (l : Launch) : Ctx := { c with s := c.ovfReady (c.popVas l) }

/-- Entry i of the overflow region may be read by the popping wave. -/
def overflowReadable (c : Ctx) (l : Launch) : Prop :=
  ∀ i, i < l.ovfTail - l.ovfHead → ∃ tr p, c.ovfAccess .load (l.ovf + 32 * ((l.ovfHead + i) % l.ovfN)) = .ok tr p

/-- At a pop's place in the order the launch has no entry outside its cancel set and none in flight (R366 DONE). -/
def launchDone (c : Ctx) (l : Launch) (x : Taken) : Prop :=
  x.out = [] ∧ l.inFlight - heldTasks c = 0 ∧
  (∀ k ∈ (x.put c.s).clusters, ∀ h ∈ k.2.hampers, h.2.lid = c.t.lid → ∀ e ∈ h.2.entries, taskGraph e ∈ l.cancel) ∧
  ∀ i, x.head ≤ i → i < l.ovfTail → l.ovfHead ≤ i → ∀ e, c.ovfEntry l i = some e → taskGraph e ∈ l.cancel

/-- The words a counted lane without an entry receives (R366). -/
def noEntry (status i : Nat) : Word := if i = 2 then BitVec.ofNat 32 status else 0

/-- The rows of a launch's hampers in a cluster. -/
def ownHampers (x : Cluster) (lid : Nat) : List (Nat × Hamper) := x.hampers.filter fun e => e.2.lid = lid

end Sys2Proof.Machine.Spec

/-- R364, R365, R388: TKPUSH of entries with legal PCs places them in lane order in the cluster's hampers or at the overflow
tail; an illegal PC, or an overflow region too small for all, raises the task trap and nothing is pushed. (Here with no
region open.) -/
def Sys2Proof.Machine.Spec.taskPushesHold : Prop :=
  (∀ (x : Cluster) (lid : Nat) (e : TaskEntry) (y : Option Cluster), Tbl.ascending 0 x.hampers = true →
    (∀ h ∈ x.hampers, ∀ g ∈ x.hampers, h.2.lid = g.2.lid → h.2.key = g.2.key → h = g) → placedIn x lid e y →
    x.pushTask lid e = y) ∧
  (∀ (s : State) (c : Ctx) (a : Reg) (l : Launch), Ready s (.tkpush a) c → s.launches.get? c.t.lid = some l → noRegion s →
    let es := pushedEntries c a
    let x := (s.cluster c.t.cluster).pushTasks c.t.lid es
    let spilled (i : Nat) : Nat := l.ovf + 32 * ((l.ovfTail + i) % l.ovfN)
    let trap : Out := .next (s.raise c.wid ⟨.task, c.cnt, 0, 0, none⟩ c.set c.pc c.word)
    ((∃ e ∈ es, taskPc e % 4 ≠ 0 ∨ 2 ^ 57 ≤ taskPc e) → exec (.tkpush a) s = trap) ∧
    ((∀ e ∈ es, taskPc e % 4 = 0 ∧ taskPc e < 2 ^ 57) →
      (x.2 ≠ [] → l.ovfN < l.ovfTail - l.ovfHead + x.2.length → c.cnt ≠ 0 → exec (.tkpush a) s = trap) ∧
      ((x.2 = [] ∨ l.ovfTail - l.ovfHead + x.2.length ≤ l.ovfN) →
        (x.2 ≠ [] → s.pend = []) → (∀ i, i < x.2.length → ∃ tr p, c.ovfAccess .store (spilled i) = .ok tr p) →
        ∃ t w', exec (.tkpush a) s = .next t ∧ t.waves.get? c.wid = some w' ∧ BooksOnly c.w w' ∧
          Moved c w' (fun _ => c.pc + 4) ∧ (∀ k, k ≠ c.wid → t.waves.get? k = s.waves.get? k) ∧ t.teams = s.teams ∧
          t.launches = s.launches.put c.t.lid { l with ovfTail := l.ovfTail + x.2.length } ∧
          t.cluster c.t.cluster = { s.cluster c.t.cluster with hampers := x.1.hampers } ∧
          (∀ k, k ≠ c.t.cluster → t.cluster k = s.cluster k) ∧ (x.2 = [] → SameBytes s t) ∧
          ∀ e tr p, x.2 = [e] → c.ovfAccess .store (spilled 0) = .ok tr p → p.addr % 32 = 0 → p.ace = false → cleanHost s →
            (p.sp = .dev → ∀ k, k < 32 → s.inBias (p.addr + k) = false) → (∀ k o, s.owners.get? k = some o → o.migQ = none) →
            (∀ i, i < 8 → BitVec.ofNat 32 (leValue (t.bytesAt p.sp p.key (p.addr + 4 * i) 4)) = e.getD i 0) ∧
            ∀ q key b, q ≠ p.sp ∨ p.addr / 32 ≠ b / 32 → t.byteAt q key b = s.byteAt q key b)))

/-- R365, R388, R398, R411: what stops TKPUSH and TKPOP at the overflow region, with nothing pushed or popped. Of the entries
a push writes, the first whose access is a violation raises the protection trap with its address, logged; else the first
that meets a page fault or a moving page parks the wave. A pop that must read the region stops so at the head. That a
violation goes before a parking fault is the model's order, log entry 58. -/
def Sys2Proof.Machine.Spec.taskStopsHold : Prop :=
  (∀ (s : State) (c : Ctx) (a : Reg) (l : Launch) (n : Nat),
    Ready s (.tkpush a) c → s.launches.get? c.t.lid = some l → c.w.region = none → c.cnt ≠ 0 →
    let es := pushedEntries c a
    let rest := ((s.cluster c.t.cluster).pushTasks c.t.lid es).2
    let va (i : Nat) : Nat := ringEntry l (l.ovfTail + i)
    (∀ e ∈ es, taskPc e % 4 = 0 ∧ taskPc e < 2 ^ 57) → l.ovfTail - l.ovfHead + rest.length ≤ l.ovfN → n < rest.length →
    (∀ v, c.ovfAccess .store (va n) = .viol v → (∀ i u, i < n → c.ovfAccess .store (va i) ≠ .viol u) →
      exec (.tkpush a) s = .next (violatesAt s c (va n) v)) ∧
    (∀ p, c.ovfAccess .store (va n) = .park p → (∀ i u, i < rest.length → c.ovfAccess .store (va i) ≠ .viol u) →
      (∀ i, i < n → ∃ tr q, c.ovfAccess .store (va i) = .ok tr q) →
      exec (.tkpush a) s = .next (parksAt s c p .store (va n)))) ∧
  ∀ (s : State) (c : Ctx) (d : Reg) (l : Launch), Ready s (.tkpop d) c → agreed (.tkpop d) c →
    s.launches.get? c.t.lid = some l → c.w.region = none → l.ovfHead < l.ovfTail →
    (∀ k, k / 50 = c.t.cluster / 50 → ownHampers (s.cluster k) c.t.lid = []) →
    (∀ v, c.ovfAccess .load (ringEntry l l.ovfHead) = .viol v →
      exec (.tkpop d) s = .next (violatesAt s c (ringEntry l l.ovfHead) v)) ∧
    ∀ p, c.ovfAccess .load (ringEntry l l.ovfHead) = .park p →
      (∀ i u, l.ovfHead ≤ i → i < l.ovfTail → c.ovfAccess .load (ringEntry l i) ≠ .viol u) →
      exec (.tkpop d) s = .next (parksAt s c p .load (ringEntry l l.ovfHead))

/-- R366, R367, R369: what TKPOP takes. From the cluster's fullest hamper the most recent entries; else from the next cluster
of the die with entries the oldest half of its fullest hamper, into a free hamper if there is one; else from the overflow
region. No entry of a cancelled instance is delivered. -/
def Sys2Proof.Machine.Spec.taskSourcesHold : Prop :=
  ∀ (c : Ctx) (l : Launch) (n : Nat), c.s.launches.get? c.t.lid = some l →
    let me := c.t.cluster
    let own (k : Nat) : List (Nat × Hamper) := ownHampers (c.s.cluster k) c.t.lid
    let fullest (k : Nat) (e : Nat × Hamper) : Prop :=
      e ∈ own k ∧ ∀ g ∈ own k, g.2.entries.length < e.2.entries.length ∨ (g.2.entries.length = e.2.entries.length ∧ e.1 ≤ g.1)
    (∀ e ∈ (c.popPlan l n).out, taskGraph e ∉ l.cancel) ∧ (c.popPlan l n).out.length ≤ n ∧
    (Tbl.ascending 0 (c.s.cluster me).hampers = true → ∀ k h, fullest me (k, h) → l.cancel = [] →
      (c.popPlan l n).out = h.entries.reverse.take n ∧ (c.popPlan l n).head = l.ovfHead ∧
      ∃ x, (c.popPlan l n).clusters = [(me, x)] ∧
        (x.hampers.get? k = if h.entries.length ≤ n then none
          else some { h with entries := h.entries.take (h.entries.length - n) }) ∧
        ∀ j, j ≠ k → x.hampers.get? j = (c.s.cluster me).hampers.get? j) ∧
    (∀ v k h, own me = [] → (∃ i, i < 49 ∧ v = me / 50 * 50 + (me % 50 + 1 + i) % 50 ∧
        ∀ j, j < i → own (me / 50 * 50 + (me % 50 + 1 + j) % 50) = []) →
      Tbl.ascending 0 (c.s.cluster v).hampers = true → fullest v (k, h) → l.cancel = [] →
      let half := (h.entries.length + 1) / 2
      (∀ f, (c.s.cluster me).freeHamper = some f →
        (c.popPlan l n).out = ((h.entries.take half).reverse.take n) ∧
        ∃ x y, (c.popPlan l n).clusters = [(v, y), (me, x)] ∧
          (y.hampers.get? k = if h.entries.length ≤ half then none else some { h with entries := h.entries.drop half }) ∧
          (x.hampers.get? f = if half ≤ n then none else some { h with entries := h.entries.take (half - n) })) ∧
      ((c.s.cluster me).freeHamper = none →
        (c.popPlan l n).out = (h.entries.take (min half n)).reverse ∧
        ∃ y, (c.popPlan l n).clusters = [(v, y)] ∧
          (y.hampers.get? k = if h.entries.length ≤ min half n then none
            else some { h with entries := h.entries.drop (min half n) }))) ∧
    ((∀ k, k / 50 = me / 50 → own k = []) →
      (c.popPlan l n).clusters = [] ∧ l.ovfHead ≤ (c.popPlan l n).head ∧ (c.popPlan l n).head ≤ max l.ovfHead l.ovfTail ∧
      ∀ e ∈ (c.popPlan l n).out, ∀ f ∈ (c.popPlan l n).out, taskPc e = taskPc f)

/-- R364, R366 to R370: TKPOP delivers what it takes to the counted lanes from the lowest up, completing entries they held, and
gives the others the status; TKDONE completes the entries held; TKCANCEL changes the cancel set lane by lane; TKSTAT
answers the counts. Operands out of range, and an add to a full set, raise the task trap. (Here with no other wave's
region having read the launch's task state, a readable overflow region, and nothing pending in memory where it is read.) -/
def Sys2Proof.Machine.Spec.taskEffectsHold : Prop :=
  ∀ (s : State) (c : Ctx) (l : Launch) (d a b : Reg), s.launches.get? c.t.lid = some l → c.w.region = none →
    s.readers [.task c.t.lid] (some c.wid) = [] →
    let trap : Out := .next (s.raise c.wid ⟨.task, c.cnt, 0, 0, none⟩ c.set c.pc c.word)
    (Ready s (.tkpop d) c → agreed (.tkpop d) c → overflowReadable c l → ∀ status : Nat,
      let c1 := popped c l
      let x := c1.popPlan l (lanesOf c.cnt).length
      let got := ((lanesOf c.cnt).zip x.out)
      (c.popVas l ≠ [] → s.pend = [] ∧ cleanHost s) → (launchDone c1 l x → status = 1) → (¬ launchDone c1 l x → status = 0) →
      OnlyAccess s c1.s c.wid ∧ c1.s.waves = s.waves ∧ (c.popVas l = [] → c1.s = s) ∧
      ∃ (t : State) (val : Nat → Nat → Word), exec (.tkpop d) s = .next t ∧
        Ends { x.put c1.s with launches := s.launches.put c.t.lid { l with
            ovfHead := x.head, inFlight := l.inFlight - heldTasks c + got.length } } t c
          { c.owing d 8 val (fun _ => 0) with holds := (c.w.holds &&& ~~~c.cnt) ||| maskOf (got.map (·.1)) }
          (fun _ => c.pc + 4) ∧
        (∀ k e, k ∈ got → e = k.2 → ∀ i, i < 8 → val k.1 i = e.getD i 0) ∧
        (∀ m i, i < 8 → hasLane c.cnt m = true → m ∉ got.map (·.1) → val m i = noEntry status i) ∧
        ∀ m i, hasLane c.cnt m = false → val m i = 0) ∧
    (Ready s .tkdone c → ∃ t, exec .tkdone s = .next t ∧
      Ends (if heldTasks c = 0 then s else { s with
          launches := s.launches.put c.t.lid { l with inFlight := l.inFlight - heldTasks c } }) t c
        { c.w with holds := c.w.holds &&& ~~~c.cnt } fun _ => c.pc + 4) ∧
    (Ready s (.tkcancel a b) c →
      (c.cnt ≠ 0 → (∃ m, hasLane c.cnt m = true ∧ (2 ^ 16 ≤ (c.reg a m).toNat ∨ 1 < (c.reg b m).toNat)) →
        exec (.tkcancel a b) s = trap) ∧
      (∀ (Z : Nat → List Nat) (k n : Nat), Z 0 = l.cancel → (∀ j m, j < k → (lanesOf c.cnt)[j]? = some m →
          cancelled (Z j) (Z (j + 1)) (c.reg a m).toNat (c.reg b m).toNat) → (lanesOf c.cnt)[k]? = some n → c.reg b n = 0 →
        (c.reg a n).toNat ∉ Z k → 256 ≤ (Z k).length → exec (.tkcancel a b) s = trap) ∧
      (∀ Z : Nat → List Nat, Z 0 = l.cancel → (∀ k m, (lanesOf c.cnt)[k]? = some m → (c.reg a m).toNat < 2 ^ 16 ∧
          cancelled (Z k) (Z (k + 1)) (c.reg a m).toNat (c.reg b m).toNat) →
        ∃ t, exec (.tkcancel a b) s = .next t ∧
          Ends { s with launches := s.launches.put c.t.lid { l with cancel := Z (lanesOf c.cnt).length } } t c c.w
            fun _ => c.pc + 4)) ∧
    (Ready s (.tkstat d a) c →
      ((∃ m, hasLane c.cnt m = true ∧ 3 < (c.reg a m).toNat) → exec (.tkstat d a) s = trap) ∧
      (c.cnt ≠ 0 → (∀ m, hasLane c.cnt m = true → (c.reg a m).toNat ≤ 3) → mayReadWords c →
        let count (k : Nat) : Nat := match k with
          | 0 => ((ownHampers (s.cluster c.t.cluster) c.t.lid).map fun e => e.2.entries.length).sum
          | 1 => l.ovfTail - l.ovfHead
          | 2 => l.inFlight
          | _ => l.cancel.length
        ∃ t, exec (.tkstat d a) s = .next t ∧
          Ends s t c (reading c (c.unit (d, 1)) [.task c.t.lid] (c.owing d 1 (fun m _ =>
            if hasLane c.cnt m = true then BitVec.ofNat 32 (count (c.reg a m).toNat) else 0) fun _ => 0)) fun _ => c.pc + 4))

/-- Tasks: TKPUSH, TKPOP, TKDONE, TKCANCEL and TKSTAT. -/
def Obligations.Tasks : Prop :=
  Sys2Proof.Machine.Spec.taskPushesHold ∧ Sys2Proof.Machine.Spec.taskStopsHold ∧ Sys2Proof.Machine.Spec.taskSourcesHold ∧ Sys2Proof.Machine.Spec.taskEffectsHold

namespace Sys2Proof.Machine.Spec

/-- A claim of registers that leaves every wave of the team waiting with no claim that can be met (R363). -/
def deadlocks (c : Ctx) (n : Nat) : Prop :=
  let claims := c.t.claims ++ [(c.w.idx, n)]
  (∃ i k rest, claims = (i, k) :: rest ∧ c.t.pool < 8 * k) ∧
  ∀ e ∈ c.s.waves, e.2.tid = c.w.tid → e.2.retired = true ∨ ∃ q ∈ claims, q.1 = e.2.idx

/-- A wave's registers with others of its allocation from `lo` on that read 0 (R128). -/
def zeroFrom (w : Wave) (lo : Nat) (regs : Tbl Word) : Prop :=
  (∀ n l, n < lo → l < 64 → regs.get 0 (64 * n + l) = w.regs.get 0 (64 * n + l)) ∧
  ∀ n l, lo ≤ n → l < 64 → regs.get 0 (64 * n + l) = 0

/-- The claims of a team end one after the other, each in a trap of its wave with its own count (R363). -/
def claimTraps (tid : Nat) (claims : List (Nat × Nat)) (S : Nat → State) : Prop :=
  ∀ j i n, claims[j]? = some (i, n) →
    let wid := 16 * tid + i
    ((S j).waves.get? wid = none → S (j + 1) = S j) ∧
    ∀ w, (S j).waves.get? wid = some w →
      let set := w.waiting.getD 0
      S (j + 1) = ((S j).setWave wid { w with claiming := none }).raise wid
        ⟨.claimDeadlock, set &&& ~~~w.helper, BitVec.ofNat 32 n, 0, none⟩ set (pcOfLane w.pcs (lowestLane set)) (w.claiming.getD 0)

/-- The range of addresses a TLBINV names at S (R413), as first and past the last, for the issuing team's owner; at M the
owner stands in d[21:16]. -/
def invalidated (c : Ctx) (d a k : Nat) (own lo hi : Nat) : Prop :=
  let size := 2 ^ (16 + k % 64)
  let va := (d % 2 ^ 9 * 2 ^ 48 + a * 2 ^ 16) / size * size
  let rest := if c.w.level = .m then d - d / 2 ^ 16 * 2 ^ 16 else d
  (if c.w.level = .m then own = d / 2 ^ 16 ∧ own < 64 else own = c.t.owner) ∧
  (if 64 ≤ k then a = 0 ∧ rest = 0 ∧ lo = 0 ∧ hi = 2 ^ 57 else rest < 2 ^ 9 ∧ lo = va ∧ hi = va + size)

/-- No held translation or pointer of an owner overlaps a range (R218). -/
def untranslated (s : State) (own lo hi : Nat) : Prop :=
  let clear (t : Trans) : Prop := ¬ (t.owner = own ∧ t.page * 2 ^ t.bits < hi ∧ lo < (t.page + 1) * 2 ^ t.bits)
  (∀ k t, t ∈ (s.core k).tlb → clear t) ∧ (∀ k j t, (s.core k).lastPage.get? j = some t → clear t) ∧
  ∀ k e, e ∈ (s.die k).walk →
    ¬ (e.owner = own ∧ e.path * 2 ^ levelBits e.level < hi ∧ lo < (e.path + 1) * 2 ^ levelBits e.level)

/-- Nothing of an owner that was translated before an issue is still to be performed (R218). -/
def drainedBefore (s : State) (own n : Nat) : Prop :=
  (∀ e ∈ s.waves, ∀ m, s.teams.get? e.2.tid = some m → m.owner = own →
    (∀ x ∈ e.2.sbuf ++ e.2.spilling.getD [], n ≤ x.seq) ∧ (∀ r, e.2.region = some r → n ≤ r.seq) ∧
    (∀ q op b ls a, e.2.irrev = some (.atom q op b ls a) → n ≤ q) ∧ ∀ q z ls, e.2.irrev = some (.load q z ls) → n ≤ q) ∧
  ∀ e ∈ s.cmds, e.2.owner = own → e.2.seq < n → (∀ r ∈ s.fabOut, ∀ y, r.who ≠ .elem e.1 y) ∧
    ∀ t m ib out q bags, e.2.kind = .embag t m ib out q bags → ∀ g ∈ bags, ∀ i, i < g.count →
      (e.2.got.get? (2 ^ 41 + g.lane * 2 ^ 16 + i)).isSome = true →
        ∀ k, k < t.dim → 2 ^ 40 + (g.lane * 2 ^ 16 + i) * 4096 + k ∈ e.2.done

/-- The CSRs of R415 as a wave of an owner reads them. -/
def csrValue (c : Ctx) (k : Nat) (v : Word) : Prop :=
  (k = 0 → v = Config.version) ∧ (k = 1 → v = BitVec.ofNat 32 c.t.owner) ∧
  (k = 2 → v = (c.t.slot.elim 0xFFFFFFFF (BitVec.ofNat 32 ·))) ∧ (k = 3 → v = BitVec.ofNat 32 c.s.drainDl) ∧
  (k = 4 → v = c.s.fabTmo) ∧
  (k = 8 → v = BitVec.ofNat 32 (c.s.hdm.size % 2 ^ 9 + c.s.hdm.key % 2 ^ 7 * 2 ^ 16 + c.s.hdm.base % 4 * 2 ^ 30)) ∧
  (k = 9 → v = BitVec.ofNat 32 (c.s.hdm.base / 4 % 2 ^ 9 + if c.s.hdm.en then 2 ^ 31 else 0)) ∧
  (k = 10 → v = BitVec.ofNat 32 c.s.biasBase) ∧ (k = 11 → v = BitVec.ofNat 32 (c.s.biasBase / 2 ^ 32))

/-- The machine after a CSR takes a value (R244, R245, R415). While EN is set only EN itself can change. -/
def csrWritten (s : State) (k : Nat) (v : Nat) : State :=
  let h := s.hdm
  let cleared (size : Nat) : Tbl Byte := s.mem.filter fun e => !(decide (s.biasBase ≤ e.1) && decide (e.1 < s.biasBase + size * 2 ^ 15))
  match k with
  | 3 => if 1 ≤ v ∧ v ≤ 1000000 then { s with drainDl := v } else s
  | 4 => { s with fabTmo := BitVec.ofNat 32 v }
  | 8 => if h.en = true ∨ 256 < field v 0 9 then s
    else { s with hdm := { h with size := field v 0 9, key := field v 16 7, base := h.base / 4 * 4 + field v 30 2 } }
  | 9 => if h.en = true then { s with hdm := { h with en := v.testBit 31 } }
    else { s with
      hdm := { h with en := v.testBit 31, base := field v 0 9 * 4 + h.base % 4 }
      mem := if v.testBit 31 then cleared h.size else s.mem }
  | 10 => { s with biasBase := s.biasBase / 2 ^ 32 * 2 ^ 32 + v / 2 ^ 15 * 2 ^ 15 }
  | 11 => { s with biasBase := v * 2 ^ 32 + s.biasBase % 2 ^ 32 }
  | _ => s

end Sys2Proof.Machine.Spec

/-- R127 to R129, R362, R363, R388: REGCLM takes 8k registers from the team's pool, which read zero, or waits in order behind
earlier claims; REGCLM_GRANT meets the oldest claim when the pool can; REGREL returns the top 8k registers, with no class V
result outstanding; WBASE sets the window base, in a handler the interrupted code's; REGSTAT answers pool and allocation.
A claim past 512, a release past the window, and a base past the allocation raise the window trap. WBASE's $tval there is the
model's choice, log entry 59, and so is that a claim is granted or judged a deadlock as it issues, log entry 18. -/
def Sys2Proof.Machine.Spec.registerPoolHold : Prop :=
  (∀ (s : State) (c : Ctx) (k : Nat),
    let trap : Out := .next (s.raise c.wid ⟨.window, c.cnt, BitVec.ofNat 32 k, 0, none⟩ c.set c.pc c.word)
    (Ready s (.regclm k) c → c.cnt ≠ 0 → c.w.region = none →
      (512 < c.w.alloc + 8 * k → c.w.retired = false → (∀ q ∈ c.t.claims, q.1 ≠ c.w.idx) → exec (.regclm k) s = trap) ∧
      (c.t.claims = [] → c.w.alloc + 8 * k ≤ 512 → 8 * k ≤ c.t.pool →
        ∃ (t : State) (regs : Tbl Word), exec (.regclm k) s = .next t ∧ zeroFrom c.w c.w.alloc regs ∧
          Ends { s with teams := s.teams.upd c.w.tid fun m => { m with pool := m.pool - 8 * k } } t c
            { c.w with alloc := c.w.alloc + 8 * k, regs := regs } fun _ => c.pc + 4) ∧
      (c.w.alloc + 8 * k ≤ 512 → (c.t.claims ≠ [] ∨ c.t.pool < 8 * k) → ¬ deadlocks c k →
        exec (.regclm k) s = .next { s with
          teams := s.teams.put c.w.tid { c.t with claims := c.t.claims ++ [(c.w.idx, k)] }
          waves := s.waves.put c.wid { c.w with claiming := some c.word, waiting := some s.cur.set } })) ∧
    (Ready s (.regrel k) c → c.cnt ≠ 0 → c.w.region = none →
      (c.w.alloc < 8 * k + 8 ∨ c.w.alloc < 8 * k + c.w.base + 8 → exec (.regrel k) s = trap) ∧
      (8 * k + 8 ≤ c.w.alloc → 8 * k + c.w.base + 8 ≤ c.w.alloc → c.w.outst ≠ [] → exec (.regrel k) s = .next s.wait) ∧
      (8 * k + 8 ≤ c.w.alloc → 8 * k + c.w.base + 8 ≤ c.w.alloc → c.w.outst = [] →
        ∃ (t : State) (regs : Tbl Word), exec (.regrel k) s = .next t ∧ zeroFrom c.w (c.w.alloc - 8 * k) regs ∧
          Ends { s with teams := s.teams.upd c.w.tid fun m => { m with pool := m.pool + 8 * k } } t c
            { c.w with alloc := c.w.alloc - 8 * k, regs := regs } fun _ => c.pc + 4)) ∧
    (Ready s (.wbase k) c → c.cnt ≠ 0 →
      (c.w.alloc < 8 * k + 8 → exec (.wbase k) s = trap) ∧
      (8 * k + 8 ≤ c.w.alloc → ∃ t, exec (.wbase k) s = .next t ∧
        Ends s t c { c.w with base := 8 * k, recd := c.w.recd.map fun r => { r with base := 8 * k } } fun _ => c.pc + 4)) ∧
    ∀ d, Ready s (.regstat d) c → c.cnt ≠ 0 → ∃ t, exec (.regstat d) s = .next t ∧
      Ends s t c (c.owing d 1 (fun _ _ => BitVec.ofNat 32 (c.t.pool % 2 ^ 11 * 2 ^ 11 + c.w.alloc % 2 ^ 11)) fun _ => 0)
        fun _ => c.pc + 4) ∧
  (∀ (s : State) (tid i n : Nat) (rest : List (Nat × Nat)) (m : Team) (w : Wave) (set : Mask), s.ev.x = tid →
    s.teams.get? tid = some m → m.claims = (i, n) :: rest → 8 * n ≤ m.pool → s.failed m.lid = false →
    s.waves.get? (16 * tid + i) = some w → w.tid = tid → w.waiting = some set →
    let wid := 16 * tid + i
    let pc := pcOfLane w.pcs (lowestLane set)
    let word := w.claiming.getD 0
    let c : Ctx := ⟨s, wid, w, m, set &&& w.live, pc, word⟩
    ∃ (t : State) (regs : Tbl Word), exec .regclmGrant s = .next t ∧ zeroFrom w w.alloc regs ∧
      Ends { s with teams := s.teams.upd tid (fun m => { m with claims := rest, pool := m.pool - 8 * n }), cur := ⟨wid, set, pc, word⟩ }
        t c { w with alloc := w.alloc + 8 * n, claiming := none, regs := regs } fun _ => pc + 4)

/-- R24, R363: a REGCLM that leaves every wave of its team waiting in one, with the oldest claim larger than the pool, ends all
of the team's claims: each waiting wave raises the register-claim-deadlock trap at its REGCLM with its own count and
nothing claimed. That a claim the pool could still meet is no deadlock, and that a retirement is judged the same way, is
log entry 18. -/
def Sys2Proof.Machine.Spec.claimDeadlockHold : Prop :=
  ∀ (s : State) (c : Ctx) (k : Nat), Ready s (.regclm k) c → c.cnt ≠ 0 → c.w.region = none → c.w.alloc + 8 * k ≤ 512 →
    deadlocks c k →
    ∃ S : Nat → State, claimTraps c.w.tid (c.t.claims ++ [(c.w.idx, k)]) S ∧
      S 0 = { s with
        teams := s.teams.put c.w.tid { c.t with claims := [] }
        waves := s.waves.put c.wid { c.w with claiming := some c.word, waiting := some s.cur.set } } ∧
      exec (.regclm k) s = .next (S (c.t.claims.length + 1))

/-- R218, R412 to R416: the SYS group where its level allows it. TLBINV drops every held translation of its range, then goes
on once nothing translated before is unperformed; ICINV empties the instruction caches; CSRRD and CSRWR read and write
the CSRs; PERFRD answers a counter of the core; HALT stops the core from issuing. A set of helper lanes alone has no effect.
That TLBINV drops at its first execution and waits then, and for what it waits, is log entry 31; that CSR_HDMCFG's words are
the fields of R244 by halves is as R415 lays them out. -/
def Obligations.SystemEffects : Prop :=
  (∀ (s : State) (c : Ctx) (d a : Reg) (k own lo hi : Nat), Ready s (.tlbinv d a k) c → c.cnt ≠ 0 → c.w.region = none →
    invalidated c (uval c d) (uval c a) k own lo hi →
    (c.w.fence = none → drainedBefore s own s.seq → Tbl.ascending 0 s.cores = true → Tbl.ascending 0 s.dies = true →
      ∃ sB t, exec (.tlbinv d a k) s = .next t ∧ sB = { s with cores := sB.cores, dies := sB.dies } ∧ untranslated t own lo hi ∧
        (∀ j, sB.core j = { s.core j with tlb := (sB.core j).tlb, lastPage := (sB.core j).lastPage }) ∧
        (∀ j, sB.die j = { s.die j with walk := (sB.die j).walk }) ∧
        (∀ j x, x ∈ (s.core j).tlb → x.owner ≠ own → x ∈ (sB.core j).tlb) ∧ Ends sB t c c.w fun _ => c.pc + 4) ∧
    (c.w.fence = none → ¬ drainedBefore s own s.seq → Tbl.ascending 0 s.cores = true → Tbl.ascending 0 s.dies = true →
      ∃ t w', exec (.tlbinv d a k) s = .next t ∧ untranslated t own lo hi ∧ t.waves.get? c.wid = some w' ∧
        w' = { c.w with fence := some s.seq, waiting := some s.cur.set }) ∧
    (∀ n, c.w.fence = some n →
      (drainedBefore s own n → ∃ t, exec (.tlbinv d a k) s = .next t ∧ Ends s t c { c.w with fence := none } fun _ => c.pc + 4) ∧
      (¬ drainedBefore s own n → exec (.tlbinv d a k) s = .next s.wait))) ∧
  (∀ (s : State) (c : Ctx) (k : Nat), Ready s (.icinv k) c → c.cnt ≠ 0 → k ≤ 1 →
    ∃ (t : State) (kept : Tbl (Tbl (Nat × Word))), exec (.icinv k) s = .next t ∧
      Ends { s with icache := kept } t c c.w (fun _ => c.pc + 4) ∧
      ∀ j, kept.get [] j = if k = 1 ∨ j = 4 * c.t.cluster + c.t.pos then [] else s.icache.get [] j) ∧
  (∀ (s : State) (c : Ctx) (d : Reg) (k : Nat) (v : Word), Ready s (.csrrd d k) c → c.cnt ≠ 0 → k ≤ 4 ∨ (8 ≤ k ∧ k ≤ 11) →
    csrValue c k v →
    ∃ t, exec (.csrrd d k) s = .next t ∧ Ends s t c (c.owing d 1 (fun _ _ => v) fun _ => 0) fun _ => c.pc + 4) ∧
  (∀ (s : State) (c : Ctx) (a : Reg) (k : Nat), Ready s (.csrwr a k) c → c.cnt ≠ 0 → k = 3 ∨ k = 4 ∨ (8 ≤ k ∧ k ≤ 11) →
    ∃ t, exec (.csrwr a k) s = .next t ∧ Ends (csrWritten s k (uval c a)) t c c.w fun _ => c.pc + 4) ∧
  (∀ (s : State) (c : Ctx) (d : Reg) (k : Nat), Ready s (.perfrd d k) c → c.cnt ≠ 0 →
    let core := 4 * c.t.cluster + c.t.pos
    ∃ t, exec (.perfrd d k) s = .next t ∧
      Ends s t c (c.owing d 1 (fun _ _ => BitVec.ofNat 32 ((s.core core).perf.get 0 k)) fun _ => 0) fun _ => c.pc + 4) ∧
  (∀ (s : State) (c : Ctx), Ready s .halt c → c.cnt ≠ 0 →
    let core := 4 * c.t.cluster + c.t.pos
    ∃ t, exec .halt s = .next t ∧ Ends (s.updCore core fun k => { k with halted := true }) t c c.w (fun _ => c.pc + 4) ∧
      (∀ w m, s.teams.get? w.tid = some m → 4 * m.cluster + m.pos = core → t.mayIssue w m = false)) ∧
  (∀ (s : State) (i : Instr) (c : Ctx), (i = .halt ∨ (∃ k, i = .icinv k) ∨ (∃ d a k, i = .tlbinv d a k) ∨ ∃ a k, i = .csrwr a k) →
    Ready s i c → c.cnt = 0 → ∃ t, exec i s = .next t ∧ Ends s t c c.w fun _ => c.pc + 4)

/-- The register pool: claims, releases, the window base, and the deadlock of claims. -/
def Obligations.RegisterPool : Prop :=
  Sys2Proof.Machine.Spec.registerPoolHold ∧ Sys2Proof.Machine.Spec.claimDeadlockHold

namespace Sys2Proof.Machine.Spec

/-- The launch that the 64 bytes of record n of a queue describe (R59 to R61), as taken. -/
def launchOf (own q n : Nat) (bs : List Byte) (l : Launch) : Prop :=
  let f (o k : Nat) : Nat := fieldAt bs o k
  let p (v : Nat) : Option Pred :=
    if field v 63 1 = 1 then some ⟨decide (field v 62 1 = 1), field v 56 6, field v 0 48⟩ else none
  (l.owner = own ∧ l.queue = q ∧ l.seq = n) ∧
  (l.image = f 0 8 ∧ l.args = f 8 8 ∧ l.compl = f 16 8 ∧ l.pred0 = p (f 24 8) ∧ l.pred1 = p (f 32 8) ∧ l.ovf = f 40 8 ∧
    l.ovfN = f 48 4 ∧ l.gangs = f 52 4 ∧ l.threadsO = f 56 2 ∧ l.regsO = f 58 2 ∧ l.prio = field (f 60 4) 0 2 ∧
    l.colaunch = decide (field (f 60 4) 2 1 = 1) ∧ l.persist = decide (field (f 60 4) 3 1 = 1) ∧
    l.notify = decide (field (f 60 4) 4 1 = 1) ∧ l.gangO = field (f 60 4) 10 3 ∧ l.banksO = field (f 60 4) 13 4 ∧
    l.localO = field (f 60 4) 17 14) ∧
  l.stage = .taken ∧ l.shape = none ∧ l.nextGang = 0 ∧ l.gangsDone = 0 ∧ l.trigDone = 0 ∧ l.inFlight = 0

/-- A field of a record offends (R62), by its byte offset. -/
def offends (q n : Nat) (bs : List Byte) (off : Nat) : Prop :=
  let f (o k : Nat) : Nat := fieldAt bs o k
  let badPred (v : Nat) : Prop := if field v 63 1 = 1 then field v 48 8 ≠ 0 ∨ (field v 56 6 = q ∧ n ≤ field v 0 48) else v ≠ 0
  let ctrl := f 60 4
  (off = 0 ∧ (f 0 8 % 256 ≠ 0 ∨ 2 ^ 57 ≤ f 0 8)) ∨ (off = 8 ∧ 2 ^ 57 ≤ f 8 8) ∨ (off = 24 ∧ badPred (f 24 8)) ∨
  (off = 32 ∧ badPred (f 32 8)) ∨
  (off = 40 ∧ (f 40 8 % 256 ≠ 0 ∨ 2 ^ 57 ≤ f 40 8 ∨ (f 48 4 = 0 ∧ f 40 8 ≠ 0))) ∨
  (off = 48 ∧ field ctrl 3 1 = 1 ∧ f 48 4 = 0) ∨ (off = 52 ∧ f 52 4 = 0) ∨ (off = 56 ∧ 1024 < f 56 2) ∨
  (off = 58 ∧ f 58 2 ≠ 0 ∧ (f 58 2 < 8 ∨ 512 < f 58 2 ∨ f 58 2 % 8 ≠ 0)) ∨
  (off = 60 ∧ (field ctrl 31 1 = 1 ∨ field ctrl 5 5 ≠ 0 ∨ 4097 < field ctrl 17 14 ∨ 9 < field ctrl 13 4 ∨ 4 < field ctrl 10 3))

/-- How a predecessor stands (R63 to R65): satisfied, failed, or neither while it is waited for. -/
def stands (s : State) (own : Nat) (p : Option Pred) (sat failed : Prop) : Prop :=
  match p with
  | none => sat ∧ ¬ failed
  | some p =>
    (∀ e ∈ s.launches, e.2.owner = own → e.2.queue = p.queue → e.2.seq = p.seq →
      (sat ↔ p.trigger = true ∧ e.2.allTriggered = true) ∧ ¬ failed) ∧
    ((∀ e ∈ s.launches, ¬ (e.2.owner = own ∧ e.2.queue = p.queue ∧ e.2.seq = p.seq)) →
      (s.queue? own p.queue = none → ¬ sat ∧ ¬ failed) ∧
      ∀ x, s.queue? own p.queue = some x →
        (∀ v, x.outcomes.get? p.seq = some v → (sat ↔ v = 1) ∧ (failed ↔ v ≠ 1)) ∧
        (x.outcomes.get? p.seq = none → (sat ↔ p.seq < x.taken) ∧ ¬ failed))

/-- No two launches in the table are the same record of the same queue. -/
def launchesApart (s : State) : Prop :=
  ∀ a ∈ s.launches, ∀ b ∈ s.launches, a.2.owner = b.2.owner → a.2.queue = b.2.queue → a.2.seq = b.2.seq → a = b

/-- A dependant after its predecessor has completed with a status (R63, R64). -/
def informed (l : Launch) (status : Nat) (d d' : Launch) : Prop :=
  let names (p : Option Pred) : Prop := ∃ x, p = some x ∧ x.queue = l.queue ∧ x.seq = l.seq
  let hit0 := d.owner = l.owner ∧ names d.pred0
  let hit1 := d.owner = l.owner ∧ names d.pred1
  d' = { d with sat0 := d'.sat0, sat1 := d'.sat1, fail := d'.fail } ∧
  (status = 1 → (d'.sat0 = true ↔ d.sat0 = true ∨ hit0) ∧ (d'.sat1 = true ↔ d.sat1 = true ∨ hit1) ∧ d'.fail = d.fail) ∧
  (status ≠ 1 → d'.sat0 = d.sat0 ∧ d'.sat1 = d.sat1 ∧
    (d.fail = none → d.stage ≠ .running → hit0 → d.sat0 = false → d'.fail = some (6, 0)) ∧
    (d.fail = none → d.stage ≠ .running → ¬ (hit0 ∧ d.sat0 = false) → hit1 → d.sat1 = false → d'.fail = some (6, 1)) ∧
    (d.fail ≠ none ∨ d.stage = .running ∨ (¬ (hit0 ∧ d.sat0 = false) ∧ ¬ (hit1 ∧ d.sat1 = false)) → d'.fail = d.fail))

/-- A launch completes with a status and detail (R72, R63 to R65): its word is stored where it can be, it leaves the table,
its outcome is kept, its dependants are released or fail. -/
def completes (s : State) (lid : Nat) (l : Launch) (status detail : Nat) (t : State) : Prop :=
  t.launches.get? lid = none ∧
  (∀ s1, l.notify = false → s.frontWrite l.owner l.compl
      (leBytes 8 (status + 256 * min l.gangsDone 0xFFFFFF + 2 ^ 32 * (detail % 65536))) = .ok s1 → SameBytes s1 t) ∧
  (∀ x e, s.queue? l.owner l.queue = some x → e ∈ t.launches → e.2.owner = l.owner → e.2.queue = l.queue → e.2.seq ≤ l.seq →
    ∃ x', t.queue? l.owner l.queue = some x' ∧ x'.outcomes.get? l.seq = some status) ∧
  (∀ k d, k ≠ lid → s.launches.get? k = some d → ∃ d', t.launches.get? k = some d' ∧ informed l status d d') ∧
  (∀ d ∈ t.drains, d.lid ≠ lid) ∧ ∀ k x, t.clusters.get? k = some x → x.setAside ≠ some lid

/-- The team shape of an image's descriptor and a launch's overrides (R59, R60, R77). -/
def shaped (bs : List Byte) (l : Launch) (x : Shape) : Prop :=
  let f (o k : Nat) : Nat := fieldAt bs o k
  x.nWaves = (if l.threadsO = 0 then f 44 1 else (l.threadsO + 63) / 64) ∧
  x.nThreads = (if l.threadsO = 0 then f 46 2 else l.threadsO) ∧ x.regs = (if l.regsO = 0 then f 42 2 else l.regsO) ∧
  x.localBytes = (if l.localO = 0 then f 48 4 else (l.localO - 1) * 128) ∧ x.nTeams = (if l.gangO = 0 then f 45 1 else l.gangO) ∧
  x.banks = (if l.banksO = 0 then f 52 1 else l.banksO - 1) ∧ x.entry = l.image + f 12 4 ∧
  x.trapvec = (if f 56 4 = 0 then none else some (l.image + f 56 4)) ∧ x.fpmode = f 60 4 ∧ x.seed = f 64 4

/-- The sections and the relocation table of an image: offset and length (R42). -/
def imageParts (bs : List Byte) : List (Nat × Nat) :=
  let f (o k : Nat) : Nat := fieldAt bs o k
  ([(f 16 4, f 20 4), (f 24 4, f 28 4), (f 32 4, f 36 4), (f 68 4, 16 * f 72 4)] : List (Nat × Nat)).filter fun p => p.2 != 0

/-- Condition n of R45, 1 to 11, for a descriptor's bytes and a launch of shape x. -/
def imageFault (bs : List Byte) (l : Launch) (x : Shape) (n : Nat) : Prop :=
  let f (o k : Nat) : Nat := fieldAt bs o k
  let len := f 8 4
  let inCode (o : Nat) : Prop := f 16 4 ≤ o ∧ o < f 16 4 + f 20 4
  let signature : List (Nat × Nat) := if f 80 4 = 0 then [] else [(f 76 4, f 80 4)]
  match n with
  | 1 => f 0 4 ≠ 0x4C554946 ∨ f 4 2 ≠ 1
  | 2 => (∃ k, (k = 53 ∨ k = 54 ∨ k = 55 ∨ (84 ≤ k ∧ k < 128)) ∧ f k 1 ≠ 0) ∨ 4 ≤ f 6 2 ∨ 16 ≤ f 60 4
  | 3 => ¬ ((f 80 4 = if f 76 4 = 0 then 0 else 3320) ∧ (f 76 4 ≠ 0 → len ≤ f 76 4 ∧ f 76 4 % 8 = 0) ∧
      (field (f 6 2) 1 1 = 1 ↔ f 76 4 ≠ 0) ∧ f 68 4 % 8 = 0 ∧ (f 72 4 = 0 → f 68 4 = 0) ∧ f 56 4 % 4 = 0 ∧ f 12 4 % 4 = 0 ∧
      8 ≤ x.regs ∧ x.regs ≤ 512 ∧ x.regs % 8 = 0 ∧ 1 ≤ x.nWaves ∧ x.nWaves ≤ 16 ∧ 1 ≤ x.nTeams ∧ x.nTeams ≤ 4 ∧
      x.localBytes % 128 = 0 ∧ x.localBytes ≤ 524288 ∧ x.banks ≤ 8 ∧ (∃ k, 3 ≤ k ∧ k ≤ 12 ∧ f 40 2 = 2 ^ k) ∧
      (f 36 4 = 0 → f 32 4 = 0) ∧ (f 28 4 = 0 → f 24 4 = 0) ∧ f 16 4 % 128 = 0 ∧ f 24 4 % 128 = 0 ∧
      4 ≤ f 20 4 ∧ f 20 4 % 4 = 0 ∧ len ≤ 2 ^ 26)
  | 4 => (∃ p ∈ imageParts bs, len < p.1 + p.2) ∨ ¬ (imageParts bs ++ signature).Pairwise fun p q => apart p.1 p.2 q.1 q.2
  | 5 => ¬ inCode (f 12 4) ∨ (f 56 4 ≠ 0 ∧ ¬ inCode (f 56 4))
  | 6 => ¬ (64 * (x.nWaves - 1) < x.nThreads ∧ x.nThreads ≤ 64 * x.nWaves)
  | 7 => 1024 < x.regs * x.nWaves
  | 8 => 8 < x.nTeams * x.banks
  | 9 => l.args % f 40 2 ≠ 0 ∨ (l.args ≠ 0 ∧ f 36 4 = 0)
  | 10 => ¬ (l.persist = true ↔ field (f 6 2) 0 1 = 1)
  | 11 => 0xFFFFFFFF < l.gangs * x.nTeams
  | _ => False

/-- The front must load the tail of a queue in host mode: it holds no copy of the word that TAIL_VA names now (R56). -/
def tailAsked (s : State) (own : Nat) (x : Queue) : Prop :=
  x.desc.mode ≠ 1 ∧ ∀ c, x.copy = some c → ∃ tr p, s.frontAccess own .load x.desc.tail.toNat = .ok tr p ∧ c ≠ (p.sp, p.addr)

/-- The state as the front reads the tail word (R56, R332). -/
def tailState (s : State) (own : Nat) (x : Queue) : State := s.frontReady own x.desc.tail.toNat 8

/-- The front has the records of a running queue up to a tail: it loads the word first where it has no copy, and keeps one
(R56). -/
def tailKnown (s : State) (own q : Nat) (x : Queue) (s0 : State) (x0 : Queue) : Prop :=
  let u := tailState s own x
  s0.queue? own q = some x0 ∧
  (tailAsked s own x → ∃ v, u.frontWord own x.desc.tail.toNat = .ok v ∧ x.lastTail ≤ v ∧ v ≤ x.taken + 2 ^ x.desc.logSize ∧
    let s1 := u.updQueue own q fun y => { y with lastTail := v, copy := u.tailPlace own x }
    (u.tailPlace own x = none → s0 = s1) ∧ ∀ sp a, u.tailPlace own x = some (sp, a) → s0 = s1.watch 16 (lineId sp a) 0) ∧
  (¬ tailAsked s own x → s0 = s)

end Sys2Proof.Machine.Spec

/-- R56, R57, R61 to R65, R68: TAKE_RECORDS on one new record: where the completion word cannot be written nothing enters
the table; a record with an offending field completes with "bad record" at the lowest such offset; any other enters the
launch table as its bytes describe it. The head word is then stored once. A tail that cannot be loaded, falls, or runs
more than the slots ahead stalls the queue. What counts as an offending field is log entry 28, that the records up to a tail
are taken in one act log entry 36, that a completion word on a moving page cannot be written log entry 85, and what an
event of a stall carries log entry 65. -/
def Sys2Proof.Machine.Spec.takingRecordsHold : Prop :=
  ∀ (s : State) (x : Queue), s.queue? s.ev.x s.ev.y = some x → x.state = .running → launchesApart s →
    let own := s.ev.x
    let q := s.ev.y
    (tailAsked s own x →
      (∀ v, (tailState s own x).frontWord own x.desc.tail.toNat = .ok v → v < x.lastTail ∨ x.taken + 2 ^ x.desc.logSize < v) →
      ∃ t x', exec .takeRecords s = .next t ∧ t.queue? own q = some x' ∧ x'.state = .stalled ∧ x'.taken = x.taken ∧
        t.launches = s.launches) ∧
    ∀ (s0 : State) (x0 : Queue) (bs : List Byte), tailKnown s own q x s0 x0 →
      x0.desc = x.desc ∧ x0.taken = x.taken ∧ s0.launches = s.launches ∧ s0.nextLid = s.nextLid ∧
      (tailAsked s own x → x0.lastTail = x0.taken → exec .takeRecords s = .next s0) ∧
      let slot := x.desc.base.toNat + 64 * (x.taken % 2 ^ x.desc.logSize)
      let sR := s0.frontReady own slot 64
      (x0.lastTail = x0.taken + 1 → (∀ e ∈ s.launches, e.2.owner = own → e.2.queue = q → x.taken < e.2.seq + 4096) →
        s.launches.length < 4096 → (s.launches.filter fun e => e.2.owner = own).length < 32 →
        sR.frontRead own slot 64 = .ok bs →
        let compl := fieldAt bs 16 8
        let sA := sR.walkTouch own compl
        let writable : Prop := compl % 8 = 0 ∧ compl < 2 ^ 57 ∧ ∃ tr p, sA.frontAccess own .store compl = .ok tr p
        let s1 := sA.updQueue own q fun y => { y with taken := x.taken + 1 }
        let head (s' t : State) : Prop := s'.frontWrite own x.desc.head.toNat (leBytes 8 (x.taken + 1)) = .ok t
        (¬ writable → ∃ s2, (∀ t, head s2 t → exec .takeRecords s = .next t) ∧ s2.nextLid = s.nextLid ∧
          ∀ k, s.launches.get? k = none → s2.launches.get? k = none) ∧
        (writable → ∃ l, launchOf own q x.taken bs l ∧
          (stands s1 own l.pred0 (l.sat0 = true) (l.fail = some (6, 0)) ∧
            (l.fail ≠ some (6, 0) → stands s1 own l.pred1 (l.sat1 = true) (l.fail = some (6, 1)))) ∧
          let s2 := { s1 with launches := s1.launches.put s.nextLid l, nextLid := s.nextLid + 1 }
          ((∀ off, ¬ offends q x.taken bs off) → ∀ t, head s2 t → exec .takeRecords s = .next t) ∧
          ∀ off, offends q x.taken bs off → (∀ o, o < off → ¬ offends q x.taken bs o) → s.launches.get? s.nextLid = none →
            ∃ s3, completes s2 s.nextLid l 4 off s3 ∧ ∀ t, head s3 t → exec .takeRecords s = .next t))

/-- R53, R54, R76: QUEUE_ENABLE starts a configured, disabled queue with both counts at zero; QUEUE_RESET cancels every
launch of the queue that has placed no team, whatever has become of its predecessors, and disables the queue when no launch
of it is left. That the outcomes of the queue's earlier life are forgotten is log entry 35. -/
def Sys2Proof.Machine.Spec.queueStatesHold : Prop :=
  (∀ (s : State) (x : Queue), s.queue? s.ev.x s.ev.y = some x → x.state = .disabled → x.desc.logSize ≠ 0 → s.hk.ready = true →
    exec .queueEnable s = .next (s.updQueue s.ev.x s.ev.y fun _ =>
      { desc := x.desc, state := .running, taken := 0, lastTail := 0, copy := none, outcomes := [] })) ∧
  (∀ (s : State) (x : Queue), s.queue? s.ev.x s.ev.y = some x → x.state ≠ .disabled →
    let own := s.ev.x
    let q := s.ev.y
    let mine (l : Launch) : Prop := l.owner = own ∧ l.queue = q
    ∃ t x', exec .queueReset s = .next t ∧ t.queue? own q = some x' ∧ x'.taken = x.taken ∧
      ((∀ e ∈ t.launches, ¬ mine e.2) → x'.state = .disabled) ∧ ((∃ e ∈ t.launches, mine e.2) → x'.state = .resetting) ∧
      (Tbl.ascending 0 s.launches = true →
        (∀ e ∈ t.launches, mine e.2 → e.2.stage = .running) ∧
        (∀ k l, s.launches.get? k = some l → l.stage = .running ∨ ¬ mine l → ∃ l', t.launches.get? k = some l') ∧
        (∀ lid l, (∀ e ∈ s.launches, mine e.2 → e.2.stage ≠ .running → e.1 = lid) → s.launches.get? lid = some l → mine l →
          l.stage ≠ .running →
          let s1 := s.updQueue own q fun x => { x with state := .resetting }
          completes s1 lid l 9 0 t)))

/-- R44 to R49: IMAGE_CHECK of a released launch: an unreadable descriptor or image completes it as "bad image" with 12, the
first condition of R45 that holds with its number; an unsigned image passes under policy "optional", and is refused with 1
under "required"; a signed one is looked up among the verified images, else its bytes are read and its signature
verified: an empty key slot is 3, another failure 2. A launch that passes has its shape; the front watches the lines of an image
that it keeps, and keeps none of a peer's. Readings of R45's conditions are log entry 66, those of the signature's details, and
that the bytes are read before the slot is looked at, log entry 67. -/
def Obligations.ImageChecks : Prop :=
  ∀ (s : State) (lid : Nat) (l : Launch), s.ev.x = lid → s.launches.get? lid = some l → l.stage = .taken → l.fail = none →
    (∀ p, l.pred0 = some p → l.sat0 = true) → (∀ p, l.pred1 = some p → l.sat1 = true) →
    let sR := s.frontReady l.owner l.image 128
    let ends (u : State) (status detail : Nat) : Prop := ∃ t, exec .imageCheck s = .next t ∧ completes u lid l status detail t
    (∀ c, sR.frontRead l.owner l.image 128 = .error (.park c) → ends sR 2 12) ∧
    ∀ (bs : List Byte) (x : Shape), sR.frontRead l.owner l.image 128 = .ok bs → bs.length = 128 → shaped bs l x →
      (∀ n, imageFault bs l x n → (∀ m, m < n → ¬ imageFault bs l x m) → ends sR 2 n) ∧
      ((∀ n, ¬ imageFault bs l x n) → ∀ o, sR.owners.get? l.owner = some o →
        let passes (t : State) (imgs : List ImgEnt) : Prop := exec .imageCheck s = .next { t with
          launches := t.launches.put lid { l with stage := .checked, shape := some x }, imgCache := imgs }
        let others (t : State) : List ImgEnt := t.imgCache.filter fun i => ¬ (i.owner = l.owner ∧ i.va = l.image)
        (fieldAt bs 76 4 = 0 → (o.required = true → ends sR 3 1) ∧ (o.required = false → passes sR sR.imgCache)) ∧
        (fieldAt bs 76 4 ≠ 0 →
          let len := fieldAt bs 8 4
          (∀ e, sR.imgCache.find? (fun i => i.owner = l.owner ∧ i.va = l.image) = some e → passes sR ((e :: others sR).take 32)) ∧
          ((∀ e ∈ sR.imgCache, ¬ (e.owner = l.owner ∧ e.va = l.image)) →
            let sW := (sR.walksTouch l.owner l.image len).walksTouch l.owner (l.image + fieldAt bs 76 4) 3320
            (∀ c, sW.frontPieces l.owner l.image len = .error (.park c) → ends sW 2 12) ∧
            ∀ is sg, sW.frontPieces l.owner l.image len = .ok is → sW.frontPieces l.owner (l.image + fieldAt bs 76 4) 3320 = .ok sg →
            let t := sW.servePieces l.owner (is ++ sg)
            let image := t.readPieces is
            let block := t.readPieces sg
            let slot := fieldAt block 4 2
            let valid (key : List Byte) : Prop := fieldAt block 0 4 = 0x47534946 ∧ slot < 8 ∧ fieldAt block 6 2 = 3309 ∧
              fieldAt block 3317 3 = 0 ∧ mldsaVerify key (shake256 image 64) ((block.drop 8).take 3309) = true
            (slot < 8 → o.vkeys.get? slot = none → ends t 3 3) ∧
            (∀ key, o.vkeys.get? slot = some key → ¬ valid key → ends t 3 2) ∧
            (8 ≤ slot → ends t 3 2) ∧
            (∀ key, o.vkeys.get? slot = some key → valid key → 2 ^ 22 < len ∨ (∃ e ∈ is, e.1.sp = .peer) → passes t t.imgCache) ∧
            (∀ key, o.vkeys.get? slot = some key → valid key → len ≤ 2 ^ 22 → (∀ e ∈ is, e.1.sp ≠ .peer) →
              let kept : ImgEnt := ⟨l.owner, l.image, is.map fun e => (e.1.sp, e.1.addr, e.2)⟩
              passes (t.watchImage kept) ((kept :: others t).take 32)))))

/-- Launch queues: their states, and the records taken from them. -/
def Obligations.QueueRecords : Prop :=
  Sys2Proof.Machine.Spec.takingRecordsHold ∧ Sys2Proof.Machine.Spec.queueStatesHold

namespace Sys2Proof.Machine.Spec

/-- The teams that stay in a state, for the counts of R78 and R80. -/
def teamSum (s : State) (at_ : Team → Bool) (f : Team → Nat) : Nat := ((s.teams.filter fun e => at_ e.2).map fun e => f e.2).sum

/-- A cluster admits a gang of a launch (R17, R78, R80, R88). -/
def admits (s : State) (x own lid : Nat) (sh : Shape) : Prop :=
  let onCore (p : Nat) (m : Team) : Bool := 4 * m.cluster + m.pos == 4 * x + p
  let here (m : Team) : Bool := m.cluster == x
  let grouped (m : Team) : Prop := ∃ l y, s.launches.get? m.lid = some l ∧ l.shape = some y ∧ 2 ≤ y.nTeams
  let empty : Prop := ∀ e ∈ s.teams, e.2.cluster ≠ x
  let room : Prop := ∀ h ∈ (s.cluster x).hampers, ∀ l, s.launches.get? h.2.lid = some l →
    l.ovfTail - l.ovfHead + ((((s.cluster x).hampers.filter fun g => g.2.lid = h.2.lid).map fun g => g.2.entries.length).sum) ≤ l.ovfN
  (s.cluster x).inService = true ∧
  ((s.cluster x).owner = none ∨ (s.cluster x).owner = some own ∨ (empty ∧ room)) ∧
  ((s.cluster x).setAside = none ∨ (s.cluster x).setAside = some lid) ∧
  (2 ≤ sh.nTeams → empty) ∧ (∀ e ∈ s.teams, e.2.cluster = x → ¬ grouped e.2) ∧
  teamSum s here (fun _ => 1) + sh.nTeams ≤ 64 ∧ teamSum s here (·.banks) + sh.nTeams * sh.banks ≤ 8 ∧
  ∀ p, p < sh.nTeams → teamSum s (onCore p) (·.nWaves) + sh.nWaves ≤ 16 ∧ teamSum s (onCore p) (fun _ => 1) ≤ 15 ∧
    teamSum s (onCore p) (fun m => m.regsPer * m.nWaves) + sh.regs * sh.nWaves ≤ 1024 ∧
    teamSum s (onCore p) (·.localBytes) + sh.localBytes ≤ 524288

/-- A launch that the front may place now (R69, R70, R87). -/
def mayPlace (s : State) (lid : Nat) (l : Launch) : Prop :=
  s.launches.get? lid = some l ∧ l.stage ≠ .taken ∧ l.fail = none ∧ l.nextGang < l.gangs ∧
  (∀ e ∈ s.launches, e.2.owner = l.owner → e.2.queue = l.queue → e.2.seq < l.seq → e.1 ≠ lid → e.2.gangs ≤ e.2.nextGang) ∧
  (∀ e ∈ s.launches, e.1 ≠ lid → e.2.reserved = true → e.2.fail = none → l.prio < e.2.prio) ∧
  ∀ g ∈ s.saved, g.2.ready ≠ none → l.prio < g.2.prio

/-- The order in which the front considers launches (R70): class, then owner, then queue, each round robin. -/
def chosenBefore (s : State) (l k : Launch) : Prop :=
  let o (x : Launch) : Nat := (x.owner + 64 - s.rrOwner.get 0 x.prio % 64) % 64
  let q (x : Launch) : Nat := (x.queue + 64 - s.rrQueue.get 0 x.owner % 64) % 64
  l.prio < k.prio ∨ (l.prio = k.prio ∧ (o l < o k ∨ (o l = o k ∧ q l < q k)))

/-- The launch that the front considers (R70): the one it has chosen while that may be placed, else the first it has not moved
past, and once it has moved past each, the first of all. -/
def considered (s : State) (lid : Nat) (l : Launch) (sh : Shape) : Prop :=
  mayPlace s lid l ∧ l.shape = some sh ∧ Tbl.ascending 0 s.launches = true ∧
  (s.candidate = some lid ∨ ((∀ k y, mayPlace s k y → s.candidate ≠ some k) ∧
    ((lid ∉ s.passedBy ∧ ∀ k y, k ≠ lid → k ∉ s.passedBy → mayPlace s k y → chosenBefore s l y) ∨
      ((∀ k y, mayPlace s k y → k ∈ s.passedBy) ∧ ∀ k y, k ≠ lid → mayPlace s k y → chosenBefore s l y))))

/-- The detail of a launch that never fits (R84): 2 where an empty cluster admits no gang, 1 where a co-launch is larger
than the module. -/
def neverFits (s : State) (l : Launch) (sh : Shape) : Nat → Prop :=
  let fits (k : Nat) : Prop := k * sh.nWaves ≤ 16 ∧ k * (sh.regs * sh.nWaves) ≤ 1024 ∧ k * sh.localBytes ≤ 524288 ∧ k * sh.banks ≤ 8 ∧ k ≤ 16
  let gangs (c : Nat) : Prop :=
    if 2 ≤ sh.nTeams then c = 1 ∧ fits 1 ∧ sh.nTeams * sh.banks ≤ 8 else 1 ≤ c ∧ fits c ∧ ¬ fits (c + 1)
  fun d => (d = 2 ∧ ∀ c, ¬ gangs c) ∨
    (d = 1 ∧ ∃ c, gangs c ∧ l.colaunch = true ∧ c * (800 - (s.clusters.filter fun e => !e.2.inService).length) < l.gangs)

/-- The first cluster that admits a launch's next gang, from the one after its last (R82) or one set aside for it (R88). -/
def gangGoes (s : State) (lid : Nat) (l : Launch) (sh : Shape) (x : Nat) : Prop :=
  let first := l.lastCluster.elim 0 (· + 1)
  x < 800 ∧ admits s x l.owner lid sh ∧ (∀ d ∈ s.drains, d.lid ≠ lid) ∧
  ∀ y, y < 800 → (y + 800 - first % 800) % 800 < (x + 800 - first % 800) % 800 → ¬ admits s y l.owner lid sh

/-- A wave at its start (R12, R14, R50). -/
def startWave (sh : Shape) (args tid team idx : Nat) (w : Wave) : Prop :=
  let n := min 64 (sh.nThreads - 64 * idx)
  let live (l : Nat) : Prop := l < (n + 3) / 4 * 4
  (∀ l, l < 64 → (hasLane w.threads l = true ↔ l < n) ∧ (hasLane w.live l = true ↔ live l) ∧
    (hasLane w.helper l = true ↔ n ≤ l ∧ live l)) ∧
  (∀ r l, l < 64 → w.regs.get 0 (64 * r + l) = if live l then
      (match r with
        | 0 => BitVec.ofNat 32 args
        | 1 => BitVec.ofNat 32 (args / 2 ^ 32)
        | 2 => BitVec.ofNat 32 team
        | 3 => BitVec.ofNat 32 (64 * idx + l)
        | _ => 0) else 0) ∧
  w.pcs = [(BitVec.ofNat 57 sh.entry, w.live)] ∧ w.tid = tid ∧ w.idx = idx ∧ w.alloc = sh.regs ∧ w.base = 0 ∧ w.level = .u ∧
  w.fpmode = BitVec.ofNat 32 (if 6 ≤ sh.fpmode % 8 then sh.fpmode % 16 / 8 * 8 else sh.fpmode % 16) ∧ w.fflags = 0 ∧ w.srseed = BitVec.ofNat 32 sh.seed ^^^ BitVec.ofNat 32 (16 * team + idx) ∧
  w.exited = 0 ∧ w.outst = [] ∧ w.sbuf = [] ∧ w.irrev = none ∧ w.region = none ∧ w.stop = none ∧ w.recd = none ∧ w.sleep = none ∧
  w.waiting = none ∧ w.qCount = 0 ∧ w.brCount = 0 ∧ w.retired = false

/-- A team at its start (R13, R50, R79): nothing bound, held or counted. -/
def startTeam (l : Launch) (lid gang pos x : Nat) (sh : Shape) (m : Team) : Prop :=
  (m.lid = lid ∧ m.owner = l.owner ∧ m.prio = l.prio ∧ m.gang = gang ∧ m.pos = pos ∧ m.team = gang * sh.nTeams + pos ∧ m.cluster = x) ∧
  (m.nWaves = sh.nWaves ∧ m.nThreads = sh.nThreads ∧ m.regsPer = sh.regs ∧ m.localBytes = sh.localBytes ∧ m.banks = sh.banks) ∧
  m.pool = 0 ∧ m.claims = [] ∧ m.absent = [] ∧ m.ctr = [] ∧ m.queues = [] ∧ m.bankMap = [] ∧ m.barriers = [] ∧ m.recs = [] ∧
  m.slot = none ∧ m.handler = sh.trapvec ∧ m.saving = none ∧ ∀ a, m.lsByte a = 0

/-- The gang of a launch is placed on a cluster, and every team of it starts (R81). -/
def gangStarts (s t : State) (l : Launch) (lid gang x : Nat) (sh : Shape) (tid : Nat) : Prop :=
  ∀ p, p < sh.nTeams →
    (∃ m, t.teams.get? (tid + p) = some m ∧ startTeam l lid gang p x sh m) ∧
    (∀ i, i < sh.nWaves → ∃ w, t.waves.get? (16 * (tid + p) + i) = some w ∧
      startWave sh l.args (tid + p) (gang * sh.nTeams + p) i w) ∧
    (t.core (4 * x + p)).owner = some l.owner ∧
    ((s.core (4 * x + p)).owner ≠ some l.owner →
      (t.core (4 * x + p)).tlb = [] ∧ (t.core (4 * x + p)).lastPage = []) ∧ t.icache = s.icache

/-- The entries of a cluster's hampers whose launches are in the table. -/
def entriesHeld (s : State) (x : Nat) : List (Nat × TaskEntry) :=
  ((s.cluster x).hampers.filter fun h => (s.launches.get? h.2.lid).isSome).flatMap fun h => h.2.entries.map fun e => (h.2.lid, e)

/-- A cluster that has passed to an owner, zeroed (R17). -/
def clusterPassed (s : State) (x own : Nat) : State :=
  s.updCluster x fun c => { c with owner := some own, bull := [], hampers := [], recs := [], opCache := [] }

end Sys2Proof.Machine.Spec

/-- R50, R69, R70, R77 to R84: PLACE_GANG and COLAUNCH_PLACE for the launch that the front considers first: its next gang goes
to the first cluster that admits it and every team of it starts; a co-launch's gangs all start together; one that
never fits completes so; one that does not fit now is passed over, and at the 64th time is reserved. A launch stays chosen
while it has gangs to place, and one passed over is not considered again until the others have been or some launch has placed
its last gang. A core that comes to serve another owner loses its translations; the instruction caches keep what they hold. That PRIO 0 is first,
how the round robin's pointers move and what is held back are log entry 38, the numbers of teams log entry 20. -/
def Obligations.GangPlacement : Prop :=
  ∀ (s : State) (lid : Nat) (l : Launch) (sh : Shape), considered s lid l sh → 1 ≤ sh.nTeams → sh.nTeams ≤ 4 → sh.nWaves ≤ 16 →
    let step := if l.colaunch then Instr.colaunchPlace else .placeGang
    (∀ d, neverFits s l sh d → l.nextGang = 0 → l.notify = false → ∃ t, exec step s = .next t ∧ completes s lid l 5 d t) ∧
    ((∀ d, ¬ neverFits s l sh d) →
      (l.colaunch = false → ∀ x, gangGoes s lid l sh x → (s.cluster x).owner = none ∨ (s.cluster x).owner = some l.owner →
        ∃ t l', exec .placeGang s = .next t ∧ SameBytes s t ∧ gangStarts s t l lid l.nextGang x sh s.nextTid ∧
          t.launches.get? lid = some l' ∧ t.candidate = (if l.gangs ≤ l.nextGang + 1 then none else some lid) ∧
          (l.gangs ≤ l.nextGang + 1 → t.passedBy = []) ∧
          l' = { l with stage := .running, nextGang := l.nextGang + 1, lastCluster := some x, passed := 0, reserved := false } ∧
          (t.cluster x).owner = some l.owner ∧ (t.cluster x).setAside = none ∧ t.nextTid = s.nextTid + sh.nTeams ∧
          (∀ k, k < s.nextTid → t.teams.get? k = s.teams.get? k) ∧ ∀ k, k < 16 * s.nextTid → t.waves.get? k = s.waves.get? k) ∧
      (l.colaunch = true → ∀ xs u, State.placeMany lid sh (l.gangs - l.nextGang) s = some (xs, u) →
        (∀ x ∈ xs, (s.cluster x).owner = none ∨ (s.cluster x).owner = some l.owner) →
        ∃ t l', exec .colaunchPlace s = .next t ∧ t.teams = u.teams ∧ t.waves = u.waves ∧ xs.length = l.gangs - l.nextGang ∧
          (∀ i x, xs[i]? = some x → gangStarts s t l lid (l.nextGang + i) x sh (s.nextTid + i * sh.nTeams)) ∧
          t.launches.get? lid = some l' ∧ l'.nextGang = l.gangs ∧ l'.stage = .running) ∧
      ((∀ x, x < 800 → ¬ admits s x l.owner lid sh) → (∀ d ∈ s.drains, d.lid = lid → d.cluster < 800) →
        l.colaunch = false → l.passed < 64 →
        ∃ t, exec .placeGang s = .next t ∧ t = { s with
            launches := t.launches, rrOwner := t.rrOwner, rrQueue := t.rrQueue, candidate := none, passedBy := t.passedBy } ∧
          ((∀ k y, mayPlace s k y → k ∈ s.passedBy) → t.passedBy = [lid]) ∧
          ((∃ k y, mayPlace s k y ∧ k ∉ s.passedBy) → t.passedBy = lid :: s.passedBy) ∧
          t.launches = s.launches.put lid { l with passed := l.passed + 1, reserved := decide (l.passed = 63) } ∧
          t.rrOwner.get 0 l.prio = (l.owner + 1) % 64 ∧ t.rrQueue.get 0 l.owner = (l.queue + 1) % 64))

/-- R88, R402: DRAIN_START for a launch whose next gang fits nowhere sets aside the cluster, among those that would admit it
without their lower-class teams, with slots for their frames, fewest such teams and the lowest number; where launches of a
lower class have drains, the set-aside clusters of the one with the oldest pass to it instead, and wait again where it now needs
more slots than are reserved; a drain that waited for slots begins when they are free. DRAIN_DEADLINE begins the forced save of
every team that is left. Which drain passes, the slots a drain holds and the microsecond of CSR_DRAINDL are log entry 50. -/
def Sys2Proof.Machine.Spec.drainsHold : Prop :=
  (∀ (s : State) (l : Launch) (sh : Shape), considered s s.ev.x l sh →
    (∀ d, ¬ neverFits s l sh d) → (∀ d ∈ s.drains, d.lid ≠ s.ev.x) → (∀ x, x < 800 → ¬ admits s x l.owner s.ev.x sh) →
    let lid := s.ev.x
    let lower (x : Nat) := s.teams.filter fun e => e.2.cluster = x ∧ l.prio < e.2.prio
    let without (x : Nat) : State := { s with teams := s.teams.filter fun e => ¬ (e.2.cluster = x ∧ l.prio < e.2.prio) }
    let drainable (x : Nat) : Prop :=
      x < 800 ∧ (s.cluster x).setAside = none ∧ lower x ≠ [] ∧ admits (without x) x l.owner lid sh
    let slots (x : Nat) : Bool := s.slotsAt x l.prio
    let preferred (x y : Nat) : Prop := (slots x = true ∧ slots y = false) ∨ (slots x = slots y ∧
      ((lower x).length < (lower y).length ∨ ((lower x).length = (lower y).length ∧ x < y)))
    ((∀ d ∈ s.drains, d.prio ≤ l.prio) → l.colaunch = false → (∀ x, x < 800 → (lower x).length < 65) → ∀ x, drainable x →
      (∀ y, drainable y → y ≠ x → preferred x y) →
      exec .drainStart s = .next { s.updCluster x (fun c => { c with setAside := some lid }) with
        drains := s.drains ++ [⟨x, l.prio, lid, if slots x then some s.clock.toNat else none⟩] }) ∧
    (∀ (n : Nat) (f : Drain), s.drains[n]? = some f → l.prio < f.prio →
      (∀ j d, j < n → s.drains[j]? = some d → d.prio ≤ l.prio) →
      let handed (d : Drain) : Drain := if d.lid = f.lid then { d with prio := l.prio, lid := lid } else d
      let u : State := { s with drains := s.drains.map handed }
      let enough (d : Drain) : Prop := (lower d.cluster).length ≤ u.slotsHeld d.cluster
      ∃ t, exec .drainStart s = .next t ∧
      t = { s with drains := t.drains, clusters := t.clusters } ∧ t.drains.length = s.drains.length ∧
      (∀ (i : Nat) (d : Drain), s.drains[i]? = some d → (d.lid ≠ f.lid → t.drains[i]? = some d) ∧
        (d.lid = f.lid → (enough d → t.drains[i]? = some (handed d)) ∧
          (¬ enough d → t.drains[i]? = some { handed d with started := none }))) ∧
      ∀ x, (t.cluster x).setAside = if ∃ d ∈ s.drains, d.lid = f.lid ∧ d.cluster = x then some lid else (s.cluster x).setAside)) ∧
  (∀ (s : State) (l : Launch) (sh : Shape) (d : Drain) (own : Nat) (o : Owner), considered s s.ev.x l sh →
    (∀ d, ¬ neverFits s l sh d) → (∀ x, x < 800 → ¬ admits s x l.owner s.ev.x sh) → s.drains = [d] → d.cluster < 800 →
    d.lid = s.ev.x → d.prio ≤ l.prio → d.started = none → (s.cluster d.cluster).owner = some own → s.owners.get? own = some o →
    (s.teams.filter fun e => e.2.cluster = d.cluster ∧ d.prio < e.2.prio).length + o.framesUsed.length ≤ o.frameSlots →
    exec .drainStart s = .next { s with drains := [{ d with started := some s.clock.toNat }] }) ∧
  (∀ (s : State) (d : Drain) (n tid : Nat) (m : Team), s.drains = [d] → d.cluster = s.ev.x → d.started = some n →
    n + 1000 * s.drainDl ≤ s.clock.toNat → s.teams = [(tid, m)] → m.cluster = s.ev.x → d.prio < m.prio → m.saving = none →
    s.failed m.lid = false → noRegion s → (∀ e ∈ s.cmds, e.2.tid ≠ tid ∨ e.2.queued = true) → keysRise s →
    ∃ t m', exec .drainDeadline s = .next t ∧ t.teams.get? tid = some m' ∧ m' = { m with saving := some 3, claims := [] } ∧
      SameBytes s t ∧ ∀ k w, s.waves.get? k = some w → w.tid = tid → ∃ w', t.waves.get? k = some w' ∧
        w'.waiting = none ∧ w'.sleep = none ∧ w'.claiming = none ∧ (∀ i set pc word, w'.stop ≠ some ⟨.trap i, set, pc, word⟩) ∧
        (∀ u p lanes, w.sleep = some u → w.slept = some (p, lanes) → w'.pcs = pcsMove (lanes &&& w.live) (fun _ => some p) w.pcs) ∧
        (w.sleep = none → w'.pcs = w.pcs) ∧ w'.regs = w.regs)

/-- R17, R89: CLUSTER_OWNER_CHANGE of a cluster without a team, here with at most one hamper entry of a launch in the table:
the entry is written to the launch's overflow region first and the cluster is then zeroed for its new owner. A write that
meets a page fault or a moving page waits and reports it once for the page; one that meets a violation ends its launch with
the fatal error 4. (Here where the host holds no line modified.) The level of these writes is log entry 76, their order and the fault entry's CORE are log entry 82. -/
def Sys2Proof.Machine.Spec.clusterPassesHold : Prop :=
  ∀ (s : State) (own : Nat) (o : Owner), (s.cluster s.ev.x).owner = some own → own ≠ s.ev.y → s.owners.get? s.ev.y = some o →
    (∀ e ∈ s.teams, e.2.cluster ≠ s.ev.x) → cleanHost s →
    let x := s.ev.x
    (entriesHeld s x = [] → s.spillRoom x = true → exec .clusterOwnerChange s = .next (clusterPassed s x s.ev.y)) ∧
    ∀ (lid k : Nat) (l : Launch) (e : TaskEntry) (h : Hamper), (s.cluster x).hampers = [(k, h)] → h.lid = lid → h.entries = [e] → e.length = 8 →
      s.launches.get? lid = some l → l.ovfTail - l.ovfHead + 1 ≤ l.ovfN →
      let va := l.ovf + 32 * (l.ovfTail % l.ovfN)
      let u := s.walkTouch l.owner va
      (∀ tr p, u.frontAccess l.owner .engineWrite va = .ok tr p →
        let s1 := u.agentWrites l.owner p (e.flatMap fun w => leBytes 4 w.toNat)
        exec .clusterOwnerChange s = .next (clusterPassed (s1.updLaunch lid fun l => { l with ovfTail := l.ovfTail + 1 }) x s.ev.y)) ∧
      (∀ v z, u.frontAccess l.owner .engineWrite va = .viol v → l.fail = none → s.owners.get? l.owner = some z → z.vlog = none →
        ∃ t l', exec .clusterOwnerChange s = .next t ∧ t.launches.get? lid = some l' ∧ l' = { l with fail := some (8, 4) } ∧
          (t.cluster x).hampers = []) ∧
      ∀ z cause, u.frontAccess l.owner .engineWrite va = .park cause → s.owners.get? l.owner = some z →
        (∀ f ∈ z.faults, ¬ (f.slot = none ∧ f.kind = .engineWrite ∧ f.core = 4 * x ∧ f.va / 65536 = va / 65536)) →
        ∃ t z' f, exec .clusterOwnerChange s = .next t ∧ t.owners.get? l.owner = some z' ∧ z'.faults = z.faults ++ [f] ∧
          f = ⟨z.faultSeq, va, 0, none, cause, .engineWrite, 4 * x, l.queue * 2 ^ 26 + l.seq % 2 ^ 26, false⟩ ∧
          (t.cluster x).owner = some own

/-- Drains, and clusters that pass to another owner. -/
def Obligations.DrainsAndPasses : Prop :=
  Sys2Proof.Machine.Spec.drainsHold ∧ Sys2Proof.Machine.Spec.clusterPassesHold

namespace Sys2Proof.Machine.Spec

/-- The one team of a parking unit that is no gang of two or more (R398). -/
def loneTeam (s : State) (tid : Nat) (m : Team) : Prop :=
  s.teams.get? tid = some m ∧ s.inGroup m = false ∧ s.failed m.lid = false

/-- Fields at places inside a frame: place, bytes and value. -/
abbrev Fields := List (Nat × Nat × Nat)

/-- Bytes hold fields from a place on. -/
def holdsAt (bs : List Byte) (o : Nat) (fs : Fields) : Prop := ∀ f ∈ fs, fieldAt bs (o + f.1) f.2.1 = f.2.2 % 2 ^ (8 * f.2.1)

/-- Fields have room for their values. -/
def fieldsFit (fs : Fields) : Prop := ∀ f ∈ fs, f.2.2 < 2 ^ (8 * f.2.1)

/-- The first 128 bytes of a frame: MAGIC, LAUNCH, TEAM, WHY, SHAPE and COUNTERS (R406). -/
def headFields (m : Team) (ident why : Nat) : Fields :=
  [(0, 4, 0x4D415246), (4, 8, ident), (12, 4, m.team), (16, 1, why), (17, 1, m.owner), (18, 4, m.gang), (22, 1, m.pos),
    (23, 1, m.nWaves), (24, 2, m.nThreads), (26, 2, m.regsPer), (28, 4, m.localBytes), (32, 1, m.banks), (33, 1, m.prio),
    (34, 2, m.pool)] ++
  (List.range 4).flatMap fun k => [(64 + 16 * k, 8, (m.ctr.get Ctr.init k).value), (72 + 16 * k, 8, (m.ctr.get Ctr.init k).taken)]

/-- An entry of HANDLES (R406). -/
def handleFields (h : Handle) (gen : Nat) : Fields :=
  [(0, 1, 1), (1, 4, h.base), (5, 4, h.len), (9, 1, match h.st with | .filling => 1 | .full => 2 | .draining => 3),
    (10, 4, h.fills), (14, 4, h.refs), (18, 1, if h.auto then 1 else 0), (19, 4, gen)]

/-- A channel's FIFO positions as one number (R357, R406): of each lane the slot of its oldest value and how many it holds. -/
def channelPositions (b : Binding) : Nat :=
  let cap := 2 ^ b.logCap
  ((List.range 64).map fun l =>
    (b.popped.get 0 l % cap + cap * (b.pushed.get 0 l - b.popped.get 0 l)) * (cap * (cap + 1)) ^ l).sum

/-- An entry of QUEUES (R406): of a port, five bits a lane count its unpopped values; of a channel, its positions as far as they
fit. -/
def queueFields (b : Binding) : Fields :=
  [(0, 1, 1), (1, 1, if b.port then 1 else 0), (2, 2, b.prod), (4, 1, b.logCap), (5, 4, b.base),
    (9, 55, if b.port then ((List.range 64).map fun l => (b.vals.get [] l).length * 32 ^ l).sum else channelPositions b % 2 ^ 440)]

/-- The lanes of a wave that are no longer live. -/
def goneLanes (w : Wave) : Mask := (w.threads ||| w.helper) &&& ~~~w.live

/-- WSTATE (R406). -/
def waveFields (w : Wave) : Fields :=
  let sw := w.sweep.getD ⟨0, 0, 0, 0⟩
  let r := w.recd.getD ⟨[], 0, .u, 0, 0, 0, 0⟩
  let lv (x : Level) : Nat := match x with
    | .u => 0
    | .s => 1
    | .m => 2
  [(0, 2, w.alloc), (2, 2, w.base), (4, 1, lv w.level), (5, 4, w.fpmode.toNat), (9, 4, w.fflags.toNat), (13, 4, w.srseed.toNat),
    (17, 4, w.brCount), (21, 4, w.qCount), (25, 1, if w.sweep.isSome then 1 else 0), (26, 8, sw.h), (34, 8, sw.had.toNat),
    (42, 8, sw.turn.toNat), (50, 4, sw.count), (54, 4, w.rollbacks), (58, 4, w.cautious - 1), (62, 8, (goneLanes w).toNat),
    (70, 8, w.helper.toNat)] ++
  ((List.range 64).map fun l => (78 + 8 * l, 8, w.tsCount.get 0 l)) ++
  [(590, 8, w.tsMark.toNat), (598, 8, w.holds.toNat), (606, 1, w.trap.cause), (607, 8, w.trap.pc.toNat), (615, 4, w.trap.word.toNat),
    (619, 8, w.trap.lanes.toNat), (627, 8, w.trap.addr.toNat), (635, 4, w.trap.val.toNat), (639, 1, lv w.trap.prevLevel),
    (640, 2, w.trap.prevBase), (642, 1, w.trap.depth), (643, 1, w.trap.retries), (644, 1, if w.recd.isSome then 1 else 0),
    (645, 2, r.base), (647, 1, lv r.level), (648, 4, r.fpmode.toNat), (652, 4, r.fflags.toNat), (656, 4, r.srseed.toNat),
    (660, 8, r.trapped.toNat)] ++
  (List.range 64).map fun l => (668 + 8 * l, 8, (pcOfLane r.pcs l).toNat)

/-- What a frame is of: the team, its handles with their generations by index, the words of its banks in BANKMAP's order, and its
waves in order. -/
structure Framed where
  m : Team
  handle : Nat → Option (Handle × Nat)
  bank : Nat → Nat → Word
  ws : List Wave

/-- Where the section of wave i begins. -/
def Framed.start (x : Framed) (i : Nat) : Nat := 16384 + ((x.ws.take i).map fun w => 6144 + 256 * w.alloc).sum

/-- The bytes of a frame (R407). -/
def Framed.size (x : Framed) : Nat := x.start x.ws.length + x.m.localBytes + 65536 * x.m.bankMap.length

/-- A wave's section (R406). -/
def holdsWave (bs : List Byte) (o : Nat) (w : Wave) : Prop :=
  (∀ l, l < 64 → fieldAt bs (o + 8 * l) 8 = (pcOfLane w.pcs l).toNat) ∧ holdsAt bs (o + 512) (waveFields w) ∧
  (∀ r l, r < 16 → l < 64 → fieldAt bs (o + 2048 + 256 * r + 4 * l) 4 = (w.hidden.get 0 (64 * r + l)).toNat) ∧
  ∀ r l, r < w.alloc → l < 64 → fieldAt bs (o + 6144 + 256 * r + 4 * l) 4 = (w.regs.get 0 (64 * r + l)).toNat

/-- The bytes of the frame of a team without saved array commands (R406, R407). -/
structure FrameHolds (x : Framed) (ident why : Nat) (bs : List Byte) : Prop where
  size : bs.length = x.size
  head : holdsAt bs 0 (headFields x.m ident why)
  handles : ∀ i, i < 64 → match x.handle i with
    | none => fieldAt bs (128 + 32 * i) 1 = 0
    | some h => holdsAt bs (128 + 32 * i) (handleFields h.1 h.2)
  queues : ∀ q, q < 8 → match x.m.queues.get? q with
    | none => fieldAt bs (2176 + 64 * q) 1 = 0
    | some b => holdsAt bs (2176 + 64 * q) (queueFields b)
  records : ∀ i, i < 64 → ((fieldAt bs 2688 8).testBit i = true ↔ (x.m.recs.get? i).isSome = true) ∧
    fieldAt bs (2696 + 8 * i) 8 = x.m.recs.get 0 i % 2 ^ 64
  bankMap : ∀ i, i < 8 → fieldAt bs (5376 + i) 1 = match x.m.bankMap[i]? with
    | some b => (b.1 + 1) % 2 ^ 8
    | none => 0
  port : ∀ k l, k < 16 → l < 64 → fieldAt bs (8192 + 256 * k + 4 * l) 4 = match x.m.queues.find? fun e => e.2.port with
    | some e => ((e.2.vals.get [] l).getD k 0).toNat
    | none => 0
  zero : ∀ k, (3328 ≤ k ∧ k < 5376) ∨ (5384 ≤ k ∧ k < 8192) ∨ (12288 ≤ k ∧ k < 16384) → fieldAt bs k 1 = 0
  waves : ∀ i w, x.ws[i]? = some w → holdsWave bs (x.start i) w
  store : ∀ a, a < x.m.localBytes → fieldAt bs (x.start x.ws.length + a) 1 = (x.m.lsByte a).toNat
  banks : ∀ i j, i < x.m.bankMap.length → j < 16384 →
    fieldAt bs (x.start x.ws.length + x.m.localBytes + 65536 * i + 4 * j) 4 = (x.bank i j).toNat

/-- A frame has room for everything it is to hold, so that it can be given back as it was. -/
structure FrameFits (x : Framed) (ident why : Nat) : Prop where
  head : fieldsFit (headFields x.m ident why)
  handles : ∀ i h, x.handle i = some h → fieldsFit (handleFields h.1 h.2)
  queues : ∀ q b, x.m.queues.get? q = some b → fieldsFit (queueFields b) ∧
    (b.port = true → x.m.queues.find? (fun e => e.2.port) = some (q, b) ∧ ∀ l, l < 64 → (b.vals.get [] l).length ≤ 16) ∧
    (b.port = false → ∀ l, l < 64 → b.pushed.get 0 l - b.popped.get 0 l ≤ 2 ^ b.logCap)
  records : x.m.recs = []
  bankMap : x.m.bankMap.length ≤ 8 ∧ ∀ b ∈ x.m.bankMap, b.1 < 8
  waves : ∀ w ∈ x.ws, fieldsFit (waveFields w)
  lanes : ∀ (i : Nat) w, x.ws[i]? = some w → ∀ l, l < 64 → (hasLane w.threads l = true ↔ l < min 64 (x.m.nThreads - 64 * i))

/-- A wave given back from its section (R397): `k` is what the device kept of it. -/
def revived (tid idx : Nat) (k : SavedWave) (w w' : Wave) : Prop :=
  w' = { w with
    tid := tid, idx := idx, slot := w'.slot, clockh := k.clockh, triggered := k.triggered, regs := w'.regs, hidden := w'.hidden
    live := (w.threads ||| w.helper) &&& w.live, exited := w.threads &&& ~~~w.live, pcs := w'.pcs, recd := w'.recd
    tsCount := w'.tsCount, outst := [], parked := false, waiting := none, absentWait := false, sleep := none, slept := none
    sbuf := [], irrev := none, region := none, cautious := if w.cautious = 1 then 0 else w.cautious, stop := none, claiming := none, spilling := none, fence := none
    retired := decide (w.alloc = 0) } ∧
  (∀ l, l < 64 → hasLane w'.live l = true → pcOfLane w'.pcs l = pcOfLane w.pcs l) ∧
  (∀ r l, r < w.alloc → l < 64 → w'.regs.get 0 (64 * r + l) = w.regs.get 0 (64 * r + l)) ∧
  (∀ r l, r < 16 → l < 64 → w'.hidden.get 0 (64 * r + l) = w.hidden.get 0 (64 * r + l)) ∧
  (∀ l, l < 64 → w'.tsCount.get 0 l = w.tsCount.get 0 l) ∧ (w.recd = none → w'.recd = none) ∧
  ∀ r, w.recd = some r → ∃ r', w'.recd = some r' ∧ r' = { r with pcs := r'.pcs } ∧
    ∀ l, l < 64 → hasLane w'.live l = true → pcOfLane r'.pcs l = pcOfLane r.pcs l

/-- A queue's binding given back (R404): a channel with its positions, a port with its values. -/
def rebound (b b' : Binding) : Prop :=
  (b.port = false → b' = { b with pushed := b'.pushed, popped := b'.popped, vals := [] } ∧ ∀ l, l < 64 →
    let slot := b.popped.get 0 l % 2 ^ b.logCap
    b'.popped.get 0 l = slot ∧ b'.pushed.get 0 l = slot + (b.pushed.get 0 l - b.popped.get 0 l)) ∧
  (b.port = true → b' = { b with pushed := [], popped := [], vals := b'.vals } ∧
    ∀ l, l < 64 → b'.vals.get [] l = b.vals.get [] l)

/-- What of a team is gone from the module. -/
def teamGone (t : State) (tid : Nat) (m : Team) : Prop :=
  t.teams.get? tid = none ∧ (∀ e ∈ t.waves, e.2.tid ≠ tid) ∧ (∀ e ∈ t.cmds, e.2.tid ≠ tid) ∧
  (∀ i h, (t.core (4 * m.cluster + m.pos)).handles.get? i = some h → h.tid ≠ tid) ∧
  ∀ e ∈ m.bankMap, (t.cluster m.cluster).banks.get? e.2 = none

end Sys2Proof.Machine.Spec

/-- R344, R397, R398, R405 to R407: TEAM_PARK. A wave that has met a parking fault makes its team's waves stop issuing; when
everything of the team is performed and a slot is free, its frame is written there, the team leaves the module with its
handles and banks, and a fault entry waits to be posted for each parked wave; a translation fault on the frame, or an error
response, is fatal for the owner (that of an error response is log entry 76). A parking fault leaves its address in $taddr where
it is a migration fault, or a page fault on a literal's page (R167). The places inside R406's fields, and what the device keeps beside the frame, are log entry 49. -/
def Sys2Proof.Machine.Spec.parkingSavesHold : Prop :=
  (∀ (s : State) (m : Team) (k : Nat) (w : Wave) (p : ParkInfo) (set : Mask) (pc : PC) (word : Word), loneTeam s s.ev.x m →
    m.saving = none → s.waves = [(k, w)] → w.tid = s.ev.x → w.region = none → w.stop = some ⟨.park p, set, pc, word⟩ →
    (∀ e ∈ s.cmds, e.2.tid ≠ s.ev.x ∨ e.2.queued = true) →
    ∃ t w', exec .teamPark s = .next t ∧ t.waves = [(k, w')] ∧ t.teams.get? s.ev.x = some { m with
        saving := some (match p.cause with | .page => 0 | .migration => 1 | .lease => 2), claims := [] } ∧
      w' = { w with
        waiting := none, absentWait := false, sleep := none, claiming := none, fence := none
        trap := if p.cause = .page ∧ ¬ (p.kind = .fetch ∧ p.va ≠ pc.toNat) then w.trap else { w.trap with addr := BitVec.ofNat 64 p.va } } ∧ SameBytes s t) ∧
  (∀ (s : State) (m : Team) (o : Owner) (why : Nat) (l : Launch), loneTeam s s.ev.x m → m.saving = some why →
    s.owners.get? m.owner = some o → s.launches.get? m.lid = some l → s.drains = [] →
    (∀ e ∈ s.waves, e.2.tid = s.ev.x → e.2.region = none ∧ e.2.sbuf = [] ∧ e.2.irrev = none ∧ e.2.spilling = none ∧ e.2.outst = []) →
    (∀ e ∈ s.cmds, e.2.tid ≠ s.ev.x) → o.framesUsed.length < o.frameSlots → Tbl.ascending 0 s.waves = true → m.claims = [] →
    Tbl.ascending 0 (s.core (4 * m.cluster + m.pos)).handles = true → Tbl.ascending 0 (s.cluster m.cluster).banks = true →
    Tbl.ascending 0 m.recs = true → (∀ e ∈ m.recs, e.1 < 64) → m.bankMap.length ≤ 8 →
    ∀ slot, slot < o.frameSlots → (slot ∉ o.framesUsed ∧ ∀ k, k < slot → k ∈ o.framesUsed) →
    let ws := (s.waves.filter fun e => e.2.tid = s.ev.x).map (·.2)
    let core := s.core (4 * m.cluster + m.pos)
    let mine (i : Nat) : Option Handle := (core.handles.get? i).filter fun h => h.tid = s.ev.x
    let x : Framed := ⟨m, fun i => (mine i).map fun h => (h, core.gen.get 0 i),
      fun i j => bankWord s m.cluster ((m.bankMap.map (·.2)).getD i 0) j, ws⟩
    let va := o.frameBase + 1441792 * slot
    let u := s.walksTouch m.owner va x.size
    (∀ ps, u.framePieces m.owner o .store va x.size = .ok ps →
      ∃ t bs g v o', exec .teamPark s = .next t ∧ FrameHolds x (l.queue * 2 ^ 56 + l.seq) why bs ∧
        SameBytes (u.writeFrame m.owner ps bs) t ∧ teamGone t s.ev.x m ∧
        t.saved.get? s.ev.x = some g ∧ g.lid = m.lid ∧ g.gang = m.gang ∧ g.prio = m.prio ∧ g.owner = m.owner ∧ g.teams = [v] ∧
        v = ⟨s.ev.x, { m with
            pool := 0, claims := [], ls := [], absent := [], ctr := [], queues := [], bankMap := [], recs := []
            slot := some slot, saving := none },
          ws.map (fun w => ⟨w.triggered, w.clockh⟩), (core.handles.filter fun h => h.2.tid = s.ev.x).map (·.1), m.bankMap.length,
          m.queues.filterMap (fun e => if e.2.port = true ∨ channelPositions e.2 < 2 ^ 440 then none
            else some (e.1, channelPositions e.2 / 2 ^ 440)), slot, x.size⟩ ∧
        t.owners.get? m.owner = some o' ∧ slot ∈ o'.framesUsed ∧
        ∃ fs : List FaultEnt, o'.faults = o.faults ++ fs ∧ g.faults = fs.map (·.seq) ∧ (g.ready = none ↔ fs ≠ []) ∧
          fs.length = (ws.filter fun w => match w.stop with | some ⟨.park _, _, _, _⟩ => true | _ => false).length ∧
          ∀ f ∈ fs, f.slot = some slot ∧ f.posted = false ∧ f.core = 4 * m.cluster + m.pos ∧ f.launch = l.queue * 2 ^ 26 + l.seq % 2 ^ 26 ∧
            ∃ w ∈ ws, ∃ p set pc word, w.stop = some ⟨.park p, set, pc, word⟩ ∧ f.va = p.va ∧ f.pc = pc.toNat ∧ f.cause = p.cause ∧ f.kind = p.kind) ∧
    ∀ a, u.framePieces m.owner o .store va x.size = .error a → l.owner = m.owner → l.stage = .running → l.fail = none →
      ∃ t l', exec .teamPark s = .next t ∧ t.launches.get? m.lid = some l' ∧ l' = { l with fail := some (8, 1) } ∧
        ((∃ c, a = .park c) → t.teams = s.teams) ∧ (t.teams.get? s.ev.x).isSome = true)

/-- R399, R400: FAULT_POST appends the oldest entry not posted, its 32 bytes and then TAIL, where the queue has room;
FAULTDONE_WRITE of a posted entry's SEQ resolves it: a parked gang that waits for no other becomes restorable, and an
engine access goes on; any other write changes nothing. That an append is one act is log entry 36, that a stopped append waits
is log entry 77. -/
def Sys2Proof.Machine.Spec.faultEntriesHold : Prop :=
  (∀ (s : State) (o : Owner) (f : FaultEnt) (r : Ring) (head tail : Nat), s.owners.get? s.ev.x = some o → o.faultQ = some r →
    o.faults.find? (fun f => !f.posted) = some f → f.seq = s.ev.y →
    let sR := s.ringReady s.ev.x r Owner.withFaultQ
    sR.frontWord s.ev.x r.block = .ok head → sR.frontWord s.ev.x (r.block + 8) = .ok tail → tail - head < 2 ^ r.logSize →
    let entry : List Byte := leBytes 8 f.va ++ leBytes 8 f.pc ++ leBytes 4 (f.slot.getD 0xFFFFFFFF) ++
      leBytes 1 (match f.cause with | .page => 1 | .migration => 2 | .lease => 3) ++
      leBytes 1 (match f.kind with | .load => 0 | .store => 1 | .atomic => 2 | .fetch => 3 | .engineRead => 4 | .engineWrite => 5 | .walk => 6) ++
      leBytes 2 f.core ++ leBytes 4 f.launch ++ leBytes 4 f.seq
    ∀ s1 s2, sR.frontWrite s.ev.x (r.block + 256 + 32 * (tail % 2 ^ r.logSize)) entry = .ok s1 →
      s1.frontWrite s.ev.x (r.block + 8) (leBytes 8 (tail + 1)) = .ok s2 →
      exec .faultPost s = .next (s2.updOwner s.ev.x fun o =>
        { o with faults := o.faults.map fun g => if g.seq = f.seq then { g with posted := true } else g })) ∧
  (∀ (s : State) (o : Owner), s.owners.get? s.ev.x = some o →
    let seq := s.ev.y
    ((∀ f ∈ o.faults, f.seq = seq → f.posted = false) → exec .faultdoneWrite s = .next s) ∧
    ((∃ f ∈ o.faults, f.seq = seq ∧ f.posted = true) →
      ∃ t o', exec .faultdoneWrite s = .next t ∧
        t = { s with owners := t.owners, saved := t.saved, cmds := t.cmds } ∧ t.owners.get? s.ev.x = some o' ∧
        o' = { o with faults := o.faults.filter fun f => f.seq ≠ seq } ∧
        (∀ k g, s.saved.get? k = some g → ∃ g', t.saved.get? k = some g' ∧
          (g.owner ≠ s.ev.x ∨ seq ∉ g.faults → g' = g) ∧
          (g.owner = s.ev.x → seq ∈ g.faults →
            g' = { g with faults := g.faults.filter (· ≠ seq), ready := if g.faults.all (· = seq) then some s.tick else g.ready })) ∧
        ∀ k c, s.cmds.get? k = some c → t.cmds.get? k =
          some (if c.owner = s.ev.x then { c with faults := c.faults.filter fun f => f.2 ≠ seq } else c)))

/-- R87, R308, R397, R404 to R406: RESTORE_GANG of the next saved gang, here of one team with no bound records and no saved
commands, onto a cluster that admits it and is set aside for no launch. The frame is read under the owner's primary key, and the team it holds stands there
as it was saved: its waves, its handles at their indices, its banks, its local store, its queue bindings and port values, its
counters and task marks; its frame slot is free. A frame that cannot be read is fatal for the owner. The places inside
R406's fields, and what the device keeps beside the frame, are log entry 49. -/
def Sys2Proof.Machine.Spec.gangRestoresHold : Prop :=
  ∀ (s : State) (g : SavedGang) (v : SavedTeam) (o : Owner) (l : Launch) (sh : Shape) (r : Nat), s.saved.get? s.ev.x = some g →
    g.teams = [v] → g.ready = some r → (∀ e ∈ s.saved, ∀ q, e.2.ready = some q → r < q ∨ (r = q ∧ s.ev.x ≤ e.1)) →
    s.launches.get? g.lid = some l → l.fail = none → l.shape = some sh → s.owners.get? g.owner = some o →
    let y := s.ev.y
    let core := 4 * y + v.team.pos
    admits s y g.owner g.lid sh → (s.cluster y).setAside = none → (s.cluster y).owner = none ∨ (s.cluster y).owner = some g.owner →
    (∀ h ∈ v.handles, (s.core core).handles.get? h = none) →
    ∀ (free : List Nat), lowestFree v.banks 8 (fun b => ((s.cluster y).banks.get? b).isNone) free →
    let va := o.frameBase + 1441792 * v.slot
    let u := s.walksTouch g.owner va v.bytes
    (∀ a, u.framePieces g.owner o .load va v.bytes = .error a → l.owner = g.owner → l.stage = .running →
      ∃ t l', exec .restoreGang s = .next t ∧ t.launches.get? g.lid = some l' ∧ l'.fail = some (8, 1) ∧ t.saved = s.saved) ∧
    ∀ (ps : List (Phys × Nat × Nat)) (x : Framed) (ident why : Nat), u.framePieces g.owner o .load va v.bytes = .ok ps →
      let sR := ps.foldl (fun u p => u.agentReads g.owner p.1 p.2.2) u
      let bs := ps.flatMap fun p => sR.bytesAt p.1.sp p.1.key p.1.addr p.2.2
      FrameHolds x ident why bs → FrameFits x ident why → v.team.owner = g.owner → v.banks = x.m.bankMap.length →
      v.waves.length = x.ws.length →
      (∀ q b, x.m.queues.get? q = some b → b.port = false → v.fifos.get 0 q = channelPositions b / 2 ^ 440) → s.pend = [] → cleanHost s →
      ∃ t o' m', exec .restoreGang s = .next t ∧ SameBytes s t ∧ t.saved = s.saved.del s.ev.x ∧
        t.teams.get? v.tid = some m' ∧
        m' = { v.team with
          team := x.m.team, nWaves := x.m.nWaves, nThreads := x.m.nThreads, regsPer := x.m.regsPer, localBytes := x.m.localBytes
          banks := x.m.banks, prio := x.m.prio, pool := x.m.pool, cluster := y
          bankMap := (x.m.bankMap.map (·.1)).zip free, ls := m'.ls, ctr := m'.ctr, queues := m'.queues, recs := [], absent := [] } ∧
        (∀ a, a < x.m.localBytes → m'.lsByte a = x.m.lsByte a) ∧
        (∀ k, k < 4 → (m'.ctr.get Ctr.init k).value = (x.m.ctr.get Ctr.init k).value ∧
          (m'.ctr.get Ctr.init k).taken = (x.m.ctr.get Ctr.init k).taken ∧
          ∀ n, n ∈ (m'.ctr.get Ctr.init k).early ↔ (x.m.ctr.get Ctr.init k).value < n ∧ n ≤ (x.m.ctr.get Ctr.init k).taken) ∧
        (∀ q, q < 8 → (x.m.queues.get? q = none → m'.queues.get? q = none) ∧
          ∀ b, x.m.queues.get? q = some b → ∃ b', m'.queues.get? q = some b' ∧ rebound b b') ∧
        (∀ (i : Nat) w k, x.ws[i]? = some w → v.waves[i]? = some k →
          ∃ w', t.waves.get? (16 * v.tid + i) = some w' ∧ revived v.tid i k w w') ∧
        (∀ i h, i < 64 → x.handle i = some h →
          (t.core core).handles.get? i = some { h.1 with tid := v.tid } ∧ (t.core core).gen.get 0 i = h.2) ∧
        (∀ (i b : Nat), free[i]? = some b → ∃ ws, (t.cluster y).banks.get? b = some ⟨.mapped, ws⟩ ∧
          ∀ j, j < 16384 → ws.get 0 j = x.bank i j) ∧
        (t.cluster y).owner = some g.owner ∧ (t.core core).owner = some g.owner ∧
        t.owners.get? g.owner = some o' ∧ o' = { o with framesUsed := o.framesUsed.filter (· ≠ v.slot) } ∧
        (∀ k, k ≠ v.tid → t.teams.get? k = s.teams.get? k) ∧ t.launches = s.launches

/-- Saving a team, reporting and resolving its fault, and restoring it. -/
def Obligations.SavesAndRestores : Prop :=
  Sys2Proof.Machine.Spec.parkingSavesHold ∧ Sys2Proof.Machine.Spec.faultEntriesHold ∧ Sys2Proof.Machine.Spec.gangRestoresHold

namespace Sys2Proof.Machine.Spec

/-- A team may retire (R433). -/
def mayRetire (s : State) (tid : Nat) (m : Team) : Prop :=
  (∀ e ∈ s.waves, e.2.tid = tid → e.2.retired = true) ∧ (∀ e ∈ s.cmds, e.2.tid ≠ tid) ∧
  ∀ h ∈ (s.core (4 * m.cluster + m.pos)).handles, h.2.tid = tid → h.2.fills = 0 ∧ h.2.refs = 0

end Sys2Proof.Machine.Spec

/-- R128, R272, R432 to R434: WAVE_RETIRE of a wave whose last lane has exited, with its results in and nothing unperformed,
and, of the last wave of a team, the team's handles idle: its registers join the team's pool. That the last wave waits for
the handles is log entry 83. TEAM_RETIRE of a team whose waves have retired, whose commands are complete and whose
handles are idle: everything it held goes, and with the last team of a gang GANGS_DONE rises by 1. -/
def Sys2Proof.Machine.Spec.retirementHold : Prop :=
  (∀ (s : State) (w : Wave) (m : Team), s.waves.get? s.ev.x = some w → s.teams.get? w.tid = some m → s.failed m.lid = false →
    w.retired = false →
    let idle := ∀ h ∈ (s.core (4 * m.cluster + m.pos)).handles, h.2.tid = w.tid → h.2.fills = 0 ∧ h.2.refs = 0
    let last := ∀ e ∈ s.waves, e.2.tid = w.tid → e.2.retired = true ∨ e.2.idx = w.idx
    (w.live = 0 → w.region = none → w.outst = [] → w.sbuf = [] → w.irrev = none → w.spilling = none → m.claims = [] → ¬ last ∨ idle →
      exec .waveRetire s = .next { s with
        waves := s.waves.put s.ev.x { w with alloc := 0, regs := [], hidden := [], fpmode := 0, fflags := 0, srseed := 0, stop := none,
                                             waiting := none, sleep := none, parked := false, retired := true }
        teams := s.teams.put w.tid { m with pool := m.pool + w.alloc } }) ∧
    (w.live ≠ 0 ∨ w.outst ≠ [] ∨ w.sbuf ≠ [] ∨ w.irrev ≠ none ∨ (last ∧ ¬ idle) → ∃ why, exec .waveRetire s = .refused (.notEnabled why))) ∧
  (∀ (s : State) (m : Team), s.teams.get? s.ev.x = some m → s.failed m.lid = false →
    let core := 4 * m.cluster + m.pos
    (mayRetire s s.ev.x m → Tbl.ascending 0 s.launches = true →
      ∃ t, exec .teamRetire s = .next t ∧ SameBytes s t ∧ teamGone t s.ev.x m ∧
        (∀ k, k ≠ s.ev.x → t.teams.get? k = s.teams.get? k) ∧ (∀ k w, s.waves.get? k = some w → w.tid ≠ s.ev.x → t.waves.get? k = some w) ∧
        (∀ i h, (s.core core).handles.get? i = some h → h.tid ≠ s.ev.x → (∀ e ∈ (s.core core).handles, e.1 = i → e.2 = h) →
          (t.core core).handles.get? i = some h) ∧
        (t.cluster m.cluster).hampers = (s.cluster m.cluster).hampers ∧ (t.cluster m.cluster).recs = (s.cluster m.cluster).recs ∧
        ∀ l, s.launches.get? m.lid = some l → t.launches.get? m.lid = some (
          if (∃ e ∈ s.teams, e.1 ≠ s.ev.x ∧ e.2.lid = m.lid ∧ e.2.gang = m.gang) ∨ (∃ g ∈ s.saved, g.2.lid = m.lid ∧ g.2.gang = m.gang)
          then l else { l with gangsDone := l.gangsDone + 1 })) ∧
    (¬ mayRetire s s.ev.x m → ∃ why, exec .teamRetire s = .refused (.notEnabled why)))

/-- R63, R64, R72, R400, R410, R431, R435, R437: LAUNCH_COMPLETE once every gang has retired: the launch's tasks are dropped and it
completes with "success"; LAUNCH_KILL ends it with 7 and detail 2 if nothing has ended it before; LAUNCH_DISCARD of a
launch that has failed removes its resident and saved teams, drops its tasks, and completes it with the status and
detail it failed with; the threads so ended count as exited for R63. That a completion with its dependants is one act is log
entry 36, and that a launch which has failed satisfies no after-trigger predecessor is log entry 70. -/
def Sys2Proof.Machine.Spec.launchEndsHold : Prop :=
  (∀ (s : State) (l : Launch), s.launches.get? s.ev.x = some l → l.stage = .running → l.fail = none → l.nextGang = l.gangs →
    (l.gangsDone = l.gangs → ∃ s0 t : State, exec .launchComplete s = .next t ∧ completes s0 s.ev.x l 1 0 t ∧
      s0 = { s with clusters := s0.clusters } ∧ (∀ k, ∀ h ∈ (s0.cluster k).hampers, h.2.lid ≠ s.ev.x) ∧
      ∀ k, s0.cluster k = { s.cluster k with hampers := (s0.cluster k).hampers } ∧
        ∀ h ∈ (s.cluster k).hampers, h.2.lid ≠ s.ev.x → h ∈ (s0.cluster k).hampers) ∧
    (l.gangsDone ≠ l.gangs → ∃ why, exec .launchComplete s = .refused (.notEnabled why))) ∧
  (∀ (s : State) (l : Launch), s.launches.get? s.ev.x = some l →
    exec .launchKill s = .next { s with
      launches := s.launches.put s.ev.x (if l.fail = none then { l with fail := some (7, 2) } else l) }) ∧
  (∀ (s : State) (l : Launch) (status detail : Nat), s.launches.get? s.ev.x = some l → l.fail = some (status, detail) →
    Tbl.ascending 0 s.teams = true →
    ∃ (s0 t : State) (l0 : Launch), exec .launchDiscard s = .next t ∧ completes s0 s.ev.x l status detail t ∧ SameBytes s s0 ∧
      l0 = { l with trigDone := l0.trigDone } ∧ s0.launches.get? s.ev.x = some l0 ∧
      (∀ k, k ≠ s.ev.x → s0.launches.get? k = s.launches.get? k) ∧
      (noRegion s → Tbl.ascending 0 s.waves = true → l0.trigDone = l.trigDone +
        ((s.waves.filter fun e => ((s.teams.get? e.2.tid).map (·.lid)) = some s.ev.x).map fun e =>
          (lanesOf (e.2.live &&& e.2.threads &&& ~~~e.2.triggered)).length).sum) ∧ (∀ k, ∀ h ∈ (s0.cluster k).hampers, h.2.lid ≠ s.ev.x) ∧ (∀ e ∈ s0.saved, e.2.lid ≠ s.ev.x) ∧
      (∀ k m, s.teams.get? k = some m → m.lid = s.ev.x → teamGone s0 k m ∧
        ∀ x w, s.waves.get? x = some w → w.tid = k → ∀ e ∈ s0.pend, e.2 ≠ x) ∧
      (noRegion s → ∀ k m, s.teams.get? k = some m → m.lid ≠ s.ev.x → ∃ m', s0.teams.get? k = some m' ∧ m'.ls = m.ls ∧ m'.ctr = m.ctr) ∧
      (∀ g o, g ∈ s.saved → g.2.lid = s.ev.x → s.owners.get? g.2.owner = some o →
        ∃ o', s0.owners.get? g.2.owner = some o' ∧ ∀ v ∈ g.2.teams, v.slot ∉ o'.framesUsed))

/-- How waves, teams, gangs and launches end. -/
def Obligations.WorkEnds : Prop :=
  Sys2Proof.Machine.Spec.retirementHold ∧ Sys2Proof.Machine.Spec.launchEndsHold

namespace Sys2Proof.Machine.Spec

/-- Some owner other than one holds a key identifier (R224). -/
def keyTaken (s : State) (but : Nat) (key : Nat) : Prop := ∃ e ∈ s.owners, e.1 ≠ but ∧ key ∈ e.2.grant

/-- The queue descriptor of 32 bytes (R53). -/
def descriptorIn (bs : List Byte) : QueueDesc :=
  { base := BitVec.ofNat 64 (fieldAt bs 0 8), tail := BitVec.ofNat 64 (fieldAt bs 8 8), head := BitVec.ofNat 64 (fieldAt bs 16 8)
    logSize := fieldAt bs 24 1, mode := fieldAt bs 25 1, state := fieldAt bs 26 1, reserved := fieldAt bs 27 5 }

/-- A queue descriptor that keeps the limits of R53, with STATE 0, or 1 where the runtime enables the queue with it. -/
def descriptorOk (d : QueueDesc) : Prop :=
  d.reserved = 0 ∧ d.mode ≤ 1 ∧ d.state ≤ 1 ∧ 1 ≤ d.logSize ∧ d.logSize ≤ 16 ∧ d.head.toNat % 8 = 0 ∧ d.tail.toNat % 8 = 0 ∧ d.base.toNat % 4096 = 0 ∧
    d.base.toNat < 2 ^ 57

/-- A ring's control block and size that keep the limits (R74, R221, R399, R411). -/
def ringOk (block : DWord) (n most : Nat) : Prop := block.toNat % 256 = 0 ∧ 4 ≤ n ∧ n ≤ most

/-- An owner after a write of one of its registers. -/
def ownerWritten (o o' : Owner) : RegWrite → Prop
  | .queue _ q bs =>
    let d := descriptorIn bs
    ((q < 64 ∧ descriptorOk d ∧ (∀ x, o.queues.get? q = some x → x.state = .disabled)) →
      o' = { o with queues := o.queues.put q ⟨d, if d.state = 1 then .running else .disabled, 0, 0, none, []⟩ }) ∧
    (¬ (q < 64 ∧ descriptorOk d ∧ (∀ x, o.queues.get? q = some x → x.state = .disabled)) → o' = o)
  | .eventRing _ b n v => (ringOk b n 16 → o' = { o with ring := some ⟨b.toNat, n, v, none⟩ }) ∧ (¬ ringOk b n 16 → o' = o)
  | .migration _ b n => (ringOk b n 20 → o' = { o with migQ := some ⟨b.toNat, n, 0, none⟩ }) ∧ (¬ ringOk b n 20 → o' = o)
  | .faultQueue _ b n => (ringOk b n 20 → o' = { o with faultQ := some ⟨b.toNat, n, 0, none⟩ }) ∧ (¬ ringOk b n 20 → o' = o)
  | .violationLog _ b n => (ringOk b n 20 → o' = { o with vlog := some ⟨b.toNat, n, 0, none⟩ }) ∧ (¬ ringOk b n 20 → o' = o)
  | .threshold _ v => o' = if 1 ≤ v ∧ v ≤ 65535 then { o with threshold := v } else o
  | .frames _ b k => o' = if b.toNat % 65536 = 0 then { o with frameBase := b.toNat, frameSlots := k } else o
  | .handler _ h => o' = match h with
    | none => { o with handler := none }
    | some p => if p.toNat % 4 = 0 ∧ p.toNat < 2 ^ 57 then { o with handler := some p.toNat } else o
  | .grant _ key on => o' = { o with grant := o'.grant } ∧ (128 ≤ key → o' = o) ∧
    ∀ k, key < 128 → (k ∈ o'.grant ↔ if on = true then k ∈ o.grant ∨ k = key else k ∈ o.grant ∧ (k = o.key ∨ k ≠ key))
  | _ => o' = o

end Sys2Proof.Machine.Spec

/-- R48, R49, R51, R52, R224: OWNER_CREATE once CXL is up, with a key identifier no owner holds, which gets a key if it has
none; OWNER_DESTROY of an owner without launches or teams and with its queues disabled: what the module holds for it
goes, and identifiers no other owner holds get fresh keys; SET_KEYS changes one slot or the policy and drops the owner's
verified images. The values of a new owner are log entry 4, where its root lies log entry 39, that an owner is forgotten in one
act log entry 34, and that a key is a number, a fresh one odd, log entry 6. -/
def Sys2Proof.Machine.Spec.ownerLifeHold : Prop :=
  (∀ (s : State), s.hk.ready = true → s.ev.x < 64 → s.owners.get? s.ev.x = none → s.ev.y < 128 → s.ev.z % 8192 = 0 →
    s.ev.z + 8192 ≤ 2 ^ 41 →
    (¬ keyTaken s s.ev.x s.ev.y → (∀ e ∈ s.owners, e.1 ≠ s.ev.x) →
      ∃ t o, exec .ownerCreate s = .next t ∧ t.owners = s.owners.put s.ev.x o ∧
        o.root = s.ev.z ∧ o.key = s.ev.y ∧ o.grant = [s.ev.y] ∧ o.queues = [] ∧ o.vkeys = [] ∧ o.ring = none ∧ o.migQ = none ∧
        o.faultQ = none ∧ o.vlog = none ∧ o.frameSlots = 0 ∧ o.handler = none ∧
        t = { s with owners := t.owners, keyVer := t.keyVer, keySeq := t.keySeq } ∧ t.keyVer.get 0 s.ev.y ≠ 0 ∧
        (s.keyVer.get 0 s.ev.y ≠ 0 → t.keyVer = s.keyVer)) ∧
    (keyTaken s s.ev.x s.ev.y → ∃ why, exec .ownerCreate s = .refused (.notEnabled why))) ∧
  (∀ (s : State) (o : Owner), s.owners.get? s.ev.x = some o → Tbl.ascending 0 s.owners = true →
    let idle := (∀ e ∈ s.launches, e.2.owner ≠ s.ev.x) ∧ (∀ e ∈ s.teams, e.2.owner ≠ s.ev.x) ∧ (∀ e ∈ s.saved, e.2.owner ≠ s.ev.x) ∧
      ∀ q ∈ o.queues, q.2.state = .disabled
    (idle → o.grant.Nodup → ∃ t, exec .ownerDestroy s = .next t ∧ t.owners = s.owners.del s.ev.x ∧
      (∀ k x, x ∈ (t.core k).tlb → x.owner ≠ s.ev.x) ∧ (∀ k x, x ∈ (t.die k).walk → x.owner ≠ s.ev.x) ∧
      (∀ e ∈ t.imgCache, e.owner ≠ s.ev.x) ∧
      (∀ k, (s.cluster k).owner = some s.ev.x → (t.cluster k).owner = none ∧ (t.cluster k).bull = [] ∧ (t.cluster k).hampers = []) ∧
      (∀ key, key ∈ o.grant → ¬ keyTaken s s.ev.x key → ∃ n, s.keySeq ≤ n ∧ t.keyVer.get 0 key = 2 * n + 1) ∧
      ∀ key, key ∉ o.grant ∨ keyTaken s s.ev.x key → t.keyVer.get 0 key = s.keyVer.get 0 key) ∧
    (¬ idle → ∃ why, exec .ownerDestroy s = .refused (.notEnabled why))) ∧
  (∀ (s : State) (o : Owner), s.owners.get? s.ev.x = some o →
    let others := s.imgCache.filter fun i => i.owner ≠ s.ev.x
    (∀ i k, s.ev.data = .keys (.slot i k) → i < 8 → ∃ vk, exec .setKeys s = .next { s with
        owners := s.owners.put s.ev.x { o with vkeys := vk }, imgCache := others } ∧ vk.get? i = k ∧
        ∀ j, j ≠ i → vk.get? j = o.vkeys.get? j) ∧
    (∀ b, s.ev.data = .keys (.policy b) → exec .setKeys s = .next { s with
        owners := s.owners.put s.ev.x { o with required := b }, imgCache := others }))

/-- R17, R18, R53, R74, R205, R220, R221, R235, R244, R245, R387, R399, R405, R411, R415, R440: the registers that the runtime
writes, none in the recovery state. A value outside a register's limits leaves it as it was; a change of a tag's VALID or
OWNER zeroes its word; a queue descriptor comes as its 32 bytes. That keys are numbers is log entry 6, and that a queue which
is not disabled keeps its descriptor is log entry 35. -/
def Sys2Proof.Machine.Spec.registerWritesHold : Prop :=
  (∀ (s : State), s.hk.recovery = true → (∃ why, exec .dbtagWrite s = .refused (.notEnabled why)) ∧
    (∃ why, exec .biasbaseWrite s = .refused (.notEnabled why)) ∧
    ∀ w, s.ev.data = .reg w → ∃ why, exec .registerWrite s = .refused (.notEnabled why)) ∧
  (∀ (s : State), s.hk.ready = false → ∃ why, exec .hdmcfgWrite s = .refused (.notEnabled why)) ∧
  (∀ (s : State), s.ev.x < 16 → s.ev.y < 128 → s.hk.recovery = false → noRegion s →
    let tag := s.ev.z % 64 + 128 * (s.ev.z / 128 % 2)
    let same := (s.die s.ev.x).tag.get 0 s.ev.y = tag
    ∃ t, exec .dbtagWrite s = .next t ∧ t = { s with dies := t.dies } ∧ (t.die s.ev.x).tag.get 0 s.ev.y = tag ∧
      t.bulletin (.db s.ev.x s.ev.y) = (if same then s.bulletin (.db s.ev.x s.ev.y) else 0) ∧
      (∀ j, j ≠ s.ev.y → (t.die s.ev.x).tag.get 0 j = (s.die s.ev.x).tag.get 0 j ∧
        t.bulletin (.db s.ev.x j) = s.bulletin (.db s.ev.x j)) ∧ ∀ d, d ≠ s.ev.x → t.die d = s.die d) ∧
  (∀ (s : State), s.ev.x < 2 ^ 32 →
    (s.hk.ready = true → exec .hdmcfgWrite s = .next (csrWritten s (if s.ev.flag then 9 else 8) s.ev.x)) ∧
    (s.hk.recovery = false → exec .biasbaseWrite s = .next (csrWritten s (if s.ev.flag then 11 else 10) s.ev.x))) ∧
  (∀ (s : State) (w : RegWrite), s.ev.data = .reg w → s.hk.recovery = false →
    (∀ v, w = .drainDl v → exec .registerWrite s = .next (if 1 ≤ v.toNat ∧ v.toNat ≤ 1000000 then { s with drainDl := v.toNat } else s)) ∧
    (∀ v, w = .fabTmo v → exec .registerWrite s = .next { s with fabTmo := v }) ∧
    (∀ k n, w = .importKey k n → k < 128 → ∃ t, exec .registerWrite s = .next t ∧ t = { s with keyVer := t.keyVer } ∧
      t.keyVer.get 0 k ≠ 0 ∧ ∀ j, j ≠ k → t.keyVer.get 0 j = s.keyVer.get 0 j) ∧
    ∀ own o, regOwner w = some own → s.owners.get? own = some o →
      ∃ t o', exec .registerWrite s = .next t ∧ t.owners = s.owners.put own o' ∧ ownerWritten o o' w ∧
        t = { s with owners := t.owners, keyVer := t.keyVer, keySeq := t.keySeq } ∧
        ((∀ k on, w ≠ .grant own k on) → t.keyVer = s.keyVer ∧ t.keySeq = s.keySeq) ∧
        (∀ k, w = .grant own k true → k < 128 → t.keyVer.get 0 k ≠ 0) ∧
        ∀ k, w = .grant own k false → k < 128 → Tbl.ascending 0 s.owners = true →
          ((o.key = k ∧ k ∈ o.grant) ∨ keyTaken s own k → t.keyVer = s.keyVer) ∧
          (k ∉ o.grant → t.keyVer = s.keyVer) ∧
          (o.key ≠ k → k ∈ o.grant → ¬ keyTaken s own k → t.keyVer.get 0 k = 2 * s.keySeq + 1 ∧
            ∀ j, j ≠ k → t.keyVer.get 0 j = s.keyVer.get 0 j))

/-- What the runtime does: owners, keys and registers. -/
def Obligations.RuntimeWrites : Prop :=
  Sys2Proof.Machine.Spec.ownerLifeHold ∧ Sys2Proof.Machine.Spec.registerWritesHold

namespace Sys2Proof.Machine.Spec

/-- A launch after a fatal error whose scope is some owners (R409). -/
def struck (owners : Nat → Prop) (detail : Nat) (l l' : Launch) : Prop :=
  (owners l.owner ∧ l.stage = .running ∧ l.fail = none → l' = { l with fail := some (8, detail) }) ∧
  (¬ (owners l.owner ∧ l.stage = .running ∧ l.fail = none) → l' = l)

/-- The launches after a fatal error of some owners; nothing else is touched. -/
def strikes (s t : State) (owners : Nat → Prop) (detail : Nat) : Prop :=
  t = { s with launches := t.launches } ∧ t.launches.map (·.1) = s.launches.map (·.1) ∧
  ∀ k l, s.launches.get? k = some l → ∃ l', t.launches.get? k = some l' ∧ struck owners detail l l'

/-- The waves of a core that have not retired. -/
def onCore (s : State) (c : Nat) (w : Wave) : Prop :=
  w.retired = false ∧ (∃ k, (k, w) ∈ s.waves) ∧ ∃ m, s.teams.get? w.tid = some m ∧ 4 * m.cluster + m.pos = c

/-- A firmware image is accepted (R440). -/
def acceptable (f : Firmware) : Prop :=
  mldsaVerify Config.vexuskKey (shake256 f.code 64) f.sig = true ∧ Config.fusedMinimum ≤ f.version.toNat

/-- The digest of a register extended by m (R441). -/
def extended (old m : List Byte) : List Byte := shake256 (old ++ m) 64

/-- The firmware that a reset starts (R447): an image updated since the last one takes the place of the old. -/
def firmwareAtReset (s : State) (i : Nat) : Option Firmware := (s.fwStaged.get? i).orElse fun _ => s.fwRunning.get? i

/-- Cycles of the last millisecond in which issue was withheld (R444): those of the ended spans that reach into it, and of the
span that goes on. A millisecond is 1,000,000 cycles. -/
def withheldCycles (now : Nat) (spans : List (Nat × Nat)) (since : Option Nat) : Nat :=
  (((spans ++ (since.map fun t => (t, now)).toList).filter fun e => decide (now < e.2 + 1000000)).map
    fun e => e.2 - max e.1 (now - 1000000)).sum

/-- Issue is withheld from when the measured power exceeds a limit until it falls below; what was withheld before stays (R444). -/
def heldTo (s t : State) (power lim : Nat) : Prop :=
  (s.withheld = none → (t.withheld = if lim < power then some s.clock.toNat else none) ∧ t.withheldSpans = s.withheldSpans) ∧
  (∀ u, s.withheld = some u →
    (t.withheld = if power < lim then none else some u) ∧
    (power < lim → (u, s.clock.toNat) ∈ t.withheldSpans) ∧ (lim ≤ power → t.withheldSpans = s.withheldSpans)) ∧
  t.throttle = s.throttle

/-- A word from its fields: each is a width, a value and the number of the lowest bit. -/
def fieldWord (fields : List (Nat × Nat)) : Word := BitVec.ofNat 32 (fields.map fun e => e.1 * 2 ^ e.2).sum

end Sys2Proof.Machine.Spec

/-- R112, R113, R176, R416, R445: STARVATION_SWEEP of a wave whose counter has fired begins with the lowest eligible set;
SLEEP_END once a sleep's cycles have passed; CORE_GATE where every resident wave sleeps for 65,536 cycles more, with an
entry phase of 1,000 cycles; CORE_WAKE starts when a wave is about to run and ends after the wake phase of the path it
took, a parity error of the sweep at retention voltage being fatal for the resident launches; no wave of a core that is
not awake issues; CORE_RESUME lets a halted core issue again, or resets it. The sweep that begins with the lowest set and what a
core's reset leaves are the model's choices: log entries 45 and 27. -/
def Sys2Proof.Machine.Spec.coresAndSleepHold : Prop :=
  (∀ (s : State) (w : Wave) (m : Team) (x : Stand) (r : List Stand), s.waves.get? s.ev.x = some w → s.teams.get? w.tid = some m →
    w.sweep = none → 1 < w.pcs.length → 64 ≤ w.brCount ∨ 128 ≤ w.qCount → w.waiting = none → s.mayIssue w m = true →
    s.eligibleSets s.ev.x w m = x :: r →
    ∃ t w', exec .starvationSweep s = .next t ∧ t.waves.get? s.ev.x = some w' ∧
      w' = { w with sweep := some ⟨x.pc.toNat, 0, 0, 0⟩ } ∧
      t = { s with waves := s.waves.put s.ev.x w', cores := t.cores } ∧
      ((t.core (4 * m.cluster + m.pos)).perf.get 0 4 = ((s.core (4 * m.cluster + m.pos)).perf.get 0 4 + 1) % 2 ^ 32)) ∧
  (∀ (s : State) (w : Wave) (u : Nat), s.waves.get? s.ev.x = some w → w.sleep = some u →
    (u ≤ s.clock.toNat → exec .sleepEnd s = .next { s with waves := s.waves.put s.ev.x { w with sleep := none, slept := none } }) ∧
    (s.clock.toNat < u → ∃ why, exec .sleepEnd s = .refused (.notEnabled why))) ∧
  (∀ (s : State), s.ev.x < 3200 → (s.core s.ev.x).gate = .awake →
    ((∀ w, onCore s s.ev.x w → ∃ u, w.sleep = some u ∧ s.clock.toNat + 65536 ≤ u) →
      exec .coreGate s = .next (s.updCore s.ev.x fun c => { c with gate := .entering (s.clock.toNat + 1000) })) ∧
    ((∃ w, onCore s s.ev.x w ∧ ∀ u, w.sleep = some u → u < s.clock.toNat + 65536) → ∃ why, exec .coreGate s = .refused (.notEnabled why))) ∧
  (∀ (s : State) (u : Nat), (s.core s.ev.x).gate = .entering u →
    (u ≤ s.clock.toNat → exec .coreGate s = .next (s.updCore s.ev.x fun c => { c with gate := .gated })) ∧
    (s.clock.toNat < u → ∃ why, exec .coreGate s = .refused (.notEnabled why))) ∧
  (∀ (s : State) (u : Nat), (s.core s.ev.x).gate = .gated ∨ (s.core s.ev.x).gate = .entering u →
    (∃ w, onCore s s.ev.x w ∧ ∀ u, w.sleep = some u → u ≤ s.clock.toNat + 3000) →
    exec .coreWake s = .next (s.updCore s.ev.x fun c =>
      { c with gate := .waking (s.clock.toNat + if s.ev.flag then 1524 else 3000) s.ev.flag })) ∧
  (∀ (s : State) (w : Wave) (m : Team), (s.core (4 * m.cluster + m.pos)).gate ≠ .awake → s.mayIssue w m = false) ∧
  (∀ (s : State) (u : Nat) (sweep : Bool), (s.core s.ev.x).gate = .waking u sweep →
    (u ≤ s.clock.toNat → ∃ t, exec .coreWake s = .next t ∧ (t.core s.ev.x).gate = .awake ∧ t.waves = s.waves ∧ t.teams = s.teams ∧
      (sweep = false ∨ s.ev.y ≠ 1 → t.launches = s.launches) ∧
      (sweep = true → s.ev.y = 1 → ∀ e ∈ s.teams, 4 * e.2.cluster + e.2.pos = s.ev.x → ∀ l, s.launches.get? e.2.lid = some l → l.fail = none →
        ∃ l', t.launches.get? e.2.lid = some l' ∧ l' = { l with fail := some (8, 5) })) ∧
    (s.clock.toNat < u → ∃ why, exec .coreWake s = .refused (.notEnabled why))) ∧
  ∀ (s : State), (s.core s.ev.x).halted = true →
    ∃ t, exec .coreResume s = .next t ∧ t = { s with cores := t.cores, icache := t.icache } ∧ (t.core s.ev.x).halted = false ∧
      (s.ev.flag = false → t.core s.ev.x = { s.core s.ev.x with halted := false } ∧ t.icache = s.icache) ∧
      (s.ev.flag = true → t.core s.ev.x = { s.core s.ev.x with halted := false, tlb := [], lastPage := [], l1 := [], perf := [] } ∧
        t.icache.get [] s.ev.x = []) ∧
      ∀ k, k ≠ s.ev.x → t.core k = s.core k ∧ t.icache.get [] k = s.icache.get [] k

/-- R440, R443, R444, R446, R447, R449: the housekeeping registers. POWER_THROTTLE, a measurement, withholds issue from when power
exceeds the limit until it falls below, and HK_PWRLIM, which takes 4,000 to 8,000 watts, holds the power last measured to the new
limit; HK_STATE, HK_PWRLIM and HK_ECC hold their fields at their places and zeros elsewhere; monitoring reads the power, these
words, and the rail currents and temperatures last measured; a write of HK_ECC clears it, and in the recovery state neither
register is written. That a microsecond is 1,000 cycles of R1's clock is log entry 50, that the events here come from outside log
entry 51, and how a measurement carries currents and temperatures log entry 90. -/
def Sys2Proof.Machine.Spec.housekeepingHold : Prop :=
  (∀ (s : State), ∃ t, exec .powerThrottle s = .next t ∧
    t = { s with power := s.ev.x, rails := t.rails, temps := t.temps, withheld := t.withheld, withheldSpans := t.withheldSpans } ∧
    (∀ l, s.ev.data = .nats l → t.rails = l.take 5 ∧ t.temps = l.drop 5) ∧
    ((∀ l, s.ev.data ≠ .nats l) → t.rails = s.rails ∧ t.temps = s.temps) ∧ heldTo s t s.ev.x s.pwrLim) ∧
  (∀ (s : State), s.monitored =
    [BitVec.ofNat 32 s.power, s.hkState, s.hkPwrlim, s.hkEcc] ++ s.rails.map (BitVec.ofNat 32) ++ s.temps.map (BitVec.ofNat 32)) ∧
  (∀ (s : State) (w : Wave) (m : Team), s.withheld ≠ none → s.mayIssue w m = false) ∧
  (∀ (s : State), s.throttle = withheldCycles s.clock.toNat s.withheldSpans s.withheld * 100 / 1000000) ∧
  (∀ (s : State), s.throttle ≤ 100 → s.hk.bootStep < 16 → s.hkState = fieldWord
    [((if s.hk.ready then 1 else 0), 0), ((if s.hk.recovery then 1 else 0), 1), ((if s.hk.debug then 1 else 0), 2),
      (s.throttle, 8), (s.hk.bootStep, 20)]) ∧
  (∀ (s : State), s.pwrLim ≤ 8000 → s.hkPwrlim = fieldWord [(s.pwrLim, 0)]) ∧
  (∀ (s : State), s.eccCorr ≤ 65535 → s.eccUncorr ≤ 65535 → s.hkEcc = fieldWord [(s.eccCorr, 0), (s.eccUncorr, 16)]) ∧
  (∀ (s : State), s.ev.data = .error .corrected → exec .memoryError s = .next { s with eccCorr := min (s.eccCorr + 1) 65535 }) ∧
  (∀ (s : State), exec .memoryScrub s = .next s) ∧
  (∀ (s : State), s.hk.recovery = false → exec .hkEccClear s = .next { s with eccUncorr := 0, eccCorr := 0 } ∧
    (s.ev.x < 2 ^ 16 → s.ev.x < 4000 ∨ 8000 < s.ev.x → exec .hkPwrlimWrite s = .next s) ∧
    (4000 ≤ s.ev.x → s.ev.x ≤ 8000 → ∃ t, exec .hkPwrlimWrite s = .next t ∧
      t = { s with pwrLim := s.ev.x, withheld := t.withheld, withheldSpans := t.withheldSpans } ∧ heldTo s t s.power s.ev.x)) ∧
  ∀ (s : State), s.hk.recovery = true → (∃ why, exec .hkEccClear s = .refused (.notEnabled why)) ∧
    ∃ why, exec .hkPwrlimWrite s = .refused (.notEnabled why)

/-- R408, R409, R443, R446, R448: errors. A rail excursion, an uncorrectable error and an array fault end the launches of
their owners that have placed a team, with details 6, 1 and 3; a debug unlock, which the recovery state does not take,
ends every owner's with 7 and renews their keys. That a fresh key is an odd number, and which token is valid, are the
model's: log entries 6 and 5, and that these events come from outside is log entry 51. -/
def Sys2Proof.Machine.Spec.powerAndErrorsHold : Prop :=
  (∀ (s : State), Tbl.ascending 0 s.launches = true →
    (∃ t, exec .railExcursion s = .next t ∧ strikes s t (fun o => ∃ e ∈ s.owners, e.1 = o) 6) ∧
    (∃ t, exec .arrayFault s = .next t ∧ strikes s t (fun o => (s.cluster s.ev.x).owner = some o) 3) ∧
    (∀ own, s.ev.data = .error (.uncorrectable own) → ∃ t, exec .memoryError s = .next t ∧
      strikes { s with eccUncorr := min (s.eccUncorr + 1) 65535 } t (fun o => o = own) 1) ∧
    (∀ b, s.ev.data = .bytes b → Config.tokenValid s.deviceId b = true → s.hk.recovery = false →
      ∃ t u, exec .debugUnlock s = .next t ∧ strikes s u (fun o => ∃ e ∈ s.owners, e.1 = o) 7 ∧
        t = { u with hk := { s.hk with debug := true }, keyVer := t.keyVer, keySeq := t.keySeq } ∧
        (∀ e ∈ s.owners, ∀ k ∈ e.2.grant, ∃ n, s.keySeq ≤ n ∧ t.keyVer.get 0 k = 2 * n + 1) ∧
        ∀ k, (∀ e ∈ s.owners, k ∉ e.2.grant) → t.keyVer.get 0 k = s.keyVer.get 0 k)) ∧
  ∀ (s : State) (b : List Byte), s.ev.data = .bytes b → s.hk.recovery = true ∨ Config.tokenValid s.deviceId b = false →
    ∃ why, exec .debugUnlock s = .refused (.notEnabled why)

/-- R228, R439 to R442, R447: MODULE_RESET verifies and measures the firmware in order: a missing or rejected image ends in the
recovery state, else step 4 is reached with the failed clusters out of service; DEVICE_ID_WRITE with VALID completes step
5; CXL training completes step 6 and the module is ready. MR_EXTEND changes registers 5 to 7 only; a report carries what R442
lists, the signature's 3,309 bytes and three zero bytes; FIRMWARE_UPDATE takes effect at the next reset. What a reset keeps, that
the identifier is written at step 5 only, the constants that stand for the keys, the owner's policy and the attestation
signature, and the list of reports are the model's choices: log entries 43, 44, 5 and 78. -/
def Obligations.BringUp : Prop :=
  (∀ (s : State) (bad : List Nat), s.ev.data = .nats bad → s.ev.x ≠ 6 → Tbl.ascending 0 s.fwStaged = true → ∃ t, exec .moduleReset s = .next t ∧
    t.owners = [] ∧ t.launches = [] ∧ t.teams = [] ∧ t.waves = [] ∧ t.cmds = [] ∧ t.saved = [] ∧ t.hk.ready = false ∧
    t.deviceIdValid = false ∧ t.hdm = ⟨false, 0, 0, 0⟩ ∧ t.drainDl = 2000 ∧ t.fabTmo = 10000 ∧ t.pwrLim = 8000 ∧ t.clock = 0 ∧
    t.hk.debug = false ∧ t.fwStaged = [] ∧ t.mem = s.mem ∧ t.keyVer = [] ∧ (∀ i, t.fwRunning.get? i = firmwareAtReset s i) ∧
    (∀ i, i < 5 → (∀ j, j < i → ∃ f, firmwareAtReset s j = some f ∧ acceptable f) →
      ((∀ f, firmwareAtReset s i = some f → ¬ acceptable f) → t.hk.recovery = true ∧ t.hk.bootStep = (if i = 0 then 1 else 2)) ∧
      ∀ f, firmwareAtReset s i = some f → acceptable f →
        t.mr[i]? = some (extended (List.replicate 64 0) (shake256 f.code 64))) ∧
    ((∀ i, i < 5 → ∃ f, firmwareAtReset s i = some f ∧ acceptable f) → t.hk.recovery = false ∧ t.hk.bootStep = 4 ∧
      ∀ x, x < 800 → ((t.cluster x).inService = false ↔ x ∈ bad)) ∧
    (∀ i, 5 ≤ i → i < 8 → t.mr[i]? = some (List.replicate 64 0))) ∧
  (∀ (s : State), s.ev.x = 6 → s.hk.bootStep = 5 →
    exec .moduleReset s = .next { s with hk := { s.hk with bootStep := 6, ready := true, pcieOnly := s.ev.flag } }) ∧
  (∀ (s : State), s.ev.x < 2 ^ 20 →
    (s.hk.bootStep = 4 → s.ev.flag = false → exec .deviceIdWrite s = .next { s with deviceId := s.ev.x }) ∧
    (∀ out, s.hk.bootStep = 4 → s.ev.flag = true → s.ev.data = .nats out → ∃ t, exec .deviceIdWrite s = .next t ∧
      t = { s with deviceId := s.ev.x, deviceIdValid := true, hk := { s.hk with bootStep := 5 }, clusters := t.clusters } ∧
      ∀ x, x < 800 → (t.cluster x).inService = if x ∈ out then false else (s.cluster x).inService) ∧
    (s.hk.bootStep ≠ 4 → ∃ why, exec .deviceIdWrite s = .refused (.notEnabled why))) ∧
  (∀ (s : State) (m : List Byte), s.ev.data = .bytes m → s.hk.recovery = false → s.mr.length = 8 →
    (5 ≤ s.ev.x → s.ev.x < 8 → ∃ t, exec .mrExtend s = .next t ∧ t = { s with mr := t.mr } ∧
      (∀ old, s.mr[s.ev.x]? = some old → t.mr[s.ev.x]? = some (extended old m)) ∧ ∀ i, i ≠ s.ev.x → t.mr[i]? = s.mr[i]?) ∧
    (s.ev.x < 5 → ∃ why, exec .mrExtend s = .refused (.notEnabled why))) ∧
  (∀ (s : State) (f : Firmware), s.ev.data = .firmware f → s.ev.x < 5 →
    exec .firmwareUpdate s = .next { s with fwStaged := s.fwStaged.put s.ev.x f }) ∧
  ∀ (s : State) (nonce : List Byte), s.ev.data = .bytes nonce → nonce.length = 32 → s.hk.recovery = false →
    s.ev.x = 0xFFFFFFFF ∨ (∃ o, s.owners.get? s.ev.x = some o) →
    ∃ body, exec .attestationRequest s = .next { s with reports := s.reports ++
        [body ++ (List.range 3309).map (fun i => Config.attest (shake256 body 64) i) ++ [0, 0, 0]] } ∧
      body = leBytes 4 0x52535842 ++ leBytes 4 1 ++ leBytes 4 s.deviceId ++
        leBytes 4 (((s.fwRunning.get? 0).map (·.version.toNat)).getD 0) ++ nonce ++ s.mr.flatten ++
        (match s.owners.get? s.ev.x with
          | some o => shake256 (Config.ownerPolicy o.vkeys o.required) 64
          | none => List.replicate 64 0) ++ leBytes 4 s.ev.x ++ leBytes 4 0

/-- The housekeeping registers and the power limit, and what errors and a debug unlock end. -/
def Obligations.PowerAndErrors : Prop :=
  Sys2Proof.Machine.Spec.housekeepingHold ∧ Sys2Proof.Machine.Spec.powerAndErrorsHold

namespace Sys2Proof.Machine.Spec

/-- No word of a range of a space is pending (R332). -/
def noPending (s : State) (sp : Space) (a n : Nat) : Prop := ∀ p ∈ s.pend, ∀ i, i < n → p.1 ≠ .mem sp ((a + i) / 4)

/-- The host exposes no range. -/
def noHdm (s : State) : Prop := s.hdm.en = false

/-- No owner's rings or queues watch memory. -/
def unwatched (s : State) : Prop := ∀ e ∈ s.owners, e.2.migQ = none ∧ e.2.queues = []

/-- The response to a peer's request as its window holds it (R231): status 0 and what a read or an atomic returns, or 1. -/
def responseHeld (t : State) (r : FabReq) (resp : List Byte) : Prop :=
  ∃ w, t.fabWindow.get? (64 * r.src + r.stream) = some w ∧ w.resp.get? r.seq = some resp

/-- A translation of a peer's page that rests on a lease (R236). -/
def restsOn (x : Trans) (page : Nat) : Prop := x.leaf.tier = 2 ∧ x.leasePage = page

/-- Flits of a port's messages, which are packed back to back, 56 payload bytes in each (R229). -/
def flits (bytes : Nat) : Nat := (bytes + 55) / 56

/-- A port may carry a message: it is up, and its replay buffer of 256 flits has room (R230). -/
def portOpen (s : State) (p bytes : Nat) : Prop :=
  p < 32 ∧ (s.link p).down = false ∧ flits ((s.link p).bytes + bytes) - (s.link p).acked ≤ 256

/-- The links after a message has gone out by a port. -/
def linksSend (s t : State) (bytes : Nat) (port : Option Nat) : Prop :=
  ∀ p, t.link p = if port = some p then { s.link p with bytes := (s.link p).bytes + bytes } else s.link p

/-- Some port may carry a message. -/
def anyPort (s : State) (bytes : Nat) : Prop := ∃ p, portOpen s p bytes

/-- A response of some bytes, with its 16-byte header, goes out by an open port; nothing else changes (R229, R231). -/
def responds (s t : State) (n : Nat) : Prop :=
  ∃ p, portOpen s p (16 + n) ∧ t = { s with links := t.links } ∧ linksSend s t (16 + n) (some p)

/-- A byte lies in none of the sectors that a range touches. -/
def clearOf (a n b : Nat) : Prop := ∀ i, i < n → (a + i) / 32 ≠ b / 32

end Sys2Proof.Machine.Spec

/-- R228 to R233, R235: the fabric. LINK_RETRY counts retries in a row, and what lies before the flit it asks for is acknowledged;
LINK_DOWN takes a link down at 16 of them or at a loss of lock, and its unacknowledged requests fail over; a peer's
request is performed once and its response is held, a copy is answered with the held response, neither before a port takes the
response (R230), and before VALID nothing is answered; one under a key identifier without a key is answered with an error; a request of another party at a peer's memory is
performed there. That a request of the fabric is performed in one act, a status byte before its data, and the choice of the
port are the model's: log entries 41 and 57. -/
def Sys2Proof.Machine.Spec.fabricTrafficHold : Prop :=
  (∀ (s : State), s.ev.x < 32 → (s.link s.ev.x).down = false →
    let l := s.link s.ev.x
    (∃ t, exec .linkRetry s = .next t ∧ t = { s with links := t.links } ∧ (∀ k, k ≠ s.ev.x → t.link k = s.link k) ∧
      t.link s.ev.x = { l with
        retries := if s.ev.flag then l.retries + 1 else 0, acked := max l.acked (min s.ev.y (flits l.bytes)) }) ∧
    (s.ev.flag = true ∨ 16 ≤ l.retries → ∃ t, exec .linkDown s = .next t ∧ t = { s with links := t.links, fabOut := t.fabOut } ∧
      t.link s.ev.x = { l with down := true } ∧ (∀ k, k ≠ s.ev.x → t.link k = s.link k) ∧ t.fabOut.length = s.fabOut.length ∧
      ∀ (i : Nat) (r : OutReq), s.fabOut[i]? = some r →
        (r.port = some s.ev.x → l.acked < r.flit → t.fabOut[i]? = some { r with port := none }) ∧
        (r.port ≠ some s.ev.x ∨ r.flit ≤ l.acked → t.fabOut[i]? = some r)) ∧
    (s.ev.flag = false → l.retries < 16 → ∃ why, exec .linkDown s = .refused (.notEnabled why))) ∧
  (∀ (s : State) (r : FabReq), s.ev.data = .fabric r → s.ev.flag = false → r.stream < 64 →
    (s.deviceIdValid = false → exec .fabricRequest s = .next s) ∧
    (∀ w resp, s.deviceIdValid = true → s.fabWindow.get? (64 * r.src + r.stream) = some w → w.resp.get? r.seq = some resp →
      (anyPort s (16 + resp.length) → ∃ t, exec .fabricRequest s = .next t ∧ responds s t resp.length) ∧
      (¬ anyPort s (16 + resp.length) → ∃ why, exec .fabricRequest s = .refused (.notEnabled why))) ∧
    (s.deviceIdValid = true → s.fabWindow.get? (64 * r.src + r.stream) = none → r.seq < 1024 →
      noPending s .dev r.addr (reqBytes r.req) →
      (128 ≤ r.key ∨ s.keyVer.get 0 r.key = 0 ∨ 0x50000000000 < r.addr + reqBytes r.req →
        (anyPort s 17 → ∃ t, exec .fabricRequest s = .next t ∧ SameBytes s t ∧ responseHeld t r [1]) ∧
        (¬ anyPort s 17 → ∃ why, exec .fabricRequest s = .refused (.notEnabled why))) ∧
      (r.key < 128 → s.keyVer.get 0 r.key ≠ 0 → noRegion s → noHdm s → unwatched s → r.addr + reqBytes r.req ≤ 0x50000000000 →
        (∀ n, r.req = .read n → anyPort s (17 + n) → ∃ t, exec .fabricRequest s = .next t ∧ SameBytes s t ∧
          responseHeld t r (0 :: s.bytesAt .dev r.key r.addr n)) ∧
        (∀ d, r.req = .write d → anyPort s 17 → ∃ t, exec .fabricRequest s = .next t ∧ responseHeld t r [0] ∧
          (∀ i, i < d.length → t.byteAt .dev r.key (r.addr + i) = d.getD i 0) ∧
          ∀ sp k a, (sp ≠ .dev ∨ clearOf r.addr d.length a) → t.byteAt sp k a = s.byteAt sp k a) ∧
        ∀ x y, r.req = .atomic 0 false x y → anyPort s 21 → ∃ t, exec .fabricRequest s = .next t ∧
          let old := leValue (s.bytesAt .dev r.key r.addr 4)
          responseHeld t r (0 :: leBytes 4 old) ∧ leValue (t.bytesAt .dev r.key r.addr 4) = (old + x.toNat) % 2 ^ 32 ∧
          ∀ sp k a, (sp ≠ .dev ∨ clearOf r.addr 4 a) → t.byteAt sp k a = s.byteAt sp k a))) ∧
  ∀ (s : State) (r : FabReq), s.ev.data = .fabric r → s.ev.flag = true → r.stream < 64 → r.addr / 2 ^ 44 ≠ s.deviceId →
    (¬ noPending s .peer r.addr (reqBytes r.req) → ∃ why, exec .fabricRequest s = .refused (.notEnabled why)) ∧
    (noPending s .peer r.addr (reqBytes r.req) → noRegion s → unwatched s →
      (∀ n, r.req = .read n → exec .fabricRequest s = .next s) ∧
      ∀ d, r.req = .write d → ∃ t, exec .fabricRequest s = .next t ∧
        (∀ i, i < d.length → t.byteAt .peer r.key (r.addr + i) = d.getD i 0) ∧
        ∀ sp k a, (sp ≠ .peer ∨ clearOf r.addr d.length a) → t.byteAt sp k a = s.byteAt sp k a)

/-- R232, R233: a request without a response is sent again by another port after 200 µs, up to 8 times, and none is counted while no other port takes it; a target that has answered
nothing for CSR_FABTMO is fatal for the owners with an access to it outstanding. Which owners have one, that a microsecond is
1,000 cycles, and that a path is a port are the model's choices: log entries 42, 50 and 57. -/
def Sys2Proof.Machine.Spec.fabricLossesHold : Prop :=
  (∀ (s : State) (r : OutReq), s.fabOut[s.ev.x]? = some r →
    (r.last + 200000 ≤ s.clock.toNat → r.resends < 8 → (∃ p, portOpen s p r.bytes ∧ r.port ≠ some p) →
      ∃ t p, exec .fabricResend s = .next t ∧ portOpen s p r.bytes ∧ r.port ≠ some p ∧
      t = { s with links := t.links, fabOut := t.fabOut } ∧ linksSend s t r.bytes (some p) ∧
      t.fabOut = s.fabOut.set s.ev.x
        { r with resends := r.resends + 1, last := s.clock.toNat, port := some p, flit := flits (t.link p).bytes }) ∧
    ((∀ p, portOpen s p r.bytes → r.port = some p) → ∃ why, exec .fabricResend s = .refused (.notEnabled why)) ∧
    (s.clock.toNat < r.last + 200000 ∨ 8 ≤ r.resends → ∃ why, exec .fabricResend s = .refused (.notEnabled why))) ∧
  ∀ (s : State), Tbl.ascending 0 s.launches = true → s.fabHeard.get 0 s.ev.x + 1000 * s.fabTmo.toNat ≤ s.clock.toNat →
    (∃ r ∈ s.fabOut, r.device = s.ev.x ∧ r.first + 1000 * s.fabTmo.toNat ≤ s.clock.toNat) →
    let cut (o : Nat) : Prop := ∃ r ∈ s.fabOut, r.device = s.ev.x ∧ r.owner = o
    (∃ e ∈ s.launches, cut e.2.owner ∧ e.2.stage = .running ∧ e.2.fail = none) →
    ∃ t, exec .fabricUnreachable s = .next t ∧ strikes s t cut 2

/-- R236 to R238: leases. LEASE_REQUEST grants a lease of a page that is not blocked; with the table full the least recently
used lease is recalled first. LEASE_RECALL at the holder drops every translation that rests on the lease, and is
acknowledged once no access under it is outstanding; the acknowledgement ends the lease. LEASE_BLOCK blocks a page and
recalls its leases; LEASE_BLOCK_CLEAR unblocks it; neither acts in recovery (R440). Before VALID the device takes no part (R228). That a full table recalls first
and the request is made again is the model's choice: log entry 40. -/
def Sys2Proof.Machine.Spec.leasesHold : Prop :=
  (∀ (s : State), s.deviceIdValid = false →
    exec .leaseRequest s = .next s ∧ ∃ why, exec .leaseRecall s = .refused (.notEnabled why)) ∧
  (∀ (s : State), s.deviceIdValid = true →
    let e := (s.ev.x, s.ev.y)
    (s.ev.x ∈ s.leaseBlocked → exec .leaseRequest s = .next s) ∧
    (s.ev.x ∉ s.leaseBlocked → e ∈ s.leasesGranted ∨ s.leasesGranted.length < 65536 →
      exec .leaseRequest s = .next { s with leasesGranted := e :: s.leasesGranted.filter fun x => x ≠ e }) ∧
    (∀ last, s.ev.x ∉ s.leaseBlocked → e ∉ s.leasesGranted → 65536 ≤ s.leasesGranted.length → s.recallPending = [] →
      s.leasesGranted.getLast? = some last → s.leasesGranted.Nodup →
      exec .leaseRequest s = .next { s with recallPending := [last] })) ∧
  (∀ (s : State), s.deviceIdValid = true → s.ev.flag = true →
    let e := (s.ev.x, s.ev.y)
    (e ∈ s.recallPending → exec .leaseRecall s = .next { s with
      recallPending := s.recallPending.filter fun x => x ≠ e, leasesGranted := s.leasesGranted.filter fun x => x ≠ e }) ∧
    (e ∉ s.recallPending → ∃ why, exec .leaseRecall s = .refused (.notEnabled why))) ∧
  (∀ (s : State), s.deviceIdValid = true → s.ev.flag = false → s.ev.z = 0 → s.ev.x < 16 →
    ∃ t, exec .leaseRecall s = .next t ∧ t = { s with cores := t.cores, dies := t.dies } ∧
      (∀ k, k / 200 = s.ev.x → (∀ x ∈ (t.core k).tlb, ¬ restsOn x s.ev.y) ∧
        (∀ j x, (t.core k).lastPage.get? j = some x → ¬ restsOn x s.ev.y) ∧
        ∀ x ∈ (s.core k).tlb, ¬ restsOn x s.ev.y → x ∈ (t.core k).tlb) ∧
      (∀ k, k / 200 ≠ s.ev.x → t.core k = s.core k) ∧
      s.ev.y ∉ (t.die s.ev.x).leases ∧ s.ev.y ∈ (t.die s.ev.x).recalls) ∧
  (∀ (s : State), s.deviceIdValid = true → s.ev.flag = false → s.ev.z ≠ 0 → s.ev.y ∈ (s.die s.ev.x).recalls →
    let here (tid : Nat) : Prop := ∃ m, s.teams.get? tid = some m ∧ m.cluster / 50 = s.ev.x
    let idle : Prop := (∀ e ∈ s.waves, here e.2.tid → e.2.onLease s.ev.y = false) ∧
      (∀ e ∈ s.cmds, here e.2.tid → ∀ r ∈ s.fabOut, ∀ n, r.who = .elem e.1 n →
        ∀ p, e.2.askedLine n = some p → p.sp = .peer → p.addr / 65536 ≠ s.ev.y) ∧
      ∀ r ∈ s.fabOut, ∀ own p b, r.who = .device (.line s.ev.x own p b) → p.sp = .peer → p.addr / 65536 ≠ s.ev.y
    (idle → exec .leaseRecall s = .next (s.updDie s.ev.x fun d => { d with recalls := d.recalls.filter (· ≠ s.ev.y) })) ∧
    (¬ idle → ∃ why, exec .leaseRecall s = .refused (.notEnabled why))) ∧
  ∀ (s : State), (s.hk.recovery = true →
      (∃ why, exec .leaseBlock s = .refused (.notEnabled why)) ∧ ∃ why, exec .leaseBlockClear s = .refused (.notEnabled why)) ∧
    (s.hk.recovery = false → (∃ t, exec .leaseBlock s = .next t ∧
      t = { s with leaseBlocked := t.leaseBlocked, recallPending := t.recallPending } ∧
      (∀ p, p ∈ t.leaseBlocked ↔ p = s.ev.x ∨ p ∈ s.leaseBlocked) ∧
      ∀ e, e ∈ t.recallPending ↔ e ∈ s.recallPending ∨ (e ∈ s.leasesGranted ∧ e.1 = s.ev.x)) ∧
      exec .leaseBlockClear s = .next { s with leaseBlocked := s.leaseBlocked.filter (· ≠ s.ev.x) })

/-- R239, R240, R243, R245, R246: the host, once CXL has trained with a partner that makes the device a Type 2 device. HOST_SNOOP
waits for a pending line; a line it writes holds its bytes and the agent has it no more. HOST_HDM_ACCESS to the exposed range
waits for pending words, those of the granule's bias bit among them; in device bias the granule returns to host bias first; a
read is answered with the line's bytes, a written line holds its bytes, and a line the host caches or modifies is the
host's until the home takes it back. How the host's accesses are performed is the model's choice: log entry 47. -/
def Sys2Proof.Machine.Spec.hostAccessesHold : Prop :=
  (∀ (s : State), s.hk.ready = false ∨ s.hk.pcieOnly = true →
    (∃ why, exec .hostSnoop s = .refused (.notEnabled why)) ∧
    ∀ r, s.ev.data = .host r → ∃ why, exec .hostHdmAccess s = .refused (.notEnabled why)) ∧
  (∀ (s : State), s.hk.ready = true → s.hk.pcieOnly = false → noRegion s → unwatched s →
    (¬ noPending s .host (64 * s.ev.x) 64 → ∃ why, exec .hostSnoop s = .refused (.notEnabled why)) ∧
    (noPending s .host (64 * s.ev.x) 64 →
      (s.ev.data = .none → ∃ t, exec .hostSnoop s = .next t ∧ t = { s with agentLines := t.agentLines } ∧
        ∀ b, s.agentLines.get? s.ev.x = some b → t.agentLines.get? s.ev.x = some false) ∧
      ∀ b, s.ev.data = .bytes b → b.length = 64 → ∃ t, exec .hostSnoop s = .next t ∧ t.agentLines.get? s.ev.x = none ∧
        (∀ i, i < 64 → t.byteAt .host 0 (64 * s.ev.x + i) = b.getD i 0) ∧
        ∀ sp k a, sp ≠ .host ∨ a / 64 ≠ s.ev.x → t.byteAt sp k a = s.byteAt sp k a)) ∧
  ∀ (s : State) (r : HostReq), s.hk.ready = true → s.hk.pcieOnly = false → s.ev.data = .host r → s.hdm.en = true →
    s.hdm.base * 2 ^ 30 ≤ s.ev.x → s.ev.x < (s.hdm.base + s.hdm.size) * 2 ^ 30 →
    let first := s.ev.x / 64 * 64
    let biasByte := s.biasBase + (s.ev.x - s.hdm.base * 2 ^ 30) / 4096 / 8
    (2 ^ 41 ≤ s.ev.x → exec .hostHdmAccess s = .fault .hdmOutsideHbm) ∧
    (s.ev.x < 2 ^ 41 → ¬ (noPending s .dev first 64 ∧ noPending s .dev biasByte 1) →
      ∃ why, exec .hostHdmAccess s = .refused (.notEnabled why)) ∧
    (s.ev.x < 2 ^ 41 → noPending s .dev first 64 → noPending s .dev biasByte 1 → noRegion s → unwatched s →
      (∀ k h d, s.hostLines.get? k = some h → h.dirty = some d → d.length ≤ 64) →
      (s.biasBase + s.hdm.size * 2 ^ 15 ≤ s.hdm.base * 2 ^ 30 ∨ (s.hdm.base + s.hdm.size) * 2 ^ 30 ≤ s.biasBase) →
      ∃ t, exec .hostHdmAccess s = .next t ∧ t.deviceBias s.ev.x = false ∧
        (∀ a, a / 4096 ≠ s.ev.x / 4096 → s.hdm.base * 2 ^ 30 ≤ a → a < (s.hdm.base + s.hdm.size) * 2 ^ 30 → t.deviceBias a = s.deviceBias a) ∧
        (r = .read ∨ r = .cache → s.deviceBias s.ev.x = false → (∀ k a, t.byteAt .dev k a = s.byteAt .dev k a) ∧
          t.hostAnswer = s.bytesAt .dev s.hdm.key first 64) ∧
        (∀ d, r = .write d → d.length = 64 → ∀ i, i < 64 → t.byteAt .dev s.hdm.key (first + i) = d.getD i 0) ∧
        (r = .cache → ∃ h, t.hostLines.get? (s.ev.x / 64) = some h) ∧
        ∀ d, r = .dirty d → d.length = 64 → t.hostLines.get? (s.ev.x / 64) = some ⟨some d⟩ ∧
          ∀ i, i < 64 → t.byteAt .dev s.hdm.key (first + i) = d.getD i 0)

/-- The fabric: links, requests and their responses, copies, resends and targets that fall silent. -/
def Obligations.FabricTraffic : Prop :=
  Sys2Proof.Machine.Spec.fabricTrafficHold ∧ Sys2Proof.Machine.Spec.fabricLossesHold

/-- Leases on peer pages, and the host's accesses. -/
def Obligations.LeasesAndHost : Prop :=
  Sys2Proof.Machine.Spec.leasesHold ∧ Sys2Proof.Machine.Spec.hostAccessesHold

namespace Sys2Proof.Machine.Spec

/-- What every step keeps: the memories' canonical form, and the limits of the registers that software writes (R244, R245,
R415, R441, R444, R449). -/
def kept (s : State) : Prop :=
  s.MemOk ∧ (1 ≤ s.drainDl ∧ s.drainDl ≤ 1000000) ∧ s.hdm.size ≤ 256 ∧ s.biasBase % 2 ^ 15 = 0 ∧
  (4000 ≤ s.pwrLim ∧ s.pwrLim ≤ 8000) ∧ s.mr.length = 8 ∧ s.eccCorr < 65536 ∧ s.eccUncorr < 65536

end Sys2Proof.Machine.Spec

/-- R50, R51, R54, R205, R244, R245, R415, R439, R441, R449: the state after reset: every register the spec gives a reset value
holds it, no owner, launch or team exists, and what every step keeps holds. Contents of memory at reset, and of the
registers the spec gives no reset value, are the model's choices: log entries 1 and 4. -/
def Obligations.ResetValues : Prop :=
  let s := State.reset
  s.drainDl = 2000 ∧ s.fabTmo = 10000 ∧ s.hdm = ⟨false, 0, 0, 0⟩ ∧ s.biasBase = 0 ∧ s.pwrLim = 8000 ∧ s.eccCorr = 0 ∧
  s.eccUncorr = 0 ∧ s.hk = ⟨0, false, false, false, false⟩ ∧ s.hkState = 0 ∧ s.hkPwrlim = 8000 ∧ s.hkEcc = 0 ∧ s.deviceId = 0 ∧ s.deviceIdValid = false ∧ s.clock = 0 ∧
  (∀ i, i < 8 → s.mr[i]? = some (List.replicate 64 0)) ∧ s.owners = [] ∧ s.launches = [] ∧ s.teams = [] ∧ s.waves = [] ∧
  s.cmds = [] ∧ (∀ d i, (s.die d).tag.get 0 i = 0) ∧ (∀ l, s.bulletin l = 0) ∧
  (∀ k i, (s.core k).perf.get 0 i = 0) ∧ (∀ x, (s.cluster x).inService = true ∧ (s.cluster x).owner = none) ∧ kept s

/-- The whole machine: whatever a step does, the memories stay in canonical form and the registers that software writes
within their limits (R244, R245, R415, R441, R444, R449). -/
def Obligations.StepKeeps : Prop := ∀ s t : State, kept s → step s = .next t → kept t

/-- The whole machine: a step never refuses, and answers a next state unless an input from outside makes the machine stop.
(Which act a step takes is the model's choice: log entry 2.) -/
def Obligations.StepAnswers : Prop :=
  (∀ (s : State) (r : Refusal), step s ≠ .refused r) ∧
  (∀ (s : State), s.inputs = [] → ∃ t, step s = .next t) ∧
  ∀ (s : State) (f : Fault), step s = .fault f → ∃ n, s.chosen = .input n

/-- R20, R131, R176, R416, R445: a cycle passes as one act: the module's counter rises by 1, and each core with a wave parked on
an absent line counts it; a sleep's window and a core's wake are never passed over. That a
cycle is an act of its own, and which act a step takes, are the model's choices: log entries 53 and 2. -/
def Sys2Proof.Machine.Spec.cyclesPassHold : Prop :=
  (∀ s : State, ∃ t, s.act .time = .next t ∧ t = { s with clock := s.clock + 1, cores := t.cores } ∧
    (∀ k, t.core k = { s.core k with perf := (t.core k).perf }) ∧
    ∀ k, (t.core k).perf.get 0 7 = if ∃ e ∈ s.waves, e.2.absentWait = true ∧ ∃ m, s.teams.get? e.2.tid = some m ∧ 4 * m.cluster + m.pos = k
      then ((s.core k).perf.get 0 7 + 1) % 2 ^ 32 else (s.core k).perf.get 0 7) ∧
  ∀ s : State, Act.time ∈ s.acts → (∀ e ∈ s.waves, ∀ u, e.2.sleep = some u → s.clock.toNat < u + 32) ∧
    ∀ k u c sweep, s.cores.get? k = some c → c.gate = .waking u sweep → s.clock.toNat < u

/-- R91 to R106: decoding an encoded instruction gives it back: for every well-formed instruction, every operand at every value
its encoding admits, with the switch marker set or not. -/
def Sys2Proof.Machine.Spec.decodeEncodeHold : Prop :=
  ∀ (m : Bool) (i : Instr), i.wf = true → i.isWord = true →
    encode m i < 2 ^ 32 ∧ decodeWord (encode m i) = .ok i ∧ bitS (encode m i) = m

/-- R91 to R106: every word has at most one meaning: a word that decodes gives a well-formed instruction whose encoding is that
word. -/
def Sys2Proof.Machine.Spec.encodeDecodeHold : Prop :=
  ∀ (w : Nat) (i : Instr), w < 2 ^ 32 → decodeWord w = .ok i → i.wf = true ∧ i.isWord = true ∧ encode (bitS w) i = w

/-- R91 to R106: words that the spec writes out, with the instructions it gives them, and words it calls illegal. -/
def Obligations.DecodeWords : Prop :=
  decodeWord 0x30100400 = .ok (.ld (.v 4) (.v 0) .word 0) ∧ decodeWord 0x9A140004 = .ok (.ldlit (.v 5) 4) ∧
  decodeWord 0x20418205 = .ok (.fmul (.v 6) (.v 4) (.v 5)) ∧ decodeWord 0x32180401 = .ok (.st (.v 6) (.v 0) .word 1) ∧
  decodeWord 0x4A200000 = .ok .exit ∧ decodeWord 0xA0628205 = .ok (.ffma (.v 10) (.v 4) (.v 5)) ∧
  decodeWord 0x0341840A = .ok (.iaddW (.v 6) (.v 8) (.v 10)) ∧ decodeWord 0x0A102FFD = .ok (.addi (.v 4) (.v 5) (-3)) ∧
  decodeWord 0x4427FFFB = .ok (.bnz (.v 9) (-5)) ∧ decodeWord 0x30200602 = .ok (.ld (.v 8) (.v 0) .qd 2) ∧
  decodeWord 0x0BE42001 = .ok (.addi (.q 1) (.v 4) 1) ∧ decodeWord 0xA6E30208 = .ok (.qscale (.v 12) (.v 4) (.v 8)) ∧
  decodeWord 0x12218303 = .ok (.shri (.v 6) (.v 6) 3) ∧
  decodeWord 0 = .error .opcode ∧ decodeWord 0x2C000000 = .error .opcode ∧ decodeWord 0x0341840B = .error .field ∧
  decodeWord 0x30240602 = .error .field ∧ decodeWord 0x22004101 = .error .field ∧ decodeWord 0x229E0200 = .error .field

/-- Sweeps, sleep, gating, HALT's end, and the passing of cycles. -/
def Obligations.CoresAndTime : Prop :=
  Sys2Proof.Machine.Spec.coresAndSleepHold ∧ Sys2Proof.Machine.Spec.cyclesPassHold

/-- Decoding and encoding are inverse to each other. -/
def Obligations.Encoding : Prop :=
  Sys2Proof.Machine.Spec.decodeEncodeHold ∧ Sys2Proof.Machine.Spec.encodeDecodeHold
end

