-- ==== Sys2Proof/Laws/Act.lean ====
section
/-! SUPPORT. What becomes of an act: it is carried out, or its requests go out and it waits. -/

namespace Sys2Proof.Machine

/-- The state `t` differs from `s` by requests alone: keys asked for, and messages to peers; none that was out is gone. -/
structure RequestsOnly (s t : State) : Prop where
  frame : t = { s with keyWants := t.keyWants, fabOut := t.fabOut, fabSeq := t.fabSeq, links := t.links }
  keys : ∀ k ∈ s.keyWants, k ∈ t.keyWants
  out : ∀ r ∈ s.fabOut, r ∈ t.fabOut

theorem RequestsOnly.refl (s : State) : RequestsOnly s s := ⟨rfl, fun _ h => h, fun _ h => h⟩

theorem RequestsOnly.trans {a b c : State} (h : RequestsOnly a b) (k : RequestsOnly b c) : RequestsOnly a c :=
  ⟨by rw [k.frame, h.frame], fun x hx => k.keys x (h.keys x hx), fun x hx => k.out x (h.out x hx)⟩

theorem onPort_requestsOnly (s : State) (port : Option Nat) (bytes : Nat) : RequestsOnly s (s.onPort port bytes) := by
  cases port <;> exact ⟨rfl, fun _ h => h, fun _ h => h⟩

theorem fabSend_requestsOnly (s : State) (die own : Nat) (who : Asker) (p : Phys) (bytes : Nat) :
    RequestsOnly s (s.fabSend die own who p bytes) := by
  unfold State.fabSend
  split
  · exact .refl s
  · split
    · exact (onPort_requestsOnly s _ _).trans ⟨rfl, fun _ h => h, fun _ h => List.mem_append_left _ h⟩
    · exact .refl s

theorem request_requestsOnly (s : State) (w : Want) : RequestsOnly s (s.request w) := by
  cases w with
  | key u k => exact ⟨rfl, fun x h => List.mem_eraseDups.mpr (List.mem_append_left _ h), fun _ h => h⟩
  | line die own p bytes =>
    simp only [State.request]
    split
    · exact .refl s
    · exact fabSend_requestsOnly _ _ _ _ _ _

theorem requests_requestsOnly (ws : List Want) : ∀ s : State, RequestsOnly s (ws.foldl State.request s) := by
  induction ws with
  | nil => exact .refl
  | cons w ws ih => exact fun s => (request_requestsOnly s w).trans (ih _)

theorem unmet_nil {s t : State} : s.unmet t = [] ↔ ∀ w ∈ t.wants, w ∈ s.met := by
  simp [State.unmet, List.filter_eq_nil_iff]

/-- An act that needs nothing more is carried out. -/
theorem transact_done {s t : State} (h : ∀ w ∈ t.wants, w ∈ s.met) :
    s.transact t = some { t with wants := [], met := t.met.filter fun w => !t.wants.contains w } := by
  rw [State.transact, if_pos (by rw [unmet_nil.mpr h]; rfl)]

/-- An act that lacks something leaves its requests alone. -/
theorem transact_waits {s t u : State} {w : Want} (h1 : w ∈ t.wants) (h2 : w ∉ s.met) (h : s.transact t = some u) :
    RequestsOnly s u := by
  have hn : ¬ (s.unmet t).isEmpty = true := fun h0 => h2 (unmet_nil.mp (List.isEmpty_iff.mp h0) w h1)
  rw [State.transact, if_neg hn] at h
  dsimp only at h
  split at h
  · cases h
  · cases h
    exact requests_requestsOnly _ s

end Sys2Proof.Machine
end

