-- ==== Sys2Proof/Laws/Lanes.lean ====
section
/-! SUPPORT. Lanes of a mask, and where lanes stand after PC sets have moved. -/

namespace Sys2Proof.Machine

theorem mem_lanesOf (m : Mask) (l : Nat) : l ∈ lanesOf m ↔ hasLane m l = true := by
  simp only [lanesOf, List.mem_filter, List.mem_range, hasLane]
  constructor
  · exact fun h => h.2
  · intro h
    refine ⟨?_, h⟩
    by_contra hl
    rw [BitVec.getLsbD_of_ge m l (by omega)] at h
    cases h

theorem hasLane_laneBit (k l : Nat) (hk : k < 64) : hasLane (laneBit k) l = decide (l = k) := by
  simp only [hasLane, laneBit, BitVec.getLsbD_ofNat, Nat.testBit_two_pow]
  by_cases h : l = k
  · subst h; simp [hk]
  · simp [h, Ne.symm h]

theorem hasLane_lt {m : Mask} {l : Nat} (h : hasLane m l = true) : l < 64 := by
  by_contra hl
  rw [hasLane, BitVec.getLsbD_of_ge m l (by omega)] at h
  cases h

theorem hasLane_and (a b : Mask) (l : Nat) : hasLane (a &&& b) l = (hasLane a l && hasLane b l) := by
  simp [hasLane]

theorem hasLane_or (a b : Mask) (l : Nat) : hasLane (a ||| b) l = (hasLane a l || hasLane b l) := by
  simp [hasLane]

theorem hasLane_andNot (a b : Mask) (l : Nat) : hasLane (a &&& ~~~b) l = (hasLane a l && !hasLane b l) := by
  by_cases h : l < 64
  · simp [hasLane, h]
  · simp [hasLane, BitVec.getLsbD_of_ge a l (by omega)]

theorem pcOfLane_cons (p : PC) (x : Mask) (r : List (PC × Mask)) (l : Nat) :
    pcOfLane ((p, x) :: r) l = if hasLane x l = true then p else pcOfLane r l := by
  simp only [pcOfLane, List.find?_cons]
  cases hasLane x l <;> rfl

/-- The entry a lane stands in after lanes were taken out. -/
theorem pcOfLane_remove_other (m : Mask) (pcs : List (PC × Mask)) (l : Nat) (h : hasLane m l = false) :
    pcOfLane (pcsRemove m pcs) l = pcOfLane pcs l := by
  induction pcs with
  | nil => rfl
  | cons e r ih =>
    obtain ⟨p, x⟩ := e
    simp only [pcsRemove]
    split
    · next hz =>
      have hx : hasLane x l = false := by
        have h0 : hasLane (x &&& ~~~m) l = false := by rw [hz]; simp [hasLane]
        rw [hasLane_andNot, h] at h0
        simpa using h0
      rw [pcOfLane_cons, hx]
      exact ih
    · have hx : hasLane (x &&& ~~~m) l = hasLane x l := by simp [hasLane_andNot, h]
      rw [pcOfLane_cons, pcOfLane_cons, hx, ih]

theorem remove_no_lane (m : Mask) (pcs : List (PC × Mask)) (l : Nat) (h : hasLane m l = true) :
    ∀ e ∈ pcsRemove m pcs, hasLane e.2 l = false := by
  induction pcs with
  | nil => simp [pcsRemove]
  | cons e r ih =>
    obtain ⟨p, x⟩ := e
    simp only [pcsRemove]
    split
    · exact ih
    · intro e he
      rcases List.mem_cons.1 he with he | he
      · subst he; simp [hasLane_andNot, h]
      · exact ih e he

theorem pcsAdd_lane (p : PC) (m : Mask) (pcs : List (PC × Mask)) (l : Nat) (hm : hasLane m l = true)
    (h : ∀ e ∈ pcs, hasLane e.2 l = true → e.1 = p) : pcOfLane (pcsAdd p m pcs) l = p := by
  induction pcs with
  | nil => simp [pcsAdd, pcOfLane, hm]
  | cons e r ih =>
    obtain ⟨q, x⟩ := e
    simp only [pcsAdd]
    split
    · next hpq => subst hpq; simp [pcOfLane_cons, hasLane_or, hm]
    · split
      · simp [pcOfLane_cons, hm]
      · next hpq _ =>
        have hx : hasLane x l = false := by
          cases hh : hasLane x l
          · rfl
          · exact absurd (h (q, x) List.mem_cons_self hh).symm hpq
        rw [pcOfLane_cons, hx]
        exact ih fun e he => h e (List.mem_cons_of_mem _ he)

theorem pcsAdd_other (p : PC) (m : Mask) (pcs : List (PC × Mask)) (l : Nat) (hm : hasLane m l = false) :
    pcOfLane (pcsAdd p m pcs) l = pcOfLane pcs l := by
  induction pcs with
  | nil => simp [pcsAdd, pcOfLane, hm]
  | cons e r ih =>
    obtain ⟨q, x⟩ := e
    simp only [pcsAdd]
    split
    · next hpq => subst hpq; simp [pcOfLane_cons, hasLane_or, hm]
    · split
      · simp [pcOfLane_cons, hm]
      · simp [pcOfLane_cons, ih]

theorem mem_pcsAdd (p : PC) (m : Mask) (pcs : List (PC × Mask)) (l : Nat) {e : PC × Mask} (he : e ∈ pcsAdd p m pcs)
    (hl : hasLane e.2 l = true) : (e.1 = p ∧ hasLane m l = true) ∨ ∃ e' ∈ pcs, e'.1 = e.1 ∧ hasLane e'.2 l = true := by
  induction pcs with
  | nil =>
    simp only [pcsAdd, List.mem_singleton] at he
    subst he; exact .inl ⟨rfl, hl⟩
  | cons y r ih =>
    obtain ⟨q, x⟩ := y
    simp only [pcsAdd] at he
    split at he
    · next hpq =>
      rcases List.mem_cons.1 he with he | he
      · subst he
        rw [hasLane_or, Bool.or_eq_true] at hl
        rcases hl with hl | hl
        · exact .inr ⟨(q, x), List.mem_cons_self, rfl, hl⟩
        · exact .inl ⟨hpq.symm, hl⟩
      · exact .inr ⟨e, List.mem_cons_of_mem _ he, rfl, hl⟩
    · split at he
      · rcases List.mem_cons.1 he with he | he
        · subst he; exact .inl ⟨rfl, hl⟩
        · exact .inr ⟨e, he, rfl, hl⟩
      · rcases List.mem_cons.1 he with he | he
        · subst he; exact .inr ⟨(q, x), List.mem_cons_self, rfl, hl⟩
        · rcases ih he with h | ⟨e', h, h'⟩
          · exact .inl h
          · exact .inr ⟨e', List.mem_cons_of_mem _ h, h'⟩

/-- One step of `pcsMove`. -/
abbrev pcsStep (next : Nat → Option PC) (acc : List (PC × Mask)) (l : Nat) : List (PC × Mask) :=
  match next l with
  | some p => pcsAdd p (laneBit l) acc
  | none => acc

theorem foldl_other (next : Nat → Option PC) (ls : List Nat) (acc : List (PC × Mask)) (l : Nat) (hl : l ∉ ls)
    (hls : ∀ k ∈ ls, k < 64) : pcOfLane (ls.foldl (pcsStep next) acc) l = pcOfLane acc l := by
  induction ls generalizing acc with
  | nil => rfl
  | cons k ls ih =>
    simp only [List.mem_cons, not_or] at hl
    rw [List.foldl_cons, ih _ hl.2 fun j hj => hls j (List.mem_cons_of_mem _ hj)]
    unfold pcsStep
    split
    · exact pcsAdd_other _ _ _ _ (by rw [hasLane_laneBit k l (hls k List.mem_cons_self)]; simp [hl.1])
    · rfl

theorem foldl_lane (next : Nat → Option PC) (ls : List Nat) (acc : List (PC × Mask)) (l : Nat) (p : PC) (hn : next l = some p)
    (hl : l ∈ ls) (hls : ∀ k ∈ ls, k < 64) (hacc : ∀ e ∈ acc, hasLane e.2 l = true → e.1 = p) :
    pcOfLane (ls.foldl (pcsStep next) acc) l = p := by
  induction ls generalizing acc with
  | nil => cases hl
  | cons k ls ih =>
    have hk := hls k List.mem_cons_self
    have hls' : ∀ j ∈ ls, j < 64 := fun j hj => hls j (List.mem_cons_of_mem _ hj)
    have keep : ∀ e ∈ pcsStep next acc k, hasLane e.2 l = true → e.1 = p := by
      intro e he hel
      unfold pcsStep at he
      split at he
      · next q hq =>
        rcases mem_pcsAdd q (laneBit k) acc l he hel with ⟨h1, h2⟩ | ⟨e', h1, h2, h3⟩
        · rw [hasLane_laneBit k l hk, decide_eq_true_eq] at h2
          subst h2
          rw [hn] at hq
          rw [h1]; exact (Option.some.inj hq).symm
        · rw [← h2]; exact hacc e' h1 h3
      · exact hacc e he hel
    rw [List.foldl_cons]
    by_cases hin : l ∈ ls
    · exact ih _ hin hls' keep
    · have hlk : l = k := by rcases List.mem_cons.1 hl with h | h; exact h; exact absurd h hin
      subst hlk
      rw [foldl_other next ls _ l hin hls']
      unfold pcsStep
      rw [hn]
      exact pcsAdd_lane p _ acc l (by rw [hasLane_laneBit l l hk]; simp) hacc

/-- Where lanes stand after a set has moved. -/
theorem pcOfLane_move (set : Mask) (next : Nat → Option PC) (pcs : List (PC × Mask)) (l : Nat) (p : PC)
    (hl : hasLane set l = true) (hn : next l = some p) : pcOfLane (pcsMove set next pcs) l = p := by
  refine foldl_lane next (lanesOf set) (pcsRemove set pcs) l p hn ((mem_lanesOf set l).2 hl)
    (fun k hk => hasLane_lt ((mem_lanesOf set k).1 hk)) ?_
  intro e he hel
  rw [remove_no_lane set pcs l hl e he] at hel
  cases hel

theorem pcOfLane_move_other (set : Mask) (next : Nat → Option PC) (pcs : List (PC × Mask)) (l : Nat)
    (hl : hasLane set l = false) : pcOfLane (pcsMove set next pcs) l = pcOfLane pcs l := by
  refine (foldl_other next (lanesOf set) (pcsRemove set pcs) l ?_ fun k hk => hasLane_lt ((mem_lanesOf set k).1 hk)).trans
    (pcOfLane_remove_other set pcs l hl)
  rw [mem_lanesOf, hl]
  simp

end Sys2Proof.Machine
end

