-- ==== Sys2Proof/Laws/State.lean ====
section
/-! SUPPORT. What each update of the state leaves of every other field: true by `rfl`, for `simp`. -/

namespace Sys2Proof.Machine

@[simp] theorem State.setWave_clock (s : State) (k : Nat) (w : Wave) : (s.setWave k w).clock = s.clock := rfl
@[simp] theorem State.setWave_deviceId (s : State) (k : Nat) (w : Wave) : (s.setWave k w).deviceId = s.deviceId := rfl
@[simp] theorem State.setWave_deviceIdValid (s : State) (k : Nat) (w : Wave) : (s.setWave k w).deviceIdValid = s.deviceIdValid :=
    rfl
@[simp] theorem State.setWave_drainDl (s : State) (k : Nat) (w : Wave) : (s.setWave k w).drainDl = s.drainDl := rfl
@[simp] theorem State.setWave_fabTmo (s : State) (k : Nat) (w : Wave) : (s.setWave k w).fabTmo = s.fabTmo := rfl
@[simp] theorem State.setWave_hdm (s : State) (k : Nat) (w : Wave) : (s.setWave k w).hdm = s.hdm := rfl
@[simp] theorem State.setWave_biasBase (s : State) (k : Nat) (w : Wave) : (s.setWave k w).biasBase = s.biasBase := rfl
@[simp] theorem State.setWave_hk (s : State) (k : Nat) (w : Wave) : (s.setWave k w).hk = s.hk := rfl
@[simp] theorem State.setWave_pwrLim (s : State) (k : Nat) (w : Wave) : (s.setWave k w).pwrLim = s.pwrLim := rfl
@[simp] theorem State.setWave_eccUncorr (s : State) (k : Nat) (w : Wave) : (s.setWave k w).eccUncorr = s.eccUncorr :=
    rfl
@[simp] theorem State.setWave_eccCorr (s : State) (k : Nat) (w : Wave) : (s.setWave k w).eccCorr = s.eccCorr := rfl
@[simp] theorem State.setWave_power (s : State) (k : Nat) (w : Wave) : (s.setWave k w).power = s.power := rfl
@[simp] theorem State.setWave_rails (s : State) (k : Nat) (w : Wave) : (s.setWave k w).rails = s.rails := rfl
@[simp] theorem State.setWave_temps (s : State) (k : Nat) (w : Wave) : (s.setWave k w).temps = s.temps := rfl
@[simp] theorem State.setWave_withheld (s : State) (k : Nat) (w : Wave) : (s.setWave k w).withheld = s.withheld := rfl
@[simp] theorem State.setWave_withheldSpans (s : State) (k : Nat) (w : Wave) : (s.setWave k w).withheldSpans = s.withheldSpans :=
    rfl
@[simp] theorem State.setWave_mr (s : State) (k : Nat) (w : Wave) : (s.setWave k w).mr = s.mr := rfl
@[simp] theorem State.setWave_fwRunning (s : State) (k : Nat) (w : Wave) : (s.setWave k w).fwRunning = s.fwRunning :=
    rfl
@[simp] theorem State.setWave_fwStaged (s : State) (k : Nat) (w : Wave) : (s.setWave k w).fwStaged = s.fwStaged := rfl
@[simp] theorem State.setWave_reports (s : State) (k : Nat) (w : Wave) : (s.setWave k w).reports = s.reports := rfl
@[simp] theorem State.setWave_msix (s : State) (k : Nat) (w : Wave) : (s.setWave k w).msix = s.msix := rfl
@[simp] theorem State.setWave_keyVer (s : State) (k : Nat) (w : Wave) : (s.setWave k w).keyVer = s.keyVer := rfl
@[simp] theorem State.setWave_keySeq (s : State) (k : Nat) (w : Wave) : (s.setWave k w).keySeq = s.keySeq := rfl
@[simp] theorem State.setWave_mem (s : State) (k : Nat) (w : Wave) : (s.setWave k w).mem = s.mem := rfl
@[simp] theorem State.setWave_memKey (s : State) (k : Nat) (w : Wave) : (s.setWave k w).memKey = s.memKey := rfl
@[simp] theorem State.setWave_host (s : State) (k : Nat) (w : Wave) : (s.setWave k w).host = s.host := rfl
@[simp] theorem State.setWave_peer (s : State) (k : Nat) (w : Wave) : (s.setWave k w).peer = s.peer := rfl
@[simp] theorem State.setWave_peerKey (s : State) (k : Nat) (w : Wave) : (s.setWave k w).peerKey = s.peerKey := rfl
@[simp] theorem State.setWave_l2 (s : State) (k : Nat) (w : Wave) : (s.setWave k w).l2 = s.l2 := rfl
@[simp] theorem State.setWave_homeDir (s : State) (k : Nat) (w : Wave) : (s.setWave k w).homeDir = s.homeDir := rfl
@[simp] theorem State.setWave_pend (s : State) (k : Nat) (w : Wave) : (s.setWave k w).pend = s.pend := rfl
@[simp] theorem State.setWave_crossings (s : State) (k : Nat) (w : Wave) : (s.setWave k w).crossings = s.crossings :=
    rfl
@[simp] theorem State.setWave_accessCnt (s : State) (k : Nat) (w : Wave) : (s.setWave k w).accessCnt = s.accessCnt :=
    rfl
@[simp] theorem State.setWave_queuedPages (s : State) (k : Nat) (w : Wave) : (s.setWave k w).queuedPages = s.queuedPages :=
    rfl
@[simp] theorem State.setWave_hostLines (s : State) (k : Nat) (w : Wave) : (s.setWave k w).hostLines = s.hostLines :=
    rfl
@[simp] theorem State.setWave_hostAnswer (s : State) (k : Nat) (w : Wave) : (s.setWave k w).hostAnswer = s.hostAnswer :=
    rfl
@[simp] theorem State.setWave_agentLines (s : State) (k : Nat) (w : Wave) : (s.setWave k w).agentLines = s.agentLines :=
    rfl
@[simp] theorem State.setWave_leasesGranted (s : State) (k : Nat) (w : Wave) : (s.setWave k w).leasesGranted = s.leasesGranted :=
    rfl
@[simp] theorem State.setWave_leaseBlocked (s : State) (k : Nat) (w : Wave) : (s.setWave k w).leaseBlocked = s.leaseBlocked :=
    rfl
@[simp] theorem State.setWave_recallPending (s : State) (k : Nat) (w : Wave) : (s.setWave k w).recallPending = s.recallPending :=
    rfl
@[simp] theorem State.setWave_links (s : State) (k : Nat) (w : Wave) : (s.setWave k w).links = s.links := rfl
@[simp] theorem State.setWave_fabWindow (s : State) (k : Nat) (w : Wave) : (s.setWave k w).fabWindow = s.fabWindow :=
    rfl
@[simp] theorem State.setWave_fabOut (s : State) (k : Nat) (w : Wave) : (s.setWave k w).fabOut = s.fabOut := rfl
@[simp] theorem State.setWave_fabSeq (s : State) (k : Nat) (w : Wave) : (s.setWave k w).fabSeq = s.fabSeq := rfl
@[simp] theorem State.setWave_fabHeard (s : State) (k : Nat) (w : Wave) : (s.setWave k w).fabHeard = s.fabHeard := rfl
@[simp] theorem State.setWave_bufKeys (s : State) (k : Nat) (w : Wave) : (s.setWave k w).bufKeys = s.bufKeys := rfl
@[simp] theorem State.setWave_keyWants (s : State) (k : Nat) (w : Wave) : (s.setWave k w).keyWants = s.keyWants := rfl
@[simp] theorem State.setWave_wants (s : State) (k : Nat) (w : Wave) : (s.setWave k w).wants = s.wants := rfl
@[simp] theorem State.setWave_met (s : State) (k : Nat) (w : Wave) : (s.setWave k w).met = s.met := rfl
@[simp] theorem State.setWave_owners (s : State) (k : Nat) (w : Wave) : (s.setWave k w).owners = s.owners := rfl
@[simp] theorem State.setWave_launches (s : State) (k : Nat) (w : Wave) : (s.setWave k w).launches = s.launches := rfl
@[simp] theorem State.setWave_teams (s : State) (k : Nat) (w : Wave) : (s.setWave k w).teams = s.teams := rfl
@[simp] theorem State.setWave_cmds (s : State) (k : Nat) (w : Wave) : (s.setWave k w).cmds = s.cmds := rfl
@[simp] theorem State.setWave_saved (s : State) (k : Nat) (w : Wave) : (s.setWave k w).saved = s.saved := rfl
@[simp] theorem State.setWave_cores (s : State) (k : Nat) (w : Wave) : (s.setWave k w).cores = s.cores := rfl
@[simp] theorem State.setWave_icache (s : State) (k : Nat) (w : Wave) : (s.setWave k w).icache = s.icache := rfl
@[simp] theorem State.setWave_clusters (s : State) (k : Nat) (w : Wave) : (s.setWave k w).clusters = s.clusters := rfl
@[simp] theorem State.setWave_dies (s : State) (k : Nat) (w : Wave) : (s.setWave k w).dies = s.dies := rfl
@[simp] theorem State.setWave_imgCache (s : State) (k : Nat) (w : Wave) : (s.setWave k w).imgCache = s.imgCache := rfl
@[simp] theorem State.setWave_rrOwner (s : State) (k : Nat) (w : Wave) : (s.setWave k w).rrOwner = s.rrOwner := rfl
@[simp] theorem State.setWave_rrQueue (s : State) (k : Nat) (w : Wave) : (s.setWave k w).rrQueue = s.rrQueue := rfl
@[simp] theorem State.setWave_candidate (s : State) (k : Nat) (w : Wave) : (s.setWave k w).candidate = s.candidate :=
    rfl
@[simp] theorem State.setWave_passedBy (s : State) (k : Nat) (w : Wave) : (s.setWave k w).passedBy = s.passedBy := rfl
@[simp] theorem State.setWave_drains (s : State) (k : Nat) (w : Wave) : (s.setWave k w).drains = s.drains := rfl
@[simp] theorem State.setWave_nextTid (s : State) (k : Nat) (w : Wave) : (s.setWave k w).nextTid = s.nextTid := rfl
@[simp] theorem State.setWave_nextLid (s : State) (k : Nat) (w : Wave) : (s.setWave k w).nextLid = s.nextLid := rfl
@[simp] theorem State.setWave_nextCid (s : State) (k : Nat) (w : Wave) : (s.setWave k w).nextCid = s.nextCid := rfl
@[simp] theorem State.setWave_seq (s : State) (k : Nat) (w : Wave) : (s.setWave k w).seq = s.seq := rfl
@[simp] theorem State.setWave_inputs (s : State) (k : Nat) (w : Wave) : (s.setWave k w).inputs = s.inputs := rfl
@[simp] theorem State.setWave_cur (s : State) (k : Nat) (w : Wave) : (s.setWave k w).cur = s.cur := rfl
@[simp] theorem State.setWave_ev (s : State) (k : Nat) (w : Wave) : (s.setWave k w).ev = s.ev := rfl
@[simp] theorem State.setWave_sched (s : State) (k : Nat) (w : Wave) : (s.setWave k w).sched = s.sched := rfl
@[simp] theorem State.setWave_tick (s : State) (k : Nat) (w : Wave) : (s.setWave k w).tick = s.tick := rfl

@[simp] theorem State.updWave_clock (s : State) (k : Nat) (f : Wave → Wave) : (s.updWave k f).clock = s.clock := rfl
@[simp] theorem State.updWave_deviceId (s : State) (k : Nat) (f : Wave → Wave) : (s.updWave k f).deviceId = s.deviceId :=
    rfl
@[simp] theorem State.updWave_deviceIdValid (s : State) (k : Nat) (f : Wave → Wave) : (s.updWave k f).deviceIdValid = s.deviceIdValid :=
    rfl
@[simp] theorem State.updWave_drainDl (s : State) (k : Nat) (f : Wave → Wave) : (s.updWave k f).drainDl = s.drainDl :=
    rfl
@[simp] theorem State.updWave_fabTmo (s : State) (k : Nat) (f : Wave → Wave) : (s.updWave k f).fabTmo = s.fabTmo :=
    rfl
@[simp] theorem State.updWave_hdm (s : State) (k : Nat) (f : Wave → Wave) : (s.updWave k f).hdm = s.hdm := rfl
@[simp] theorem State.updWave_biasBase (s : State) (k : Nat) (f : Wave → Wave) : (s.updWave k f).biasBase = s.biasBase :=
    rfl
@[simp] theorem State.updWave_hk (s : State) (k : Nat) (f : Wave → Wave) : (s.updWave k f).hk = s.hk := rfl
@[simp] theorem State.updWave_pwrLim (s : State) (k : Nat) (f : Wave → Wave) : (s.updWave k f).pwrLim = s.pwrLim :=
    rfl
@[simp] theorem State.updWave_eccUncorr (s : State) (k : Nat) (f : Wave → Wave) : (s.updWave k f).eccUncorr = s.eccUncorr :=
    rfl
@[simp] theorem State.updWave_eccCorr (s : State) (k : Nat) (f : Wave → Wave) : (s.updWave k f).eccCorr = s.eccCorr :=
    rfl
@[simp] theorem State.updWave_power (s : State) (k : Nat) (f : Wave → Wave) : (s.updWave k f).power = s.power := rfl
@[simp] theorem State.updWave_rails (s : State) (k : Nat) (f : Wave → Wave) : (s.updWave k f).rails = s.rails := rfl
@[simp] theorem State.updWave_temps (s : State) (k : Nat) (f : Wave → Wave) : (s.updWave k f).temps = s.temps := rfl
@[simp] theorem State.updWave_withheld (s : State) (k : Nat) (f : Wave → Wave) : (s.updWave k f).withheld = s.withheld :=
    rfl
@[simp] theorem State.updWave_withheldSpans (s : State) (k : Nat) (f : Wave → Wave) : (s.updWave k f).withheldSpans = s.withheldSpans :=
    rfl
@[simp] theorem State.updWave_mr (s : State) (k : Nat) (f : Wave → Wave) : (s.updWave k f).mr = s.mr := rfl
@[simp] theorem State.updWave_fwRunning (s : State) (k : Nat) (f : Wave → Wave) : (s.updWave k f).fwRunning = s.fwRunning :=
    rfl
@[simp] theorem State.updWave_fwStaged (s : State) (k : Nat) (f : Wave → Wave) : (s.updWave k f).fwStaged = s.fwStaged :=
    rfl
@[simp] theorem State.updWave_reports (s : State) (k : Nat) (f : Wave → Wave) : (s.updWave k f).reports = s.reports :=
    rfl
@[simp] theorem State.updWave_msix (s : State) (k : Nat) (f : Wave → Wave) : (s.updWave k f).msix = s.msix := rfl
@[simp] theorem State.updWave_keyVer (s : State) (k : Nat) (f : Wave → Wave) : (s.updWave k f).keyVer = s.keyVer :=
    rfl
@[simp] theorem State.updWave_keySeq (s : State) (k : Nat) (f : Wave → Wave) : (s.updWave k f).keySeq = s.keySeq :=
    rfl
@[simp] theorem State.updWave_mem (s : State) (k : Nat) (f : Wave → Wave) : (s.updWave k f).mem = s.mem := rfl
@[simp] theorem State.updWave_memKey (s : State) (k : Nat) (f : Wave → Wave) : (s.updWave k f).memKey = s.memKey :=
    rfl
@[simp] theorem State.updWave_host (s : State) (k : Nat) (f : Wave → Wave) : (s.updWave k f).host = s.host := rfl
@[simp] theorem State.updWave_peer (s : State) (k : Nat) (f : Wave → Wave) : (s.updWave k f).peer = s.peer := rfl
@[simp] theorem State.updWave_peerKey (s : State) (k : Nat) (f : Wave → Wave) : (s.updWave k f).peerKey = s.peerKey :=
    rfl
@[simp] theorem State.updWave_l2 (s : State) (k : Nat) (f : Wave → Wave) : (s.updWave k f).l2 = s.l2 := rfl
@[simp] theorem State.updWave_homeDir (s : State) (k : Nat) (f : Wave → Wave) : (s.updWave k f).homeDir = s.homeDir :=
    rfl
@[simp] theorem State.updWave_pend (s : State) (k : Nat) (f : Wave → Wave) : (s.updWave k f).pend = s.pend := rfl
@[simp] theorem State.updWave_crossings (s : State) (k : Nat) (f : Wave → Wave) : (s.updWave k f).crossings = s.crossings :=
    rfl
@[simp] theorem State.updWave_accessCnt (s : State) (k : Nat) (f : Wave → Wave) : (s.updWave k f).accessCnt = s.accessCnt :=
    rfl
@[simp] theorem State.updWave_queuedPages (s : State) (k : Nat) (f : Wave → Wave) : (s.updWave k f).queuedPages = s.queuedPages :=
    rfl
@[simp] theorem State.updWave_hostLines (s : State) (k : Nat) (f : Wave → Wave) : (s.updWave k f).hostLines = s.hostLines :=
    rfl
@[simp] theorem State.updWave_hostAnswer (s : State) (k : Nat) (f : Wave → Wave) : (s.updWave k f).hostAnswer = s.hostAnswer :=
    rfl
@[simp] theorem State.updWave_agentLines (s : State) (k : Nat) (f : Wave → Wave) : (s.updWave k f).agentLines = s.agentLines :=
    rfl
@[simp] theorem State.updWave_leasesGranted (s : State) (k : Nat) (f : Wave → Wave) : (s.updWave k f).leasesGranted = s.leasesGranted :=
    rfl
@[simp] theorem State.updWave_leaseBlocked (s : State) (k : Nat) (f : Wave → Wave) : (s.updWave k f).leaseBlocked = s.leaseBlocked :=
    rfl
@[simp] theorem State.updWave_recallPending (s : State) (k : Nat) (f : Wave → Wave) : (s.updWave k f).recallPending = s.recallPending :=
    rfl
@[simp] theorem State.updWave_links (s : State) (k : Nat) (f : Wave → Wave) : (s.updWave k f).links = s.links := rfl
@[simp] theorem State.updWave_fabWindow (s : State) (k : Nat) (f : Wave → Wave) : (s.updWave k f).fabWindow = s.fabWindow :=
    rfl
@[simp] theorem State.updWave_fabOut (s : State) (k : Nat) (f : Wave → Wave) : (s.updWave k f).fabOut = s.fabOut :=
    rfl
@[simp] theorem State.updWave_fabSeq (s : State) (k : Nat) (f : Wave → Wave) : (s.updWave k f).fabSeq = s.fabSeq :=
    rfl
@[simp] theorem State.updWave_fabHeard (s : State) (k : Nat) (f : Wave → Wave) : (s.updWave k f).fabHeard = s.fabHeard :=
    rfl
@[simp] theorem State.updWave_bufKeys (s : State) (k : Nat) (f : Wave → Wave) : (s.updWave k f).bufKeys = s.bufKeys :=
    rfl
@[simp] theorem State.updWave_keyWants (s : State) (k : Nat) (f : Wave → Wave) : (s.updWave k f).keyWants = s.keyWants :=
    rfl
@[simp] theorem State.updWave_wants (s : State) (k : Nat) (f : Wave → Wave) : (s.updWave k f).wants = s.wants := rfl
@[simp] theorem State.updWave_met (s : State) (k : Nat) (f : Wave → Wave) : (s.updWave k f).met = s.met := rfl
@[simp] theorem State.updWave_owners (s : State) (k : Nat) (f : Wave → Wave) : (s.updWave k f).owners = s.owners :=
    rfl
@[simp] theorem State.updWave_launches (s : State) (k : Nat) (f : Wave → Wave) : (s.updWave k f).launches = s.launches :=
    rfl
@[simp] theorem State.updWave_teams (s : State) (k : Nat) (f : Wave → Wave) : (s.updWave k f).teams = s.teams := rfl
@[simp] theorem State.updWave_cmds (s : State) (k : Nat) (f : Wave → Wave) : (s.updWave k f).cmds = s.cmds := rfl
@[simp] theorem State.updWave_saved (s : State) (k : Nat) (f : Wave → Wave) : (s.updWave k f).saved = s.saved := rfl
@[simp] theorem State.updWave_cores (s : State) (k : Nat) (f : Wave → Wave) : (s.updWave k f).cores = s.cores := rfl
@[simp] theorem State.updWave_icache (s : State) (k : Nat) (f : Wave → Wave) : (s.updWave k f).icache = s.icache :=
    rfl
@[simp] theorem State.updWave_clusters (s : State) (k : Nat) (f : Wave → Wave) : (s.updWave k f).clusters = s.clusters :=
    rfl
@[simp] theorem State.updWave_dies (s : State) (k : Nat) (f : Wave → Wave) : (s.updWave k f).dies = s.dies := rfl
@[simp] theorem State.updWave_imgCache (s : State) (k : Nat) (f : Wave → Wave) : (s.updWave k f).imgCache = s.imgCache :=
    rfl
@[simp] theorem State.updWave_rrOwner (s : State) (k : Nat) (f : Wave → Wave) : (s.updWave k f).rrOwner = s.rrOwner :=
    rfl
@[simp] theorem State.updWave_rrQueue (s : State) (k : Nat) (f : Wave → Wave) : (s.updWave k f).rrQueue = s.rrQueue :=
    rfl
@[simp] theorem State.updWave_candidate (s : State) (k : Nat) (f : Wave → Wave) : (s.updWave k f).candidate = s.candidate :=
    rfl
@[simp] theorem State.updWave_passedBy (s : State) (k : Nat) (f : Wave → Wave) : (s.updWave k f).passedBy = s.passedBy :=
    rfl
@[simp] theorem State.updWave_drains (s : State) (k : Nat) (f : Wave → Wave) : (s.updWave k f).drains = s.drains :=
    rfl
@[simp] theorem State.updWave_nextTid (s : State) (k : Nat) (f : Wave → Wave) : (s.updWave k f).nextTid = s.nextTid :=
    rfl
@[simp] theorem State.updWave_nextLid (s : State) (k : Nat) (f : Wave → Wave) : (s.updWave k f).nextLid = s.nextLid :=
    rfl
@[simp] theorem State.updWave_nextCid (s : State) (k : Nat) (f : Wave → Wave) : (s.updWave k f).nextCid = s.nextCid :=
    rfl
@[simp] theorem State.updWave_seq (s : State) (k : Nat) (f : Wave → Wave) : (s.updWave k f).seq = s.seq := rfl
@[simp] theorem State.updWave_inputs (s : State) (k : Nat) (f : Wave → Wave) : (s.updWave k f).inputs = s.inputs :=
    rfl
@[simp] theorem State.updWave_cur (s : State) (k : Nat) (f : Wave → Wave) : (s.updWave k f).cur = s.cur := rfl
@[simp] theorem State.updWave_ev (s : State) (k : Nat) (f : Wave → Wave) : (s.updWave k f).ev = s.ev := rfl
@[simp] theorem State.updWave_sched (s : State) (k : Nat) (f : Wave → Wave) : (s.updWave k f).sched = s.sched := rfl
@[simp] theorem State.updWave_tick (s : State) (k : Nat) (f : Wave → Wave) : (s.updWave k f).tick = s.tick := rfl

@[simp] theorem State.setTeam_clock (s : State) (k : Nat) (t : Team) : (s.setTeam k t).clock = s.clock := rfl
@[simp] theorem State.setTeam_deviceId (s : State) (k : Nat) (t : Team) : (s.setTeam k t).deviceId = s.deviceId := rfl
@[simp] theorem State.setTeam_deviceIdValid (s : State) (k : Nat) (t : Team) : (s.setTeam k t).deviceIdValid = s.deviceIdValid :=
    rfl
@[simp] theorem State.setTeam_drainDl (s : State) (k : Nat) (t : Team) : (s.setTeam k t).drainDl = s.drainDl := rfl
@[simp] theorem State.setTeam_fabTmo (s : State) (k : Nat) (t : Team) : (s.setTeam k t).fabTmo = s.fabTmo := rfl
@[simp] theorem State.setTeam_hdm (s : State) (k : Nat) (t : Team) : (s.setTeam k t).hdm = s.hdm := rfl
@[simp] theorem State.setTeam_biasBase (s : State) (k : Nat) (t : Team) : (s.setTeam k t).biasBase = s.biasBase := rfl
@[simp] theorem State.setTeam_hk (s : State) (k : Nat) (t : Team) : (s.setTeam k t).hk = s.hk := rfl
@[simp] theorem State.setTeam_pwrLim (s : State) (k : Nat) (t : Team) : (s.setTeam k t).pwrLim = s.pwrLim := rfl
@[simp] theorem State.setTeam_eccUncorr (s : State) (k : Nat) (t : Team) : (s.setTeam k t).eccUncorr = s.eccUncorr :=
    rfl
@[simp] theorem State.setTeam_eccCorr (s : State) (k : Nat) (t : Team) : (s.setTeam k t).eccCorr = s.eccCorr := rfl
@[simp] theorem State.setTeam_power (s : State) (k : Nat) (t : Team) : (s.setTeam k t).power = s.power := rfl
@[simp] theorem State.setTeam_rails (s : State) (k : Nat) (t : Team) : (s.setTeam k t).rails = s.rails := rfl
@[simp] theorem State.setTeam_temps (s : State) (k : Nat) (t : Team) : (s.setTeam k t).temps = s.temps := rfl
@[simp] theorem State.setTeam_withheld (s : State) (k : Nat) (t : Team) : (s.setTeam k t).withheld = s.withheld := rfl
@[simp] theorem State.setTeam_withheldSpans (s : State) (k : Nat) (t : Team) : (s.setTeam k t).withheldSpans = s.withheldSpans :=
    rfl
@[simp] theorem State.setTeam_mr (s : State) (k : Nat) (t : Team) : (s.setTeam k t).mr = s.mr := rfl
@[simp] theorem State.setTeam_fwRunning (s : State) (k : Nat) (t : Team) : (s.setTeam k t).fwRunning = s.fwRunning :=
    rfl
@[simp] theorem State.setTeam_fwStaged (s : State) (k : Nat) (t : Team) : (s.setTeam k t).fwStaged = s.fwStaged := rfl
@[simp] theorem State.setTeam_reports (s : State) (k : Nat) (t : Team) : (s.setTeam k t).reports = s.reports := rfl
@[simp] theorem State.setTeam_msix (s : State) (k : Nat) (t : Team) : (s.setTeam k t).msix = s.msix := rfl
@[simp] theorem State.setTeam_keyVer (s : State) (k : Nat) (t : Team) : (s.setTeam k t).keyVer = s.keyVer := rfl
@[simp] theorem State.setTeam_keySeq (s : State) (k : Nat) (t : Team) : (s.setTeam k t).keySeq = s.keySeq := rfl
@[simp] theorem State.setTeam_mem (s : State) (k : Nat) (t : Team) : (s.setTeam k t).mem = s.mem := rfl
@[simp] theorem State.setTeam_memKey (s : State) (k : Nat) (t : Team) : (s.setTeam k t).memKey = s.memKey := rfl
@[simp] theorem State.setTeam_host (s : State) (k : Nat) (t : Team) : (s.setTeam k t).host = s.host := rfl
@[simp] theorem State.setTeam_peer (s : State) (k : Nat) (t : Team) : (s.setTeam k t).peer = s.peer := rfl
@[simp] theorem State.setTeam_peerKey (s : State) (k : Nat) (t : Team) : (s.setTeam k t).peerKey = s.peerKey := rfl
@[simp] theorem State.setTeam_l2 (s : State) (k : Nat) (t : Team) : (s.setTeam k t).l2 = s.l2 := rfl
@[simp] theorem State.setTeam_homeDir (s : State) (k : Nat) (t : Team) : (s.setTeam k t).homeDir = s.homeDir := rfl
@[simp] theorem State.setTeam_pend (s : State) (k : Nat) (t : Team) : (s.setTeam k t).pend = s.pend := rfl
@[simp] theorem State.setTeam_crossings (s : State) (k : Nat) (t : Team) : (s.setTeam k t).crossings = s.crossings :=
    rfl
@[simp] theorem State.setTeam_accessCnt (s : State) (k : Nat) (t : Team) : (s.setTeam k t).accessCnt = s.accessCnt :=
    rfl
@[simp] theorem State.setTeam_queuedPages (s : State) (k : Nat) (t : Team) : (s.setTeam k t).queuedPages = s.queuedPages :=
    rfl
@[simp] theorem State.setTeam_hostLines (s : State) (k : Nat) (t : Team) : (s.setTeam k t).hostLines = s.hostLines :=
    rfl
@[simp] theorem State.setTeam_hostAnswer (s : State) (k : Nat) (t : Team) : (s.setTeam k t).hostAnswer = s.hostAnswer :=
    rfl
@[simp] theorem State.setTeam_agentLines (s : State) (k : Nat) (t : Team) : (s.setTeam k t).agentLines = s.agentLines :=
    rfl
@[simp] theorem State.setTeam_leasesGranted (s : State) (k : Nat) (t : Team) : (s.setTeam k t).leasesGranted = s.leasesGranted :=
    rfl
@[simp] theorem State.setTeam_leaseBlocked (s : State) (k : Nat) (t : Team) : (s.setTeam k t).leaseBlocked = s.leaseBlocked :=
    rfl
@[simp] theorem State.setTeam_recallPending (s : State) (k : Nat) (t : Team) : (s.setTeam k t).recallPending = s.recallPending :=
    rfl
@[simp] theorem State.setTeam_links (s : State) (k : Nat) (t : Team) : (s.setTeam k t).links = s.links := rfl
@[simp] theorem State.setTeam_fabWindow (s : State) (k : Nat) (t : Team) : (s.setTeam k t).fabWindow = s.fabWindow :=
    rfl
@[simp] theorem State.setTeam_fabOut (s : State) (k : Nat) (t : Team) : (s.setTeam k t).fabOut = s.fabOut := rfl
@[simp] theorem State.setTeam_fabSeq (s : State) (k : Nat) (t : Team) : (s.setTeam k t).fabSeq = s.fabSeq := rfl
@[simp] theorem State.setTeam_fabHeard (s : State) (k : Nat) (t : Team) : (s.setTeam k t).fabHeard = s.fabHeard := rfl
@[simp] theorem State.setTeam_bufKeys (s : State) (k : Nat) (t : Team) : (s.setTeam k t).bufKeys = s.bufKeys := rfl
@[simp] theorem State.setTeam_keyWants (s : State) (k : Nat) (t : Team) : (s.setTeam k t).keyWants = s.keyWants := rfl
@[simp] theorem State.setTeam_wants (s : State) (k : Nat) (t : Team) : (s.setTeam k t).wants = s.wants := rfl
@[simp] theorem State.setTeam_met (s : State) (k : Nat) (t : Team) : (s.setTeam k t).met = s.met := rfl
@[simp] theorem State.setTeam_owners (s : State) (k : Nat) (t : Team) : (s.setTeam k t).owners = s.owners := rfl
@[simp] theorem State.setTeam_launches (s : State) (k : Nat) (t : Team) : (s.setTeam k t).launches = s.launches := rfl
@[simp] theorem State.setTeam_waves (s : State) (k : Nat) (t : Team) : (s.setTeam k t).waves = s.waves := rfl
@[simp] theorem State.setTeam_cmds (s : State) (k : Nat) (t : Team) : (s.setTeam k t).cmds = s.cmds := rfl
@[simp] theorem State.setTeam_saved (s : State) (k : Nat) (t : Team) : (s.setTeam k t).saved = s.saved := rfl
@[simp] theorem State.setTeam_cores (s : State) (k : Nat) (t : Team) : (s.setTeam k t).cores = s.cores := rfl
@[simp] theorem State.setTeam_icache (s : State) (k : Nat) (t : Team) : (s.setTeam k t).icache = s.icache := rfl
@[simp] theorem State.setTeam_clusters (s : State) (k : Nat) (t : Team) : (s.setTeam k t).clusters = s.clusters := rfl
@[simp] theorem State.setTeam_dies (s : State) (k : Nat) (t : Team) : (s.setTeam k t).dies = s.dies := rfl
@[simp] theorem State.setTeam_imgCache (s : State) (k : Nat) (t : Team) : (s.setTeam k t).imgCache = s.imgCache := rfl
@[simp] theorem State.setTeam_rrOwner (s : State) (k : Nat) (t : Team) : (s.setTeam k t).rrOwner = s.rrOwner := rfl
@[simp] theorem State.setTeam_rrQueue (s : State) (k : Nat) (t : Team) : (s.setTeam k t).rrQueue = s.rrQueue := rfl
@[simp] theorem State.setTeam_candidate (s : State) (k : Nat) (t : Team) : (s.setTeam k t).candidate = s.candidate :=
    rfl
@[simp] theorem State.setTeam_passedBy (s : State) (k : Nat) (t : Team) : (s.setTeam k t).passedBy = s.passedBy := rfl
@[simp] theorem State.setTeam_drains (s : State) (k : Nat) (t : Team) : (s.setTeam k t).drains = s.drains := rfl
@[simp] theorem State.setTeam_nextTid (s : State) (k : Nat) (t : Team) : (s.setTeam k t).nextTid = s.nextTid := rfl
@[simp] theorem State.setTeam_nextLid (s : State) (k : Nat) (t : Team) : (s.setTeam k t).nextLid = s.nextLid := rfl
@[simp] theorem State.setTeam_nextCid (s : State) (k : Nat) (t : Team) : (s.setTeam k t).nextCid = s.nextCid := rfl
@[simp] theorem State.setTeam_seq (s : State) (k : Nat) (t : Team) : (s.setTeam k t).seq = s.seq := rfl
@[simp] theorem State.setTeam_inputs (s : State) (k : Nat) (t : Team) : (s.setTeam k t).inputs = s.inputs := rfl
@[simp] theorem State.setTeam_cur (s : State) (k : Nat) (t : Team) : (s.setTeam k t).cur = s.cur := rfl
@[simp] theorem State.setTeam_ev (s : State) (k : Nat) (t : Team) : (s.setTeam k t).ev = s.ev := rfl
@[simp] theorem State.setTeam_sched (s : State) (k : Nat) (t : Team) : (s.setTeam k t).sched = s.sched := rfl
@[simp] theorem State.setTeam_tick (s : State) (k : Nat) (t : Team) : (s.setTeam k t).tick = s.tick := rfl

@[simp] theorem State.updTeam_clock (s : State) (k : Nat) (f : Team → Team) : (s.updTeam k f).clock = s.clock := rfl
@[simp] theorem State.updTeam_deviceId (s : State) (k : Nat) (f : Team → Team) : (s.updTeam k f).deviceId = s.deviceId :=
    rfl
@[simp] theorem State.updTeam_deviceIdValid (s : State) (k : Nat) (f : Team → Team) : (s.updTeam k f).deviceIdValid = s.deviceIdValid :=
    rfl
@[simp] theorem State.updTeam_drainDl (s : State) (k : Nat) (f : Team → Team) : (s.updTeam k f).drainDl = s.drainDl :=
    rfl
@[simp] theorem State.updTeam_fabTmo (s : State) (k : Nat) (f : Team → Team) : (s.updTeam k f).fabTmo = s.fabTmo :=
    rfl
@[simp] theorem State.updTeam_hdm (s : State) (k : Nat) (f : Team → Team) : (s.updTeam k f).hdm = s.hdm := rfl
@[simp] theorem State.updTeam_biasBase (s : State) (k : Nat) (f : Team → Team) : (s.updTeam k f).biasBase = s.biasBase :=
    rfl
@[simp] theorem State.updTeam_hk (s : State) (k : Nat) (f : Team → Team) : (s.updTeam k f).hk = s.hk := rfl
@[simp] theorem State.updTeam_pwrLim (s : State) (k : Nat) (f : Team → Team) : (s.updTeam k f).pwrLim = s.pwrLim :=
    rfl
@[simp] theorem State.updTeam_eccUncorr (s : State) (k : Nat) (f : Team → Team) : (s.updTeam k f).eccUncorr = s.eccUncorr :=
    rfl
@[simp] theorem State.updTeam_eccCorr (s : State) (k : Nat) (f : Team → Team) : (s.updTeam k f).eccCorr = s.eccCorr :=
    rfl
@[simp] theorem State.updTeam_power (s : State) (k : Nat) (f : Team → Team) : (s.updTeam k f).power = s.power := rfl
@[simp] theorem State.updTeam_rails (s : State) (k : Nat) (f : Team → Team) : (s.updTeam k f).rails = s.rails := rfl
@[simp] theorem State.updTeam_temps (s : State) (k : Nat) (f : Team → Team) : (s.updTeam k f).temps = s.temps := rfl
@[simp] theorem State.updTeam_withheld (s : State) (k : Nat) (f : Team → Team) : (s.updTeam k f).withheld = s.withheld :=
    rfl
@[simp] theorem State.updTeam_withheldSpans (s : State) (k : Nat) (f : Team → Team) : (s.updTeam k f).withheldSpans = s.withheldSpans :=
    rfl
@[simp] theorem State.updTeam_mr (s : State) (k : Nat) (f : Team → Team) : (s.updTeam k f).mr = s.mr := rfl
@[simp] theorem State.updTeam_fwRunning (s : State) (k : Nat) (f : Team → Team) : (s.updTeam k f).fwRunning = s.fwRunning :=
    rfl
@[simp] theorem State.updTeam_fwStaged (s : State) (k : Nat) (f : Team → Team) : (s.updTeam k f).fwStaged = s.fwStaged :=
    rfl
@[simp] theorem State.updTeam_reports (s : State) (k : Nat) (f : Team → Team) : (s.updTeam k f).reports = s.reports :=
    rfl
@[simp] theorem State.updTeam_msix (s : State) (k : Nat) (f : Team → Team) : (s.updTeam k f).msix = s.msix := rfl
@[simp] theorem State.updTeam_keyVer (s : State) (k : Nat) (f : Team → Team) : (s.updTeam k f).keyVer = s.keyVer :=
    rfl
@[simp] theorem State.updTeam_keySeq (s : State) (k : Nat) (f : Team → Team) : (s.updTeam k f).keySeq = s.keySeq :=
    rfl
@[simp] theorem State.updTeam_mem (s : State) (k : Nat) (f : Team → Team) : (s.updTeam k f).mem = s.mem := rfl
@[simp] theorem State.updTeam_memKey (s : State) (k : Nat) (f : Team → Team) : (s.updTeam k f).memKey = s.memKey :=
    rfl
@[simp] theorem State.updTeam_host (s : State) (k : Nat) (f : Team → Team) : (s.updTeam k f).host = s.host := rfl
@[simp] theorem State.updTeam_peer (s : State) (k : Nat) (f : Team → Team) : (s.updTeam k f).peer = s.peer := rfl
@[simp] theorem State.updTeam_peerKey (s : State) (k : Nat) (f : Team → Team) : (s.updTeam k f).peerKey = s.peerKey :=
    rfl
@[simp] theorem State.updTeam_l2 (s : State) (k : Nat) (f : Team → Team) : (s.updTeam k f).l2 = s.l2 := rfl
@[simp] theorem State.updTeam_homeDir (s : State) (k : Nat) (f : Team → Team) : (s.updTeam k f).homeDir = s.homeDir :=
    rfl
@[simp] theorem State.updTeam_pend (s : State) (k : Nat) (f : Team → Team) : (s.updTeam k f).pend = s.pend := rfl
@[simp] theorem State.updTeam_crossings (s : State) (k : Nat) (f : Team → Team) : (s.updTeam k f).crossings = s.crossings :=
    rfl
@[simp] theorem State.updTeam_accessCnt (s : State) (k : Nat) (f : Team → Team) : (s.updTeam k f).accessCnt = s.accessCnt :=
    rfl
@[simp] theorem State.updTeam_queuedPages (s : State) (k : Nat) (f : Team → Team) : (s.updTeam k f).queuedPages = s.queuedPages :=
    rfl
@[simp] theorem State.updTeam_hostLines (s : State) (k : Nat) (f : Team → Team) : (s.updTeam k f).hostLines = s.hostLines :=
    rfl
@[simp] theorem State.updTeam_hostAnswer (s : State) (k : Nat) (f : Team → Team) : (s.updTeam k f).hostAnswer = s.hostAnswer :=
    rfl
@[simp] theorem State.updTeam_agentLines (s : State) (k : Nat) (f : Team → Team) : (s.updTeam k f).agentLines = s.agentLines :=
    rfl
@[simp] theorem State.updTeam_leasesGranted (s : State) (k : Nat) (f : Team → Team) : (s.updTeam k f).leasesGranted = s.leasesGranted :=
    rfl
@[simp] theorem State.updTeam_leaseBlocked (s : State) (k : Nat) (f : Team → Team) : (s.updTeam k f).leaseBlocked = s.leaseBlocked :=
    rfl
@[simp] theorem State.updTeam_recallPending (s : State) (k : Nat) (f : Team → Team) : (s.updTeam k f).recallPending = s.recallPending :=
    rfl
@[simp] theorem State.updTeam_links (s : State) (k : Nat) (f : Team → Team) : (s.updTeam k f).links = s.links := rfl
@[simp] theorem State.updTeam_fabWindow (s : State) (k : Nat) (f : Team → Team) : (s.updTeam k f).fabWindow = s.fabWindow :=
    rfl
@[simp] theorem State.updTeam_fabOut (s : State) (k : Nat) (f : Team → Team) : (s.updTeam k f).fabOut = s.fabOut :=
    rfl
@[simp] theorem State.updTeam_fabSeq (s : State) (k : Nat) (f : Team → Team) : (s.updTeam k f).fabSeq = s.fabSeq :=
    rfl
@[simp] theorem State.updTeam_fabHeard (s : State) (k : Nat) (f : Team → Team) : (s.updTeam k f).fabHeard = s.fabHeard :=
    rfl
@[simp] theorem State.updTeam_bufKeys (s : State) (k : Nat) (f : Team → Team) : (s.updTeam k f).bufKeys = s.bufKeys :=
    rfl
@[simp] theorem State.updTeam_keyWants (s : State) (k : Nat) (f : Team → Team) : (s.updTeam k f).keyWants = s.keyWants :=
    rfl
@[simp] theorem State.updTeam_wants (s : State) (k : Nat) (f : Team → Team) : (s.updTeam k f).wants = s.wants := rfl
@[simp] theorem State.updTeam_met (s : State) (k : Nat) (f : Team → Team) : (s.updTeam k f).met = s.met := rfl
@[simp] theorem State.updTeam_owners (s : State) (k : Nat) (f : Team → Team) : (s.updTeam k f).owners = s.owners :=
    rfl
@[simp] theorem State.updTeam_launches (s : State) (k : Nat) (f : Team → Team) : (s.updTeam k f).launches = s.launches :=
    rfl
@[simp] theorem State.updTeam_waves (s : State) (k : Nat) (f : Team → Team) : (s.updTeam k f).waves = s.waves := rfl
@[simp] theorem State.updTeam_cmds (s : State) (k : Nat) (f : Team → Team) : (s.updTeam k f).cmds = s.cmds := rfl
@[simp] theorem State.updTeam_saved (s : State) (k : Nat) (f : Team → Team) : (s.updTeam k f).saved = s.saved := rfl
@[simp] theorem State.updTeam_cores (s : State) (k : Nat) (f : Team → Team) : (s.updTeam k f).cores = s.cores := rfl
@[simp] theorem State.updTeam_icache (s : State) (k : Nat) (f : Team → Team) : (s.updTeam k f).icache = s.icache :=
    rfl
@[simp] theorem State.updTeam_clusters (s : State) (k : Nat) (f : Team → Team) : (s.updTeam k f).clusters = s.clusters :=
    rfl
@[simp] theorem State.updTeam_dies (s : State) (k : Nat) (f : Team → Team) : (s.updTeam k f).dies = s.dies := rfl
@[simp] theorem State.updTeam_imgCache (s : State) (k : Nat) (f : Team → Team) : (s.updTeam k f).imgCache = s.imgCache :=
    rfl
@[simp] theorem State.updTeam_rrOwner (s : State) (k : Nat) (f : Team → Team) : (s.updTeam k f).rrOwner = s.rrOwner :=
    rfl
@[simp] theorem State.updTeam_rrQueue (s : State) (k : Nat) (f : Team → Team) : (s.updTeam k f).rrQueue = s.rrQueue :=
    rfl
@[simp] theorem State.updTeam_candidate (s : State) (k : Nat) (f : Team → Team) : (s.updTeam k f).candidate = s.candidate :=
    rfl
@[simp] theorem State.updTeam_passedBy (s : State) (k : Nat) (f : Team → Team) : (s.updTeam k f).passedBy = s.passedBy :=
    rfl
@[simp] theorem State.updTeam_drains (s : State) (k : Nat) (f : Team → Team) : (s.updTeam k f).drains = s.drains :=
    rfl
@[simp] theorem State.updTeam_nextTid (s : State) (k : Nat) (f : Team → Team) : (s.updTeam k f).nextTid = s.nextTid :=
    rfl
@[simp] theorem State.updTeam_nextLid (s : State) (k : Nat) (f : Team → Team) : (s.updTeam k f).nextLid = s.nextLid :=
    rfl
@[simp] theorem State.updTeam_nextCid (s : State) (k : Nat) (f : Team → Team) : (s.updTeam k f).nextCid = s.nextCid :=
    rfl
@[simp] theorem State.updTeam_seq (s : State) (k : Nat) (f : Team → Team) : (s.updTeam k f).seq = s.seq := rfl
@[simp] theorem State.updTeam_inputs (s : State) (k : Nat) (f : Team → Team) : (s.updTeam k f).inputs = s.inputs :=
    rfl
@[simp] theorem State.updTeam_cur (s : State) (k : Nat) (f : Team → Team) : (s.updTeam k f).cur = s.cur := rfl
@[simp] theorem State.updTeam_ev (s : State) (k : Nat) (f : Team → Team) : (s.updTeam k f).ev = s.ev := rfl
@[simp] theorem State.updTeam_sched (s : State) (k : Nat) (f : Team → Team) : (s.updTeam k f).sched = s.sched := rfl
@[simp] theorem State.updTeam_tick (s : State) (k : Nat) (f : Team → Team) : (s.updTeam k f).tick = s.tick := rfl

@[simp] theorem State.updLaunch_clock (s : State) (k : Nat) (f : Launch → Launch) : (s.updLaunch k f).clock = s.clock :=
    rfl
@[simp] theorem State.updLaunch_deviceId (s : State) (k : Nat) (f : Launch → Launch) : (s.updLaunch k f).deviceId = s.deviceId :=
    rfl
@[simp] theorem State.updLaunch_deviceIdValid (s : State) (k : Nat) (f : Launch → Launch) : (s.updLaunch k f).deviceIdValid = s.deviceIdValid :=
    rfl
@[simp] theorem State.updLaunch_drainDl (s : State) (k : Nat) (f : Launch → Launch) : (s.updLaunch k f).drainDl = s.drainDl :=
    rfl
@[simp] theorem State.updLaunch_fabTmo (s : State) (k : Nat) (f : Launch → Launch) : (s.updLaunch k f).fabTmo = s.fabTmo :=
    rfl
@[simp] theorem State.updLaunch_hdm (s : State) (k : Nat) (f : Launch → Launch) : (s.updLaunch k f).hdm = s.hdm := rfl
@[simp] theorem State.updLaunch_biasBase (s : State) (k : Nat) (f : Launch → Launch) : (s.updLaunch k f).biasBase = s.biasBase :=
    rfl
@[simp] theorem State.updLaunch_hk (s : State) (k : Nat) (f : Launch → Launch) : (s.updLaunch k f).hk = s.hk := rfl
@[simp] theorem State.updLaunch_pwrLim (s : State) (k : Nat) (f : Launch → Launch) : (s.updLaunch k f).pwrLim = s.pwrLim :=
    rfl
@[simp] theorem State.updLaunch_eccUncorr (s : State) (k : Nat) (f : Launch → Launch) : (s.updLaunch k f).eccUncorr = s.eccUncorr :=
    rfl
@[simp] theorem State.updLaunch_eccCorr (s : State) (k : Nat) (f : Launch → Launch) : (s.updLaunch k f).eccCorr = s.eccCorr :=
    rfl
@[simp] theorem State.updLaunch_power (s : State) (k : Nat) (f : Launch → Launch) : (s.updLaunch k f).power = s.power :=
    rfl
@[simp] theorem State.updLaunch_rails (s : State) (k : Nat) (f : Launch → Launch) : (s.updLaunch k f).rails = s.rails :=
    rfl
@[simp] theorem State.updLaunch_temps (s : State) (k : Nat) (f : Launch → Launch) : (s.updLaunch k f).temps = s.temps :=
    rfl
@[simp] theorem State.updLaunch_withheld (s : State) (k : Nat) (f : Launch → Launch) : (s.updLaunch k f).withheld = s.withheld :=
    rfl
@[simp] theorem State.updLaunch_withheldSpans (s : State) (k : Nat) (f : Launch → Launch) : (s.updLaunch k f).withheldSpans = s.withheldSpans :=
    rfl
@[simp] theorem State.updLaunch_mr (s : State) (k : Nat) (f : Launch → Launch) : (s.updLaunch k f).mr = s.mr := rfl
@[simp] theorem State.updLaunch_fwRunning (s : State) (k : Nat) (f : Launch → Launch) : (s.updLaunch k f).fwRunning = s.fwRunning :=
    rfl
@[simp] theorem State.updLaunch_fwStaged (s : State) (k : Nat) (f : Launch → Launch) : (s.updLaunch k f).fwStaged = s.fwStaged :=
    rfl
@[simp] theorem State.updLaunch_reports (s : State) (k : Nat) (f : Launch → Launch) : (s.updLaunch k f).reports = s.reports :=
    rfl
@[simp] theorem State.updLaunch_msix (s : State) (k : Nat) (f : Launch → Launch) : (s.updLaunch k f).msix = s.msix :=
    rfl
@[simp] theorem State.updLaunch_keyVer (s : State) (k : Nat) (f : Launch → Launch) : (s.updLaunch k f).keyVer = s.keyVer :=
    rfl
@[simp] theorem State.updLaunch_keySeq (s : State) (k : Nat) (f : Launch → Launch) : (s.updLaunch k f).keySeq = s.keySeq :=
    rfl
@[simp] theorem State.updLaunch_mem (s : State) (k : Nat) (f : Launch → Launch) : (s.updLaunch k f).mem = s.mem := rfl
@[simp] theorem State.updLaunch_memKey (s : State) (k : Nat) (f : Launch → Launch) : (s.updLaunch k f).memKey = s.memKey :=
    rfl
@[simp] theorem State.updLaunch_host (s : State) (k : Nat) (f : Launch → Launch) : (s.updLaunch k f).host = s.host :=
    rfl
@[simp] theorem State.updLaunch_peer (s : State) (k : Nat) (f : Launch → Launch) : (s.updLaunch k f).peer = s.peer :=
    rfl
@[simp] theorem State.updLaunch_peerKey (s : State) (k : Nat) (f : Launch → Launch) : (s.updLaunch k f).peerKey = s.peerKey :=
    rfl
@[simp] theorem State.updLaunch_l2 (s : State) (k : Nat) (f : Launch → Launch) : (s.updLaunch k f).l2 = s.l2 := rfl
@[simp] theorem State.updLaunch_homeDir (s : State) (k : Nat) (f : Launch → Launch) : (s.updLaunch k f).homeDir = s.homeDir :=
    rfl
@[simp] theorem State.updLaunch_pend (s : State) (k : Nat) (f : Launch → Launch) : (s.updLaunch k f).pend = s.pend :=
    rfl
@[simp] theorem State.updLaunch_crossings (s : State) (k : Nat) (f : Launch → Launch) : (s.updLaunch k f).crossings = s.crossings :=
    rfl
@[simp] theorem State.updLaunch_accessCnt (s : State) (k : Nat) (f : Launch → Launch) : (s.updLaunch k f).accessCnt = s.accessCnt :=
    rfl
@[simp] theorem State.updLaunch_queuedPages (s : State) (k : Nat) (f : Launch → Launch) : (s.updLaunch k f).queuedPages = s.queuedPages :=
    rfl
@[simp] theorem State.updLaunch_hostLines (s : State) (k : Nat) (f : Launch → Launch) : (s.updLaunch k f).hostLines = s.hostLines :=
    rfl
@[simp] theorem State.updLaunch_hostAnswer (s : State) (k : Nat) (f : Launch → Launch) : (s.updLaunch k f).hostAnswer = s.hostAnswer :=
    rfl
@[simp] theorem State.updLaunch_agentLines (s : State) (k : Nat) (f : Launch → Launch) : (s.updLaunch k f).agentLines = s.agentLines :=
    rfl
@[simp] theorem State.updLaunch_leasesGranted (s : State) (k : Nat) (f : Launch → Launch) : (s.updLaunch k f).leasesGranted = s.leasesGranted :=
    rfl
@[simp] theorem State.updLaunch_leaseBlocked (s : State) (k : Nat) (f : Launch → Launch) : (s.updLaunch k f).leaseBlocked = s.leaseBlocked :=
    rfl
@[simp] theorem State.updLaunch_recallPending (s : State) (k : Nat) (f : Launch → Launch) : (s.updLaunch k f).recallPending = s.recallPending :=
    rfl
@[simp] theorem State.updLaunch_links (s : State) (k : Nat) (f : Launch → Launch) : (s.updLaunch k f).links = s.links :=
    rfl
@[simp] theorem State.updLaunch_fabWindow (s : State) (k : Nat) (f : Launch → Launch) : (s.updLaunch k f).fabWindow = s.fabWindow :=
    rfl
@[simp] theorem State.updLaunch_fabOut (s : State) (k : Nat) (f : Launch → Launch) : (s.updLaunch k f).fabOut = s.fabOut :=
    rfl
@[simp] theorem State.updLaunch_fabSeq (s : State) (k : Nat) (f : Launch → Launch) : (s.updLaunch k f).fabSeq = s.fabSeq :=
    rfl
@[simp] theorem State.updLaunch_fabHeard (s : State) (k : Nat) (f : Launch → Launch) : (s.updLaunch k f).fabHeard = s.fabHeard :=
    rfl
@[simp] theorem State.updLaunch_bufKeys (s : State) (k : Nat) (f : Launch → Launch) : (s.updLaunch k f).bufKeys = s.bufKeys :=
    rfl
@[simp] theorem State.updLaunch_keyWants (s : State) (k : Nat) (f : Launch → Launch) : (s.updLaunch k f).keyWants = s.keyWants :=
    rfl
@[simp] theorem State.updLaunch_wants (s : State) (k : Nat) (f : Launch → Launch) : (s.updLaunch k f).wants = s.wants :=
    rfl
@[simp] theorem State.updLaunch_met (s : State) (k : Nat) (f : Launch → Launch) : (s.updLaunch k f).met = s.met := rfl
@[simp] theorem State.updLaunch_owners (s : State) (k : Nat) (f : Launch → Launch) : (s.updLaunch k f).owners = s.owners :=
    rfl
@[simp] theorem State.updLaunch_teams (s : State) (k : Nat) (f : Launch → Launch) : (s.updLaunch k f).teams = s.teams :=
    rfl
@[simp] theorem State.updLaunch_waves (s : State) (k : Nat) (f : Launch → Launch) : (s.updLaunch k f).waves = s.waves :=
    rfl
@[simp] theorem State.updLaunch_cmds (s : State) (k : Nat) (f : Launch → Launch) : (s.updLaunch k f).cmds = s.cmds :=
    rfl
@[simp] theorem State.updLaunch_saved (s : State) (k : Nat) (f : Launch → Launch) : (s.updLaunch k f).saved = s.saved :=
    rfl
@[simp] theorem State.updLaunch_cores (s : State) (k : Nat) (f : Launch → Launch) : (s.updLaunch k f).cores = s.cores :=
    rfl
@[simp] theorem State.updLaunch_icache (s : State) (k : Nat) (f : Launch → Launch) : (s.updLaunch k f).icache = s.icache :=
    rfl
@[simp] theorem State.updLaunch_clusters (s : State) (k : Nat) (f : Launch → Launch) : (s.updLaunch k f).clusters = s.clusters :=
    rfl
@[simp] theorem State.updLaunch_dies (s : State) (k : Nat) (f : Launch → Launch) : (s.updLaunch k f).dies = s.dies :=
    rfl
@[simp] theorem State.updLaunch_imgCache (s : State) (k : Nat) (f : Launch → Launch) : (s.updLaunch k f).imgCache = s.imgCache :=
    rfl
@[simp] theorem State.updLaunch_rrOwner (s : State) (k : Nat) (f : Launch → Launch) : (s.updLaunch k f).rrOwner = s.rrOwner :=
    rfl
@[simp] theorem State.updLaunch_rrQueue (s : State) (k : Nat) (f : Launch → Launch) : (s.updLaunch k f).rrQueue = s.rrQueue :=
    rfl
@[simp] theorem State.updLaunch_candidate (s : State) (k : Nat) (f : Launch → Launch) : (s.updLaunch k f).candidate = s.candidate :=
    rfl
@[simp] theorem State.updLaunch_passedBy (s : State) (k : Nat) (f : Launch → Launch) : (s.updLaunch k f).passedBy = s.passedBy :=
    rfl
@[simp] theorem State.updLaunch_drains (s : State) (k : Nat) (f : Launch → Launch) : (s.updLaunch k f).drains = s.drains :=
    rfl
@[simp] theorem State.updLaunch_nextTid (s : State) (k : Nat) (f : Launch → Launch) : (s.updLaunch k f).nextTid = s.nextTid :=
    rfl
@[simp] theorem State.updLaunch_nextLid (s : State) (k : Nat) (f : Launch → Launch) : (s.updLaunch k f).nextLid = s.nextLid :=
    rfl
@[simp] theorem State.updLaunch_nextCid (s : State) (k : Nat) (f : Launch → Launch) : (s.updLaunch k f).nextCid = s.nextCid :=
    rfl
@[simp] theorem State.updLaunch_seq (s : State) (k : Nat) (f : Launch → Launch) : (s.updLaunch k f).seq = s.seq := rfl
@[simp] theorem State.updLaunch_inputs (s : State) (k : Nat) (f : Launch → Launch) : (s.updLaunch k f).inputs = s.inputs :=
    rfl
@[simp] theorem State.updLaunch_cur (s : State) (k : Nat) (f : Launch → Launch) : (s.updLaunch k f).cur = s.cur := rfl
@[simp] theorem State.updLaunch_ev (s : State) (k : Nat) (f : Launch → Launch) : (s.updLaunch k f).ev = s.ev := rfl
@[simp] theorem State.updLaunch_sched (s : State) (k : Nat) (f : Launch → Launch) : (s.updLaunch k f).sched = s.sched :=
    rfl
@[simp] theorem State.updLaunch_tick (s : State) (k : Nat) (f : Launch → Launch) : (s.updLaunch k f).tick = s.tick :=
    rfl

@[simp] theorem State.updOwner_clock (s : State) (k : Nat) (f : Owner → Owner) : (s.updOwner k f).clock = s.clock :=
    rfl
@[simp] theorem State.updOwner_deviceId (s : State) (k : Nat) (f : Owner → Owner) : (s.updOwner k f).deviceId = s.deviceId :=
    rfl
@[simp] theorem State.updOwner_deviceIdValid (s : State) (k : Nat) (f : Owner → Owner) : (s.updOwner k f).deviceIdValid = s.deviceIdValid :=
    rfl
@[simp] theorem State.updOwner_drainDl (s : State) (k : Nat) (f : Owner → Owner) : (s.updOwner k f).drainDl = s.drainDl :=
    rfl
@[simp] theorem State.updOwner_fabTmo (s : State) (k : Nat) (f : Owner → Owner) : (s.updOwner k f).fabTmo = s.fabTmo :=
    rfl
@[simp] theorem State.updOwner_hdm (s : State) (k : Nat) (f : Owner → Owner) : (s.updOwner k f).hdm = s.hdm := rfl
@[simp] theorem State.updOwner_biasBase (s : State) (k : Nat) (f : Owner → Owner) : (s.updOwner k f).biasBase = s.biasBase :=
    rfl
@[simp] theorem State.updOwner_hk (s : State) (k : Nat) (f : Owner → Owner) : (s.updOwner k f).hk = s.hk := rfl
@[simp] theorem State.updOwner_pwrLim (s : State) (k : Nat) (f : Owner → Owner) : (s.updOwner k f).pwrLim = s.pwrLim :=
    rfl
@[simp] theorem State.updOwner_eccUncorr (s : State) (k : Nat) (f : Owner → Owner) : (s.updOwner k f).eccUncorr = s.eccUncorr :=
    rfl
@[simp] theorem State.updOwner_eccCorr (s : State) (k : Nat) (f : Owner → Owner) : (s.updOwner k f).eccCorr = s.eccCorr :=
    rfl
@[simp] theorem State.updOwner_power (s : State) (k : Nat) (f : Owner → Owner) : (s.updOwner k f).power = s.power :=
    rfl
@[simp] theorem State.updOwner_rails (s : State) (k : Nat) (f : Owner → Owner) : (s.updOwner k f).rails = s.rails :=
    rfl
@[simp] theorem State.updOwner_temps (s : State) (k : Nat) (f : Owner → Owner) : (s.updOwner k f).temps = s.temps :=
    rfl
@[simp] theorem State.updOwner_withheld (s : State) (k : Nat) (f : Owner → Owner) : (s.updOwner k f).withheld = s.withheld :=
    rfl
@[simp] theorem State.updOwner_withheldSpans (s : State) (k : Nat) (f : Owner → Owner) : (s.updOwner k f).withheldSpans = s.withheldSpans :=
    rfl
@[simp] theorem State.updOwner_mr (s : State) (k : Nat) (f : Owner → Owner) : (s.updOwner k f).mr = s.mr := rfl
@[simp] theorem State.updOwner_fwRunning (s : State) (k : Nat) (f : Owner → Owner) : (s.updOwner k f).fwRunning = s.fwRunning :=
    rfl
@[simp] theorem State.updOwner_fwStaged (s : State) (k : Nat) (f : Owner → Owner) : (s.updOwner k f).fwStaged = s.fwStaged :=
    rfl
@[simp] theorem State.updOwner_reports (s : State) (k : Nat) (f : Owner → Owner) : (s.updOwner k f).reports = s.reports :=
    rfl
@[simp] theorem State.updOwner_msix (s : State) (k : Nat) (f : Owner → Owner) : (s.updOwner k f).msix = s.msix := rfl
@[simp] theorem State.updOwner_keyVer (s : State) (k : Nat) (f : Owner → Owner) : (s.updOwner k f).keyVer = s.keyVer :=
    rfl
@[simp] theorem State.updOwner_keySeq (s : State) (k : Nat) (f : Owner → Owner) : (s.updOwner k f).keySeq = s.keySeq :=
    rfl
@[simp] theorem State.updOwner_mem (s : State) (k : Nat) (f : Owner → Owner) : (s.updOwner k f).mem = s.mem := rfl
@[simp] theorem State.updOwner_memKey (s : State) (k : Nat) (f : Owner → Owner) : (s.updOwner k f).memKey = s.memKey :=
    rfl
@[simp] theorem State.updOwner_host (s : State) (k : Nat) (f : Owner → Owner) : (s.updOwner k f).host = s.host := rfl
@[simp] theorem State.updOwner_peer (s : State) (k : Nat) (f : Owner → Owner) : (s.updOwner k f).peer = s.peer := rfl
@[simp] theorem State.updOwner_peerKey (s : State) (k : Nat) (f : Owner → Owner) : (s.updOwner k f).peerKey = s.peerKey :=
    rfl
@[simp] theorem State.updOwner_l2 (s : State) (k : Nat) (f : Owner → Owner) : (s.updOwner k f).l2 = s.l2 := rfl
@[simp] theorem State.updOwner_homeDir (s : State) (k : Nat) (f : Owner → Owner) : (s.updOwner k f).homeDir = s.homeDir :=
    rfl
@[simp] theorem State.updOwner_pend (s : State) (k : Nat) (f : Owner → Owner) : (s.updOwner k f).pend = s.pend := rfl
@[simp] theorem State.updOwner_crossings (s : State) (k : Nat) (f : Owner → Owner) : (s.updOwner k f).crossings = s.crossings :=
    rfl
@[simp] theorem State.updOwner_accessCnt (s : State) (k : Nat) (f : Owner → Owner) : (s.updOwner k f).accessCnt = s.accessCnt :=
    rfl
@[simp] theorem State.updOwner_queuedPages (s : State) (k : Nat) (f : Owner → Owner) : (s.updOwner k f).queuedPages = s.queuedPages :=
    rfl
@[simp] theorem State.updOwner_hostLines (s : State) (k : Nat) (f : Owner → Owner) : (s.updOwner k f).hostLines = s.hostLines :=
    rfl
@[simp] theorem State.updOwner_hostAnswer (s : State) (k : Nat) (f : Owner → Owner) : (s.updOwner k f).hostAnswer = s.hostAnswer :=
    rfl
@[simp] theorem State.updOwner_agentLines (s : State) (k : Nat) (f : Owner → Owner) : (s.updOwner k f).agentLines = s.agentLines :=
    rfl
@[simp] theorem State.updOwner_leasesGranted (s : State) (k : Nat) (f : Owner → Owner) : (s.updOwner k f).leasesGranted = s.leasesGranted :=
    rfl
@[simp] theorem State.updOwner_leaseBlocked (s : State) (k : Nat) (f : Owner → Owner) : (s.updOwner k f).leaseBlocked = s.leaseBlocked :=
    rfl
@[simp] theorem State.updOwner_recallPending (s : State) (k : Nat) (f : Owner → Owner) : (s.updOwner k f).recallPending = s.recallPending :=
    rfl
@[simp] theorem State.updOwner_links (s : State) (k : Nat) (f : Owner → Owner) : (s.updOwner k f).links = s.links :=
    rfl
@[simp] theorem State.updOwner_fabWindow (s : State) (k : Nat) (f : Owner → Owner) : (s.updOwner k f).fabWindow = s.fabWindow :=
    rfl
@[simp] theorem State.updOwner_fabOut (s : State) (k : Nat) (f : Owner → Owner) : (s.updOwner k f).fabOut = s.fabOut :=
    rfl
@[simp] theorem State.updOwner_fabSeq (s : State) (k : Nat) (f : Owner → Owner) : (s.updOwner k f).fabSeq = s.fabSeq :=
    rfl
@[simp] theorem State.updOwner_fabHeard (s : State) (k : Nat) (f : Owner → Owner) : (s.updOwner k f).fabHeard = s.fabHeard :=
    rfl
@[simp] theorem State.updOwner_bufKeys (s : State) (k : Nat) (f : Owner → Owner) : (s.updOwner k f).bufKeys = s.bufKeys :=
    rfl
@[simp] theorem State.updOwner_keyWants (s : State) (k : Nat) (f : Owner → Owner) : (s.updOwner k f).keyWants = s.keyWants :=
    rfl
@[simp] theorem State.updOwner_wants (s : State) (k : Nat) (f : Owner → Owner) : (s.updOwner k f).wants = s.wants :=
    rfl
@[simp] theorem State.updOwner_met (s : State) (k : Nat) (f : Owner → Owner) : (s.updOwner k f).met = s.met := rfl
@[simp] theorem State.updOwner_launches (s : State) (k : Nat) (f : Owner → Owner) : (s.updOwner k f).launches = s.launches :=
    rfl
@[simp] theorem State.updOwner_teams (s : State) (k : Nat) (f : Owner → Owner) : (s.updOwner k f).teams = s.teams :=
    rfl
@[simp] theorem State.updOwner_waves (s : State) (k : Nat) (f : Owner → Owner) : (s.updOwner k f).waves = s.waves :=
    rfl
@[simp] theorem State.updOwner_cmds (s : State) (k : Nat) (f : Owner → Owner) : (s.updOwner k f).cmds = s.cmds := rfl
@[simp] theorem State.updOwner_saved (s : State) (k : Nat) (f : Owner → Owner) : (s.updOwner k f).saved = s.saved :=
    rfl
@[simp] theorem State.updOwner_cores (s : State) (k : Nat) (f : Owner → Owner) : (s.updOwner k f).cores = s.cores :=
    rfl
@[simp] theorem State.updOwner_icache (s : State) (k : Nat) (f : Owner → Owner) : (s.updOwner k f).icache = s.icache :=
    rfl
@[simp] theorem State.updOwner_clusters (s : State) (k : Nat) (f : Owner → Owner) : (s.updOwner k f).clusters = s.clusters :=
    rfl
@[simp] theorem State.updOwner_dies (s : State) (k : Nat) (f : Owner → Owner) : (s.updOwner k f).dies = s.dies := rfl
@[simp] theorem State.updOwner_imgCache (s : State) (k : Nat) (f : Owner → Owner) : (s.updOwner k f).imgCache = s.imgCache :=
    rfl
@[simp] theorem State.updOwner_rrOwner (s : State) (k : Nat) (f : Owner → Owner) : (s.updOwner k f).rrOwner = s.rrOwner :=
    rfl
@[simp] theorem State.updOwner_rrQueue (s : State) (k : Nat) (f : Owner → Owner) : (s.updOwner k f).rrQueue = s.rrQueue :=
    rfl
@[simp] theorem State.updOwner_candidate (s : State) (k : Nat) (f : Owner → Owner) : (s.updOwner k f).candidate = s.candidate :=
    rfl
@[simp] theorem State.updOwner_passedBy (s : State) (k : Nat) (f : Owner → Owner) : (s.updOwner k f).passedBy = s.passedBy :=
    rfl
@[simp] theorem State.updOwner_drains (s : State) (k : Nat) (f : Owner → Owner) : (s.updOwner k f).drains = s.drains :=
    rfl
@[simp] theorem State.updOwner_nextTid (s : State) (k : Nat) (f : Owner → Owner) : (s.updOwner k f).nextTid = s.nextTid :=
    rfl
@[simp] theorem State.updOwner_nextLid (s : State) (k : Nat) (f : Owner → Owner) : (s.updOwner k f).nextLid = s.nextLid :=
    rfl
@[simp] theorem State.updOwner_nextCid (s : State) (k : Nat) (f : Owner → Owner) : (s.updOwner k f).nextCid = s.nextCid :=
    rfl
@[simp] theorem State.updOwner_seq (s : State) (k : Nat) (f : Owner → Owner) : (s.updOwner k f).seq = s.seq := rfl
@[simp] theorem State.updOwner_inputs (s : State) (k : Nat) (f : Owner → Owner) : (s.updOwner k f).inputs = s.inputs :=
    rfl
@[simp] theorem State.updOwner_cur (s : State) (k : Nat) (f : Owner → Owner) : (s.updOwner k f).cur = s.cur := rfl
@[simp] theorem State.updOwner_ev (s : State) (k : Nat) (f : Owner → Owner) : (s.updOwner k f).ev = s.ev := rfl
@[simp] theorem State.updOwner_sched (s : State) (k : Nat) (f : Owner → Owner) : (s.updOwner k f).sched = s.sched :=
    rfl
@[simp] theorem State.updOwner_tick (s : State) (k : Nat) (f : Owner → Owner) : (s.updOwner k f).tick = s.tick := rfl

@[simp] theorem State.updCmd_clock (s : State) (k : Nat) (f : Cmd → Cmd) : (s.updCmd k f).clock = s.clock := rfl
@[simp] theorem State.updCmd_deviceId (s : State) (k : Nat) (f : Cmd → Cmd) : (s.updCmd k f).deviceId = s.deviceId :=
    rfl
@[simp] theorem State.updCmd_deviceIdValid (s : State) (k : Nat) (f : Cmd → Cmd) : (s.updCmd k f).deviceIdValid = s.deviceIdValid :=
    rfl
@[simp] theorem State.updCmd_drainDl (s : State) (k : Nat) (f : Cmd → Cmd) : (s.updCmd k f).drainDl = s.drainDl := rfl
@[simp] theorem State.updCmd_fabTmo (s : State) (k : Nat) (f : Cmd → Cmd) : (s.updCmd k f).fabTmo = s.fabTmo := rfl
@[simp] theorem State.updCmd_hdm (s : State) (k : Nat) (f : Cmd → Cmd) : (s.updCmd k f).hdm = s.hdm := rfl
@[simp] theorem State.updCmd_biasBase (s : State) (k : Nat) (f : Cmd → Cmd) : (s.updCmd k f).biasBase = s.biasBase :=
    rfl
@[simp] theorem State.updCmd_hk (s : State) (k : Nat) (f : Cmd → Cmd) : (s.updCmd k f).hk = s.hk := rfl
@[simp] theorem State.updCmd_pwrLim (s : State) (k : Nat) (f : Cmd → Cmd) : (s.updCmd k f).pwrLim = s.pwrLim := rfl
@[simp] theorem State.updCmd_eccUncorr (s : State) (k : Nat) (f : Cmd → Cmd) : (s.updCmd k f).eccUncorr = s.eccUncorr :=
    rfl
@[simp] theorem State.updCmd_eccCorr (s : State) (k : Nat) (f : Cmd → Cmd) : (s.updCmd k f).eccCorr = s.eccCorr := rfl
@[simp] theorem State.updCmd_power (s : State) (k : Nat) (f : Cmd → Cmd) : (s.updCmd k f).power = s.power := rfl
@[simp] theorem State.updCmd_rails (s : State) (k : Nat) (f : Cmd → Cmd) : (s.updCmd k f).rails = s.rails := rfl
@[simp] theorem State.updCmd_temps (s : State) (k : Nat) (f : Cmd → Cmd) : (s.updCmd k f).temps = s.temps := rfl
@[simp] theorem State.updCmd_withheld (s : State) (k : Nat) (f : Cmd → Cmd) : (s.updCmd k f).withheld = s.withheld :=
    rfl
@[simp] theorem State.updCmd_withheldSpans (s : State) (k : Nat) (f : Cmd → Cmd) : (s.updCmd k f).withheldSpans = s.withheldSpans :=
    rfl
@[simp] theorem State.updCmd_mr (s : State) (k : Nat) (f : Cmd → Cmd) : (s.updCmd k f).mr = s.mr := rfl
@[simp] theorem State.updCmd_fwRunning (s : State) (k : Nat) (f : Cmd → Cmd) : (s.updCmd k f).fwRunning = s.fwRunning :=
    rfl
@[simp] theorem State.updCmd_fwStaged (s : State) (k : Nat) (f : Cmd → Cmd) : (s.updCmd k f).fwStaged = s.fwStaged :=
    rfl
@[simp] theorem State.updCmd_reports (s : State) (k : Nat) (f : Cmd → Cmd) : (s.updCmd k f).reports = s.reports := rfl
@[simp] theorem State.updCmd_msix (s : State) (k : Nat) (f : Cmd → Cmd) : (s.updCmd k f).msix = s.msix := rfl
@[simp] theorem State.updCmd_keyVer (s : State) (k : Nat) (f : Cmd → Cmd) : (s.updCmd k f).keyVer = s.keyVer := rfl
@[simp] theorem State.updCmd_keySeq (s : State) (k : Nat) (f : Cmd → Cmd) : (s.updCmd k f).keySeq = s.keySeq := rfl
@[simp] theorem State.updCmd_mem (s : State) (k : Nat) (f : Cmd → Cmd) : (s.updCmd k f).mem = s.mem := rfl
@[simp] theorem State.updCmd_memKey (s : State) (k : Nat) (f : Cmd → Cmd) : (s.updCmd k f).memKey = s.memKey := rfl
@[simp] theorem State.updCmd_host (s : State) (k : Nat) (f : Cmd → Cmd) : (s.updCmd k f).host = s.host := rfl
@[simp] theorem State.updCmd_peer (s : State) (k : Nat) (f : Cmd → Cmd) : (s.updCmd k f).peer = s.peer := rfl
@[simp] theorem State.updCmd_peerKey (s : State) (k : Nat) (f : Cmd → Cmd) : (s.updCmd k f).peerKey = s.peerKey := rfl
@[simp] theorem State.updCmd_l2 (s : State) (k : Nat) (f : Cmd → Cmd) : (s.updCmd k f).l2 = s.l2 := rfl
@[simp] theorem State.updCmd_homeDir (s : State) (k : Nat) (f : Cmd → Cmd) : (s.updCmd k f).homeDir = s.homeDir := rfl
@[simp] theorem State.updCmd_pend (s : State) (k : Nat) (f : Cmd → Cmd) : (s.updCmd k f).pend = s.pend := rfl
@[simp] theorem State.updCmd_crossings (s : State) (k : Nat) (f : Cmd → Cmd) : (s.updCmd k f).crossings = s.crossings :=
    rfl
@[simp] theorem State.updCmd_accessCnt (s : State) (k : Nat) (f : Cmd → Cmd) : (s.updCmd k f).accessCnt = s.accessCnt :=
    rfl
@[simp] theorem State.updCmd_queuedPages (s : State) (k : Nat) (f : Cmd → Cmd) : (s.updCmd k f).queuedPages = s.queuedPages :=
    rfl
@[simp] theorem State.updCmd_hostLines (s : State) (k : Nat) (f : Cmd → Cmd) : (s.updCmd k f).hostLines = s.hostLines :=
    rfl
@[simp] theorem State.updCmd_hostAnswer (s : State) (k : Nat) (f : Cmd → Cmd) : (s.updCmd k f).hostAnswer = s.hostAnswer :=
    rfl
@[simp] theorem State.updCmd_agentLines (s : State) (k : Nat) (f : Cmd → Cmd) : (s.updCmd k f).agentLines = s.agentLines :=
    rfl
@[simp] theorem State.updCmd_leasesGranted (s : State) (k : Nat) (f : Cmd → Cmd) : (s.updCmd k f).leasesGranted = s.leasesGranted :=
    rfl
@[simp] theorem State.updCmd_leaseBlocked (s : State) (k : Nat) (f : Cmd → Cmd) : (s.updCmd k f).leaseBlocked = s.leaseBlocked :=
    rfl
@[simp] theorem State.updCmd_recallPending (s : State) (k : Nat) (f : Cmd → Cmd) : (s.updCmd k f).recallPending = s.recallPending :=
    rfl
@[simp] theorem State.updCmd_links (s : State) (k : Nat) (f : Cmd → Cmd) : (s.updCmd k f).links = s.links := rfl
@[simp] theorem State.updCmd_fabWindow (s : State) (k : Nat) (f : Cmd → Cmd) : (s.updCmd k f).fabWindow = s.fabWindow :=
    rfl
@[simp] theorem State.updCmd_fabOut (s : State) (k : Nat) (f : Cmd → Cmd) : (s.updCmd k f).fabOut = s.fabOut := rfl
@[simp] theorem State.updCmd_fabSeq (s : State) (k : Nat) (f : Cmd → Cmd) : (s.updCmd k f).fabSeq = s.fabSeq := rfl
@[simp] theorem State.updCmd_fabHeard (s : State) (k : Nat) (f : Cmd → Cmd) : (s.updCmd k f).fabHeard = s.fabHeard :=
    rfl
@[simp] theorem State.updCmd_bufKeys (s : State) (k : Nat) (f : Cmd → Cmd) : (s.updCmd k f).bufKeys = s.bufKeys := rfl
@[simp] theorem State.updCmd_keyWants (s : State) (k : Nat) (f : Cmd → Cmd) : (s.updCmd k f).keyWants = s.keyWants :=
    rfl
@[simp] theorem State.updCmd_wants (s : State) (k : Nat) (f : Cmd → Cmd) : (s.updCmd k f).wants = s.wants := rfl
@[simp] theorem State.updCmd_met (s : State) (k : Nat) (f : Cmd → Cmd) : (s.updCmd k f).met = s.met := rfl
@[simp] theorem State.updCmd_owners (s : State) (k : Nat) (f : Cmd → Cmd) : (s.updCmd k f).owners = s.owners := rfl
@[simp] theorem State.updCmd_launches (s : State) (k : Nat) (f : Cmd → Cmd) : (s.updCmd k f).launches = s.launches :=
    rfl
@[simp] theorem State.updCmd_teams (s : State) (k : Nat) (f : Cmd → Cmd) : (s.updCmd k f).teams = s.teams := rfl
@[simp] theorem State.updCmd_waves (s : State) (k : Nat) (f : Cmd → Cmd) : (s.updCmd k f).waves = s.waves := rfl
@[simp] theorem State.updCmd_saved (s : State) (k : Nat) (f : Cmd → Cmd) : (s.updCmd k f).saved = s.saved := rfl
@[simp] theorem State.updCmd_cores (s : State) (k : Nat) (f : Cmd → Cmd) : (s.updCmd k f).cores = s.cores := rfl
@[simp] theorem State.updCmd_icache (s : State) (k : Nat) (f : Cmd → Cmd) : (s.updCmd k f).icache = s.icache := rfl
@[simp] theorem State.updCmd_clusters (s : State) (k : Nat) (f : Cmd → Cmd) : (s.updCmd k f).clusters = s.clusters :=
    rfl
@[simp] theorem State.updCmd_dies (s : State) (k : Nat) (f : Cmd → Cmd) : (s.updCmd k f).dies = s.dies := rfl
@[simp] theorem State.updCmd_imgCache (s : State) (k : Nat) (f : Cmd → Cmd) : (s.updCmd k f).imgCache = s.imgCache :=
    rfl
@[simp] theorem State.updCmd_rrOwner (s : State) (k : Nat) (f : Cmd → Cmd) : (s.updCmd k f).rrOwner = s.rrOwner := rfl
@[simp] theorem State.updCmd_rrQueue (s : State) (k : Nat) (f : Cmd → Cmd) : (s.updCmd k f).rrQueue = s.rrQueue := rfl
@[simp] theorem State.updCmd_candidate (s : State) (k : Nat) (f : Cmd → Cmd) : (s.updCmd k f).candidate = s.candidate :=
    rfl
@[simp] theorem State.updCmd_passedBy (s : State) (k : Nat) (f : Cmd → Cmd) : (s.updCmd k f).passedBy = s.passedBy :=
    rfl
@[simp] theorem State.updCmd_drains (s : State) (k : Nat) (f : Cmd → Cmd) : (s.updCmd k f).drains = s.drains := rfl
@[simp] theorem State.updCmd_nextTid (s : State) (k : Nat) (f : Cmd → Cmd) : (s.updCmd k f).nextTid = s.nextTid := rfl
@[simp] theorem State.updCmd_nextLid (s : State) (k : Nat) (f : Cmd → Cmd) : (s.updCmd k f).nextLid = s.nextLid := rfl
@[simp] theorem State.updCmd_nextCid (s : State) (k : Nat) (f : Cmd → Cmd) : (s.updCmd k f).nextCid = s.nextCid := rfl
@[simp] theorem State.updCmd_seq (s : State) (k : Nat) (f : Cmd → Cmd) : (s.updCmd k f).seq = s.seq := rfl
@[simp] theorem State.updCmd_inputs (s : State) (k : Nat) (f : Cmd → Cmd) : (s.updCmd k f).inputs = s.inputs := rfl
@[simp] theorem State.updCmd_cur (s : State) (k : Nat) (f : Cmd → Cmd) : (s.updCmd k f).cur = s.cur := rfl
@[simp] theorem State.updCmd_ev (s : State) (k : Nat) (f : Cmd → Cmd) : (s.updCmd k f).ev = s.ev := rfl
@[simp] theorem State.updCmd_sched (s : State) (k : Nat) (f : Cmd → Cmd) : (s.updCmd k f).sched = s.sched := rfl
@[simp] theorem State.updCmd_tick (s : State) (k : Nat) (f : Cmd → Cmd) : (s.updCmd k f).tick = s.tick := rfl

@[simp] theorem State.updCore_clock (s : State) (k : Nat) (f : Core → Core) : (s.updCore k f).clock = s.clock := rfl
@[simp] theorem State.updCore_deviceId (s : State) (k : Nat) (f : Core → Core) : (s.updCore k f).deviceId = s.deviceId :=
    rfl
@[simp] theorem State.updCore_deviceIdValid (s : State) (k : Nat) (f : Core → Core) : (s.updCore k f).deviceIdValid = s.deviceIdValid :=
    rfl
@[simp] theorem State.updCore_drainDl (s : State) (k : Nat) (f : Core → Core) : (s.updCore k f).drainDl = s.drainDl :=
    rfl
@[simp] theorem State.updCore_fabTmo (s : State) (k : Nat) (f : Core → Core) : (s.updCore k f).fabTmo = s.fabTmo :=
    rfl
@[simp] theorem State.updCore_hdm (s : State) (k : Nat) (f : Core → Core) : (s.updCore k f).hdm = s.hdm := rfl
@[simp] theorem State.updCore_biasBase (s : State) (k : Nat) (f : Core → Core) : (s.updCore k f).biasBase = s.biasBase :=
    rfl
@[simp] theorem State.updCore_hk (s : State) (k : Nat) (f : Core → Core) : (s.updCore k f).hk = s.hk := rfl
@[simp] theorem State.updCore_pwrLim (s : State) (k : Nat) (f : Core → Core) : (s.updCore k f).pwrLim = s.pwrLim :=
    rfl
@[simp] theorem State.updCore_eccUncorr (s : State) (k : Nat) (f : Core → Core) : (s.updCore k f).eccUncorr = s.eccUncorr :=
    rfl
@[simp] theorem State.updCore_eccCorr (s : State) (k : Nat) (f : Core → Core) : (s.updCore k f).eccCorr = s.eccCorr :=
    rfl
@[simp] theorem State.updCore_power (s : State) (k : Nat) (f : Core → Core) : (s.updCore k f).power = s.power := rfl
@[simp] theorem State.updCore_rails (s : State) (k : Nat) (f : Core → Core) : (s.updCore k f).rails = s.rails := rfl
@[simp] theorem State.updCore_temps (s : State) (k : Nat) (f : Core → Core) : (s.updCore k f).temps = s.temps := rfl
@[simp] theorem State.updCore_withheld (s : State) (k : Nat) (f : Core → Core) : (s.updCore k f).withheld = s.withheld :=
    rfl
@[simp] theorem State.updCore_withheldSpans (s : State) (k : Nat) (f : Core → Core) : (s.updCore k f).withheldSpans = s.withheldSpans :=
    rfl
@[simp] theorem State.updCore_mr (s : State) (k : Nat) (f : Core → Core) : (s.updCore k f).mr = s.mr := rfl
@[simp] theorem State.updCore_fwRunning (s : State) (k : Nat) (f : Core → Core) : (s.updCore k f).fwRunning = s.fwRunning :=
    rfl
@[simp] theorem State.updCore_fwStaged (s : State) (k : Nat) (f : Core → Core) : (s.updCore k f).fwStaged = s.fwStaged :=
    rfl
@[simp] theorem State.updCore_reports (s : State) (k : Nat) (f : Core → Core) : (s.updCore k f).reports = s.reports :=
    rfl
@[simp] theorem State.updCore_msix (s : State) (k : Nat) (f : Core → Core) : (s.updCore k f).msix = s.msix := rfl
@[simp] theorem State.updCore_keyVer (s : State) (k : Nat) (f : Core → Core) : (s.updCore k f).keyVer = s.keyVer :=
    rfl
@[simp] theorem State.updCore_keySeq (s : State) (k : Nat) (f : Core → Core) : (s.updCore k f).keySeq = s.keySeq :=
    rfl
@[simp] theorem State.updCore_mem (s : State) (k : Nat) (f : Core → Core) : (s.updCore k f).mem = s.mem := rfl
@[simp] theorem State.updCore_memKey (s : State) (k : Nat) (f : Core → Core) : (s.updCore k f).memKey = s.memKey :=
    rfl
@[simp] theorem State.updCore_host (s : State) (k : Nat) (f : Core → Core) : (s.updCore k f).host = s.host := rfl
@[simp] theorem State.updCore_peer (s : State) (k : Nat) (f : Core → Core) : (s.updCore k f).peer = s.peer := rfl
@[simp] theorem State.updCore_peerKey (s : State) (k : Nat) (f : Core → Core) : (s.updCore k f).peerKey = s.peerKey :=
    rfl
@[simp] theorem State.updCore_l2 (s : State) (k : Nat) (f : Core → Core) : (s.updCore k f).l2 = s.l2 := rfl
@[simp] theorem State.updCore_homeDir (s : State) (k : Nat) (f : Core → Core) : (s.updCore k f).homeDir = s.homeDir :=
    rfl
@[simp] theorem State.updCore_pend (s : State) (k : Nat) (f : Core → Core) : (s.updCore k f).pend = s.pend := rfl
@[simp] theorem State.updCore_crossings (s : State) (k : Nat) (f : Core → Core) : (s.updCore k f).crossings = s.crossings :=
    rfl
@[simp] theorem State.updCore_accessCnt (s : State) (k : Nat) (f : Core → Core) : (s.updCore k f).accessCnt = s.accessCnt :=
    rfl
@[simp] theorem State.updCore_queuedPages (s : State) (k : Nat) (f : Core → Core) : (s.updCore k f).queuedPages = s.queuedPages :=
    rfl
@[simp] theorem State.updCore_hostLines (s : State) (k : Nat) (f : Core → Core) : (s.updCore k f).hostLines = s.hostLines :=
    rfl
@[simp] theorem State.updCore_hostAnswer (s : State) (k : Nat) (f : Core → Core) : (s.updCore k f).hostAnswer = s.hostAnswer :=
    rfl
@[simp] theorem State.updCore_agentLines (s : State) (k : Nat) (f : Core → Core) : (s.updCore k f).agentLines = s.agentLines :=
    rfl
@[simp] theorem State.updCore_leasesGranted (s : State) (k : Nat) (f : Core → Core) : (s.updCore k f).leasesGranted = s.leasesGranted :=
    rfl
@[simp] theorem State.updCore_leaseBlocked (s : State) (k : Nat) (f : Core → Core) : (s.updCore k f).leaseBlocked = s.leaseBlocked :=
    rfl
@[simp] theorem State.updCore_recallPending (s : State) (k : Nat) (f : Core → Core) : (s.updCore k f).recallPending = s.recallPending :=
    rfl
@[simp] theorem State.updCore_links (s : State) (k : Nat) (f : Core → Core) : (s.updCore k f).links = s.links := rfl
@[simp] theorem State.updCore_fabWindow (s : State) (k : Nat) (f : Core → Core) : (s.updCore k f).fabWindow = s.fabWindow :=
    rfl
@[simp] theorem State.updCore_fabOut (s : State) (k : Nat) (f : Core → Core) : (s.updCore k f).fabOut = s.fabOut :=
    rfl
@[simp] theorem State.updCore_fabSeq (s : State) (k : Nat) (f : Core → Core) : (s.updCore k f).fabSeq = s.fabSeq :=
    rfl
@[simp] theorem State.updCore_fabHeard (s : State) (k : Nat) (f : Core → Core) : (s.updCore k f).fabHeard = s.fabHeard :=
    rfl
@[simp] theorem State.updCore_bufKeys (s : State) (k : Nat) (f : Core → Core) : (s.updCore k f).bufKeys = s.bufKeys :=
    rfl
@[simp] theorem State.updCore_keyWants (s : State) (k : Nat) (f : Core → Core) : (s.updCore k f).keyWants = s.keyWants :=
    rfl
@[simp] theorem State.updCore_wants (s : State) (k : Nat) (f : Core → Core) : (s.updCore k f).wants = s.wants := rfl
@[simp] theorem State.updCore_met (s : State) (k : Nat) (f : Core → Core) : (s.updCore k f).met = s.met := rfl
@[simp] theorem State.updCore_owners (s : State) (k : Nat) (f : Core → Core) : (s.updCore k f).owners = s.owners :=
    rfl
@[simp] theorem State.updCore_launches (s : State) (k : Nat) (f : Core → Core) : (s.updCore k f).launches = s.launches :=
    rfl
@[simp] theorem State.updCore_teams (s : State) (k : Nat) (f : Core → Core) : (s.updCore k f).teams = s.teams := rfl
@[simp] theorem State.updCore_waves (s : State) (k : Nat) (f : Core → Core) : (s.updCore k f).waves = s.waves := rfl
@[simp] theorem State.updCore_cmds (s : State) (k : Nat) (f : Core → Core) : (s.updCore k f).cmds = s.cmds := rfl
@[simp] theorem State.updCore_saved (s : State) (k : Nat) (f : Core → Core) : (s.updCore k f).saved = s.saved := rfl
@[simp] theorem State.updCore_icache (s : State) (k : Nat) (f : Core → Core) : (s.updCore k f).icache = s.icache :=
    rfl
@[simp] theorem State.updCore_clusters (s : State) (k : Nat) (f : Core → Core) : (s.updCore k f).clusters = s.clusters :=
    rfl
@[simp] theorem State.updCore_dies (s : State) (k : Nat) (f : Core → Core) : (s.updCore k f).dies = s.dies := rfl
@[simp] theorem State.updCore_imgCache (s : State) (k : Nat) (f : Core → Core) : (s.updCore k f).imgCache = s.imgCache :=
    rfl
@[simp] theorem State.updCore_rrOwner (s : State) (k : Nat) (f : Core → Core) : (s.updCore k f).rrOwner = s.rrOwner :=
    rfl
@[simp] theorem State.updCore_rrQueue (s : State) (k : Nat) (f : Core → Core) : (s.updCore k f).rrQueue = s.rrQueue :=
    rfl
@[simp] theorem State.updCore_candidate (s : State) (k : Nat) (f : Core → Core) : (s.updCore k f).candidate = s.candidate :=
    rfl
@[simp] theorem State.updCore_passedBy (s : State) (k : Nat) (f : Core → Core) : (s.updCore k f).passedBy = s.passedBy :=
    rfl
@[simp] theorem State.updCore_drains (s : State) (k : Nat) (f : Core → Core) : (s.updCore k f).drains = s.drains :=
    rfl
@[simp] theorem State.updCore_nextTid (s : State) (k : Nat) (f : Core → Core) : (s.updCore k f).nextTid = s.nextTid :=
    rfl
@[simp] theorem State.updCore_nextLid (s : State) (k : Nat) (f : Core → Core) : (s.updCore k f).nextLid = s.nextLid :=
    rfl
@[simp] theorem State.updCore_nextCid (s : State) (k : Nat) (f : Core → Core) : (s.updCore k f).nextCid = s.nextCid :=
    rfl
@[simp] theorem State.updCore_seq (s : State) (k : Nat) (f : Core → Core) : (s.updCore k f).seq = s.seq := rfl
@[simp] theorem State.updCore_inputs (s : State) (k : Nat) (f : Core → Core) : (s.updCore k f).inputs = s.inputs :=
    rfl
@[simp] theorem State.updCore_cur (s : State) (k : Nat) (f : Core → Core) : (s.updCore k f).cur = s.cur := rfl
@[simp] theorem State.updCore_ev (s : State) (k : Nat) (f : Core → Core) : (s.updCore k f).ev = s.ev := rfl
@[simp] theorem State.updCore_sched (s : State) (k : Nat) (f : Core → Core) : (s.updCore k f).sched = s.sched := rfl
@[simp] theorem State.updCore_tick (s : State) (k : Nat) (f : Core → Core) : (s.updCore k f).tick = s.tick := rfl

@[simp] theorem State.count_clock (s : State) (c k : Nat) : (s.count c k).clock = s.clock := rfl
@[simp] theorem State.count_deviceId (s : State) (c k : Nat) : (s.count c k).deviceId = s.deviceId := rfl
@[simp] theorem State.count_deviceIdValid (s : State) (c k : Nat) : (s.count c k).deviceIdValid = s.deviceIdValid :=
    rfl
@[simp] theorem State.count_drainDl (s : State) (c k : Nat) : (s.count c k).drainDl = s.drainDl := rfl
@[simp] theorem State.count_fabTmo (s : State) (c k : Nat) : (s.count c k).fabTmo = s.fabTmo := rfl
@[simp] theorem State.count_hdm (s : State) (c k : Nat) : (s.count c k).hdm = s.hdm := rfl
@[simp] theorem State.count_biasBase (s : State) (c k : Nat) : (s.count c k).biasBase = s.biasBase := rfl
@[simp] theorem State.count_hk (s : State) (c k : Nat) : (s.count c k).hk = s.hk := rfl
@[simp] theorem State.count_pwrLim (s : State) (c k : Nat) : (s.count c k).pwrLim = s.pwrLim := rfl
@[simp] theorem State.count_eccUncorr (s : State) (c k : Nat) : (s.count c k).eccUncorr = s.eccUncorr := rfl
@[simp] theorem State.count_eccCorr (s : State) (c k : Nat) : (s.count c k).eccCorr = s.eccCorr := rfl
@[simp] theorem State.count_power (s : State) (c k : Nat) : (s.count c k).power = s.power := rfl
@[simp] theorem State.count_rails (s : State) (c k : Nat) : (s.count c k).rails = s.rails := rfl
@[simp] theorem State.count_temps (s : State) (c k : Nat) : (s.count c k).temps = s.temps := rfl
@[simp] theorem State.count_withheld (s : State) (c k : Nat) : (s.count c k).withheld = s.withheld := rfl
@[simp] theorem State.count_withheldSpans (s : State) (c k : Nat) : (s.count c k).withheldSpans = s.withheldSpans :=
    rfl
@[simp] theorem State.count_mr (s : State) (c k : Nat) : (s.count c k).mr = s.mr := rfl
@[simp] theorem State.count_fwRunning (s : State) (c k : Nat) : (s.count c k).fwRunning = s.fwRunning := rfl
@[simp] theorem State.count_fwStaged (s : State) (c k : Nat) : (s.count c k).fwStaged = s.fwStaged := rfl
@[simp] theorem State.count_reports (s : State) (c k : Nat) : (s.count c k).reports = s.reports := rfl
@[simp] theorem State.count_msix (s : State) (c k : Nat) : (s.count c k).msix = s.msix := rfl
@[simp] theorem State.count_keyVer (s : State) (c k : Nat) : (s.count c k).keyVer = s.keyVer := rfl
@[simp] theorem State.count_keySeq (s : State) (c k : Nat) : (s.count c k).keySeq = s.keySeq := rfl
@[simp] theorem State.count_mem (s : State) (c k : Nat) : (s.count c k).mem = s.mem := rfl
@[simp] theorem State.count_memKey (s : State) (c k : Nat) : (s.count c k).memKey = s.memKey := rfl
@[simp] theorem State.count_host (s : State) (c k : Nat) : (s.count c k).host = s.host := rfl
@[simp] theorem State.count_peer (s : State) (c k : Nat) : (s.count c k).peer = s.peer := rfl
@[simp] theorem State.count_peerKey (s : State) (c k : Nat) : (s.count c k).peerKey = s.peerKey := rfl
@[simp] theorem State.count_l2 (s : State) (c k : Nat) : (s.count c k).l2 = s.l2 := rfl
@[simp] theorem State.count_homeDir (s : State) (c k : Nat) : (s.count c k).homeDir = s.homeDir := rfl
@[simp] theorem State.count_pend (s : State) (c k : Nat) : (s.count c k).pend = s.pend := rfl
@[simp] theorem State.count_crossings (s : State) (c k : Nat) : (s.count c k).crossings = s.crossings := rfl
@[simp] theorem State.count_accessCnt (s : State) (c k : Nat) : (s.count c k).accessCnt = s.accessCnt := rfl
@[simp] theorem State.count_queuedPages (s : State) (c k : Nat) : (s.count c k).queuedPages = s.queuedPages := rfl
@[simp] theorem State.count_hostLines (s : State) (c k : Nat) : (s.count c k).hostLines = s.hostLines := rfl
@[simp] theorem State.count_hostAnswer (s : State) (c k : Nat) : (s.count c k).hostAnswer = s.hostAnswer := rfl
@[simp] theorem State.count_agentLines (s : State) (c k : Nat) : (s.count c k).agentLines = s.agentLines := rfl
@[simp] theorem State.count_leasesGranted (s : State) (c k : Nat) : (s.count c k).leasesGranted = s.leasesGranted :=
    rfl
@[simp] theorem State.count_leaseBlocked (s : State) (c k : Nat) : (s.count c k).leaseBlocked = s.leaseBlocked := rfl
@[simp] theorem State.count_recallPending (s : State) (c k : Nat) : (s.count c k).recallPending = s.recallPending :=
    rfl
@[simp] theorem State.count_links (s : State) (c k : Nat) : (s.count c k).links = s.links := rfl
@[simp] theorem State.count_fabWindow (s : State) (c k : Nat) : (s.count c k).fabWindow = s.fabWindow := rfl
@[simp] theorem State.count_fabOut (s : State) (c k : Nat) : (s.count c k).fabOut = s.fabOut := rfl
@[simp] theorem State.count_fabSeq (s : State) (c k : Nat) : (s.count c k).fabSeq = s.fabSeq := rfl
@[simp] theorem State.count_fabHeard (s : State) (c k : Nat) : (s.count c k).fabHeard = s.fabHeard := rfl
@[simp] theorem State.count_bufKeys (s : State) (c k : Nat) : (s.count c k).bufKeys = s.bufKeys := rfl
@[simp] theorem State.count_keyWants (s : State) (c k : Nat) : (s.count c k).keyWants = s.keyWants := rfl
@[simp] theorem State.count_wants (s : State) (c k : Nat) : (s.count c k).wants = s.wants := rfl
@[simp] theorem State.count_met (s : State) (c k : Nat) : (s.count c k).met = s.met := rfl
@[simp] theorem State.count_owners (s : State) (c k : Nat) : (s.count c k).owners = s.owners := rfl
@[simp] theorem State.count_launches (s : State) (c k : Nat) : (s.count c k).launches = s.launches := rfl
@[simp] theorem State.count_teams (s : State) (c k : Nat) : (s.count c k).teams = s.teams := rfl
@[simp] theorem State.count_waves (s : State) (c k : Nat) : (s.count c k).waves = s.waves := rfl
@[simp] theorem State.count_cmds (s : State) (c k : Nat) : (s.count c k).cmds = s.cmds := rfl
@[simp] theorem State.count_saved (s : State) (c k : Nat) : (s.count c k).saved = s.saved := rfl
@[simp] theorem State.count_icache (s : State) (c k : Nat) : (s.count c k).icache = s.icache := rfl
@[simp] theorem State.count_clusters (s : State) (c k : Nat) : (s.count c k).clusters = s.clusters := rfl
@[simp] theorem State.count_dies (s : State) (c k : Nat) : (s.count c k).dies = s.dies := rfl
@[simp] theorem State.count_imgCache (s : State) (c k : Nat) : (s.count c k).imgCache = s.imgCache := rfl
@[simp] theorem State.count_rrOwner (s : State) (c k : Nat) : (s.count c k).rrOwner = s.rrOwner := rfl
@[simp] theorem State.count_rrQueue (s : State) (c k : Nat) : (s.count c k).rrQueue = s.rrQueue := rfl
@[simp] theorem State.count_candidate (s : State) (c k : Nat) : (s.count c k).candidate = s.candidate := rfl
@[simp] theorem State.count_passedBy (s : State) (c k : Nat) : (s.count c k).passedBy = s.passedBy := rfl
@[simp] theorem State.count_drains (s : State) (c k : Nat) : (s.count c k).drains = s.drains := rfl
@[simp] theorem State.count_nextTid (s : State) (c k : Nat) : (s.count c k).nextTid = s.nextTid := rfl
@[simp] theorem State.count_nextLid (s : State) (c k : Nat) : (s.count c k).nextLid = s.nextLid := rfl
@[simp] theorem State.count_nextCid (s : State) (c k : Nat) : (s.count c k).nextCid = s.nextCid := rfl
@[simp] theorem State.count_seq (s : State) (c k : Nat) : (s.count c k).seq = s.seq := rfl
@[simp] theorem State.count_inputs (s : State) (c k : Nat) : (s.count c k).inputs = s.inputs := rfl
@[simp] theorem State.count_cur (s : State) (c k : Nat) : (s.count c k).cur = s.cur := rfl
@[simp] theorem State.count_ev (s : State) (c k : Nat) : (s.count c k).ev = s.ev := rfl
@[simp] theorem State.count_sched (s : State) (c k : Nat) : (s.count c k).sched = s.sched := rfl
@[simp] theorem State.count_tick (s : State) (c k : Nat) : (s.count c k).tick = s.tick := rfl

@[simp] theorem State.updCluster_clock (s : State) (k : Nat) (f : Cluster → Cluster) : (s.updCluster k f).clock = s.clock :=
    rfl
@[simp] theorem State.updCluster_deviceId (s : State) (k : Nat) (f : Cluster → Cluster) : (s.updCluster k f).deviceId = s.deviceId :=
    rfl
@[simp] theorem State.updCluster_deviceIdValid (s : State) (k : Nat) (f : Cluster → Cluster) : (s.updCluster k f).deviceIdValid = s.deviceIdValid :=
    rfl
@[simp] theorem State.updCluster_drainDl (s : State) (k : Nat) (f : Cluster → Cluster) : (s.updCluster k f).drainDl = s.drainDl :=
    rfl
@[simp] theorem State.updCluster_fabTmo (s : State) (k : Nat) (f : Cluster → Cluster) : (s.updCluster k f).fabTmo = s.fabTmo :=
    rfl
@[simp] theorem State.updCluster_hdm (s : State) (k : Nat) (f : Cluster → Cluster) : (s.updCluster k f).hdm = s.hdm :=
    rfl
@[simp] theorem State.updCluster_biasBase (s : State) (k : Nat) (f : Cluster → Cluster) : (s.updCluster k f).biasBase = s.biasBase :=
    rfl
@[simp] theorem State.updCluster_hk (s : State) (k : Nat) (f : Cluster → Cluster) : (s.updCluster k f).hk = s.hk :=
    rfl
@[simp] theorem State.updCluster_pwrLim (s : State) (k : Nat) (f : Cluster → Cluster) : (s.updCluster k f).pwrLim = s.pwrLim :=
    rfl
@[simp] theorem State.updCluster_eccUncorr (s : State) (k : Nat) (f : Cluster → Cluster) : (s.updCluster k f).eccUncorr = s.eccUncorr :=
    rfl
@[simp] theorem State.updCluster_eccCorr (s : State) (k : Nat) (f : Cluster → Cluster) : (s.updCluster k f).eccCorr = s.eccCorr :=
    rfl
@[simp] theorem State.updCluster_power (s : State) (k : Nat) (f : Cluster → Cluster) : (s.updCluster k f).power = s.power :=
    rfl
@[simp] theorem State.updCluster_rails (s : State) (k : Nat) (f : Cluster → Cluster) : (s.updCluster k f).rails = s.rails :=
    rfl
@[simp] theorem State.updCluster_temps (s : State) (k : Nat) (f : Cluster → Cluster) : (s.updCluster k f).temps = s.temps :=
    rfl
@[simp] theorem State.updCluster_withheld (s : State) (k : Nat) (f : Cluster → Cluster) : (s.updCluster k f).withheld = s.withheld :=
    rfl
@[simp] theorem State.updCluster_withheldSpans (s : State) (k : Nat) (f : Cluster → Cluster) : (s.updCluster k f).withheldSpans = s.withheldSpans :=
    rfl
@[simp] theorem State.updCluster_mr (s : State) (k : Nat) (f : Cluster → Cluster) : (s.updCluster k f).mr = s.mr :=
    rfl
@[simp] theorem State.updCluster_fwRunning (s : State) (k : Nat) (f : Cluster → Cluster) : (s.updCluster k f).fwRunning = s.fwRunning :=
    rfl
@[simp] theorem State.updCluster_fwStaged (s : State) (k : Nat) (f : Cluster → Cluster) : (s.updCluster k f).fwStaged = s.fwStaged :=
    rfl
@[simp] theorem State.updCluster_reports (s : State) (k : Nat) (f : Cluster → Cluster) : (s.updCluster k f).reports = s.reports :=
    rfl
@[simp] theorem State.updCluster_msix (s : State) (k : Nat) (f : Cluster → Cluster) : (s.updCluster k f).msix = s.msix :=
    rfl
@[simp] theorem State.updCluster_keyVer (s : State) (k : Nat) (f : Cluster → Cluster) : (s.updCluster k f).keyVer = s.keyVer :=
    rfl
@[simp] theorem State.updCluster_keySeq (s : State) (k : Nat) (f : Cluster → Cluster) : (s.updCluster k f).keySeq = s.keySeq :=
    rfl
@[simp] theorem State.updCluster_mem (s : State) (k : Nat) (f : Cluster → Cluster) : (s.updCluster k f).mem = s.mem :=
    rfl
@[simp] theorem State.updCluster_memKey (s : State) (k : Nat) (f : Cluster → Cluster) : (s.updCluster k f).memKey = s.memKey :=
    rfl
@[simp] theorem State.updCluster_host (s : State) (k : Nat) (f : Cluster → Cluster) : (s.updCluster k f).host = s.host :=
    rfl
@[simp] theorem State.updCluster_peer (s : State) (k : Nat) (f : Cluster → Cluster) : (s.updCluster k f).peer = s.peer :=
    rfl
@[simp] theorem State.updCluster_peerKey (s : State) (k : Nat) (f : Cluster → Cluster) : (s.updCluster k f).peerKey = s.peerKey :=
    rfl
@[simp] theorem State.updCluster_l2 (s : State) (k : Nat) (f : Cluster → Cluster) : (s.updCluster k f).l2 = s.l2 :=
    rfl
@[simp] theorem State.updCluster_homeDir (s : State) (k : Nat) (f : Cluster → Cluster) : (s.updCluster k f).homeDir = s.homeDir :=
    rfl
@[simp] theorem State.updCluster_pend (s : State) (k : Nat) (f : Cluster → Cluster) : (s.updCluster k f).pend = s.pend :=
    rfl
@[simp] theorem State.updCluster_crossings (s : State) (k : Nat) (f : Cluster → Cluster) : (s.updCluster k f).crossings = s.crossings :=
    rfl
@[simp] theorem State.updCluster_accessCnt (s : State) (k : Nat) (f : Cluster → Cluster) : (s.updCluster k f).accessCnt = s.accessCnt :=
    rfl
@[simp] theorem State.updCluster_queuedPages (s : State) (k : Nat) (f : Cluster → Cluster) : (s.updCluster k f).queuedPages = s.queuedPages :=
    rfl
@[simp] theorem State.updCluster_hostLines (s : State) (k : Nat) (f : Cluster → Cluster) : (s.updCluster k f).hostLines = s.hostLines :=
    rfl
@[simp] theorem State.updCluster_hostAnswer (s : State) (k : Nat) (f : Cluster → Cluster) : (s.updCluster k f).hostAnswer = s.hostAnswer :=
    rfl
@[simp] theorem State.updCluster_agentLines (s : State) (k : Nat) (f : Cluster → Cluster) : (s.updCluster k f).agentLines = s.agentLines :=
    rfl
@[simp] theorem State.updCluster_leasesGranted (s : State) (k : Nat) (f : Cluster → Cluster) : (s.updCluster k f).leasesGranted = s.leasesGranted :=
    rfl
@[simp] theorem State.updCluster_leaseBlocked (s : State) (k : Nat) (f : Cluster → Cluster) : (s.updCluster k f).leaseBlocked = s.leaseBlocked :=
    rfl
@[simp] theorem State.updCluster_recallPending (s : State) (k : Nat) (f : Cluster → Cluster) : (s.updCluster k f).recallPending = s.recallPending :=
    rfl
@[simp] theorem State.updCluster_links (s : State) (k : Nat) (f : Cluster → Cluster) : (s.updCluster k f).links = s.links :=
    rfl
@[simp] theorem State.updCluster_fabWindow (s : State) (k : Nat) (f : Cluster → Cluster) : (s.updCluster k f).fabWindow = s.fabWindow :=
    rfl
@[simp] theorem State.updCluster_fabOut (s : State) (k : Nat) (f : Cluster → Cluster) : (s.updCluster k f).fabOut = s.fabOut :=
    rfl
@[simp] theorem State.updCluster_fabSeq (s : State) (k : Nat) (f : Cluster → Cluster) : (s.updCluster k f).fabSeq = s.fabSeq :=
    rfl
@[simp] theorem State.updCluster_fabHeard (s : State) (k : Nat) (f : Cluster → Cluster) : (s.updCluster k f).fabHeard = s.fabHeard :=
    rfl
@[simp] theorem State.updCluster_bufKeys (s : State) (k : Nat) (f : Cluster → Cluster) : (s.updCluster k f).bufKeys = s.bufKeys :=
    rfl
@[simp] theorem State.updCluster_keyWants (s : State) (k : Nat) (f : Cluster → Cluster) : (s.updCluster k f).keyWants = s.keyWants :=
    rfl
@[simp] theorem State.updCluster_wants (s : State) (k : Nat) (f : Cluster → Cluster) : (s.updCluster k f).wants = s.wants :=
    rfl
@[simp] theorem State.updCluster_met (s : State) (k : Nat) (f : Cluster → Cluster) : (s.updCluster k f).met = s.met :=
    rfl
@[simp] theorem State.updCluster_owners (s : State) (k : Nat) (f : Cluster → Cluster) : (s.updCluster k f).owners = s.owners :=
    rfl
@[simp] theorem State.updCluster_launches (s : State) (k : Nat) (f : Cluster → Cluster) : (s.updCluster k f).launches = s.launches :=
    rfl
@[simp] theorem State.updCluster_teams (s : State) (k : Nat) (f : Cluster → Cluster) : (s.updCluster k f).teams = s.teams :=
    rfl
@[simp] theorem State.updCluster_waves (s : State) (k : Nat) (f : Cluster → Cluster) : (s.updCluster k f).waves = s.waves :=
    rfl
@[simp] theorem State.updCluster_cmds (s : State) (k : Nat) (f : Cluster → Cluster) : (s.updCluster k f).cmds = s.cmds :=
    rfl
@[simp] theorem State.updCluster_saved (s : State) (k : Nat) (f : Cluster → Cluster) : (s.updCluster k f).saved = s.saved :=
    rfl
@[simp] theorem State.updCluster_cores (s : State) (k : Nat) (f : Cluster → Cluster) : (s.updCluster k f).cores = s.cores :=
    rfl
@[simp] theorem State.updCluster_icache (s : State) (k : Nat) (f : Cluster → Cluster) : (s.updCluster k f).icache = s.icache :=
    rfl
@[simp] theorem State.updCluster_dies (s : State) (k : Nat) (f : Cluster → Cluster) : (s.updCluster k f).dies = s.dies :=
    rfl
@[simp] theorem State.updCluster_imgCache (s : State) (k : Nat) (f : Cluster → Cluster) : (s.updCluster k f).imgCache = s.imgCache :=
    rfl
@[simp] theorem State.updCluster_rrOwner (s : State) (k : Nat) (f : Cluster → Cluster) : (s.updCluster k f).rrOwner = s.rrOwner :=
    rfl
@[simp] theorem State.updCluster_rrQueue (s : State) (k : Nat) (f : Cluster → Cluster) : (s.updCluster k f).rrQueue = s.rrQueue :=
    rfl
@[simp] theorem State.updCluster_candidate (s : State) (k : Nat) (f : Cluster → Cluster) : (s.updCluster k f).candidate = s.candidate :=
    rfl
@[simp] theorem State.updCluster_passedBy (s : State) (k : Nat) (f : Cluster → Cluster) : (s.updCluster k f).passedBy = s.passedBy :=
    rfl
@[simp] theorem State.updCluster_drains (s : State) (k : Nat) (f : Cluster → Cluster) : (s.updCluster k f).drains = s.drains :=
    rfl
@[simp] theorem State.updCluster_nextTid (s : State) (k : Nat) (f : Cluster → Cluster) : (s.updCluster k f).nextTid = s.nextTid :=
    rfl
@[simp] theorem State.updCluster_nextLid (s : State) (k : Nat) (f : Cluster → Cluster) : (s.updCluster k f).nextLid = s.nextLid :=
    rfl
@[simp] theorem State.updCluster_nextCid (s : State) (k : Nat) (f : Cluster → Cluster) : (s.updCluster k f).nextCid = s.nextCid :=
    rfl
@[simp] theorem State.updCluster_seq (s : State) (k : Nat) (f : Cluster → Cluster) : (s.updCluster k f).seq = s.seq :=
    rfl
@[simp] theorem State.updCluster_inputs (s : State) (k : Nat) (f : Cluster → Cluster) : (s.updCluster k f).inputs = s.inputs :=
    rfl
@[simp] theorem State.updCluster_cur (s : State) (k : Nat) (f : Cluster → Cluster) : (s.updCluster k f).cur = s.cur :=
    rfl
@[simp] theorem State.updCluster_ev (s : State) (k : Nat) (f : Cluster → Cluster) : (s.updCluster k f).ev = s.ev :=
    rfl
@[simp] theorem State.updCluster_sched (s : State) (k : Nat) (f : Cluster → Cluster) : (s.updCluster k f).sched = s.sched :=
    rfl
@[simp] theorem State.updCluster_tick (s : State) (k : Nat) (f : Cluster → Cluster) : (s.updCluster k f).tick = s.tick :=
    rfl

@[simp] theorem State.updDie_clock (s : State) (k : Nat) (f : Die → Die) : (s.updDie k f).clock = s.clock := rfl
@[simp] theorem State.updDie_deviceId (s : State) (k : Nat) (f : Die → Die) : (s.updDie k f).deviceId = s.deviceId :=
    rfl
@[simp] theorem State.updDie_deviceIdValid (s : State) (k : Nat) (f : Die → Die) : (s.updDie k f).deviceIdValid = s.deviceIdValid :=
    rfl
@[simp] theorem State.updDie_drainDl (s : State) (k : Nat) (f : Die → Die) : (s.updDie k f).drainDl = s.drainDl := rfl
@[simp] theorem State.updDie_fabTmo (s : State) (k : Nat) (f : Die → Die) : (s.updDie k f).fabTmo = s.fabTmo := rfl
@[simp] theorem State.updDie_hdm (s : State) (k : Nat) (f : Die → Die) : (s.updDie k f).hdm = s.hdm := rfl
@[simp] theorem State.updDie_biasBase (s : State) (k : Nat) (f : Die → Die) : (s.updDie k f).biasBase = s.biasBase :=
    rfl
@[simp] theorem State.updDie_hk (s : State) (k : Nat) (f : Die → Die) : (s.updDie k f).hk = s.hk := rfl
@[simp] theorem State.updDie_pwrLim (s : State) (k : Nat) (f : Die → Die) : (s.updDie k f).pwrLim = s.pwrLim := rfl
@[simp] theorem State.updDie_eccUncorr (s : State) (k : Nat) (f : Die → Die) : (s.updDie k f).eccUncorr = s.eccUncorr :=
    rfl
@[simp] theorem State.updDie_eccCorr (s : State) (k : Nat) (f : Die → Die) : (s.updDie k f).eccCorr = s.eccCorr := rfl
@[simp] theorem State.updDie_power (s : State) (k : Nat) (f : Die → Die) : (s.updDie k f).power = s.power := rfl
@[simp] theorem State.updDie_rails (s : State) (k : Nat) (f : Die → Die) : (s.updDie k f).rails = s.rails := rfl
@[simp] theorem State.updDie_temps (s : State) (k : Nat) (f : Die → Die) : (s.updDie k f).temps = s.temps := rfl
@[simp] theorem State.updDie_withheld (s : State) (k : Nat) (f : Die → Die) : (s.updDie k f).withheld = s.withheld :=
    rfl
@[simp] theorem State.updDie_withheldSpans (s : State) (k : Nat) (f : Die → Die) : (s.updDie k f).withheldSpans = s.withheldSpans :=
    rfl
@[simp] theorem State.updDie_mr (s : State) (k : Nat) (f : Die → Die) : (s.updDie k f).mr = s.mr := rfl
@[simp] theorem State.updDie_fwRunning (s : State) (k : Nat) (f : Die → Die) : (s.updDie k f).fwRunning = s.fwRunning :=
    rfl
@[simp] theorem State.updDie_fwStaged (s : State) (k : Nat) (f : Die → Die) : (s.updDie k f).fwStaged = s.fwStaged :=
    rfl
@[simp] theorem State.updDie_reports (s : State) (k : Nat) (f : Die → Die) : (s.updDie k f).reports = s.reports := rfl
@[simp] theorem State.updDie_msix (s : State) (k : Nat) (f : Die → Die) : (s.updDie k f).msix = s.msix := rfl
@[simp] theorem State.updDie_keyVer (s : State) (k : Nat) (f : Die → Die) : (s.updDie k f).keyVer = s.keyVer := rfl
@[simp] theorem State.updDie_keySeq (s : State) (k : Nat) (f : Die → Die) : (s.updDie k f).keySeq = s.keySeq := rfl
@[simp] theorem State.updDie_mem (s : State) (k : Nat) (f : Die → Die) : (s.updDie k f).mem = s.mem := rfl
@[simp] theorem State.updDie_memKey (s : State) (k : Nat) (f : Die → Die) : (s.updDie k f).memKey = s.memKey := rfl
@[simp] theorem State.updDie_host (s : State) (k : Nat) (f : Die → Die) : (s.updDie k f).host = s.host := rfl
@[simp] theorem State.updDie_peer (s : State) (k : Nat) (f : Die → Die) : (s.updDie k f).peer = s.peer := rfl
@[simp] theorem State.updDie_peerKey (s : State) (k : Nat) (f : Die → Die) : (s.updDie k f).peerKey = s.peerKey := rfl
@[simp] theorem State.updDie_l2 (s : State) (k : Nat) (f : Die → Die) : (s.updDie k f).l2 = s.l2 := rfl
@[simp] theorem State.updDie_homeDir (s : State) (k : Nat) (f : Die → Die) : (s.updDie k f).homeDir = s.homeDir := rfl
@[simp] theorem State.updDie_pend (s : State) (k : Nat) (f : Die → Die) : (s.updDie k f).pend = s.pend := rfl
@[simp] theorem State.updDie_crossings (s : State) (k : Nat) (f : Die → Die) : (s.updDie k f).crossings = s.crossings :=
    rfl
@[simp] theorem State.updDie_accessCnt (s : State) (k : Nat) (f : Die → Die) : (s.updDie k f).accessCnt = s.accessCnt :=
    rfl
@[simp] theorem State.updDie_queuedPages (s : State) (k : Nat) (f : Die → Die) : (s.updDie k f).queuedPages = s.queuedPages :=
    rfl
@[simp] theorem State.updDie_hostLines (s : State) (k : Nat) (f : Die → Die) : (s.updDie k f).hostLines = s.hostLines :=
    rfl
@[simp] theorem State.updDie_hostAnswer (s : State) (k : Nat) (f : Die → Die) : (s.updDie k f).hostAnswer = s.hostAnswer :=
    rfl
@[simp] theorem State.updDie_agentLines (s : State) (k : Nat) (f : Die → Die) : (s.updDie k f).agentLines = s.agentLines :=
    rfl
@[simp] theorem State.updDie_leasesGranted (s : State) (k : Nat) (f : Die → Die) : (s.updDie k f).leasesGranted = s.leasesGranted :=
    rfl
@[simp] theorem State.updDie_leaseBlocked (s : State) (k : Nat) (f : Die → Die) : (s.updDie k f).leaseBlocked = s.leaseBlocked :=
    rfl
@[simp] theorem State.updDie_recallPending (s : State) (k : Nat) (f : Die → Die) : (s.updDie k f).recallPending = s.recallPending :=
    rfl
@[simp] theorem State.updDie_links (s : State) (k : Nat) (f : Die → Die) : (s.updDie k f).links = s.links := rfl
@[simp] theorem State.updDie_fabWindow (s : State) (k : Nat) (f : Die → Die) : (s.updDie k f).fabWindow = s.fabWindow :=
    rfl
@[simp] theorem State.updDie_fabOut (s : State) (k : Nat) (f : Die → Die) : (s.updDie k f).fabOut = s.fabOut := rfl
@[simp] theorem State.updDie_fabSeq (s : State) (k : Nat) (f : Die → Die) : (s.updDie k f).fabSeq = s.fabSeq := rfl
@[simp] theorem State.updDie_fabHeard (s : State) (k : Nat) (f : Die → Die) : (s.updDie k f).fabHeard = s.fabHeard :=
    rfl
@[simp] theorem State.updDie_bufKeys (s : State) (k : Nat) (f : Die → Die) : (s.updDie k f).bufKeys = s.bufKeys := rfl
@[simp] theorem State.updDie_keyWants (s : State) (k : Nat) (f : Die → Die) : (s.updDie k f).keyWants = s.keyWants :=
    rfl
@[simp] theorem State.updDie_wants (s : State) (k : Nat) (f : Die → Die) : (s.updDie k f).wants = s.wants := rfl
@[simp] theorem State.updDie_met (s : State) (k : Nat) (f : Die → Die) : (s.updDie k f).met = s.met := rfl
@[simp] theorem State.updDie_owners (s : State) (k : Nat) (f : Die → Die) : (s.updDie k f).owners = s.owners := rfl
@[simp] theorem State.updDie_launches (s : State) (k : Nat) (f : Die → Die) : (s.updDie k f).launches = s.launches :=
    rfl
@[simp] theorem State.updDie_teams (s : State) (k : Nat) (f : Die → Die) : (s.updDie k f).teams = s.teams := rfl
@[simp] theorem State.updDie_waves (s : State) (k : Nat) (f : Die → Die) : (s.updDie k f).waves = s.waves := rfl
@[simp] theorem State.updDie_cmds (s : State) (k : Nat) (f : Die → Die) : (s.updDie k f).cmds = s.cmds := rfl
@[simp] theorem State.updDie_saved (s : State) (k : Nat) (f : Die → Die) : (s.updDie k f).saved = s.saved := rfl
@[simp] theorem State.updDie_cores (s : State) (k : Nat) (f : Die → Die) : (s.updDie k f).cores = s.cores := rfl
@[simp] theorem State.updDie_icache (s : State) (k : Nat) (f : Die → Die) : (s.updDie k f).icache = s.icache := rfl
@[simp] theorem State.updDie_clusters (s : State) (k : Nat) (f : Die → Die) : (s.updDie k f).clusters = s.clusters :=
    rfl
@[simp] theorem State.updDie_imgCache (s : State) (k : Nat) (f : Die → Die) : (s.updDie k f).imgCache = s.imgCache :=
    rfl
@[simp] theorem State.updDie_rrOwner (s : State) (k : Nat) (f : Die → Die) : (s.updDie k f).rrOwner = s.rrOwner := rfl
@[simp] theorem State.updDie_rrQueue (s : State) (k : Nat) (f : Die → Die) : (s.updDie k f).rrQueue = s.rrQueue := rfl
@[simp] theorem State.updDie_candidate (s : State) (k : Nat) (f : Die → Die) : (s.updDie k f).candidate = s.candidate :=
    rfl
@[simp] theorem State.updDie_passedBy (s : State) (k : Nat) (f : Die → Die) : (s.updDie k f).passedBy = s.passedBy :=
    rfl
@[simp] theorem State.updDie_drains (s : State) (k : Nat) (f : Die → Die) : (s.updDie k f).drains = s.drains := rfl
@[simp] theorem State.updDie_nextTid (s : State) (k : Nat) (f : Die → Die) : (s.updDie k f).nextTid = s.nextTid := rfl
@[simp] theorem State.updDie_nextLid (s : State) (k : Nat) (f : Die → Die) : (s.updDie k f).nextLid = s.nextLid := rfl
@[simp] theorem State.updDie_nextCid (s : State) (k : Nat) (f : Die → Die) : (s.updDie k f).nextCid = s.nextCid := rfl
@[simp] theorem State.updDie_seq (s : State) (k : Nat) (f : Die → Die) : (s.updDie k f).seq = s.seq := rfl
@[simp] theorem State.updDie_inputs (s : State) (k : Nat) (f : Die → Die) : (s.updDie k f).inputs = s.inputs := rfl
@[simp] theorem State.updDie_cur (s : State) (k : Nat) (f : Die → Die) : (s.updDie k f).cur = s.cur := rfl
@[simp] theorem State.updDie_ev (s : State) (k : Nat) (f : Die → Die) : (s.updDie k f).ev = s.ev := rfl
@[simp] theorem State.updDie_sched (s : State) (k : Nat) (f : Die → Die) : (s.updDie k f).sched = s.sched := rfl
@[simp] theorem State.updDie_tick (s : State) (k : Nat) (f : Die → Die) : (s.updDie k f).tick = s.tick := rfl

@[simp] theorem State.drawn_clock (s : State) : (s.drawn).clock = s.clock := rfl
@[simp] theorem State.drawn_deviceId (s : State) : (s.drawn).deviceId = s.deviceId := rfl
@[simp] theorem State.drawn_deviceIdValid (s : State) : (s.drawn).deviceIdValid = s.deviceIdValid := rfl
@[simp] theorem State.drawn_drainDl (s : State) : (s.drawn).drainDl = s.drainDl := rfl
@[simp] theorem State.drawn_fabTmo (s : State) : (s.drawn).fabTmo = s.fabTmo := rfl
@[simp] theorem State.drawn_hdm (s : State) : (s.drawn).hdm = s.hdm := rfl
@[simp] theorem State.drawn_biasBase (s : State) : (s.drawn).biasBase = s.biasBase := rfl
@[simp] theorem State.drawn_hk (s : State) : (s.drawn).hk = s.hk := rfl
@[simp] theorem State.drawn_pwrLim (s : State) : (s.drawn).pwrLim = s.pwrLim := rfl
@[simp] theorem State.drawn_eccUncorr (s : State) : (s.drawn).eccUncorr = s.eccUncorr := rfl
@[simp] theorem State.drawn_eccCorr (s : State) : (s.drawn).eccCorr = s.eccCorr := rfl
@[simp] theorem State.drawn_power (s : State) : (s.drawn).power = s.power := rfl
@[simp] theorem State.drawn_rails (s : State) : (s.drawn).rails = s.rails := rfl
@[simp] theorem State.drawn_temps (s : State) : (s.drawn).temps = s.temps := rfl
@[simp] theorem State.drawn_withheld (s : State) : (s.drawn).withheld = s.withheld := rfl
@[simp] theorem State.drawn_withheldSpans (s : State) : (s.drawn).withheldSpans = s.withheldSpans := rfl
@[simp] theorem State.drawn_mr (s : State) : (s.drawn).mr = s.mr := rfl
@[simp] theorem State.drawn_fwRunning (s : State) : (s.drawn).fwRunning = s.fwRunning := rfl
@[simp] theorem State.drawn_fwStaged (s : State) : (s.drawn).fwStaged = s.fwStaged := rfl
@[simp] theorem State.drawn_reports (s : State) : (s.drawn).reports = s.reports := rfl
@[simp] theorem State.drawn_msix (s : State) : (s.drawn).msix = s.msix := rfl
@[simp] theorem State.drawn_keyVer (s : State) : (s.drawn).keyVer = s.keyVer := rfl
@[simp] theorem State.drawn_keySeq (s : State) : (s.drawn).keySeq = s.keySeq := rfl
@[simp] theorem State.drawn_mem (s : State) : (s.drawn).mem = s.mem := rfl
@[simp] theorem State.drawn_memKey (s : State) : (s.drawn).memKey = s.memKey := rfl
@[simp] theorem State.drawn_host (s : State) : (s.drawn).host = s.host := rfl
@[simp] theorem State.drawn_peer (s : State) : (s.drawn).peer = s.peer := rfl
@[simp] theorem State.drawn_peerKey (s : State) : (s.drawn).peerKey = s.peerKey := rfl
@[simp] theorem State.drawn_l2 (s : State) : (s.drawn).l2 = s.l2 := rfl
@[simp] theorem State.drawn_homeDir (s : State) : (s.drawn).homeDir = s.homeDir := rfl
@[simp] theorem State.drawn_pend (s : State) : (s.drawn).pend = s.pend := rfl
@[simp] theorem State.drawn_crossings (s : State) : (s.drawn).crossings = s.crossings := rfl
@[simp] theorem State.drawn_accessCnt (s : State) : (s.drawn).accessCnt = s.accessCnt := rfl
@[simp] theorem State.drawn_queuedPages (s : State) : (s.drawn).queuedPages = s.queuedPages := rfl
@[simp] theorem State.drawn_hostLines (s : State) : (s.drawn).hostLines = s.hostLines := rfl
@[simp] theorem State.drawn_hostAnswer (s : State) : (s.drawn).hostAnswer = s.hostAnswer := rfl
@[simp] theorem State.drawn_agentLines (s : State) : (s.drawn).agentLines = s.agentLines := rfl
@[simp] theorem State.drawn_leasesGranted (s : State) : (s.drawn).leasesGranted = s.leasesGranted := rfl
@[simp] theorem State.drawn_leaseBlocked (s : State) : (s.drawn).leaseBlocked = s.leaseBlocked := rfl
@[simp] theorem State.drawn_recallPending (s : State) : (s.drawn).recallPending = s.recallPending := rfl
@[simp] theorem State.drawn_links (s : State) : (s.drawn).links = s.links := rfl
@[simp] theorem State.drawn_fabWindow (s : State) : (s.drawn).fabWindow = s.fabWindow := rfl
@[simp] theorem State.drawn_fabOut (s : State) : (s.drawn).fabOut = s.fabOut := rfl
@[simp] theorem State.drawn_fabSeq (s : State) : (s.drawn).fabSeq = s.fabSeq := rfl
@[simp] theorem State.drawn_fabHeard (s : State) : (s.drawn).fabHeard = s.fabHeard := rfl
@[simp] theorem State.drawn_bufKeys (s : State) : (s.drawn).bufKeys = s.bufKeys := rfl
@[simp] theorem State.drawn_keyWants (s : State) : (s.drawn).keyWants = s.keyWants := rfl
@[simp] theorem State.drawn_wants (s : State) : (s.drawn).wants = s.wants := rfl
@[simp] theorem State.drawn_met (s : State) : (s.drawn).met = s.met := rfl
@[simp] theorem State.drawn_owners (s : State) : (s.drawn).owners = s.owners := rfl
@[simp] theorem State.drawn_launches (s : State) : (s.drawn).launches = s.launches := rfl
@[simp] theorem State.drawn_teams (s : State) : (s.drawn).teams = s.teams := rfl
@[simp] theorem State.drawn_waves (s : State) : (s.drawn).waves = s.waves := rfl
@[simp] theorem State.drawn_cmds (s : State) : (s.drawn).cmds = s.cmds := rfl
@[simp] theorem State.drawn_saved (s : State) : (s.drawn).saved = s.saved := rfl
@[simp] theorem State.drawn_cores (s : State) : (s.drawn).cores = s.cores := rfl
@[simp] theorem State.drawn_icache (s : State) : (s.drawn).icache = s.icache := rfl
@[simp] theorem State.drawn_clusters (s : State) : (s.drawn).clusters = s.clusters := rfl
@[simp] theorem State.drawn_dies (s : State) : (s.drawn).dies = s.dies := rfl
@[simp] theorem State.drawn_imgCache (s : State) : (s.drawn).imgCache = s.imgCache := rfl
@[simp] theorem State.drawn_rrOwner (s : State) : (s.drawn).rrOwner = s.rrOwner := rfl
@[simp] theorem State.drawn_rrQueue (s : State) : (s.drawn).rrQueue = s.rrQueue := rfl
@[simp] theorem State.drawn_candidate (s : State) : (s.drawn).candidate = s.candidate := rfl
@[simp] theorem State.drawn_passedBy (s : State) : (s.drawn).passedBy = s.passedBy := rfl
@[simp] theorem State.drawn_drains (s : State) : (s.drawn).drains = s.drains := rfl
@[simp] theorem State.drawn_nextTid (s : State) : (s.drawn).nextTid = s.nextTid := rfl
@[simp] theorem State.drawn_nextLid (s : State) : (s.drawn).nextLid = s.nextLid := rfl
@[simp] theorem State.drawn_nextCid (s : State) : (s.drawn).nextCid = s.nextCid := rfl
@[simp] theorem State.drawn_seq (s : State) : (s.drawn).seq = s.seq := rfl
@[simp] theorem State.drawn_inputs (s : State) : (s.drawn).inputs = s.inputs := rfl
@[simp] theorem State.drawn_cur (s : State) : (s.drawn).cur = s.cur := rfl
@[simp] theorem State.drawn_ev (s : State) : (s.drawn).ev = s.ev := rfl
@[simp] theorem State.drawn_sched (s : State) : (s.drawn).sched = s.sched := rfl

end Sys2Proof.Machine
end

