-- ==== Sys2Proof/Laws/Table.lean ====
section
/-! SUPPORT. What reading, writing and deleting do to a table, and that writes keep its canonical form. -/

namespace Sys2Proof.Tbl

variable {α : Type}

@[simp] theorem get?_nil (n : Nat) : get? ([] : Tbl α) n = none := rfl

@[simp] theorem get?_put_self (t : Tbl α) (n : Nat) (x : α) : (t.put n x).get? n = some x := by
  induction t with
  | nil => simp [put, get?]
  | cons e t ih =>
    obtain ⟨k, v⟩ := e
    simp only [put]
    split
    · simp [get?]
    · split
      · simp [get?]
      · simp only [get?]
        rw [if_neg (by omega)]
        exact ih

theorem get?_eq_none (t : Tbl α) {n : Nat} (h : ∀ e ∈ t, e.1 ≠ n) : t.get? n = none := by
  induction t with
  | nil => rfl
  | cons e t ih =>
    obtain ⟨k, x⟩ := e
    have hk : k ≠ n := h _ (List.mem_cons_self ..)
    simpa [get?, hk] using ih fun e he => h e (List.mem_cons_of_mem _ he)

theorem get?_put_ne (t : Tbl α) {n m : Nat} (h : m ≠ n) (x : α) : (t.put n x).get? m = t.get? m := by
  induction t with
  | nil => simp [put, get?, Ne.symm h]
  | cons e t ih =>
    obtain ⟨k, v⟩ := e
    simp only [put]
    split
    · simp [get?, Ne.symm h]
    · split
      · next hk => subst hk; simp [get?, Ne.symm h]
      · simp only [get?, ih]

@[simp] theorem get?_del_self (t : Tbl α) (n : Nat) : (t.del n).get? n = none := by
  induction t with
  | nil => rfl
  | cons e t ih =>
    obtain ⟨k, v⟩ := e
    simp only [del]
    split
    · exact ih
    · next hk => simp [get?, hk, ih]

theorem get?_del_ne (t : Tbl α) {n m : Nat} (h : m ≠ n) : (t.del n).get? m = t.get? m := by
  induction t with
  | nil => rfl
  | cons e t ih =>
    obtain ⟨k, v⟩ := e
    simp only [del]
    split
    · next hk => subst hk; simp [get?, Ne.symm h, ih]
    · simp only [get?, ih]

@[simp] theorem get_set_self [DecidableEq α] (d : α) (t : Tbl α) (n : Nat) (x : α) : (t.set d n x).get d n = x := by
  unfold set get
  split
  · next h => simp [h]
  · simp

theorem get_set_ne [DecidableEq α] (d : α) (t : Tbl α) {n m : Nat} (h : m ≠ n) (x : α) :
    (t.set d n x).get d m = t.get d m := by
  unfold set get
  split
  · rw [get?_del_ne t h]
  · rw [get?_put_ne t h]

theorem get_set [DecidableEq α] (d : α) (t : Tbl α) (n m : Nat) (x : α) :
    (t.set d n x).get d m = if m = n then x else t.get d m := by
  split
  · next h => subst h; simp
  · next h => exact get_set_ne d t h x

theorem get?_upd_self (t : Tbl α) (n : Nat) (f : α → α) : (t.upd n f).get? n = (t.get? n).map f := by
  unfold upd
  cases h : t.get? n with
  | none => simp [h]
  | some v => simp

theorem get?_upd_ne (t : Tbl α) {n m : Nat} (h : m ≠ n) (f : α → α) : (t.upd n f).get? m = t.get? m := by
  unfold upd
  cases t.get? n with
  | none => rfl
  | some v => exact get?_put_ne t h (f v)

theorem ascending_mono {lo lo' : Nat} (h : lo' ≤ lo) {t : Tbl α} (ht : ascending lo t = true) : ascending lo' t = true := by
  cases t with
  | nil => rfl
  | cons e t =>
    obtain ⟨k, v⟩ := e
    simp only [ascending, Bool.and_eq_true, decide_eq_true_eq] at ht ⊢
    exact ⟨by omega, ht.2⟩

theorem ascending_put {lo : Nat} (t : Tbl α) {n : Nat} (x : α) (h : ascending lo t = true) (hn : lo ≤ n) :
    ascending lo (t.put n x) = true := by
  induction t generalizing lo with
  | nil => simp [put, ascending, hn]
  | cons e t ih =>
    obtain ⟨k, v⟩ := e
    simp only [ascending, Bool.and_eq_true, decide_eq_true_eq] at h
    simp only [put]
    split
    · next hk =>
      simp only [ascending, Bool.and_eq_true, decide_eq_true_eq]
      exact ⟨hn, by omega, h.2⟩
    · split
      · next hk => subst hk; simp [ascending, hn, h.2]
      · simp only [ascending, Bool.and_eq_true, decide_eq_true_eq]
        exact ⟨h.1, ih h.2 (by omega)⟩

theorem ascending_del {lo : Nat} (t : Tbl α) (n : Nat) (h : ascending lo t = true) : ascending lo (t.del n) = true := by
  induction t generalizing lo with
  | nil => rfl
  | cons e t ih =>
    obtain ⟨k, v⟩ := e
    simp only [ascending, Bool.and_eq_true, decide_eq_true_eq] at h
    simp only [del]
    split
    · exact ascending_mono (by omega) (ih h.2)
    · simp only [ascending, Bool.and_eq_true, decide_eq_true_eq]
      exact ⟨h.1, ih h.2⟩

theorem ascending_filter {lo : Nat} (t : Tbl α) (p : Nat × α → Bool) (h : ascending lo t = true) :
    ascending lo (t.filter p) = true := by
  induction t generalizing lo with
  | nil => rfl
  | cons e t ih =>
    obtain ⟨k, v⟩ := e
    simp only [ascending, Bool.and_eq_true, decide_eq_true_eq] at h
    rw [List.filter_cons]
    split
    · simp only [ascending, Bool.and_eq_true, decide_eq_true_eq]
      exact ⟨h.1, ih h.2⟩
    · exact ascending_mono (by omega) (ih h.2)

theorem mem_put (t : Tbl α) (n : Nat) (x : α) {e : Nat × α} (h : e ∈ t.put n x) : e = (n, x) ∨ e ∈ t := by
  induction t with
  | nil => simpa [put] using h
  | cons y t ih =>
    obtain ⟨k, v⟩ := y
    simp only [put] at h
    split at h
    · simpa using h
    · split at h
      · rcases List.mem_cons.1 h with h | h
        · exact .inl h
        · exact .inr (List.mem_cons_of_mem _ h)
      · rcases List.mem_cons.1 h with h | h
        · exact .inr (by simp [h])
        · exact (ih h).imp id (List.mem_cons_of_mem _)

theorem mem_del (t : Tbl α) (n : Nat) {e : Nat × α} (h : e ∈ t.del n) : e ∈ t := by
  induction t with
  | nil => exact h
  | cons y t ih =>
    obtain ⟨k, v⟩ := y
    simp only [del] at h
    split at h
    · exact List.mem_cons_of_mem _ (ih h)
    · rcases List.mem_cons.1 h with h | h
      · simp [h]
      · exact List.mem_cons_of_mem _ (ih h)

theorem wf_set [DecidableEq α] (d : α) (t : Tbl α) (n : Nat) (x : α) (h : t.wf d = true) : (t.set d n x).wf d = true := by
  simp only [wf, Bool.and_eq_true, List.all_eq_true, decide_eq_true_eq] at h ⊢
  unfold set
  split
  · exact ⟨ascending_del t n h.1, fun e he => h.2 e (mem_del t n he)⟩
  · next hx =>
    refine ⟨ascending_put t x h.1 (by omega), fun e he => ?_⟩
    rcases mem_put t n x he with he | he
    · simpa [he] using hx
    · exact h.2 e he

theorem wf_filter [DecidableEq α] (d : α) (t : Tbl α) (p : Nat × α → Bool) (h : t.wf d = true) :
    Tbl.wf d (t.filter p) = true := by
  simp only [wf, Bool.and_eq_true, List.all_eq_true, decide_eq_true_eq] at h ⊢
  exact ⟨ascending_filter t p h.1, fun e he => h.2 e (List.mem_of_mem_filter he)⟩

/-- Tables with rising keys that answer alike are equal. -/
theorem ext_of_ascending {lo : Nat} {t u : Tbl α} (ht : ascending lo t = true) (hu : ascending lo u = true)
    (h : ∀ n, t.get? n = u.get? n) : t = u := by
  have none_below : ∀ {lo : Nat} {t : Tbl α} {n : Nat}, ascending lo t = true → n < lo → t.get? n = none := by
    intro lo t
    induction t generalizing lo with
    | nil => intros; rfl
    | cons e t ih =>
      intro n h hn
      obtain ⟨k, v⟩ := e
      simp only [ascending, Bool.and_eq_true, decide_eq_true_eq] at h
      simp only [get?]
      rw [if_neg (by omega)]
      exact ih h.2 (by omega)
  induction t generalizing lo u with
  | nil =>
    cases u with
    | nil => rfl
    | cons e u => obtain ⟨k, v⟩ := e; have := h k; simp [get?] at this
  | cons e t ih =>
    obtain ⟨k, v⟩ := e
    simp only [ascending, Bool.and_eq_true, decide_eq_true_eq] at ht
    cases u with
    | nil => have := h k; simp [get?] at this
    | cons e' u =>
      obtain ⟨k', v'⟩ := e'
      simp only [ascending, Bool.and_eq_true, decide_eq_true_eq] at hu
      have hk : k = k' := by
        rcases Nat.lt_trichotomy k k' with hlt | heq | hgt
        · have := h k
          simp only [get?, if_true] at this
          rw [if_neg (by omega), none_below hu.2 (by omega)] at this
          cases this
        · exact heq
        · have := h k'
          simp only [get?, if_true] at this
          rw [if_neg (by omega), none_below ht.2 (by omega)] at this
          cases this
      subst hk
      have hv := h k
      simp only [get?, if_true, Option.some.injEq] at hv
      subst hv
      congr 1
      refine ih ht.2 hu.2 fun n => ?_
      have hn := h n
      simp only [get?] at hn
      by_cases e : k = n
      · subst e
        rw [none_below ht.2 (by omega), none_below hu.2 (by omega)]
      · simpa [e] using hn

end Sys2Proof.Tbl
end

