-- ==== Sys2Proof/Laws/Memory.lean ====
section
/-! SUPPORT. Memory: a byte read after a write, and every memory operation keeps the canonical form. -/

namespace Sys2Proof.Machine

theorem rawByte_putByte (s : State) (sp sp' : Space) (a a' : Nat) (b : Byte) :
    (s.putByte sp a b).rawByte sp' a' = if sp' = sp ∧ a' = a then b else s.rawByte sp' a' := by
  cases sp <;> cases sp' <;> simp [State.putByte, State.rawByte, Tbl.get_set]

theorem putByte_memOk {s : State} (sp : Space) (a : Nat) (b : Byte) (h : s.MemOk) : (s.putByte sp a b).MemOk := by
  obtain ⟨h1, h2, h3⟩ := h
  cases sp
  · exact ⟨Tbl.wf_set 0#8 _ _ _ h1, h2, h3⟩
  · exact ⟨h1, h2, Tbl.wf_set 0#8 _ _ _ h3⟩
  · exact ⟨h1, Tbl.wf_set 0#8 _ _ _ h2, h3⟩

theorem foldl_keeps {α β : Type} {P : β → Prop} (f : β → α → β) (hf : ∀ b a, P b → P (f b a)) (l : List α) (b : β)
    (h : P b) : P (l.foldl f b) := by
  induction l generalizing b with
  | nil => exact h
  | cons a l ih => exact ih _ (hf _ _ h)

theorem retag_wf (new sec : Nat) (m : Tbl Byte) (tags : Tbl Nat) (h : Memory.wf m = true) :
    Memory.wf (retag new sec m tags).1 = true := by
  unfold retag
  dsimp only
  split
  · exact h
  · split
    · exact h
    · exact foldl_keeps (P := fun m => Memory.wf m = true) _ (fun m i hm => Tbl.wf_set 0#8 m _ _ hm) _ _ h

theorem rekey_memOk {s : State} (sp : Space) (sec key : Nat) (h : s.MemOk) : (s.rekey sp sec key).MemOk := by
  obtain ⟨h1, h2, h3⟩ := h
  cases sp
  · exact ⟨retag_wf _ _ _ _ h1, h2, h3⟩
  · exact ⟨h1, h2, retag_wf _ _ _ _ h3⟩
  · exact ⟨h1, h2, h3⟩

theorem writeByte_memOk {s : State} (sp : Space) (key a : Nat) (b : Byte) (h : s.MemOk) :
    (s.writeByte sp key a b).MemOk := putByte_memOk _ _ _ (rekey_memOk _ _ _ h)

theorem writeBytes_memOk {s : State} (sp : Space) (key : Nat) (bs : List (Nat × Byte)) (h : s.MemOk) :
    (s.writeBytes sp key bs).MemOk :=
  foldl_keeps (P := State.MemOk) _ (fun _ _ h => writeByte_memOk _ _ _ _ h) bs s h

theorem setBias_memOk {s : State} (a : Nat) (dev : Bool) (h : s.MemOk) : (s.setBias a dev).MemOk :=
  ⟨Tbl.wf_set 0#8 _ _ _ h.1, h.2⟩

theorem keepStatus_memOk {s : State} (old : State) (ls : List Loc) (h : s.MemOk) : (s.keepStatus old ls).MemOk := by
  refine foldl_keeps (P := State.MemOk) _ (fun t p ht => ?_) _ _ h
  split
  · exact writeBytes_memOk _ _ _ ht
  · exact ht

theorem backInvalidate_memOk {s : State} (line : Nat) (h : s.MemOk) : (s.backInvalidate line).MemOk := by
  unfold State.backInvalidate
  split
  · exact h
  · dsimp only
    split
    · exact h
    · exact keepStatus_memOk _ _ (writeBytes_memOk (s := { s with hostLines := s.hostLines.del line }) _ _ _ h)

theorem hdmTouch_memOk {s : State} (write : Bool) (a : Nat) (h : s.MemOk) : (s.hdmTouch write a).MemOk := by
  unfold State.hdmTouch
  split
  · split
    · split
      · exact backInvalidate_memOk _ h
      · exact h
    · exact h
  · exact h

theorem writeHdm_memOk {s : State} (hi : Bool) (v : Nat) (h : s.MemOk) : (s.writeHdm hi v).MemOk := by
  refine ⟨?_, h.2⟩
  show Memory.wf (if _ then _ else _) = true
  split
  · exact Tbl.wf_filter 0#8 _ _ h.1
  · exact h.1

theorem lsPut_wf (t : Team) (bs : List (Nat × Byte)) (h : Memory.wf t.ls = true) : Memory.wf (t.lsPut bs).ls = true :=
  foldl_keeps (P := fun m => Memory.wf m = true) _ (fun m _ hm => Tbl.wf_set 0#8 m _ _ hm) _ _ h

theorem lsPutWord_wf (t : Team) (a : Nat) (v : Word) (h : Memory.wf t.ls = true) : Memory.wf (t.lsPutWord a v).ls = true :=
  lsPut_wf t _ h

/-- A read of the local store after a write of one byte. -/
theorem lsByte_lsPut_one (t : Team) (a a' : Nat) (b : Byte) :
    (t.lsPut [(a, b)]).lsByte a' = if a' = a then b else t.lsByte a' := by
  simp [Team.lsPut, Team.lsByte, Tbl.get_set]

theorem reset_memOk : State.reset.MemOk := ⟨rfl, rfl, rfl⟩

/-- Two states hold the same bytes, keys, ranges, host lines and places of STATUS words: all that reading or writing a byte looks
at. -/
structure SameStore (s t : State) : Prop where
  mem : t.mem = s.mem
  memKey : t.memKey = s.memKey
  keyVer : t.keyVer = s.keyVer
  host : t.host = s.host
  peer : t.peer = s.peer
  peerKey : t.peerKey = s.peerKey
  deviceId : t.deviceId = s.deviceId
  hdm : t.hdm = s.hdm
  biasBase : t.biasBase = s.biasBase
  hostLines : t.hostLines = s.hostLines
  places : t.statusPlaces = s.statusPlaces

theorem SameStore.keyTag {s t : State} (h : SameStore s t) (key : Nat) : t.keyTag key = s.keyTag key := by
  simp only [State.keyTag, State.keyName, h.keyVer, h.deviceId]

theorem SameStore.sectorUnder {s t : State} (h : SameStore s t) (sec key : Nat) : t.sectorUnder sec key = s.sectorUnder sec key := by
  simp only [State.sectorUnder, h.mem, h.memKey, h.keyTag]

theorem SameStore.peerSector {s t : State} (h : SameStore s t) (sec key : Nat) : t.peerSector sec key = s.peerSector sec key := by
  simp only [State.peerSector, h.peer, h.peerKey]

theorem SameStore.keyFits {s t : State} (h : SameStore s t) (sec key : Nat) : t.keyFits sec key = s.keyFits sec key := by
  simp only [State.keyFits, h.memKey, h.keyTag]

theorem SameStore.rekey {s t : State} (h : SameStore s t) (sp : Space) (sec key : Nat) :
    SameStore (s.rekey sp sec key) (t.rekey sp sec key) := by
  have e : retag (t.keyTag key) sec t.mem t.memKey = retag (s.keyTag key) sec s.mem s.memKey := by
    rw [h.keyTag, h.mem, h.memKey]
  have p : retag (key + 1) sec t.peer t.peerKey = retag (key + 1) sec s.peer s.peerKey := by rw [h.peer, h.peerKey]
  cases sp
  · exact { h with mem := congrArg Prod.fst e, memKey := congrArg Prod.snd e }
  · exact { h with peer := congrArg Prod.fst p, peerKey := congrArg Prod.snd p }
  · exact h

theorem SameStore.putByte {s t : State} (h : SameStore s t) (sp : Space) (a : Nat) (b : Byte) :
    SameStore (s.putByte sp a b) (t.putByte sp a b) := by
  cases sp
  · exact { h with mem := congrArg (fun m => Tbl.set 0 m a b) h.mem }
  · exact { h with peer := congrArg (fun m => Tbl.set 0 m a b) h.peer }
  · exact { h with host := congrArg (fun m => Tbl.set 0 m a b) h.host }

theorem SameStore.writeByte {s t : State} (h : SameStore s t) (sp : Space) (key a : Nat) (b : Byte) :
    SameStore (s.writeByte sp key a b) (t.writeByte sp key a b) := (h.rekey sp (a / 32) key).putByte sp a b

theorem SameStore.writeBytes {s t : State} (h : SameStore s t) (sp : Space) (key : Nat) (bs : List (Nat × Byte)) :
    SameStore (s.writeBytes sp key bs) (t.writeBytes sp key bs) := by
  induction bs generalizing s t with
  | nil => exact h
  | cons e bs ih => exact ih (h.writeByte sp key e.1 e.2)

/-- A byte at its home reads alike. -/
theorem SameStore.homeByte {s t : State} (h : SameStore s t) (sp : Space) (key a : Nat) : t.homeByte sp key a = s.homeByte sp key a := by
  cases sp
  · simp only [State.homeByte, h.keyFits, h.mem, h.sectorUnder]
  · simp only [State.homeByte, h.peerKey, h.peer, h.peerSector]
  · exact congrArg (fun m => Tbl.get 0 m a) h.host

theorem SameStore.homeWord64 {s t : State} (h : SameStore s t) (sp : Space) (key a : Nat) :
    t.homeWord64 sp key a = s.homeWord64 sp key a := by
  simp only [State.homeWord64, h.homeByte]

theorem SameStore.keepStatus {s t u v : State} (h : SameStore s t) (ho : SameStore u v) (ls : List Loc) :
    SameStore (s.keepStatus u ls) (t.keepStatus v ls) := by
  unfold State.keepStatus
  rw [h.places]
  generalize s.statusPlaces = ps
  induction ps generalizing s t with
  | nil => exact h
  | cons p ps ih =>
    simp only [List.foldl_cons]
    refine ih ?_
    rw [h.homeWord64, ho.homeWord64, h.homeByte]
    split
    · exact h.writeBytes _ _ _
    · exact h

theorem SameStore.backInvalidate {s t : State} (h : SameStore s t) (line : Nat) :
    SameStore (s.backInvalidate line) (t.backInvalidate line) := by
  unfold State.backInvalidate
  rw [h.hostLines]
  split
  · exact h
  · have h' : ∀ l, SameStore { s with hostLines := l } { t with hostLines := l } := fun l =>
      { h with hostLines := rfl }
    dsimp only
    split
    · exact h' _
    · have e : t.hdm.key = s.hdm.key := by rw [h.hdm]
      rw [e]
      exact ((h' _).writeBytes .dev s.hdm.key _).keepStatus (h' _) _

theorem SameStore.hdmTouch {s t : State} (h : SameStore s t) (write : Bool) (a : Nat) :
    SameStore (s.hdmTouch write a) (t.hdmTouch write a) := by
  unfold State.hdmTouch State.inHdm State.deviceBias
  rw [h.hdm, h.mem, h.biasBase, h.hostLines]
  split
  · split
    · split
      · exact h.backInvalidate _
      · exact h
    · exact h
  · exact h

/-- Bytes read alike where all that a read looks at is the same. -/
theorem SameStore.bytes {s t : State} (h : SameStore s t) : SameBytes s t := by
  intro sp key a
  cases sp
  · exact (h.hdmTouch false a).homeByte .dev key a
  · exact h.homeByte .peer key a
  · exact h.homeByte .host key a

theorem SameStore.refl (s : State) : SameStore s s := ⟨rfl, rfl, rfl, rfl, rfl, rfl, rfl, rfl, rfl, rfl, rfl⟩

theorem SameStore.trans {a b c : State} (h : SameStore a b) (k : SameStore b c) : SameStore a c :=
  ⟨k.mem.trans h.mem, k.memKey.trans h.memKey, k.keyVer.trans h.keyVer, k.host.trans h.host, k.peer.trans h.peer,
    k.peerKey.trans h.peerKey, k.deviceId.trans h.deviceId, k.hdm.trans h.hdm, k.biasBase.trans h.biasBase,
    k.hostLines.trans h.hostLines, k.places.trans h.places⟩

/-- Counting a line changes no byte. -/
theorem SameStore.countPage (s : State) (own key pa : Nat) : SameStore s (s.countPage own key pa) := by
  unfold State.countPage
  dsimp only
  split
  · exact ⟨rfl, rfl, rfl, rfl, rfl, rfl, rfl, rfl, rfl, rfl, rfl⟩
  · split <;> exact ⟨rfl, rfl, rfl, rfl, rfl, rfl, rfl, rfl, rfl, rfl, rfl⟩

theorem SameStore.countLine (s : State) (own key line : Nat) (ace : Bool) : SameStore s (s.countLine own key line ace) := by
  have h : ∀ u k, SameStore s (s.underKey u k) := fun u k => by
    unfold State.underKey State.need State.useKey
    split
    · exact ⟨rfl, rfl, rfl, rfl, rfl, rfl, rfl, rfl, rfl, rfl, rfl⟩
    · split <;> exact ⟨rfl, rfl, rfl, rfl, rfl, rfl, rfl, rfl, rfl, rfl, rfl⟩
  unfold State.countLine
  dsimp only
  split <;> split
  · exact (h _ _).trans (SameStore.countPage _ _ _ _)
  · exact SameStore.countPage _ _ _ _
  · exact h _ _
  · exact SameStore.refl s

theorem SameStore.writeBack (s : State) (x : L2Line) : SameStore s (s.writeBack x) := by
  unfold State.writeBack
  split
  · exact SameStore.countLine _ _ _ _ _
  · exact SameStore.refl s

/-- What a home slice does for a request changes no byte (R329). -/
theorem SameStore.l2Touch (s : State) (own : Nat) (p : Phys) (write : Bool) : SameStore s (s.l2Touch own p write) := by
  have room : ∀ sl, SameStore s (s.l2Room sl) := by
    intro sl
    unfold State.l2Room
    dsimp only
    split
    · exact SameStore.refl s
    · split
      · rename_i x _
        obtain ⟨h1, h2, h3, h4, h5, h6, h7, h8, h9, h10, h11⟩ := SameStore.writeBack s x
        exact ⟨h1, h2, h3, h4, h5, h6, h7, h8, h9, h10, h11⟩
      · exact SameStore.refl s
  have put : ∀ (t : State) (l : Tbl (List L2Line)), SameStore s t → SameStore s { t with l2 := l } := fun t l h =>
    ⟨h.mem, h.memKey, h.keyVer, h.host, h.peer, h.peerKey, h.deviceId, h.hdm, h.biasBase, h.hostLines, h.places⟩
  unfold State.l2Touch
  dsimp only
  split
  · split
    · exact put _ _ ((SameStore.writeBack _ _).trans (SameStore.countLine _ _ _ _ _))
    · split
      · exact put _ _ (SameStore.refl s)
      · exact SameStore.refl s
  · exact put _ _ ((room _).trans (SameStore.countLine _ _ _ _ _))

/-- Without an exposed range an access of a line at its home changes no byte (R240, R246, R329). -/
theorem SameStore.homeTouch (s : State) (own : Nat) (p : Phys) (write : Bool) (h : s.hdm.en = false) :
    SameStore s (s.homeTouch own p write) := by
  have hd : ∀ a, s.hdmTouch write a = s := fun a => by simp [State.hdmTouch, State.inHdm, h]
  unfold State.homeTouch
  split
  · rw [hd]
    exact SameStore.l2Touch _ _ _ _
  · unfold State.agentHold
    split
    · dsimp only
      split
      · exact ⟨rfl, rfl, rfl, rfl, rfl, rfl, rfl, rfl, rfl, rfl, rfl⟩
      · unfold State.agentRoom
        split
        · exact ⟨rfl, rfl, rfl, rfl, rfl, rfl, rfl, rfl, rfl, rfl, rfl⟩
        · dsimp only
          split <;> exact ⟨rfl, rfl, rfl, rfl, rfl, rfl, rfl, rfl, rfl, rfl, rfl⟩
    · exact SameStore.refl s
  · exact SameStore.refl s

/-- The same of all the lines of an access. -/
theorem SameStore.homeTouches (s : State) (own : Nat) (p : Phys) (n : Nat) (write : Bool) (h : s.hdm.en = false) :
    SameStore s (s.homeTouches own p n write) :=
  foldl_keeps (P := fun t => SameStore s t) _ (fun _ _ ht => ht.trans (SameStore.homeTouch _ _ _ _ (by rw [ht.hdm, h]))) _ _
    (SameStore.refl s)

/-- The same of the reads of the walks for a range (R210). -/
theorem SameStore.walksTouch (s : State) (own va n : Nat) (h : s.hdm.en = false) : SameStore s (s.walksTouch own va n) := by
  refine foldl_keeps (P := fun t => SameStore s t) _ (fun t p ht => ?_) _ _ (SameStore.refl s)
  unfold State.walkTouch
  split
  · exact ht
  · exact foldl_keeps (P := fun t => SameStore s t) _
      (fun _ _ hu => hu.trans (SameStore.homeTouch _ _ _ _ (by rw [hu.hdm, h]))) _ _ ht

end Sys2Proof.Machine
end

