-- ==== Sys2Proof/Laws/Issue.lean ====
section
/-! SUPPORT. What the shared operations of an issue do: writing registers, moving lanes, passing the decode checks. -/

namespace Sys2Proof.Machine

/-- Two register cells are the same storage. -/
theorem cell_inj {n m l k : Nat} (hl : l < 64) (hk : k < 64) : 64 * n + l = 64 * m + k ↔ n = m ∧ l = k := by omega

theorem read_write (w : Wave) (p q : PReg) (l k : Nat) (v : Word) (hl : l < 64) (hk : k < 64) :
    (w.write p l v).read q k = if q = p ∧ k = l then (if w.has p then v else 0) else w.read q k := by
  obtain ⟨ph, pn⟩ := p
  obtain ⟨qh, qn⟩ := q
  have key : 64 * qn + k = 64 * pn + l ↔ qn = pn ∧ k = l := cell_inj hk hl
  cases ph <;> cases qh
  · by_cases hp : pn < w.alloc
    · show (if qn < (Wave.write w ⟨false, pn⟩ l v).alloc then _ else _) = _
      rw [show Wave.write w ⟨false, pn⟩ l v = { w with regs := w.regs.set 0 (64 * pn + l) v } from if_pos hp]
      show (if qn < w.alloc then (w.regs.set 0 (64 * pn + l) v).get 0 (64 * qn + k) else 0) = _
      rw [Tbl.get_set]
      by_cases h : qn = pn ∧ k = l
      · rw [if_pos (key.2 h)]; simp [h, hp, Wave.has]
      · have : ¬ ((⟨false, qn⟩ : PReg) = ⟨false, pn⟩ ∧ k = l) := by simpa using h
        rw [if_neg this, if_neg (mt key.1 h)]; rfl
    · rw [show Wave.write w ⟨false, pn⟩ l v = w from if_neg hp]
      by_cases h : qn = pn
      · subst h; simp [Wave.read, Wave.has, hp]
      · simp [h]
  · have : ¬ ((⟨true, qn⟩ : PReg) = ⟨false, pn⟩ ∧ k = l) := by simp
    rw [if_neg this]
    unfold Wave.write
    by_cases hp : pn < w.alloc <;> simp [hp, Wave.read]
  · have : ¬ ((⟨false, qn⟩ : PReg) = ⟨true, pn⟩ ∧ k = l) := by simp
    rw [if_neg this]
    rfl
  · show (w.hidden.set 0 (64 * pn + l) v).get 0 (64 * qn + k) = _
    rw [Tbl.get_set]
    by_cases h : qn = pn ∧ k = l
    · rw [if_pos (key.2 h)]; simp [h, Wave.has]
    · have : ¬ ((⟨true, qn⟩ : PReg) = ⟨true, pn⟩ ∧ k = l) := by simpa using h
      rw [if_neg this, if_neg (mt key.1 h)]; rfl

@[simp] theorem read_supersede (w : Wave) (p q : PReg) (l k : Nat) : (w.supersede p l).read q k = w.read q k := rfl

@[simp] theorem has_supersede (w : Wave) (p q : PReg) (l : Nat) : (w.supersede p l).has q = w.has q := rfl

@[simp] theorem has_write (w : Wave) (p q : PReg) (l : Nat) (v : Word) : (w.write p l v).has q = w.has q := by
  unfold Wave.write
  split
  · rfl
  · split <;> rfl

/-- What a wave keeps when only register contents and results to come change. -/
def RegsOnly (w w' : Wave) : Prop := w' = { w with regs := w'.regs, hidden := w'.hidden, outst := w'.outst }

theorem RegsOnly.refl (w : Wave) : RegsOnly w w := rfl

theorem RegsOnly.trans {a b c : Wave} (h1 : RegsOnly a b) (h2 : RegsOnly b c) : RegsOnly a c := by
  unfold RegsOnly at *
  rw [h2, h1]

theorem regsOnly_write (w : Wave) (p : PReg) (l : Nat) (v : Word) : RegsOnly w (w.write p l v) := by
  unfold Wave.write
  split
  · rfl
  · split <;> rfl

theorem regsOnly_supersede (w : Wave) (p : PReg) (l : Nat) : RegsOnly w (w.supersede p l) := rfl

theorem RegsOnly.has {w w' : Wave} (h : RegsOnly w w') (p : PReg) : w'.has p = w.has p := by
  rw [show w' = _ from h]; rfl

theorem RegsOnly.phys {w w' : Wave} (h : RegsOnly w w') (n : Nat) : w'.phys n = w.phys n := by
  rw [show w' = _ from h]; rfl

theorem outst_write (w : Wave) (p : PReg) (l : Nat) (v : Word) : (w.write p l v).outst = w.outst := by
  unfold Wave.write
  split
  · rfl
  · split <;> rfl

/-- A result that a superseding write does not concern stays. -/
theorem mem_supersede (w : Wave) (p : PReg) (l : Nat) {o : Outst} (h : o ∈ w.outst) (hp : ¬ (o.dst = some p ∧ o.lane = l)) :
    o ∈ (w.supersede p l).outst := by
  simp only [Wave.supersede, List.mem_map]
  exact ⟨o, h, by simp [hp]⟩

theorem writeLanes_fold (p : PReg) (f : Nat → Word) (ls : List Nat) (w : Wave) (hls : ∀ l ∈ ls, l < 64) :
    let w' := ls.foldl (fun w l => (w.supersede p l).write p l (f l)) w
    RegsOnly w w' ∧
    (∀ q k, k < 64 → w'.read q k = if q = p ∧ k ∈ ls then (if w.has p then f k else 0) else w.read q k) ∧
    ∀ o ∈ w.outst, ¬ (o.dst = some p ∧ o.lane ∈ ls) → o ∈ w'.outst := by
  induction ls generalizing w with
  | nil =>
    refine ⟨RegsOnly.refl w, fun q k _ => by simp, fun o ho _ => ho⟩
  | cons l ls ih =>
    have hl := hls l List.mem_cons_self
    have hr : RegsOnly w ((w.supersede p l).write p l (f l)) :=
      (regsOnly_supersede w p l).trans (regsOnly_write _ p l (f l))
    obtain ⟨h1, h2, h3⟩ := ih ((w.supersede p l).write p l (f l)) fun k hk => hls k (List.mem_cons_of_mem _ hk)
    refine ⟨hr.trans h1, fun q k hk => ?_, fun o ho hn => ?_⟩
    · rw [List.foldl_cons, h2 q k hk, read_write _ _ _ _ _ _ hl hk]
      simp only [has_write, has_supersede, read_supersede, List.mem_cons]
      by_cases hq : q = p
      · subst hq
        by_cases hkl : k ∈ ls
        · simp [hkl]
        · by_cases hkk : k = l
          · subst hkk; simp only [hkl, and_false, if_false, and_self, true_or, if_true]; rfl
          · simp [hkl, hkk]
      · simp [hq]
    · rw [List.foldl_cons]
      refine h3 o ?_ fun h => hn ⟨h.1, List.mem_cons_of_mem _ h.2⟩
      rw [outst_write]
      exact mem_supersede w p l ho fun h => hn ⟨h.1, by rw [h.2]; exact List.mem_cons_self⟩

theorem writeLanes_spec (w : Wave) (p : PReg) (set : Mask) (f : Nat → Word) :
    RegsOnly w (w.writeLanes p set f) ∧
    (∀ q k, k < 64 → (w.writeLanes p set f).read q k =
      if q = p ∧ hasLane set k = true then (if w.has p then f k else 0) else w.read q k) ∧
    ∀ o ∈ w.outst, ¬ (o.dst = some p ∧ hasLane set o.lane = true) → o ∈ (w.writeLanes p set f).outst := by
  have h := writeLanes_fold p f (lanesOf set) w fun l hl => hasLane_lt ((mem_lanesOf set l).1 hl)
  unfold Wave.writeLanes
  simpa only [mem_lanesOf] using h

/-- Writing the words of a unit, its registers being different. -/
theorem writeUnit_fold (set : Mask) (v : Nat → Nat → Word) (es : List (Nat × PReg)) (w : Wave)
    (hd : (es.map (·.2)).Nodup) :
    let w' := es.foldl (fun w e => w.writeLanes e.2 set fun l => v l e.1) w
    RegsOnly w w' ∧
    (∀ e ∈ es, ∀ k, hasLane set k = true → w'.read e.2 k = if w.has e.2 then v k e.1 else 0) ∧
    (∀ q k, k < 64 → ¬ (q ∈ es.map (·.2) ∧ hasLane set k = true) → w'.read q k = w.read q k) ∧
    ∀ o ∈ w.outst, (∀ p, o.dst = some p → ¬ (p ∈ es.map (·.2) ∧ hasLane set o.lane = true)) → o ∈ w'.outst := by
  induction es generalizing w with
  | nil => exact ⟨RegsOnly.refl w, by simp, fun q k _ _ => rfl, fun o ho _ => ho⟩
  | cons e es ih =>
    simp only [List.map_cons, List.nodup_cons] at hd
    obtain ⟨g1, g2, g3⟩ := writeLanes_spec w e.2 set fun l => v l e.1
    obtain ⟨h1, h2, h3, h4⟩ := ih (w.writeLanes e.2 set fun l => v l e.1) hd.2
    refine ⟨g1.trans h1, fun x hx k hk => ?_, fun q k hk hq => ?_, fun o ho hn => ?_⟩
    · rw [List.foldl_cons]
      rcases List.mem_cons.1 hx with hx | hx
      · subst hx
        rw [h3 _ k (hasLane_lt hk) fun h => hd.1 h.1, g2 _ k (hasLane_lt hk)]
        simp [hk]
      · rw [h2 x hx k hk, g1.has]
    · rw [List.foldl_cons, h3 q k hk fun h => hq ⟨List.mem_cons_of_mem _ h.1, h.2⟩, g2 q k hk]
      rw [if_neg]
      exact fun h => hq ⟨by rw [h.1]; exact List.mem_cons_self, h.2⟩
    · rw [List.foldl_cons]
      refine h4 o (g3 o ho fun h => hn e.2 h.1 ⟨List.mem_cons_self, h.2⟩) fun p hp h => hn p hp ⟨List.mem_cons_of_mem _ h.1, h.2⟩

theorem issued_books (w : Wave) (divided : Bool) (pcs : List (PC × Mask)) (back : Bool) (word : Word) :
    BooksOnly w ((w.issued divided pcs back).marked word) ∧ ((w.issued divided pcs back).marked word).pcs = pcs := by
  unfold Wave.marked Wave.issued BooksOnly
  cases hs : w.sweep <;> dsimp only <;> repeat' split
  all_goals exact ⟨by simp_all, rfl⟩

theorem core_count (s : State) (c k j : Nat) : (s.count c k).core j = { s.core j with perf := ((s.count c k).core j).perf } := by
  have h : (s.count c k).core j = if j = c then { s.core c with
      perf := (s.core c).perf.set 0 k (((s.core c).perf.get 0 k + 1) % 2 ^ 32) } else s.core j := Tbl.get_set _ _ _ _ _
  rw [h]
  by_cases hj : j = c
  · subst hj; rw [if_pos rfl]
  · rw [if_neg hj]

/-- A wave is put, a counter of a core and the number of issues move. -/
theorem onlyWave_put (s : State) (wid c n : Nat) (w : Wave) : OnlyWave s { (s.setWave wid w).count c 0 with seq := n } wid where
  rest := rfl
  waves _ hk := Tbl.get?_put_ne s.waves hk w
  cores _ := core_count (s.setWave wid w) c 0 _
  bytes := SameStore.bytes ⟨rfl, rfl, rfl, rfl, rfl, rfl, rfl, rfl, rfl, rfl, rfl⟩

/-- The books, the counters and the number of issues: all that the end of an issue changes. -/
theorem finish_spec (s : State) (next : Next) (back : Bool) (w : Wave) (h : s.waves.get? s.cur.wid = some w) :
    OnlyWave s (s.finish next back) s.cur.wid ∧
    ∃ w', (s.finish next back).waves.get? s.cur.wid = some w' ∧ BooksOnly w w' ∧
      w'.pcs = pcsMove (s.cur.set &&& w.live) next w.pcs := by
  have hb := issued_books w w.divided (pcsMove (s.cur.set &&& w.live) next w.pcs) back s.cur.word
  unfold State.finish
  rw [h]
  exact ⟨onlyWave_put s _ _ _ _, _, Tbl.get?_put_self _ _ _, hb.1, hb.2⟩

theorem ctx_some {s : State} {c : Ctx} (h : s.ctx = some c) :
    c.s = s ∧ c.wid = s.cur.wid ∧ s.waves.get? s.cur.wid = some c.w ∧ s.teams.get? c.w.tid = some c.t ∧
      c.set = s.cur.set &&& c.w.live ∧ c.pc = s.cur.pc ∧ c.word = s.cur.word := by
  unfold State.ctx at h
  split at h
  · cases h
  · next w hw =>
    split at h
    · cases h
    · next t ht =>
      cases h
      exact ⟨rfl, rfl, hw, ht, rfl, rfl, rfl⟩

/-- Passing the checks leads to the instruction's own execution. -/
theorem issue_ready {s : State} {c : Ctx} (f : Form) (body : Ctx → Res) (hc : s.ctx = some c) (hk : c.check f = none)
    (hr : c.w.shadowRoom (c.targets f) = true) : issue f body s = .next (c.settle f (body (c.shadow f))) := by
  unfold issue
  rw [hc]
  simp only [hk, hr, if_true]

/-- What the copies of R336 change of a context: the region of its wave. -/
theorem shadow_spec (c : Ctx) (f : Form) :
    (c.shadow f).w = { c.w with region := (c.w.shadowed (c.targets f)).region } ∧
    (c.shadow f).wid = c.wid ∧ (c.shadow f).t = c.t ∧ (c.shadow f).set = c.set ∧ (c.shadow f).pc = c.pc ∧
    (c.shadow f).word = c.word ∧
    (c.s.waves.get? c.wid = some c.w → (c.shadow f).s.waves.get? c.wid = some (c.shadow f).w) ∧
    (∀ k, k ≠ c.wid → (c.shadow f).s.waves.get? k = c.s.waves.get? k) ∧
    (c.shadow f).s = { c.s with waves := (c.shadow f).s.waves } := by
  unfold Ctx.shadow
  split
  · next h =>
    have hr : c.w.region = none := Option.isNone_iff_eq_none.1 h
    have : (c.w.shadowed (c.targets f)).region = c.w.region := by
      unfold Wave.shadowed; rw [hr]; exact hr
    rw [this]
    exact ⟨rfl, rfl, rfl, rfl, rfl, rfl, id, fun _ _ => rfl, rfl⟩
  · refine ⟨?_, rfl, rfl, rfl, rfl, rfl, fun _ => Tbl.get?_put_self _ _ _, fun k hk => Tbl.get?_put_ne _ hk _, rfl⟩
    show c.w.shadowed (c.targets f) = _
    unfold Wave.shadowed
    cases hr : c.w.region with
    | none => simp
    | some r => rfl

theorem phys_inj (w : Wave) {m n : Nat} (h : w.phys m = w.phys n) : m = n := by
  unfold Wave.phys at h
  split at h
  · split at h <;> split at h <;> simp at h <;> omega
  · simp at h; omega

theorem unit_nodup (c : Ctx) (d : Reg) (u : Nat) : (c.unit (d, u)).Nodup := by
  cases d with
  | q n => exact List.nodup_nil
  | v n =>
    refine List.Nodup.map (fun a b h => ?_) List.nodup_range
    have := phys_inj c.w h
    omega

theorem mapIdx_pairs {α : Type} (ps : List α) : (ps.mapIdx fun i p => (i, p)).map (·.2) = ps := by
  apply List.ext_getElem <;> simp

/-- The wave after a unit is written as a class F result. -/
def unitWrite (c : Ctx) (d : Reg) (u : Nat) (out : Nat → LaneOut) (w : Wave) : Wave :=
  (((c.unit (d, u)).mapIdx (fun i p => (i, p))).foldl (fun w e => w.writeLanes e.2 c.set fun l => (out l).word e.1) w)
    |>.orFlags (c.flagsOf out)

theorem writeF_eq (c : Ctx) (d : Reg) (u : Nat) (out : Nat → LaneOut) (s : State) :
    c.writeF d u out s = s.updWave c.wid (unitWrite c d u out) := rfl

theorem unitWrite_spec (c : Ctx) (d : Reg) (u : Nat) (out : Nat → LaneOut) (w : Wave) :
    unitWrite c d u out w = { w with
      regs := (unitWrite c d u out w).regs, hidden := (unitWrite c d u out w).hidden
      outst := (unitWrite c d u out w).outst, fflags := w.fflags ||| c.flagsOf out } ∧
    Written w (unitWrite c d u out w) c.set (c.unit (d, u)) (fun l i => (out l).word i) ∧
    KeepsOwed w (unitWrite c d u out w) c.set (c.unit (d, u)) := by
  have h := writeUnit_fold c.set (fun l i => (out l).word i) ((c.unit (d, u)).mapIdx fun i p => (i, p)) w
    (by rw [mapIdx_pairs]; exact unit_nodup c d u)
  simp only [mapIdx_pairs] at h
  obtain ⟨h1, h2, h3, h4⟩ := h
  refine ⟨?_, ⟨fun i p l hp hl => ?_, fun p l hl hn => h3 p l hl hn⟩, h4⟩
  · exact congrArg (fun x : Wave => x.orFlags (c.flagsOf out)) h1
  · refine h2 (i, p) ?_ l hl
    rw [List.mem_mapIdx]
    obtain ⟨hi, hp⟩ := List.getElem?_eq_some_iff.1 hp
    exact ⟨i, hi, by rw [hp]⟩

theorem unitWrite_shadow (c : Ctx) (f : Form) (d : Reg) (u : Nat) (out : Nat → LaneOut) :
    unitWrite (c.shadow f) d u out = unitWrite c d u out := by
  obtain ⟨g1, -, -, g4, -⟩ := shadow_spec c f
  have hunit : (c.shadow f).unit (d, u) = c.unit (d, u) := by unfold Ctx.unit; rw [g1]; rfl
  have hflags : (c.shadow f).flagsOf out = c.flagsOf out := by unfold Ctx.flagsOf Ctx.cnt; rw [g1, g4]
  unfold unitWrite
  rw [hunit, hflags, g4]

/-- A state that differs from another in one wave alone. -/
structure WaveOnly (s t : State) (wid : Nat) : Prop where
  rest : t = { s with waves := t.waves }
  waves : ∀ k, k ≠ wid → t.waves.get? k = s.waves.get? k

theorem WaveOnly.refl (s : State) (wid : Nat) : WaveOnly s s wid := ⟨rfl, fun _ _ => rfl⟩

theorem WaveOnly.trans {a b c : State} {wid : Nat} (h : WaveOnly a b wid) (k : WaveOnly b c wid) : WaveOnly a c wid :=
  ⟨by rw [k.rest, h.rest], fun j hj => (k.waves j hj).trans (h.waves j hj)⟩

theorem WaveOnly.upd (s : State) (wid : Nat) (f : Wave → Wave) : WaveOnly s (s.updWave wid f) wid :=
  ⟨rfl, fun _ hk => Tbl.get?_upd_ne _ hk _⟩

theorem WaveOnly.core {s t : State} {wid : Nat} (h : WaveOnly s t wid) (k : Nat) : t.core k = s.core k := by
  rw [h.rest]; rfl

theorem WaveOnly.store {s t : State} {wid : Nat} (h : WaveOnly s t wid) : SameStore s t := by
  rw [h.rest]; exact ⟨rfl, rfl, rfl, rfl, rfl, rfl, rfl, rfl, rfl, rfl, rfl⟩

theorem WaveOnly.onlyWave {s t u : State} {wid : Nat} (h : WaveOnly s t wid) (k : OnlyWave t u wid) : OnlyWave s u wid where
  rest := by rw [k.rest, h.rest]
  waves j hj := (k.waves j hj).trans (h.waves j hj)
  cores j := by rw [k.cores j, h.core j]
  bytes sp key a := (k.bytes sp key a).trans (h.store.bytes sp key a)

/-- An issue that has changed only its wave ends: what it leaves, and where the lanes stand. -/
theorem go_spec {s sB : State} {c : Ctx} {wB : Wave} (hc : s.ctx = some c) (h : WaveOnly s sB c.wid)
    (hB : sB.waves.get? c.wid = some wB) (hl : wB.live = c.w.live) (hp : wB.pcs = c.w.pcs) (next : Nat → PC) (back : Bool) :
    OnlyWave s (sB.finish (fun l => some (next l)) back) c.wid ∧
    ∃ w', (sB.finish (fun l => some (next l)) back).waves.get? c.wid = some w' ∧ BooksOnly wB w' ∧ Moved c w' next := by
  obtain ⟨-, hwid, -, -, hset, -, -⟩ := ctx_some hc
  have hcur : sB.cur = s.cur := by rw [h.rest]
  have hB' : sB.waves.get? sB.cur.wid = some wB := by rw [hcur, ← hwid]; exact hB
  obtain ⟨h1, w', h2, h3, h4⟩ := finish_spec sB (fun l => some (next l)) back wB hB'
  rw [hcur, ← hwid] at h1 h2
  refine ⟨h.onlyWave h1, w', h2, h3, ?_⟩
  rw [hcur, hl, ← hset, hp] at h4
  refine ⟨fun l hl => ?_, fun l hl => ?_⟩
  · rw [h4]; exact pcOfLane_move _ _ _ _ _ hl rfl
  · rw [h4]; exact pcOfLane_move_other _ _ _ _ hl

/-- Registers read alike where the storage, the allocation and nothing else of a wave counts. -/
theorem read_congr {w w' : Wave} (h1 : w'.regs = w.regs) (h2 : w'.hidden = w.hidden) (h3 : w'.alloc = w.alloc) (p : PReg)
    (l : Nat) : w'.read p l = w.read p l := by
  unfold Wave.read
  rw [h1, h2, h3]

/-- The class F issue over a unit: from a wave that differs in its generator alone, the results are written and the lanes
go on. -/
theorem writeF_go {s : State} {c : Ctx} (hc : s.ctx = some c) (f : Form) (d : Reg) (u : Nat) (hd : f.dst = [(d, u)])
    (out : Nat → LaneOut) (sA : State) (seed : Word) (next : Nat → PC) (back : Bool)
    (hA : WaveOnly (c.shadow f).s sA c.wid) (hw : sA.waves.get? c.wid = some { (c.shadow f).w with srseed := seed }) :
    WritesF s (((c.shadow f).writeF d u out sA).finish (fun l => some (next l)) back) c d u (fun l i => (out l).word i)
      (c.w.fflags ||| c.flagsOf out) seed next := by
  obtain ⟨hs, -, -, -, -, -, -⟩ := ctx_some hc
  obtain ⟨g1, g2, -, -, -, -, -, g8, g9⟩ := shadow_spec c f
  have hsub : WaveOnly s (c.shadow f).s c.wid := by rw [← hs]; exact ⟨g9, g8⟩
  have htar : c.targets f = c.unit (d, u) := by simp [Ctx.targets, hd]
  rw [writeF_eq, unitWrite_shadow, g2]
  have hgetB := (Tbl.get?_upd_self sA.waves c.wid (unitWrite c d u out)).trans (congrArg _ hw)
  rw [Option.map_some] at hgetB
  obtain ⟨k1, k2, k3⟩ := unitWrite_spec c d u out { (c.shadow f).w with srseed := seed }
  revert k1 k2 k3 hgetB
  generalize unitWrite c d u out { (c.shadow f).w with srseed := seed } = wB
  intro hgetB k1 k2 k3
  obtain ⟨m1, w', m2, m3, m4⟩ := go_spec hc ((hsub.trans hA).trans (WaveOnly.upd sA c.wid _)) hgetB
    (by rw [k1, g1]) (by rw [k1, g1]) next back
  refine ⟨m1, w', m2, ?_, ⟨fun i p l hi hl => ?_, fun p l hl hn => ?_⟩, fun o ho hn => ?_, m4⟩
  · unfold KeepsWave
    rw [m3, k1, g1, htar]
  · rw [read_congr (w := wB) (by rw [m3]) (by rw [m3]) (by rw [m3]), k2.new i p l hi hl, g1]; rfl
  · rw [read_congr (w := wB) (by rw [m3]) (by rw [m3]) (by rw [m3]), k2.old p l hl hn, g1]; rfl
  · have : w'.outst = wB.outst := by rw [m3]
    rw [this]
    exact k3 o (by rw [g1]; exact ho) hn

end Sys2Proof.Machine
end

