-- ==== Sys2Proof/Laws/PerInstr.lean ====
section
/-! SUPPORT. One fact of every instruction as syntax: the encoding of a well-formed instruction fits below the switch
marker, because every field the encoder writes stands within its width (R92, R93). -/

namespace Sys2Proof.Laws.EncodingFits

/-- The word of a well-formed instruction with S = 0 lies below bit 31. -/
def Statement (i : Instr) : Prop := i.wf = true → encodeBody i < 2 ^ 31

theorem two {x y : Bool} (h : (x && y) = true) : x = true ∧ y = true := by simpa using h

theorem code_of_dst {r : Reg} {l : List Reg} (h : r.dst l = true) : r.code < 128 := by
  cases r <;> simp [Reg.dst, Reg.code] at h ⊢ <;> omega

theorem code_of_src {r : Reg} (h : r.src = true) : r.code < 128 := by
  cases r <;> simp [Reg.src, Reg.code] at h ⊢ <;> omega

theorem code_of_block {r : Reg} {u : Nat} (h : r.block u = true) : r.code < 128 := by
  cases r <;> simp [Reg.block, Reg.code] at h ⊢
  obtain ⟨h0, h1⟩ := h
  omega

theorem size_code (z : Size) : z.code < 7 := by cases z <;> decide

theorem tret_code (k : TretAct) : k.code < 128 := by cases k <;> decide

theorem unsignOf_lt (w : Nat) (i : Int) : unsignOf w i < 2 ^ w := by
  unfold unsignOf
  have h : (0 : Int) < ((2 ^ w : Nat) : Int) := by exact_mod_cast Nat.two_pow_pos w
  have h1 := Int.emod_nonneg i (ne_of_gt h)
  have h2 := Int.emod_lt_of_pos i h
  omega

theorem wordT_fits {p f d a b : Nat} (hp : p < 64) (hf : f < 16) (hd : d < 128) (ha : a < 128) (hb : b < 128) :
    wordT p f d a b < 2 ^ 31 := by unfold wordT; omega

theorem wordI_fits {p d a i : Nat} (hp : p < 64) (hd : d < 128) (ha : a < 128) (hi : i < 2 ^ 11) :
    wordI p d a i < 2 ^ 31 := by unfold wordI; omega

theorem wordM_fits {p d a z o : Nat} (hp : p < 64) (hd : d < 128) (ha : a < 128) (hz : z < 7) (ho : o < 2 ^ 8) :
    wordM p d a z o < 2 ^ 31 := by unfold wordM; omega

theorem wordU_fits {p d i : Nat} (hp : p < 64) (hd : d < 128) (hi : i < 2 ^ 18) :
    wordU p d i < 2 ^ 31 := by unfold wordU; omega

theorem iadd (d a b : Reg) : Statement (.iadd d a b) := fun h =>
  wordT_fits (by decide) (by decide) (code_of_dst ((two (two h).1).1)) (code_of_src (two ((two h).1)).2) (code_of_src (two h).2)
theorem isub (d a b : Reg) : Statement (.isub d a b) := fun h =>
  wordT_fits (by decide) (by decide) (code_of_dst ((two (two h).1).1)) (code_of_src (two ((two h).1)).2) (code_of_src (two h).2)
theorem imul (d a b : Reg) : Statement (.imul d a b) := fun h =>
  wordT_fits (by decide) (by decide) (code_of_dst ((two (two h).1).1)) (code_of_src (two ((two h).1)).2) (code_of_src (two h).2)
theorem imulh (d a b : Reg) : Statement (.imulh d a b) := fun h =>
  wordT_fits (by decide) (by decide) (code_of_dst ((two (two h).1).1)) (code_of_src (two ((two h).1)).2) (code_of_src (two h).2)
theorem umulh (d a b : Reg) : Statement (.umulh d a b) := fun h =>
  wordT_fits (by decide) (by decide) (code_of_dst ((two (two h).1).1)) (code_of_src (two ((two h).1)).2) (code_of_src (two h).2)
theorem imad (d a b : Reg) : Statement (.imad d a b) := fun h =>
  wordT_fits (by decide) (by decide) (code_of_block ((two (two h).1).1)) (code_of_src (two ((two h).1)).2) (code_of_src (two h).2)
theorem imin (d a b : Reg) : Statement (.imin d a b) := fun h =>
  wordT_fits (by decide) (by decide) (code_of_dst ((two (two h).1).1)) (code_of_src (two ((two h).1)).2) (code_of_src (two h).2)
theorem imax (d a b : Reg) : Statement (.imax d a b) := fun h =>
  wordT_fits (by decide) (by decide) (code_of_dst ((two (two h).1).1)) (code_of_src (two ((two h).1)).2) (code_of_src (two h).2)
theorem umin (d a b : Reg) : Statement (.umin d a b) := fun h =>
  wordT_fits (by decide) (by decide) (code_of_dst ((two (two h).1).1)) (code_of_src (two ((two h).1)).2) (code_of_src (two h).2)
theorem umax (d a b : Reg) : Statement (.umax d a b) := fun h =>
  wordT_fits (by decide) (by decide) (code_of_dst ((two (two h).1).1)) (code_of_src (two ((two h).1)).2) (code_of_src (two h).2)
theorem iaddW (d a b : Reg) : Statement (.iaddW d a b) := fun h =>
  wordT_fits (by decide) (by decide) (code_of_block ((two (two h).1).1)) (code_of_block (two ((two h).1)).2) (code_of_block (two h).2)
theorem isubW (d a b : Reg) : Statement (.isubW d a b) := fun h =>
  wordT_fits (by decide) (by decide) (code_of_block ((two (two h).1).1)) (code_of_block (two ((two h).1)).2) (code_of_block (two h).2)
theorem imulW (d a b : Reg) : Statement (.imulW d a b) := fun h =>
  wordT_fits (by decide) (by decide) (code_of_block ((two (two h).1).1)) (code_of_src (two ((two h).1)).2) (code_of_src (two h).2)
theorem umulW (d a b : Reg) : Statement (.umulW d a b) := fun h =>
  wordT_fits (by decide) (by decide) (code_of_block ((two (two h).1).1)) (code_of_src (two ((two h).1)).2) (code_of_src (two h).2)
theorem and (d a b : Reg) : Statement (.and d a b) := fun h =>
  wordT_fits (by decide) (by decide) (code_of_dst ((two (two h).1).1)) (code_of_src (two ((two h).1)).2) (code_of_src (two h).2)
theorem or (d a b : Reg) : Statement (.or d a b) := fun h =>
  wordT_fits (by decide) (by decide) (code_of_dst ((two (two h).1).1)) (code_of_src (two ((two h).1)).2) (code_of_src (two h).2)
theorem xor (d a b : Reg) : Statement (.xor d a b) := fun h =>
  wordT_fits (by decide) (by decide) (code_of_dst ((two (two h).1).1)) (code_of_src (two ((two h).1)).2) (code_of_src (two h).2)
theorem andn (d a b : Reg) : Statement (.andn d a b) := fun h =>
  wordT_fits (by decide) (by decide) (code_of_dst ((two (two h).1).1)) (code_of_src (two ((two h).1)).2) (code_of_src (two h).2)
theorem orn (d a b : Reg) : Statement (.orn d a b) := fun h =>
  wordT_fits (by decide) (by decide) (code_of_dst ((two (two h).1).1)) (code_of_src (two ((two h).1)).2) (code_of_src (two h).2)
theorem xnor (d a b : Reg) : Statement (.xnor d a b) := fun h =>
  wordT_fits (by decide) (by decide) (code_of_dst ((two (two h).1).1)) (code_of_src (two ((two h).1)).2) (code_of_src (two h).2)
theorem shl (d a b : Reg) : Statement (.shl d a b) := fun h =>
  wordT_fits (by decide) (by decide) (code_of_dst ((two (two h).1).1)) (code_of_src (two ((two h).1)).2) (code_of_src (two h).2)
theorem shr (d a b : Reg) : Statement (.shr d a b) := fun h =>
  wordT_fits (by decide) (by decide) (code_of_dst ((two (two h).1).1)) (code_of_src (two ((two h).1)).2) (code_of_src (two h).2)
theorem sra (d a b : Reg) : Statement (.sra d a b) := fun h =>
  wordT_fits (by decide) (by decide) (code_of_dst ((two (two h).1).1)) (code_of_src (two ((two h).1)).2) (code_of_src (two h).2)
theorem rotl (d a b : Reg) : Statement (.rotl d a b) := fun h =>
  wordT_fits (by decide) (by decide) (code_of_dst ((two (two h).1).1)) (code_of_src (two ((two h).1)).2) (code_of_src (two h).2)
theorem shlW (d a b : Reg) : Statement (.shlW d a b) := fun h =>
  wordT_fits (by decide) (by decide) (code_of_block ((two (two h).1).1)) (code_of_block (two ((two h).1)).2) (code_of_src (two h).2)
theorem shrW (d a b : Reg) : Statement (.shrW d a b) := fun h =>
  wordT_fits (by decide) (by decide) (code_of_block ((two (two h).1).1)) (code_of_block (two ((two h).1)).2) (code_of_src (two h).2)
theorem sraW (d a b : Reg) : Statement (.sraW d a b) := fun h =>
  wordT_fits (by decide) (by decide) (code_of_block ((two (two h).1).1)) (code_of_block (two ((two h).1)).2) (code_of_src (two h).2)
theorem cmpeq (d a b : Reg) : Statement (.cmpeq d a b) := fun h =>
  wordT_fits (by decide) (by decide) (code_of_dst ((two (two h).1).1)) (code_of_src (two ((two h).1)).2) (code_of_src (two h).2)
theorem cmpne (d a b : Reg) : Statement (.cmpne d a b) := fun h =>
  wordT_fits (by decide) (by decide) (code_of_dst ((two (two h).1).1)) (code_of_src (two ((two h).1)).2) (code_of_src (two h).2)
theorem cmplt (d a b : Reg) : Statement (.cmplt d a b) := fun h =>
  wordT_fits (by decide) (by decide) (code_of_dst ((two (two h).1).1)) (code_of_src (two ((two h).1)).2) (code_of_src (two h).2)
theorem cmple (d a b : Reg) : Statement (.cmple d a b) := fun h =>
  wordT_fits (by decide) (by decide) (code_of_dst ((two (two h).1).1)) (code_of_src (two ((two h).1)).2) (code_of_src (two h).2)
theorem cmpltu (d a b : Reg) : Statement (.cmpltu d a b) := fun h =>
  wordT_fits (by decide) (by decide) (code_of_dst ((two (two h).1).1)) (code_of_src (two ((two h).1)).2) (code_of_src (two h).2)
theorem cmpleu (d a b : Reg) : Statement (.cmpleu d a b) := fun h =>
  wordT_fits (by decide) (by decide) (code_of_dst ((two (two h).1).1)) (code_of_src (two ((two h).1)).2) (code_of_src (two h).2)
theorem sel (d a b : Reg) : Statement (.sel d a b) := fun h =>
  wordT_fits (by decide) (by decide) (code_of_block ((two (two h).1).1)) (code_of_src (two ((two h).1)).2) (code_of_src (two h).2)
theorem bfe (d a b : Reg) : Statement (.bfe d a b) := fun h =>
  wordT_fits (by decide) (by decide) (code_of_dst ((two (two h).1).1)) (code_of_src (two ((two h).1)).2) (code_of_src (two h).2)
theorem bfi (d a b : Reg) : Statement (.bfi d a b) := fun h =>
  wordT_fits (by decide) (by decide) (code_of_block ((two (two h).1).1)) (code_of_src (two ((two h).1)).2) (code_of_src (two h).2)
theorem pack2 (d a b : Reg) : Statement (.pack2 d a b) := fun h =>
  wordT_fits (by decide) (by decide) (code_of_dst ((two (two h).1).1)) (code_of_src (two ((two h).1)).2) (code_of_src (two h).2)
theorem permb (d a b : Reg) : Statement (.permb d a b) := fun h =>
  wordT_fits (by decide) (by decide) (code_of_dst ((two (two h).1).1)) (code_of_src (two ((two h).1)).2) (code_of_src (two h).2)
theorem clz (d a : Reg) : Statement (.clz d a) := fun h =>
  wordT_fits (by decide) (by decide) (code_of_dst ((two h).1)) (code_of_src (two h).2) (by decide)
theorem popc (d a : Reg) : Statement (.popc d a) := fun h =>
  wordT_fits (by decide) (by decide) (code_of_dst ((two h).1)) (code_of_src (two h).2) (by decide)
theorem brev (d a : Reg) : Statement (.brev d a) := fun h =>
  wordT_fits (by decide) (by decide) (code_of_dst ((two h).1)) (code_of_src (two h).2) (by decide)
theorem iabs (d a : Reg) : Statement (.iabs d a) := fun h =>
  wordT_fits (by decide) (by decide) (code_of_dst ((two h).1)) (code_of_src (two h).2) (by decide)
theorem ineg (d a : Reg) : Statement (.ineg d a) := fun h =>
  wordT_fits (by decide) (by decide) (code_of_dst ((two h).1)) (code_of_src (two h).2) (by decide)
theorem not (d a : Reg) : Statement (.not d a) := fun h =>
  wordT_fits (by decide) (by decide) (code_of_dst ((two h).1)) (code_of_src (two h).2) (by decide)
theorem mov (d a : Reg) : Statement (.mov d a) := fun h =>
  wordT_fits (by decide) (by decide) (code_of_dst ((two h).1)) (code_of_src (two h).2) (by decide)
theorem movW (d a : Reg) : Statement (.movW d a) := fun h =>
  wordT_fits (by decide) (by decide) (code_of_block ((two h).1)) (code_of_block (two h).2) (by decide)
theorem sextb (d a : Reg) : Statement (.sextb d a) := fun h =>
  wordT_fits (by decide) (by decide) (code_of_dst ((two h).1)) (code_of_src (two h).2) (by decide)
theorem sexth (d a : Reg) : Statement (.sexth d a) := fun h =>
  wordT_fits (by decide) (by decide) (code_of_dst ((two h).1)) (code_of_src (two h).2) (by decide)
theorem zextb (d a : Reg) : Statement (.zextb d a) := fun h =>
  wordT_fits (by decide) (by decide) (code_of_dst ((two h).1)) (code_of_src (two h).2) (by decide)
theorem zexth (d a : Reg) : Statement (.zexth d a) := fun h =>
  wordT_fits (by decide) (by decide) (code_of_dst ((two h).1)) (code_of_src (two h).2) (by decide)
theorem addi (d a : Reg) (i : Int) : Statement (.addi d a i) := fun h =>
  wordI_fits (by decide) (code_of_dst ((two (two h).1).1)) (code_of_src (two ((two h).1)).2) (unsignOf_lt _ _)
theorem andi (d a : Reg) (i : Nat) : Statement (.andi d a i) := fun h =>
  wordI_fits (by decide) (code_of_dst ((two (two h).1).1)) (code_of_src (two ((two h).1)).2) (lt_of_lt_of_le (of_decide_eq_true (two h).2) (by decide))
theorem ori (d a : Reg) (i : Nat) : Statement (.ori d a i) := fun h =>
  wordI_fits (by decide) (code_of_dst ((two (two h).1).1)) (code_of_src (two ((two h).1)).2) (lt_of_lt_of_le (of_decide_eq_true (two h).2) (by decide))
theorem xori (d a : Reg) (i : Nat) : Statement (.xori d a i) := fun h =>
  wordI_fits (by decide) (code_of_dst ((two (two h).1).1)) (code_of_src (two ((two h).1)).2) (lt_of_lt_of_le (of_decide_eq_true (two h).2) (by decide))
theorem shli (d a : Reg) (k : Nat) : Statement (.shli d a k) := fun h =>
  wordT_fits (by decide) (by decide) (code_of_dst ((two (two h).1).1)) (code_of_src (two ((two h).1)).2) (lt_of_lt_of_le (of_decide_eq_true (two h).2) (by decide))
theorem shri (d a : Reg) (k : Nat) : Statement (.shri d a k) := fun h =>
  wordT_fits (by decide) (by decide) (code_of_dst ((two (two h).1).1)) (code_of_src (two ((two h).1)).2) (lt_of_lt_of_le (of_decide_eq_true (two h).2) (by decide))
theorem srai (d a : Reg) (k : Nat) : Statement (.srai d a k) := fun h =>
  wordT_fits (by decide) (by decide) (code_of_dst ((two (two h).1).1)) (code_of_src (two ((two h).1)).2) (lt_of_lt_of_le (of_decide_eq_true (two h).2) (by decide))
theorem rotli (d a : Reg) (k : Nat) : Statement (.rotli d a k) := fun h =>
  wordT_fits (by decide) (by decide) (code_of_dst ((two (two h).1).1)) (code_of_src (two ((two h).1)).2) (lt_of_lt_of_le (of_decide_eq_true (two h).2) (by decide))
theorem shliW (d a : Reg) (k : Nat) : Statement (.shliW d a k) := fun h =>
  wordT_fits (by decide) (by decide) (code_of_block ((two (two h).1).1)) (code_of_block (two ((two h).1)).2) (lt_of_lt_of_le (of_decide_eq_true (two h).2) (by decide))
theorem shriW (d a : Reg) (k : Nat) : Statement (.shriW d a k) := fun h =>
  wordT_fits (by decide) (by decide) (code_of_block ((two (two h).1).1)) (code_of_block (two ((two h).1)).2) (lt_of_lt_of_le (of_decide_eq_true (two h).2) (by decide))
theorem sraiW (d a : Reg) (k : Nat) : Statement (.sraiW d a k) := fun h =>
  wordT_fits (by decide) (by decide) (code_of_block ((two (two h).1).1)) (code_of_block (two ((two h).1)).2) (lt_of_lt_of_le (of_decide_eq_true (two h).2) (by decide))
theorem cmpeqi (d a : Reg) (k : Int) : Statement (.cmpeqi d a k) := fun h =>
  wordT_fits (by decide) (by decide) (code_of_dst ((two (two h).1).1)) (code_of_src (two ((two h).1)).2) (unsignOf_lt _ _)
theorem cmpnei (d a : Reg) (k : Int) : Statement (.cmpnei d a k) := fun h =>
  wordT_fits (by decide) (by decide) (code_of_dst ((two (two h).1).1)) (code_of_src (two ((two h).1)).2) (unsignOf_lt _ _)
theorem cmplti (d a : Reg) (k : Int) : Statement (.cmplti d a k) := fun h =>
  wordT_fits (by decide) (by decide) (code_of_dst ((two (two h).1).1)) (code_of_src (two ((two h).1)).2) (unsignOf_lt _ _)
theorem cmplei (d a : Reg) (k : Int) : Statement (.cmplei d a k) := fun h =>
  wordT_fits (by decide) (by decide) (code_of_dst ((two (two h).1).1)) (code_of_src (two ((two h).1)).2) (unsignOf_lt _ _)
theorem cmpgti (d a : Reg) (k : Int) : Statement (.cmpgti d a k) := fun h =>
  wordT_fits (by decide) (by decide) (code_of_dst ((two (two h).1).1)) (code_of_src (two ((two h).1)).2) (unsignOf_lt _ _)
theorem cmpgei (d a : Reg) (k : Int) : Statement (.cmpgei d a k) := fun h =>
  wordT_fits (by decide) (by decide) (code_of_dst ((two (two h).1).1)) (code_of_src (two ((two h).1)).2) (unsignOf_lt _ _)
theorem cmpltui (d a : Reg) (k : Nat) : Statement (.cmpltui d a k) := fun h =>
  wordT_fits (by decide) (by decide) (code_of_dst ((two (two h).1).1)) (code_of_src (two ((two h).1)).2) (lt_of_lt_of_le (of_decide_eq_true (two h).2) (by decide))
theorem cmpgeui (d a : Reg) (k : Nat) : Statement (.cmpgeui d a k) := fun h =>
  wordT_fits (by decide) (by decide) (code_of_dst ((two (two h).1).1)) (code_of_src (two ((two h).1)).2) (lt_of_lt_of_le (of_decide_eq_true (two h).2) (by decide))
theorem movi (d : Reg) (i : Int) : Statement (.movi d i) := fun h =>
  wordU_fits (by decide) (code_of_dst ((two h).1)) (unsignOf_lt _ _)
theorem movhi (d : Reg) (i : Nat) : Statement (.movhi d i) := fun h =>
  wordU_fits (by decide) (code_of_block ((two h).1)) (lt_of_lt_of_le (of_decide_eq_true (two h).2) (by decide))
theorem ldlit (d : Reg) (i : Int) : Statement (.ldlit d i) := fun h =>
  wordU_fits (by decide) (code_of_block ((two h).1)) (unsignOf_lt _ _)
theorem ldlitW (d : Reg) (i : Int) : Statement (.ldlitW d i) := fun h =>
  wordU_fits (by decide) (code_of_block ((two h).1)) (unsignOf_lt _ _)
theorem fadd (d a b : Reg) : Statement (.fadd d a b) := fun h =>
  wordT_fits (by decide) (by decide) (code_of_dst ((two (two h).1).1)) (code_of_src (two ((two h).1)).2) (code_of_src (two h).2)
theorem fsub (d a b : Reg) : Statement (.fsub d a b) := fun h =>
  wordT_fits (by decide) (by decide) (code_of_dst ((two (two h).1).1)) (code_of_src (two ((two h).1)).2) (code_of_src (two h).2)
theorem fmul (d a b : Reg) : Statement (.fmul d a b) := fun h =>
  wordT_fits (by decide) (by decide) (code_of_dst ((two (two h).1).1)) (code_of_src (two ((two h).1)).2) (code_of_src (two h).2)
theorem ffma (d a b : Reg) : Statement (.ffma d a b) := fun h =>
  wordT_fits (by decide) (by decide) (code_of_block ((two (two h).1).1)) (code_of_src (two ((two h).1)).2) (code_of_src (two h).2)
theorem ffms (d a b : Reg) : Statement (.ffms d a b) := fun h =>
  wordT_fits (by decide) (by decide) (code_of_block ((two (two h).1).1)) (code_of_src (two ((two h).1)).2) (code_of_src (two h).2)
theorem fnfma (d a b : Reg) : Statement (.fnfma d a b) := fun h =>
  wordT_fits (by decide) (by decide) (code_of_block ((two (two h).1).1)) (code_of_src (two ((two h).1)).2) (code_of_src (two h).2)
theorem fmin (d a b : Reg) : Statement (.fmin d a b) := fun h =>
  wordT_fits (by decide) (by decide) (code_of_dst ((two (two h).1).1)) (code_of_src (two ((two h).1)).2) (code_of_src (two h).2)
theorem fmax (d a b : Reg) : Statement (.fmax d a b) := fun h =>
  wordT_fits (by decide) (by decide) (code_of_dst ((two (two h).1).1)) (code_of_src (two ((two h).1)).2) (code_of_src (two h).2)
theorem fcopysign (d a b : Reg) : Statement (.fcopysign d a b) := fun h =>
  wordT_fits (by decide) (by decide) (code_of_dst ((two (two h).1).1)) (code_of_src (two ((two h).1)).2) (code_of_src (two h).2)
theorem fcmpeq (d a b : Reg) : Statement (.fcmpeq d a b) := fun h =>
  wordT_fits (by decide) (by decide) (code_of_dst ((two (two h).1).1)) (code_of_src (two ((two h).1)).2) (code_of_src (two h).2)
theorem fcmplt (d a b : Reg) : Statement (.fcmplt d a b) := fun h =>
  wordT_fits (by decide) (by decide) (code_of_dst ((two (two h).1).1)) (code_of_src (two ((two h).1)).2) (code_of_src (two h).2)
theorem fcmple (d a b : Reg) : Statement (.fcmple d a b) := fun h =>
  wordT_fits (by decide) (by decide) (code_of_dst ((two (two h).1).1)) (code_of_src (two ((two h).1)).2) (code_of_src (two h).2)
theorem fcmpun (d a b : Reg) : Statement (.fcmpun d a b) := fun h =>
  wordT_fits (by decide) (by decide) (code_of_dst ((two (two h).1).1)) (code_of_src (two ((two h).1)).2) (code_of_src (two h).2)
theorem fabs (d a : Reg) : Statement (.fabs d a) := fun h =>
  wordT_fits (by decide) (by decide) (code_of_dst ((two h).1)) (code_of_src (two h).2) (by decide)
theorem fneg (d a : Reg) : Statement (.fneg d a) := fun h =>
  wordT_fits (by decide) (by decide) (code_of_dst ((two h).1)) (code_of_src (two h).2) (by decide)
theorem frcp (d a : Reg) : Statement (.frcp d a) := fun h =>
  wordT_fits (by decide) (by decide) (code_of_block ((two h).1)) (code_of_src (two h).2) (by decide)
theorem frsq (d a : Reg) : Statement (.frsq d a) := fun h =>
  wordT_fits (by decide) (by decide) (code_of_block ((two h).1)) (code_of_src (two h).2) (by decide)
theorem fsqrt (d a : Reg) : Statement (.fsqrt d a) := fun h =>
  wordT_fits (by decide) (by decide) (code_of_block ((two h).1)) (code_of_src (two h).2) (by decide)
theorem fexp2 (d a : Reg) : Statement (.fexp2 d a) := fun h =>
  wordT_fits (by decide) (by decide) (code_of_block ((two h).1)) (code_of_src (two h).2) (by decide)
theorem flog2 (d a : Reg) : Statement (.flog2 d a) := fun h =>
  wordT_fits (by decide) (by decide) (code_of_block ((two h).1)) (code_of_src (two h).2) (by decide)
theorem fsin (d a : Reg) : Statement (.fsin d a) := fun h =>
  wordT_fits (by decide) (by decide) (code_of_block ((two h).1)) (code_of_src (two h).2) (by decide)
theorem fcos (d a : Reg) : Statement (.fcos d a) := fun h =>
  wordT_fits (by decide) (by decide) (code_of_block ((two h).1)) (code_of_src (two h).2) (by decide)
theorem ftanh (d a : Reg) : Statement (.ftanh d a) := fun h =>
  wordT_fits (by decide) (by decide) (code_of_block ((two h).1)) (code_of_src (two h).2) (by decide)
theorem ffloor (d a : Reg) : Statement (.ffloor d a) := fun h =>
  wordT_fits (by decide) (by decide) (code_of_dst ((two h).1)) (code_of_src (two h).2) (by decide)
theorem fceil (d a : Reg) : Statement (.fceil d a) := fun h =>
  wordT_fits (by decide) (by decide) (code_of_dst ((two h).1)) (code_of_src (two h).2) (by decide)
theorem ftrunc (d a : Reg) : Statement (.ftrunc d a) := fun h =>
  wordT_fits (by decide) (by decide) (code_of_dst ((two h).1)) (code_of_src (two h).2) (by decide)
theorem frint (d a : Reg) : Statement (.frint d a) := fun h =>
  wordT_fits (by decide) (by decide) (code_of_dst ((two h).1)) (code_of_src (two h).2) (by decide)
theorem fclass (d a : Reg) : Statement (.fclass d a) := fun h =>
  wordT_fits (by decide) (by decide) (code_of_dst ((two h).1)) (code_of_src (two h).2) (by decide)
theorem hadd2B (d a b : Reg) : Statement (.hadd2B d a b) := fun h =>
  wordT_fits (by decide) (by decide) (code_of_dst ((two (two h).1).1)) (code_of_src (two ((two h).1)).2) (code_of_src (two h).2)
theorem hsub2B (d a b : Reg) : Statement (.hsub2B d a b) := fun h =>
  wordT_fits (by decide) (by decide) (code_of_dst ((two (two h).1).1)) (code_of_src (two ((two h).1)).2) (code_of_src (two h).2)
theorem hmul2B (d a b : Reg) : Statement (.hmul2B d a b) := fun h =>
  wordT_fits (by decide) (by decide) (code_of_dst ((two (two h).1).1)) (code_of_src (two ((two h).1)).2) (code_of_src (two h).2)
theorem hfma2B (d a b : Reg) : Statement (.hfma2B d a b) := fun h =>
  wordT_fits (by decide) (by decide) (code_of_block ((two (two h).1).1)) (code_of_src (two ((two h).1)).2) (code_of_src (two h).2)
theorem hmin2B (d a b : Reg) : Statement (.hmin2B d a b) := fun h =>
  wordT_fits (by decide) (by decide) (code_of_dst ((two (two h).1).1)) (code_of_src (two ((two h).1)).2) (code_of_src (two h).2)
theorem hmax2B (d a b : Reg) : Statement (.hmax2B d a b) := fun h =>
  wordT_fits (by decide) (by decide) (code_of_dst ((two (two h).1).1)) (code_of_src (two ((two h).1)).2) (code_of_src (two h).2)
theorem hadd2H (d a b : Reg) : Statement (.hadd2H d a b) := fun h =>
  wordT_fits (by decide) (by decide) (code_of_dst ((two (two h).1).1)) (code_of_src (two ((two h).1)).2) (code_of_src (two h).2)
theorem hsub2H (d a b : Reg) : Statement (.hsub2H d a b) := fun h =>
  wordT_fits (by decide) (by decide) (code_of_dst ((two (two h).1).1)) (code_of_src (two ((two h).1)).2) (code_of_src (two h).2)
theorem hmul2H (d a b : Reg) : Statement (.hmul2H d a b) := fun h =>
  wordT_fits (by decide) (by decide) (code_of_dst ((two (two h).1).1)) (code_of_src (two ((two h).1)).2) (code_of_src (two h).2)
theorem hfma2H (d a b : Reg) : Statement (.hfma2H d a b) := fun h =>
  wordT_fits (by decide) (by decide) (code_of_block ((two (two h).1).1)) (code_of_src (two ((two h).1)).2) (code_of_src (two h).2)
theorem hmin2H (d a b : Reg) : Statement (.hmin2H d a b) := fun h =>
  wordT_fits (by decide) (by decide) (code_of_dst ((two (two h).1).1)) (code_of_src (two ((two h).1)).2) (code_of_src (two h).2)
theorem hmax2H (d a b : Reg) : Statement (.hmax2H d a b) := fun h =>
  wordT_fits (by decide) (by decide) (code_of_dst ((two (two h).1).1)) (code_of_src (two ((two h).1)).2) (code_of_src (two h).2)
theorem cvt (d a b : Reg) : Statement (.cvt d a b) := fun h =>
  wordT_fits (by decide) (by decide) (code_of_dst ((two (two h).1).1)) (code_of_src (two ((two h).1)).2) (code_of_src (two h).2)
theorem cvtPack (d a b : Reg) : Statement (.cvtPack d a b) := fun h =>
  wordT_fits (by decide) (by decide) (code_of_block ((two (two h).1).1)) (code_of_block (two ((two h).1)).2) (code_of_block (two h).2)
theorem cvtUnpk (d a b : Reg) : Statement (.cvtUnpk d a b) := fun h =>
  wordT_fits (by decide) (by decide) (code_of_block ((two (two h).1).1)) (code_of_block (two ((two h).1)).2) (code_of_block (two h).2)
theorem cvtPack2 (d a b : Reg) : Statement (.cvtPack2 d a b) := fun h =>
  wordT_fits (by decide) (by decide) (code_of_block ((two (two h).1).1)) (code_of_block (two ((two h).1)).2) (code_of_block (two h).2)
theorem cvtUnpk2 (d a b : Reg) : Statement (.cvtUnpk2 d a b) := fun h =>
  wordT_fits (by decide) (by decide) (code_of_block ((two (two h).1).1)) (code_of_block (two ((two h).1)).2) (code_of_block (two h).2)
theorem cvtPacks (d a b : Reg) : Statement (.cvtPacks d a b) := fun h =>
  wordT_fits (by decide) (by decide) (code_of_block ((two (two h).1).1)) (code_of_block (two ((two h).1)).2) (code_of_block (two h).2)
theorem cvtUnpks (d a b : Reg) : Statement (.cvtUnpks d a b) := fun h =>
  wordT_fits (by decide) (by decide) (code_of_block ((two (two h).1).1)) (code_of_block (two ((two h).1)).2) (code_of_block (two h).2)
theorem qscale (d a b : Reg) : Statement (.qscale d a b) := fun h =>
  wordT_fits (by decide) (by decide) (code_of_block ((two (two h).1).1)) (code_of_block (two ((two h).1)).2) (code_of_block (two h).2)
theorem shfl (d a b : Reg) : Statement (.shfl d a b) := fun h =>
  wordT_fits (by decide) (by decide) (code_of_block ((two (two h).1).1)) (code_of_block (two ((two h).1)).2) (code_of_block (two h).2)
theorem shflup (d a b : Reg) : Statement (.shflup d a b) := fun h =>
  wordT_fits (by decide) (by decide) (code_of_block ((two (two h).1).1)) (code_of_block (two ((two h).1)).2) (code_of_block (two h).2)
theorem shfldn (d a b : Reg) : Statement (.shfldn d a b) := fun h =>
  wordT_fits (by decide) (by decide) (code_of_block ((two (two h).1).1)) (code_of_block (two ((two h).1)).2) (code_of_block (two h).2)
theorem shflx (d a b : Reg) : Statement (.shflx d a b) := fun h =>
  wordT_fits (by decide) (by decide) (code_of_block ((two (two h).1).1)) (code_of_block (two ((two h).1)).2) (code_of_block (two h).2)
theorem qxch (d a b : Reg) : Statement (.qxch d a b) := fun h =>
  wordT_fits (by decide) (by decide) (code_of_block ((two (two h).1).1)) (code_of_block (two ((two h).1)).2) (code_of_block (two h).2)
theorem ballot (d a : Reg) : Statement (.ballot d a) := fun h =>
  wordT_fits (by decide) (by decide) (code_of_block ((two h).1)) (code_of_block (two h).2) (by decide)
theorem vany (d a : Reg) : Statement (.vany d a) := fun h =>
  wordT_fits (by decide) (by decide) (code_of_block ((two h).1)) (code_of_block (two h).2) (by decide)
theorem vall (d a : Reg) : Statement (.vall d a) := fun h =>
  wordT_fits (by decide) (by decide) (code_of_block ((two h).1)) (code_of_block (two h).2) (by decide)
theorem laneMatch (d a : Reg) : Statement (.laneMatch d a) := fun h =>
  wordT_fits (by decide) (by decide) (code_of_block ((two h).1)) (code_of_block (two h).2) (by decide)
theorem ired (d a b : Reg) : Statement (.ired d a b) := fun h =>
  wordT_fits (by decide) (by decide) (code_of_block ((two (two h).1).1)) (code_of_block (two ((two h).1)).2) (code_of_block (two h).2)
theorem fred (d a b : Reg) : Statement (.fred d a b) := fun h =>
  wordT_fits (by decide) (by decide) (code_of_block ((two (two h).1).1)) (code_of_block (two ((two h).1)).2) (code_of_block (two h).2)
theorem iscan (d a b : Reg) : Statement (.iscan d a b) := fun h =>
  wordT_fits (by decide) (by decide) (code_of_block ((two (two h).1).1)) (code_of_block (two ((two h).1)).2) (code_of_block (two h).2)
theorem fscan (d a b : Reg) : Statement (.fscan d a b) := fun h =>
  wordT_fits (by decide) (by decide) (code_of_block ((two (two h).1).1)) (code_of_block (two ((two h).1)).2) (code_of_block (two h).2)
theorem elect (d : Reg) : Statement (.elect d) := fun h =>
  wordT_fits (by decide) (by decide) (code_of_block h) (by decide) (by decide)
theorem sread (d : Reg) (k : Nat) : Statement (.sread d k) := fun h =>
  wordT_fits (by decide) (by decide) (code_of_block ((two h).1)) (by decide) (lt_of_lt_of_le (of_decide_eq_true (two h).2) (by decide))
theorem swrite (a : Reg) (k : Nat) : Statement (.swrite a k) := fun h =>
  wordT_fits (by decide) (by decide) (by decide) (code_of_block ((two h).1)) (by have hk : (k == 16 || k == 17 || k == 19) = true := (two h).2; simp at hk; omega)
theorem ld (d a : Reg) (z : Size) (off : Int) : Statement (.ld d a z off) := fun h =>
  wordM_fits (by decide) (code_of_block ((two (two h).1).1)) (code_of_block (two ((two h).1)).2) (size_code _) (unsignOf_lt _ _)
theorem st (d a : Reg) (z : Size) (off : Int) : Statement (.st d a z off) := fun h =>
  wordM_fits (by decide) (code_of_block ((two (two h).1).1)) (code_of_block (two ((two h).1)).2) (size_code _) (unsignOf_lt _ _)
theorem ldl (d a : Reg) (z : Size) (off : Int) : Statement (.ldl d a z off) := fun h =>
  wordM_fits (by decide) (code_of_block ((two (two h).1).1)) (code_of_block (two ((two h).1)).2) (size_code _) (unsignOf_lt _ _)
theorem stl (d a : Reg) (z : Size) (off : Int) : Statement (.stl d a z off) := fun h =>
  wordM_fits (by decide) (code_of_block ((two (two h).1).1)) (code_of_block (two ((two h).1)).2) (size_code _) (unsignOf_lt _ _)
theorem ldx (d a b : Reg) (z : Size) : Statement (.ldx d a b z) := fun h =>
  wordT_fits (by decide) (by have := size_code z; omega) (code_of_block ((two (two h).1).1)) (code_of_block (two ((two h).1)).2) (code_of_block (two h).2)
theorem stx (d a b : Reg) (z : Size) : Statement (.stx d a b z) := fun h =>
  wordT_fits (by decide) (by have := size_code z; omega) (code_of_block ((two (two h).1).1)) (code_of_block (two ((two h).1)).2) (code_of_block (two h).2)
theorem atomAdd (d a b : Reg) : Statement (.atomAdd d a b) := fun h =>
  wordT_fits (by decide) (by decide) (code_of_block ((two (two h).1).1)) (code_of_block (two ((two h).1)).2) (code_of_block (two h).2)
theorem atomAnd (d a b : Reg) : Statement (.atomAnd d a b) := fun h =>
  wordT_fits (by decide) (by decide) (code_of_block ((two (two h).1).1)) (code_of_block (two ((two h).1)).2) (code_of_block (two h).2)
theorem atomOr (d a b : Reg) : Statement (.atomOr d a b) := fun h =>
  wordT_fits (by decide) (by decide) (code_of_block ((two (two h).1).1)) (code_of_block (two ((two h).1)).2) (code_of_block (two h).2)
theorem atomXor (d a b : Reg) : Statement (.atomXor d a b) := fun h =>
  wordT_fits (by decide) (by decide) (code_of_block ((two (two h).1).1)) (code_of_block (two ((two h).1)).2) (code_of_block (two h).2)
theorem atomMin (d a b : Reg) : Statement (.atomMin d a b) := fun h =>
  wordT_fits (by decide) (by decide) (code_of_block ((two (two h).1).1)) (code_of_block (two ((two h).1)).2) (code_of_block (two h).2)
theorem atomMax (d a b : Reg) : Statement (.atomMax d a b) := fun h =>
  wordT_fits (by decide) (by decide) (code_of_block ((two (two h).1).1)) (code_of_block (two ((two h).1)).2) (code_of_block (two h).2)
theorem atomUmin (d a b : Reg) : Statement (.atomUmin d a b) := fun h =>
  wordT_fits (by decide) (by decide) (code_of_block ((two (two h).1).1)) (code_of_block (two ((two h).1)).2) (code_of_block (two h).2)
theorem atomUmax (d a b : Reg) : Statement (.atomUmax d a b) := fun h =>
  wordT_fits (by decide) (by decide) (code_of_block ((two (two h).1).1)) (code_of_block (two ((two h).1)).2) (code_of_block (two h).2)
theorem atomXchg (d a b : Reg) : Statement (.atomXchg d a b) := fun h =>
  wordT_fits (by decide) (by decide) (code_of_block ((two (two h).1).1)) (code_of_block (two ((two h).1)).2) (code_of_block (two h).2)
theorem atomCas (d a b : Reg) : Statement (.atomCas d a b) := fun h =>
  wordT_fits (by decide) (by decide) (code_of_block ((two (two h).1).1)) (code_of_block (two ((two h).1)).2) (code_of_block (two h).2)
theorem atomInc (d a b : Reg) : Statement (.atomInc d a b) := fun h =>
  wordT_fits (by decide) (by decide) (code_of_block ((two (two h).1).1)) (code_of_block (two ((two h).1)).2) (code_of_block (two h).2)
theorem atomFadd (d a b : Reg) : Statement (.atomFadd d a b) := fun h =>
  wordT_fits (by decide) (by decide) (code_of_block ((two (two h).1).1)) (code_of_block (two ((two h).1)).2) (code_of_block (two h).2)
theorem atomHadd2B (d a b : Reg) : Statement (.atomHadd2B d a b) := fun h =>
  wordT_fits (by decide) (by decide) (code_of_block ((two (two h).1).1)) (code_of_block (two ((two h).1)).2) (code_of_block (two h).2)
theorem atomHadd2H (d a b : Reg) : Statement (.atomHadd2H d a b) := fun h =>
  wordT_fits (by decide) (by decide) (code_of_block ((two (two h).1).1)) (code_of_block (two ((two h).1)).2) (code_of_block (two h).2)
theorem atomFmin (d a b : Reg) : Statement (.atomFmin d a b) := fun h =>
  wordT_fits (by decide) (by decide) (code_of_block ((two (two h).1).1)) (code_of_block (two ((two h).1)).2) (code_of_block (two h).2)
theorem atomFmax (d a b : Reg) : Statement (.atomFmax d a b) := fun h =>
  wordT_fits (by decide) (by decide) (code_of_block ((two (two h).1).1)) (code_of_block (two ((two h).1)).2) (code_of_block (two h).2)
theorem atomWAdd (d a b : Reg) : Statement (.atomWAdd d a b) := fun h =>
  wordT_fits (by decide) (by decide) (code_of_block ((two (two h).1).1)) (code_of_block (two ((two h).1)).2) (code_of_block (two h).2)
theorem atomWAnd (d a b : Reg) : Statement (.atomWAnd d a b) := fun h =>
  wordT_fits (by decide) (by decide) (code_of_block ((two (two h).1).1)) (code_of_block (two ((two h).1)).2) (code_of_block (two h).2)
theorem atomWOr (d a b : Reg) : Statement (.atomWOr d a b) := fun h =>
  wordT_fits (by decide) (by decide) (code_of_block ((two (two h).1).1)) (code_of_block (two ((two h).1)).2) (code_of_block (two h).2)
theorem atomWXor (d a b : Reg) : Statement (.atomWXor d a b) := fun h =>
  wordT_fits (by decide) (by decide) (code_of_block ((two (two h).1).1)) (code_of_block (two ((two h).1)).2) (code_of_block (two h).2)
theorem atomWMin (d a b : Reg) : Statement (.atomWMin d a b) := fun h =>
  wordT_fits (by decide) (by decide) (code_of_block ((two (two h).1).1)) (code_of_block (two ((two h).1)).2) (code_of_block (two h).2)
theorem atomWMax (d a b : Reg) : Statement (.atomWMax d a b) := fun h =>
  wordT_fits (by decide) (by decide) (code_of_block ((two (two h).1).1)) (code_of_block (two ((two h).1)).2) (code_of_block (two h).2)
theorem atomWUmin (d a b : Reg) : Statement (.atomWUmin d a b) := fun h =>
  wordT_fits (by decide) (by decide) (code_of_block ((two (two h).1).1)) (code_of_block (two ((two h).1)).2) (code_of_block (two h).2)
theorem atomWUmax (d a b : Reg) : Statement (.atomWUmax d a b) := fun h =>
  wordT_fits (by decide) (by decide) (code_of_block ((two (two h).1).1)) (code_of_block (two ((two h).1)).2) (code_of_block (two h).2)
theorem atomWXchg (d a b : Reg) : Statement (.atomWXchg d a b) := fun h =>
  wordT_fits (by decide) (by decide) (code_of_block ((two (two h).1).1)) (code_of_block (two ((two h).1)).2) (code_of_block (two h).2)
theorem atomWCas (d a b : Reg) : Statement (.atomWCas d a b) := fun h =>
  wordT_fits (by decide) (by decide) (code_of_block ((two (two h).1).1)) (code_of_block (two ((two h).1)).2) (code_of_block (two h).2)
theorem atomWInc (d a b : Reg) : Statement (.atomWInc d a b) := fun h =>
  wordT_fits (by decide) (by decide) (code_of_block ((two (two h).1).1)) (code_of_block (two ((two h).1)).2) (code_of_block (two h).2)
theorem atomlAdd (d a b : Reg) : Statement (.atomlAdd d a b) := fun h =>
  wordT_fits (by decide) (by decide) (code_of_block ((two (two h).1).1)) (code_of_block (two ((two h).1)).2) (code_of_block (two h).2)
theorem atomlAnd (d a b : Reg) : Statement (.atomlAnd d a b) := fun h =>
  wordT_fits (by decide) (by decide) (code_of_block ((two (two h).1).1)) (code_of_block (two ((two h).1)).2) (code_of_block (two h).2)
theorem atomlOr (d a b : Reg) : Statement (.atomlOr d a b) := fun h =>
  wordT_fits (by decide) (by decide) (code_of_block ((two (two h).1).1)) (code_of_block (two ((two h).1)).2) (code_of_block (two h).2)
theorem atomlXor (d a b : Reg) : Statement (.atomlXor d a b) := fun h =>
  wordT_fits (by decide) (by decide) (code_of_block ((two (two h).1).1)) (code_of_block (two ((two h).1)).2) (code_of_block (two h).2)
theorem atomlMin (d a b : Reg) : Statement (.atomlMin d a b) := fun h =>
  wordT_fits (by decide) (by decide) (code_of_block ((two (two h).1).1)) (code_of_block (two ((two h).1)).2) (code_of_block (two h).2)
theorem atomlMax (d a b : Reg) : Statement (.atomlMax d a b) := fun h =>
  wordT_fits (by decide) (by decide) (code_of_block ((two (two h).1).1)) (code_of_block (two ((two h).1)).2) (code_of_block (two h).2)
theorem atomlUmin (d a b : Reg) : Statement (.atomlUmin d a b) := fun h =>
  wordT_fits (by decide) (by decide) (code_of_block ((two (two h).1).1)) (code_of_block (two ((two h).1)).2) (code_of_block (two h).2)
theorem atomlUmax (d a b : Reg) : Statement (.atomlUmax d a b) := fun h =>
  wordT_fits (by decide) (by decide) (code_of_block ((two (two h).1).1)) (code_of_block (two ((two h).1)).2) (code_of_block (two h).2)
theorem atomlXchg (d a b : Reg) : Statement (.atomlXchg d a b) := fun h =>
  wordT_fits (by decide) (by decide) (code_of_block ((two (two h).1).1)) (code_of_block (two ((two h).1)).2) (code_of_block (two h).2)
theorem atomlCas (d a b : Reg) : Statement (.atomlCas d a b) := fun h =>
  wordT_fits (by decide) (by decide) (code_of_block ((two (two h).1).1)) (code_of_block (two ((two h).1)).2) (code_of_block (two h).2)
theorem atomlInc (d a b : Reg) : Statement (.atomlInc d a b) := fun h =>
  wordT_fits (by decide) (by decide) (code_of_block ((two (two h).1).1)) (code_of_block (two ((two h).1)).2) (code_of_block (two h).2)
theorem atomlFadd (d a b : Reg) : Statement (.atomlFadd d a b) := fun h =>
  wordT_fits (by decide) (by decide) (code_of_block ((two (two h).1).1)) (code_of_block (two ((two h).1)).2) (code_of_block (two h).2)
theorem atomlHadd2B (d a b : Reg) : Statement (.atomlHadd2B d a b) := fun h =>
  wordT_fits (by decide) (by decide) (code_of_block ((two (two h).1).1)) (code_of_block (two ((two h).1)).2) (code_of_block (two h).2)
theorem atomlHadd2H (d a b : Reg) : Statement (.atomlHadd2H d a b) := fun h =>
  wordT_fits (by decide) (by decide) (code_of_block ((two (two h).1).1)) (code_of_block (two ((two h).1)).2) (code_of_block (two h).2)
theorem atomlFmin (d a b : Reg) : Statement (.atomlFmin d a b) := fun h =>
  wordT_fits (by decide) (by decide) (code_of_block ((two (two h).1).1)) (code_of_block (two ((two h).1)).2) (code_of_block (two h).2)
theorem atomlFmax (d a b : Reg) : Statement (.atomlFmax d a b) := fun h =>
  wordT_fits (by decide) (by decide) (code_of_block ((two (two h).1).1)) (code_of_block (two ((two h).1)).2) (code_of_block (two h).2)
theorem bra (i : Int) : Statement (.bra i) := fun _ => wordU_fits (by decide) (by decide) (unsignOf_lt _ _)
theorem bz (a : Reg) (i : Int) : Statement (.bz a i) := fun h =>
  wordU_fits (by decide) (code_of_block ((two h).1)) (unsignOf_lt _ _)
theorem bnz (a : Reg) (i : Int) : Statement (.bnz a i) := fun h =>
  wordU_fits (by decide) (code_of_block ((two h).1)) (unsignOf_lt _ _)
theorem call (d : Reg) (i : Int) : Statement (.call d i) := fun h =>
  wordU_fits (by decide) (code_of_block ((two h).1)) (unsignOf_lt _ _)
theorem jmp (a : Reg) : Statement (.jmp a) := fun h =>
  wordT_fits (by decide) (by decide) (by decide) (code_of_block h) (by decide)
theorem jcall (d a : Reg) : Statement (.jcall d a) := fun h =>
  wordT_fits (by decide) (by decide) (code_of_block ((two h).1)) (code_of_block (two h).2) (by decide)
theorem ret (a : Reg) : Statement (.ret a) := fun h =>
  wordT_fits (by decide) (by decide) (by decide) (code_of_block h) (by decide)
theorem sleep (k : Nat) : Statement (.sleep k) := fun h =>
  wordT_fits (by decide) (by decide) (by decide) (by decide) (lt_of_lt_of_le (of_decide_eq_true h) (by decide))
theorem trap (k : Nat) : Statement (.trap k) := fun h =>
  wordT_fits (by decide) (by decide) (by decide) (by decide) (lt_of_lt_of_le (of_decide_eq_true h) (by decide))
theorem tret (k : TretAct) : Statement (.tret k) := fun _ => wordT_fits (by decide) (by decide) (by decide) (by decide) (tret_code _)
theorem regclm (k : Nat) : Statement (.regclm k) := fun h =>
  wordT_fits (by decide) (by decide) (by decide) (by decide) (by have hk : (0 < k && k < 65) = true := h; simp at hk; omega)
theorem regrel (k : Nat) : Statement (.regrel k) := fun h =>
  wordT_fits (by decide) (by decide) (by decide) (by decide) (by have hk : (0 < k && k < 65) = true := h; simp at hk; omega)
theorem wbase (k : Nat) : Statement (.wbase k) := fun h =>
  wordT_fits (by decide) (by decide) (by decide) (by decide) (lt_of_lt_of_le (of_decide_eq_true h) (by decide))
theorem regstat (d : Reg) : Statement (.regstat d) := fun h =>
  wordT_fits (by decide) (by decide) (code_of_block h) (by decide) (by decide)
theorem halloc (d a b : Reg) : Statement (.halloc d a b) := fun h =>
  wordT_fits (by decide) (by decide) (code_of_block ((two (two h).1).1)) (code_of_block (two ((two h).1)).2) (code_of_block (two h).2)
theorem hfree (a : Reg) : Statement (.hfree a) := fun h =>
  wordT_fits (by decide) (by decide) (by decide) (code_of_block h) (by decide)
theorem hseal (a : Reg) : Statement (.hseal a) := fun h =>
  wordT_fits (by decide) (by decide) (by decide) (code_of_block h) (by decide)
theorem hwait (a : Reg) : Statement (.hwait a) := fun h =>
  wordT_fits (by decide) (by decide) (by decide) (code_of_block h) (by decide)
theorem hstat (d a : Reg) : Statement (.hstat d a) := fun h =>
  wordT_fits (by decide) (by decide) (code_of_block ((two h).1)) (code_of_block (two h).2) (by decide)
theorem hgen (d a : Reg) : Statement (.hgen d a) := fun h =>
  wordT_fits (by decide) (by decide) (code_of_block ((two h).1)) (code_of_block (two h).2) (by decide)
theorem lsfence (a : Reg) : Statement (.lsfence a) := fun h =>
  wordT_fits (by decide) (by decide) (by decide) (code_of_block h) (by decide)
theorem tfetch (d a b : Reg) : Statement (.tfetch d a b) := fun h =>
  wordT_fits (by decide) (by decide) (code_of_block ((two (two h).1).1)) (code_of_block (two ((two h).1)).2) (code_of_block (two h).2)
theorem tstore (d a b : Reg) : Statement (.tstore d a b) := fun h =>
  wordT_fits (by decide) (by decide) (code_of_block ((two (two h).1).1)) (code_of_block (two ((two h).1)).2) (code_of_block (two h).2)
theorem tmcast (d a : Reg) : Statement (.tmcast d a) := fun h =>
  wordT_fits (by decide) (by decide) (code_of_block ((two h).1)) (code_of_block (two h).2) (by decide)
theorem lrbind (a b : Reg) : Statement (.lrbind a b) := fun h =>
  wordT_fits (by decide) (by decide) (by decide) (code_of_block ((two h).1)) (code_of_block (two h).2)
theorem lrflush (b : Reg) : Statement (.lrflush b) := fun h =>
  wordT_fits (by decide) (by decide) (by decide) (by decide) (code_of_block h)
theorem abclaim (d a : Reg) : Statement (.abclaim d a) := fun h =>
  wordT_fits (by decide) (by decide) (code_of_block ((two h).1)) (code_of_block (two h).2) (by decide)
theorem abrel (a : Reg) : Statement (.abrel a) := fun h =>
  wordT_fits (by decide) (by decide) (by decide) (code_of_block h) (by decide)
theorem mzero (a : Reg) : Statement (.mzero a) := fun h =>
  wordT_fits (by decide) (by decide) (by decide) (code_of_block h) (by decide)
theorem mma (d a b : Reg) : Statement (.mma d a b) := fun h =>
  wordT_fits (by decide) (by decide) (code_of_block ((two (two h).1).1)) (code_of_block (two ((two h).1)).2) (code_of_block (two h).2)
theorem mloop (d a b : Reg) : Statement (.mloop d a b) := fun h =>
  wordT_fits (by decide) (by decide) (code_of_block ((two (two h).1).1)) (code_of_block (two ((two h).1)).2) (code_of_block (two h).2)
theorem mdrain (d a b : Reg) : Statement (.mdrain d a b) := fun h =>
  wordT_fits (by decide) (by decide) (code_of_block ((two (two h).1).1)) (code_of_block (two ((two h).1)).2) (code_of_block (two h).2)
theorem bcopy (d a b : Reg) : Statement (.bcopy d a b) := fun h =>
  wordT_fits (by decide) (by decide) (code_of_block ((two (two h).1).1)) (code_of_block (two ((two h).1)).2) (code_of_block (two h).2)
theorem embag (d a b : Reg) : Statement (.embag d a b) := fun h =>
  wordT_fits (by decide) (by decide) (code_of_block ((two (two h).1).1)) (code_of_block (two ((two h).1)).2) (code_of_block (two h).2)
theorem tlwait (a b : Reg) : Statement (.tlwait a b) := fun h =>
  wordT_fits (by decide) (by decide) (by decide) (code_of_block ((two h).1)) (code_of_block (two h).2)
theorem tlread (d b : Reg) : Statement (.tlread d b) := fun h =>
  wordT_fits (by decide) (by decide) (code_of_block ((two h).1)) (by decide) (code_of_block (two h).2)
theorem qbind (a b : Reg) : Statement (.qbind a b) := fun h =>
  wordT_fits (by decide) (by decide) (by decide) (code_of_block ((two h).1)) (code_of_block (two h).2)
theorem qunbind (a : Reg) : Statement (.qunbind a) := fun h =>
  wordT_fits (by decide) (by decide) (by decide) (code_of_block h) (by decide)
theorem qstat (d a : Reg) : Statement (.qstat d a) := fun h =>
  wordT_fits (by decide) (by decide) (code_of_block ((two h).1)) (code_of_block (two h).2) (by decide)
theorem binit (a b : Reg) : Statement (.binit a b) := fun h =>
  wordT_fits (by decide) (by decide) (by decide) (code_of_block ((two h).1)) (code_of_block (two h).2)
theorem bexpect (a b : Reg) : Statement (.bexpect a b) := fun h =>
  wordT_fits (by decide) (by decide) (by decide) (code_of_block ((two h).1)) (code_of_block (two h).2)
theorem barrive (d a : Reg) : Statement (.barrive d a) := fun h =>
  wordT_fits (by decide) (by decide) (code_of_block ((two h).1)) (code_of_block (two h).2) (by decide)
theorem bwait (a b : Reg) : Statement (.bwait a b) := fun h =>
  wordT_fits (by decide) (by decide) (by decide) (code_of_block ((two h).1)) (code_of_block (two h).2)
theorem bcredit (a b : Reg) : Statement (.bcredit a b) := fun h =>
  wordT_fits (by decide) (by decide) (by decide) (code_of_block ((two h).1)) (code_of_block (two h).2)
theorem launch (d a b : Reg) : Statement (.launch d a b) := fun h =>
  wordT_fits (by decide) (by decide) (code_of_block ((two (two h).1).1)) (code_of_block (two ((two h).1)).2) (code_of_block (two h).2)
theorem tkpush (a : Reg) : Statement (.tkpush a) := fun h =>
  wordT_fits (by decide) (by decide) (by decide) (code_of_block h) (by decide)
theorem tkpop (d : Reg) : Statement (.tkpop d) := fun h =>
  wordT_fits (by decide) (by decide) (code_of_block h) (by decide) (by decide)
theorem tkcancel (a b : Reg) : Statement (.tkcancel a b) := fun h =>
  wordT_fits (by decide) (by decide) (by decide) (code_of_block ((two h).1)) (code_of_block (two h).2)
theorem tkstat (d a : Reg) : Statement (.tkstat d a) := fun h =>
  wordT_fits (by decide) (by decide) (code_of_block ((two h).1)) (code_of_block (two h).2) (by decide)
theorem tlbinv (d a : Reg) (k : Nat) : Statement (.tlbinv d a k) := fun h =>
  wordT_fits (by decide) (by decide) (code_of_block ((two (two h).1).1)) (code_of_block (two ((two h).1)).2) (by have hk : (k < 42 || k == 64) = true := (two h).2; simp at hk; omega)
theorem icinv (k : Nat) : Statement (.icinv k) := fun h =>
  wordT_fits (by decide) (by decide) (by decide) (by decide) (lt_of_lt_of_le (of_decide_eq_true h) (by decide))
theorem csrrd (d : Reg) (k : Nat) : Statement (.csrrd d k) := fun h =>
  wordT_fits (by decide) (by decide) (code_of_block ((two h).1)) (by decide) (by have hk : (k < 5 || (7 < k && k < 12)) = true := (two h).2; simp at hk; omega)
theorem csrwr (a : Reg) (k : Nat) : Statement (.csrwr a k) := fun h =>
  wordT_fits (by decide) (by decide) (by decide) (code_of_block ((two h).1)) (by have hk : (k < 5 || (7 < k && k < 12)) = true := (two h).2; simp at hk; omega)
theorem perfrd (d : Reg) (k : Nat) : Statement (.perfrd d k) := fun h =>
  wordT_fits (by decide) (by decide) (code_of_block ((two h).1)) (by decide) (lt_of_lt_of_le (of_decide_eq_true (two h).2) (by decide))
theorem nop : Statement (.nop) := fun _ => wordT_fits (by decide) (by decide) (by decide) (by decide) (by decide)
theorem exit : Statement (.exit) := fun _ => wordT_fits (by decide) (by decide) (by decide) (by decide) (by decide)
theorem yield : Statement (.yield) := fun _ => wordT_fits (by decide) (by decide) (by decide) (by decide) (by decide)
theorem commit : Statement (.commit) := fun _ => wordT_fits (by decide) (by decide) (by decide) (by decide) (by decide)
theorem bkpt : Statement (.bkpt) := fun _ => wordT_fits (by decide) (by decide) (by decide) (by decide) (by decide)
theorem tsync : Statement (.tsync) := fun _ => wordT_fits (by decide) (by decide) (by decide) (by decide) (by decide)
theorem trigger : Statement (.trigger) := fun _ => wordT_fits (by decide) (by decide) (by decide) (by decide) (by decide)
theorem tkdone : Statement (.tkdone) := fun _ => wordT_fits (by decide) (by decide) (by decide) (by decide) (by decide)
theorem halt : Statement (.halt) := fun _ => wordT_fits (by decide) (by decide) (by decide) (by decide) (by decide)
theorem takeRecords : Statement .takeRecords := fun _ => (by decide : (0 : Nat) < 2 ^ 31)
theorem queueEnable : Statement .queueEnable := fun _ => (by decide : (0 : Nat) < 2 ^ 31)
theorem queueReset : Statement .queueReset := fun _ => (by decide : (0 : Nat) < 2 ^ 31)
theorem imageCheck : Statement .imageCheck := fun _ => (by decide : (0 : Nat) < 2 ^ 31)
theorem placeGang : Statement .placeGang := fun _ => (by decide : (0 : Nat) < 2 ^ 31)
theorem colaunchPlace : Statement .colaunchPlace := fun _ => (by decide : (0 : Nat) < 2 ^ 31)
theorem drainStart : Statement .drainStart := fun _ => (by decide : (0 : Nat) < 2 ^ 31)
theorem drainDeadline : Statement .drainDeadline := fun _ => (by decide : (0 : Nat) < 2 ^ 31)
theorem restoreGang : Statement .restoreGang := fun _ => (by decide : (0 : Nat) < 2 ^ 31)
theorem clusterOwnerChange : Statement .clusterOwnerChange := fun _ => (by decide : (0 : Nat) < 2 ^ 31)
theorem waveRetire : Statement .waveRetire := fun _ => (by decide : (0 : Nat) < 2 ^ 31)
theorem teamRetire : Statement .teamRetire := fun _ => (by decide : (0 : Nat) < 2 ^ 31)
theorem launchComplete : Statement .launchComplete := fun _ => (by decide : (0 : Nat) < 2 ^ 31)
theorem launchDiscard : Statement .launchDiscard := fun _ => (by decide : (0 : Nat) < 2 ^ 31)
theorem launchKill : Statement .launchKill := fun _ => (by decide : (0 : Nat) < 2 ^ 31)
theorem ownerCreate : Statement .ownerCreate := fun _ => (by decide : (0 : Nat) < 2 ^ 31)
theorem ownerDestroy : Statement .ownerDestroy := fun _ => (by decide : (0 : Nat) < 2 ^ 31)
theorem setKeys : Statement .setKeys := fun _ => (by decide : (0 : Nat) < 2 ^ 31)
theorem dbtagWrite : Statement .dbtagWrite := fun _ => (by decide : (0 : Nat) < 2 ^ 31)
theorem faultdoneWrite : Statement .faultdoneWrite := fun _ => (by decide : (0 : Nat) < 2 ^ 31)
theorem hdmcfgWrite : Statement .hdmcfgWrite := fun _ => (by decide : (0 : Nat) < 2 ^ 31)
theorem biasbaseWrite : Statement .biasbaseWrite := fun _ => (by decide : (0 : Nat) < 2 ^ 31)
theorem registerWrite : Statement .registerWrite := fun _ => (by decide : (0 : Nat) < 2 ^ 31)
theorem storeEntrySend : Statement .storeEntrySend := fun _ => (by decide : (0 : Nat) < 2 ^ 31)
theorem invalidation : Statement .invalidation := fun _ => (by decide : (0 : Nat) < 2 ^ 31)
theorem storeEntryAck : Statement .storeEntryAck := fun _ => (by decide : (0 : Nat) < 2 ^ 31)
theorem atomicPerform : Statement .atomicPerform := fun _ => (by decide : (0 : Nat) < 2 ^ 31)
theorem classVResult : Statement .classVResult := fun _ => (by decide : (0 : Nat) < 2 ^ 31)
theorem regionCommit : Statement .regionCommit := fun _ => (by decide : (0 : Nat) < 2 ^ 31)
theorem cautiousModeEnd : Statement .cautiousModeEnd := fun _ => (by decide : (0 : Nat) < 2 ^ 31)
theorem starvationSweep : Statement .starvationSweep := fun _ => (by decide : (0 : Nat) < 2 ^ 31)
theorem trapEntry : Statement .trapEntry := fun _ => (by decide : (0 : Nat) < 2 ^ 31)
theorem teamPark : Statement .teamPark := fun _ => (by decide : (0 : Nat) < 2 ^ 31)
theorem faultPost : Statement .faultPost := fun _ => (by decide : (0 : Nat) < 2 ^ 31)
theorem engineCommandRelease : Statement .engineCommandRelease := fun _ => (by decide : (0 : Nat) < 2 ^ 31)
theorem engineCommandComplete : Statement .engineCommandComplete := fun _ => (by decide : (0 : Nat) < 2 ^ 31)
theorem arraySlotStart : Statement .arraySlotStart := fun _ => (by decide : (0 : Nat) < 2 ^ 31)
theorem bankSettle : Statement .bankSettle := fun _ => (by decide : (0 : Nat) < 2 ^ 31)
theorem abclaimGrant : Statement .abclaimGrant := fun _ => (by decide : (0 : Nat) < 2 ^ 31)
theorem regclmGrant : Statement .regclmGrant := fun _ => (by decide : (0 : Nat) < 2 ^ 31)
theorem sleepEnd : Statement .sleepEnd := fun _ => (by decide : (0 : Nat) < 2 ^ 31)
theorem coreGate : Statement .coreGate := fun _ => (by decide : (0 : Nat) < 2 ^ 31)
theorem coreWake : Statement .coreWake := fun _ => (by decide : (0 : Nat) < 2 ^ 31)
theorem coreResume : Statement .coreResume := fun _ => (by decide : (0 : Nat) < 2 ^ 31)
theorem powerThrottle : Statement .powerThrottle := fun _ => (by decide : (0 : Nat) < 2 ^ 31)
theorem railExcursion : Statement .railExcursion := fun _ => (by decide : (0 : Nat) < 2 ^ 31)
theorem moduleReset : Statement .moduleReset := fun _ => (by decide : (0 : Nat) < 2 ^ 31)
theorem deviceIdWrite : Statement .deviceIdWrite := fun _ => (by decide : (0 : Nat) < 2 ^ 31)
theorem firmwareUpdate : Statement .firmwareUpdate := fun _ => (by decide : (0 : Nat) < 2 ^ 31)
theorem attestationRequest : Statement .attestationRequest := fun _ => (by decide : (0 : Nat) < 2 ^ 31)
theorem mrExtend : Statement .mrExtend := fun _ => (by decide : (0 : Nat) < 2 ^ 31)
theorem debugUnlock : Statement .debugUnlock := fun _ => (by decide : (0 : Nat) < 2 ^ 31)
theorem hkPwrlimWrite : Statement .hkPwrlimWrite := fun _ => (by decide : (0 : Nat) < 2 ^ 31)
theorem hkEccClear : Statement .hkEccClear := fun _ => (by decide : (0 : Nat) < 2 ^ 31)
theorem memoryError : Statement .memoryError := fun _ => (by decide : (0 : Nat) < 2 ^ 31)
theorem memoryScrub : Statement .memoryScrub := fun _ => (by decide : (0 : Nat) < 2 ^ 31)
theorem arrayFault : Statement .arrayFault := fun _ => (by decide : (0 : Nat) < 2 ^ 31)
theorem linkRetry : Statement .linkRetry := fun _ => (by decide : (0 : Nat) < 2 ^ 31)
theorem linkDown : Statement .linkDown := fun _ => (by decide : (0 : Nat) < 2 ^ 31)
theorem fabricRequest : Statement .fabricRequest := fun _ => (by decide : (0 : Nat) < 2 ^ 31)
theorem fabricResend : Statement .fabricResend := fun _ => (by decide : (0 : Nat) < 2 ^ 31)
theorem fabricUnreachable : Statement .fabricUnreachable := fun _ => (by decide : (0 : Nat) < 2 ^ 31)
theorem leaseRequest : Statement .leaseRequest := fun _ => (by decide : (0 : Nat) < 2 ^ 31)
theorem leaseRecall : Statement .leaseRecall := fun _ => (by decide : (0 : Nat) < 2 ^ 31)
theorem leaseBlock : Statement .leaseBlock := fun _ => (by decide : (0 : Nat) < 2 ^ 31)
theorem hostSnoop : Statement .hostSnoop := fun _ => (by decide : (0 : Nat) < 2 ^ 31)
theorem hostHdmAccess : Statement .hostHdmAccess := fun _ => (by decide : (0 : Nat) < 2 ^ 31)
theorem keyFetch : Statement .keyFetch := fun _ => (by decide : (0 : Nat) < 2 ^ 31)
theorem illegalInstruction : Statement .illegalInstruction := fun _ => (by decide : (0 : Nat) < 2 ^ 31)
theorem instructionFetchFault : Statement .instructionFetchFault := fun _ => (by decide : (0 : Nat) < 2 ^ 31)
theorem elementAccessPerformed : Statement .elementAccessPerformed := fun _ => (by decide : (0 : Nat) < 2 ^ 31)
theorem leaseBlockClear : Statement .leaseBlockClear := fun _ => (by decide : (0 : Nat) < 2 ^ 31)

end Sys2Proof.Laws.EncodingFits
end

