-- ==== Sys2Proof/Tests/Slice0.lean ====
section
/-! SUPPORT. Tests of the model: ill-formed terms, words the spec writes out, small steps whose results the spec states, and
for the statements a state that meets their hypotheses. The theorems are elaborated one after the other: the kernel evaluates many
of them, and each that waits for the one before would keep a thread and its stack. -/

namespace Sys2Proof.Tests

set_option Elab.async false

open Sys2Proof.Machine Sys2Proof.Machine.Spec

/-! ## Ill-formed terms -/

theorem test_wf_register_past_v119 : (Instr.iadd (.v 120) (.v 0) (.v 0)).wf = false := by decide
theorem test_wf_queue_past_q7 : (Instr.iadd (.v 0) (.q 8) (.v 0)).wf = false := by decide
theorem test_wf_queue_with_queue_destination : (Instr.iadd (.q 0) (.q 1) (.v 0)).wf = false := by decide
theorem test_wf_queue_as_accumulator : (Instr.imad (.q 0) (.v 1) (.v 2)).wf = false := by decide
theorem test_wf_unaligned_pair : (Instr.iaddW (.v 6) (.v 8) (.v 11)).wf = false := by decide
theorem test_wf_block_past_v119 : (Instr.qscale (.v 0) (.v 120) (.v 0)).wf = false := by decide
theorem test_wf_queue_as_block : (Instr.ld (.q 0) (.v 0) .word 0).wf = false := by decide
theorem test_wf_imm11 : (Instr.addi (.v 0) (.v 0) 1024).wf = false := by decide
theorem test_wf_imm18 : (Instr.movi (.v 0) (-131073)).wf = false := by decide
theorem test_wf_off8 : (Instr.ld (.v 0) (.v 0) .word 128).wf = false := by decide
theorem test_wf_shift_amount : (Instr.shli (.v 0) (.v 0) 32).wf = false := by decide
theorem test_wf_pair_shift_amount : (Instr.shliW (.v 0) (.v 0) 64).wf = false := by decide
theorem test_wf_compare_immediate : (Instr.cmpeqi (.v 0) (.v 0) 64).wf = false := by decide
theorem test_wf_special_register : (Instr.sread (.v 0) 32).wf = false := by decide
theorem test_wf_written_special_register : (Instr.swrite (.v 0) 18).wf = false := by decide
theorem test_wf_claim_of_zero : (Instr.regclm 0).wf = false := by decide
theorem test_wf_claim_past_64 : (Instr.regrel 65).wf = false := by decide
theorem test_wf_window_base : (Instr.wbase 64).wf = false := by decide
theorem test_wf_range_code : (Instr.tlbinv (.v 0) (.v 1) 42).wf = false := by decide
theorem test_wf_csr_number : (Instr.csrrd (.v 0) 5).wf = false := by decide
theorem test_wf_perf_number : (Instr.perfrd (.v 0) 8).wf = false := by decide
theorem test_wf_icinv : (Instr.icinv 2).wf = false := by decide

/-! ## Words of the spec's own listings and tables -/

theorem test_decode_listing :
    decodeWord 0x30100400 = .ok (.ld (.v 4) (.v 0) .word 0) ∧ decodeWord 0x9A140004 = .ok (.ldlit (.v 5) 4) ∧
    decodeWord 0x20418205 = .ok (.fmul (.v 6) (.v 4) (.v 5)) ∧ decodeWord 0x32180401 = .ok (.st (.v 6) (.v 0) .word 1) ∧
    decodeWord 0x4A200000 = .ok .exit ∧ bitS 0x9A140004 = true ∧ bitS 0x20418205 = false := by
  refine ⟨rfl, rfl, rfl, rfl, rfl, rfl, rfl⟩

theorem test_decode_int_and_immediates :
    decodeWord 0x0341840A = .ok (.iaddW (.v 6) (.v 8) (.v 10)) ∧ decodeWord 0x02818205 = .ok (.umulh (.v 6) (.v 4) (.v 5)) ∧
    decodeWord 0x0A102FFD = .ok (.addi (.v 4) (.v 5) (-3)) ∧ decodeWord 0x0BE42001 = .ok (.addi (.q 1) (.v 4) 1) ∧
    decodeWord 0x16140CCD = .ok (.movi (.v 5) 3277) ∧ decodeWord 0x18173333 = .ok (.movhi (.v 5) 0x33333) ∧
    decodeWord 0x12218303 = .ok (.shri (.v 6) (.v 6) 3) ∧ decodeWord 0x14004019 = .ok (.cmpeqi (.v 1) (.v 0) 25) := by
  refine ⟨rfl, rfl, rfl, rfl, rfl, rfl, rfl, rfl⟩

theorem test_decode_compare_and_move :
    decodeWord 0x0683C385 = .ok (.cmpltu (.v 15) (.v 7) (.v 5)) ∧ decodeWord 0x08C34600 = .ok (.mov (.v 13) (.v 12)) ∧
    decodeWord 0x08CB3C00 = .ok (.mov (.v 44) (.q 0)) := by
  refine ⟨rfl, rfl, rfl⟩

/-- R158: LOGIC is 0x0400_0000 + F × 2^21 + d × 2^14 + a × 2^7 + b; XNOR is F = 5. -/
theorem test_decode_logic : decodeWord (0x04000000 + 5 * 2 ^ 21 + 3 * 2 ^ 14 + 1 * 2 ^ 7 + 2) = .ok (.xnor (.v 3) (.v 1) (.v 2)) :=
  rfl

theorem test_decode_float :
    decodeWord 0xA0628205 = .ok (.ffma (.v 10) (.v 4) (.v 5)) ∧ decodeWord 0x20A50C9B = .ok (.fnfma (.v 20) (.v 25) (.v 27)) := by
  refine ⟨rfl, rfl⟩

/-- R183: FPU1 is 0x2200_0000 + F × 2^21 + …; R187: HALF2 is 0x2400_0000 + F × 2^21 + …. -/
theorem test_decode_float_unary_and_halves :
    decodeWord (0x22000000 + 6 * 2 ^ 14 + 4 * 2 ^ 7) = .ok (.fabs (.v 6) (.v 4)) ∧
    decodeWord (0x24000000 + 6 * 2 ^ 14 + 4 * 2 ^ 7 + 5) = .ok (.hadd2B (.v 6) (.v 4) (.v 5)) := by
  refine ⟨rfl, rfl⟩

theorem test_decode_conversion :
    decodeWord 0xA6E30208 = .ok (.qscale (.v 12) (.v 4) (.v 8)) ∧ decodeWord 0xA6A30208 = .ok (.cvtPacks (.v 12) (.v 4) (.v 8)) := by
  refine ⟨rfl, rfl⟩

theorem test_decode_special_registers :
    decodeWord 0x2A010000 = .ok (.sread (.v 4) 0) ∧ decodeWord 0x2A200290 = .ok (.swrite (.v 5) 16) ∧
    decodeWord 0x2A000014 = .ok (.sread (.v 0) 20) ∧ decodeWord 0x2A00C01A = .ok (.sread (.v 3) 26) := by
  refine ⟨rfl, rfl, rfl, rfl⟩

theorem test_decode_memory :
    decodeWord 0x30200602 = .ok (.ld (.v 8) (.v 0) .qd 2) ∧ decodeWord 0x38420206 = .ok (.ldx (.v 8) (.v 4) (.v 6) .uh) ∧
    decodeWord 0x39820206 = .ok (.stx (.v 8) (.v 4) (.v 6) .word) ∧ decodeWord 0x36809E00 = .ok (.stl (.v 32) (.v 19) .qd 0) ∧
    decodeWord 0xB49D2400 = .ok (.ldl (.v 39) (.v 36) .word 0) := by
  refine ⟨rfl, rfl, rfl, rfl, rfl⟩

theorem test_decode_atomics :
    decodeWord 0x3A028206 = .ok (.atomAdd (.v 10) (.v 4) (.v 6)) ∧ decodeWord 0x3B228206 = .ok (.atomCas (.v 10) (.v 4) (.v 6)) ∧
    decodeWord 0x3B828206 = .ok (.atomHadd2B (.v 10) (.v 4) (.v 6)) ∧
    decodeWord 0x3D22820C = .ok (.atomWCas (.v 10) (.v 4) (.v 12)) ∧ decodeWord 0x3EC28206 = .ok (.atomlUmin (.v 10) (.v 4) (.v 6)) ∧
    decodeWord 0x3E8A5228 = .ok (.atomlMin (.v 41) (.v 36) (.v 40)) ∧ decodeWord 0x3C8B912C = .ok (.atomWMin (.v 46) (.v 34) (.v 44)) := by
  refine ⟨rfl, rfl, rfl, rfl, rfl, rfl, rfl⟩

theorem test_decode_control :
    decodeWord 0x4427FFFB = .ok (.bnz (.v 9) (-5)) ∧ decodeWord 0x4003FFF0 = .ok (.bra (-16)) ∧
    decodeWord 0x426BFFFE = .ok (.bz (.v 26) (-2)) ∧ decodeWord 0x48000C00 = .ok (.jmp (.v 24)) ∧
    decodeWord 0x4A000000 = .ok .nop ∧ decodeWord 0x4A400000 = .ok .yield ∧ decodeWord 0x4A600000 = .ok .commit ∧
    decodeWord 0x4AA00000 = .ok .bkpt ∧ decodeWord 0x4AC00007 = .ok (.trap 7) ∧ decodeWord 0x4AE00004 = .ok (.tret .killLaunch) := by
  refine ⟨rfl, rfl, rfl, rfl, rfl, rfl, rfl, rfl, rfl, rfl⟩

theorem test_decode_register_pool :
    decodeWord 0x4C000003 = .ok (.regclm 3) ∧ decodeWord 0xCC200007 = .ok (.regrel 7) ∧ decodeWord 0x4C400006 = .ok (.wbase 6) ∧
    decodeWord 0x4C614000 = .ok (.regstat (.v 5)) := by
  refine ⟨rfl, rfl, rfl, rfl⟩

theorem test_decode_handles :
    decodeWord 0x50034205 = .ok (.halloc (.v 13) (.v 4) (.v 5)) ∧ decodeWord 0x50200680 = .ok (.hfree (.v 13)) ∧
    decodeWord 0x50400680 = .ok (.hseal (.v 13)) ∧ decodeWord 0x50600680 = .ok (.hwait (.v 13)) ∧
    decodeWord 0x50818680 = .ok (.hstat (.v 6) (.v 13)) ∧ decodeWord 0x50A18680 = .ok (.hgen (.v 6) (.v 13)) ∧
    decodeWord 0x50C00680 = .ok (.lsfence (.v 13)) := by
  refine ⟨rfl, rfl, rfl, rfl, rfl, rfl, rfl⟩

theorem test_decode_tiles :
    decodeWord 0x52050610 = .ok (.tfetch (.v 20) (.v 12) (.v 16)) ∧ decodeWord 0x52250610 = .ok (.tstore (.v 20) (.v 12) (.v 16)) ∧
    decodeWord 0x52458400 = .ok (.tmcast (.v 22) (.v 8)) ∧ decodeWord 0x5260030C = .ok (.lrbind (.v 6) (.v 12)) ∧
    decodeWord 0x5280000C = .ok (.lrflush (.v 12)) ∧ decodeWord 0x5606040C = .ok (.bcopy (.v 24) (.v 8) (.v 12)) := by
  refine ⟨rfl, rfl, rfl, rfl, rfl, rfl⟩

theorem test_decode_matrix :
    decodeWord 0x54014200 = .ok (.abclaim (.v 5) (.v 4)) ∧ decodeWord 0x54200280 = .ok (.abrel (.v 5)) ∧
    decodeWord 0x54400400 = .ok (.mzero (.v 8)) ∧ decodeWord 0x5465040C = .ok (.mma (.v 20) (.v 8) (.v 12)) ∧
    decodeWord 0x5485040C = .ok (.mloop (.v 20) (.v 8) (.v 12)) ∧ decodeWord 0x54A58807 = .ok (.mdrain (.v 22) (.v 16) (.v 7)) := by
  refine ⟨rfl, rfl, rfl, rfl, rfl, rfl⟩

theorem test_decode_engine_and_queues :
    decodeWord 0x5625040C = .ok (.embag (.v 20) (.v 8) (.v 12)) ∧ decodeWord 0x56400A04 = .ok (.tlwait (.v 20) (.v 4)) ∧
    decodeWord 0x56658004 = .ok (.tlread (.v 22) (.v 4)) ∧ decodeWord 0x56800205 = .ok (.qbind (.v 4) (.v 5)) ∧
    decodeWord 0x56A00200 = .ok (.qunbind (.v 4)) ∧ decodeWord 0x56C18200 = .ok (.qstat (.v 6) (.v 4)) := by
  refine ⟨rfl, rfl, rfl, rfl, rfl, rfl⟩

theorem test_decode_sync :
    decodeWord 0x58000307 = .ok (.binit (.v 6) (.v 7)) ∧ decodeWord 0x58200307 = .ok (.bexpect (.v 6) (.v 7)) ∧
    decodeWord 0x58420300 = .ok (.barrive (.v 8) (.v 6)) ∧ decodeWord 0x58600308 = .ok (.bwait (.v 6) (.v 8)) ∧
    decodeWord 0x58800307 = .ok (.bcredit (.v 6) (.v 7)) ∧ decodeWord 0x58A00000 = .ok .tsync ∧
    decodeWord 0x58C00000 = .ok .trigger ∧ decodeWord 0x58E28206 = .ok (.launch (.v 10) (.v 4) (.v 6)) := by
  refine ⟨rfl, rfl, rfl, rfl, rfl, rfl, rfl, rfl⟩

theorem test_decode_tasks :
    decodeWord 0x5A000800 = .ok (.tkpush (.v 16)) ∧ decodeWord 0x5A260000 = .ok (.tkpop (.v 24)) ∧
    decodeWord 0x5A400000 = .ok .tkdone ∧ decodeWord 0x5A600205 = .ok (.tkcancel (.v 4) (.v 5)) ∧
    decodeWord 0x5A818200 = .ok (.tkstat (.v 6) (.v 4)) := by
  refine ⟨rfl, rfl, rfl, rfl, rfl⟩

theorem test_decode_sys :
    decodeWord 0x5C014202 = .ok (.tlbinv (.v 5) (.v 4) 2) ∧ decodeWord 0x5C200000 = .ok (.icinv 0) ∧
    decodeWord 0x5C418003 = .ok (.csrrd (.v 6) 3) ∧ decodeWord 0x5C600303 = .ok (.csrwr (.v 6) 3) ∧
    decodeWord 0x5C800000 = .ok .halt ∧ decodeWord 0x5CA18001 = .ok (.perfrd (.v 6) 1) := by
  refine ⟨rfl, rfl, rfl, rfl, rfl, rfl⟩

/-- R106's worked example of illegal words. -/
theorem test_decode_illegal :
    decodeWord 0x0341840B = .error .field ∧ decodeWord 0x30240602 = .error .field ∧ decodeWord 0x22004101 = .error .field ∧
    decodeWord 0x229E0200 = .error .field ∧ decodeWord 0x2C000000 = .error .opcode ∧ decodeWord 0 = .error .opcode := by
  refine ⟨rfl, rfl, rfl, rfl, rfl, rfl⟩

/-- R5: the bytes of a word lie with bits [7:0] first. -/
theorem test_decode_bytes : decode [0x0A, 0x84, 0x41, 0x03] = .ok (false, .iaddW (.v 6) (.v 8) (.v 10), []) := rfl

theorem test_encode_words :
    encode true (.ldlit (.v 5) 4) = 0x9A140004 ∧ encode false (.bnz (.v 9) (-5)) = 0x4427FFFB ∧
    encode false (.stx (.v 8) (.v 4) (.v 6) .word) = 0x39820206 ∧ encode false (.csrwr (.v 6) 3) = 0x5C600303 := by decide

/-! ## One step -/

/-- A team of one wave of four threads at user level, the set of all its lanes issuing; register n of lane 0 holds `vals n`. -/
def benchWave (vals : List (Nat × Word)) : Wave :=
  { Wave.start programShape 0 0 0 0 0 with regs := vals.map fun e => (64 * e.1, e.2) }

def benchTeam : Team := Team.start programLaunch 0 0 0 0 programShape

def benchOf (w : Wave) (t : Team) : State :=
  { State.reset.withTeam 0 0 with
    waves := [(0, w)], teams := [(0, t)], cur := ⟨0, 15, BitVec.ofNat 57 programPc, 0⟩ }

def bench (vals : List (Nat × Word)) : State := benchOf (benchWave vals) benchTeam

/-- The same with lane 0 alone. -/
def solo (vals : List (Nat × Word)) : State := benchOf { benchWave vals with threads := 1, live := 1, helper := 0, pcs := [(BitVec.ofNat 57 programPc, 1)] } benchTeam

/-- The wave after one instruction. -/
def after (i : Instr) (s : State) : Option Wave :=
  match exec i s with
  | .next t => t.waves.get? 0
  | _ => none

/-- Register n of lane 0 after one instruction whose results return at once. -/
def lane0 (i : Instr) (vals : List (Nat × Word)) (n : Nat) : Option Word := (after i (bench vals)).map fun w => w.regs.get 0 (64 * n)

/-- Register n of lane 0 and $fflags after one instruction whose results return at once. -/
def lane0F (i : Instr) (vals : List (Nat × Word)) (n : Nat) : Option (Word × Word) :=
  (after i (bench vals)).map fun w => (w.regs.get 0 (64 * n), w.fflags)

/-- What is outstanding for lane 0 after one instruction. -/
def owed0 (i : Instr) (vals : List (Nat × Word)) : Option (List (Word × Word)) :=
  (after i (bench vals)).map fun w => (w.outst.filter fun o => o.lane == 0).map fun o => (o.val, o.flags)

/-- The trap that an instruction raises here, where no handler stands (R396): the launch's STATUS and DETAIL. -/
def failed (i : Instr) (vals : List (Nat × Word)) : Option (Nat × Nat) :=
  match exec i (bench vals) with
  | .next t => (t.launches.get? 0).bind (·.fail)
  | _ => none

-- R161's worked table.
theorem test_permb_reverses : lane0 (.permb (.v 6) (.v 4) (.v 5)) [(4, 0x11223384), (5, 0x0123)] 6 = some 0x84332211 := by decide
theorem test_permb_fills : lane0 (.permb (.v 6) (.v 4) (.v 5)) [(4, 0x11223384), (5, 0x8440)] 6 = some 0xFF000084 := by decide
theorem test_bfe_sign : lane0 (.bfe (.v 6) (.v 4) (.v 5)) [(4, 0x0F30), (5, 0x10408)] 6 = some 0xFFFFFFFF := by decide
theorem test_bfi_clipped :
    lane0 (.bfi (.v 6) (.v 4) (.v 5)) [(4, 0), (5, 0x081C), (6, 0xFFFFFFFF)] 6 = some 0x0FFFFFFF := by decide

-- R157 by hand: a + b modulo 2^32, the product's upper word, and the pair sum's carry.
theorem test_iadd_wraps : lane0 (.iadd (.v 4) (.v 4) (.v 5)) [(4, 0xFFFFFFFF), (5, 2)] 4 = some 1 := by decide
theorem test_umulh_tenth : lane0 (.umulh (.v 6) (.v 4) (.v 5)) [(4, 1000), (5, 0xCCCCCCCD)] 6 = some 800 := by decide
theorem test_iadd_w_carries :
    lane0 (.iaddW (.v 6) (.v 8) (.v 10)) [(8, 0xFFFFFFFF), (9, 0), (10, 1), (11, 0)] 7 = some 1 := by decide
theorem test_movhi : lane0 (.movhi (.v 5) 0x33333) [(5, 3277)] 5 = some 0xCCCCCCCD := by decide

-- The worked conversions of chapter 7 and of R190, with the flags of R147.
theorem test_cvt_nearest : lane0F (.cvt (.v 6) (.v 4) (.v 5)) [(4, 0x3E99999A), (5, 0x00430000)] 6 = some (0x32, 1) := by decide
theorem test_cvt_overflow_to_infinity :
    lane0F (.cvt (.v 6) (.v 4) (.v 5)) [(4, 0x43960000), (5, 0x00C30000)] 6 = some (0x7F, 5) := by decide
theorem test_cvt_overflow_to_nan :
    lane0F (.cvt (.v 6) (.v 4) (.v 5)) [(4, 0x43960000), (5, 0x00430000)] 6 = some (0x80, 5) := by decide
theorem test_cvt_saturates :
    lane0F (.cvt (.v 6) (.v 4) (.v 5)) [(4, 0x43960000), (5, 0x08430000)] 6 = some (0x7F, 5) := by decide
theorem test_cvt_subnormal :
    lane0F (.cvt (.v 6) (.v 4) (.v 5)) [(4, 0x3B03126F), (5, 0x00430000)] 6 = some (0x02, 3) := by decide
theorem test_cvt_no_negative_zero :
    lane0F (.cvt (.v 6) (.v 4) (.v 5)) [(4, 0xB8D1B717), (5, 0x00430000)] 6 = some (0x00, 3) := by decide
theorem test_cvt_round_down :
    lane0F (.cvt (.v 6) (.v 4) (.v 5)) [(4, 0xB8D1B717), (5, 0x02430000)] 6 = some (0x81, 3) := by decide
theorem test_cvt_signalling_nan :
    lane0F (.cvt (.v 6) (.v 4) (.v 5)) [(4, 0x7F800001), (5, 0x00430000)] 6 = some (0x80, 16) := by decide
theorem test_cvt_tie_to_even_bf16 :
    lane0F (.cvt (.v 6) (.v 4) (.v 5)) [(4, 0x3F808000), (5, 0x00020000)] 6 = some (0x3F80, 1) := by decide
theorem test_cvt_int8_away :
    lane0F (.cvt (.v 6) (.v 4) (.v 5)) [(4, 0xC0200000), (5, 0x04050000)] 6 = some (0xFFFFFFFD, 1) := by decide
theorem test_cvt_integer_clamps :
    lane0F (.cvt (.v 6) (.v 4) (.v 5)) [(4, 360), (5, 0x00050008)] 6 = some (0x7F, 128) := by decide
theorem test_cvt_pack2 :
    (after (.cvtPack2 (.v 6) (.v 8) (.v 5)) (solo [(5, 0x00010000), (8, 0x3F800000), (9, 0xC0000000)])).map
      (fun w => w.regs.get 0 (64 * 6)) = some 0xC0003C00 := by decide
-- R187's example; R179 by hand.
theorem test_hadd2_b :
    lane0F (.hadd2B (.v 6) (.v 4) (.v 5)) [(4, 0x3F800080), (5, 0x3B808001)] 6 = some (0x3F80007F, 1) := by decide
theorem test_fadd_tie : lane0F (.fadd (.v 6) (.v 4) (.v 5)) [(4, 0x4B800000), (5, 0x3F800000)] 6 = some (0x4B800000, 1) := by decide
theorem test_ffma_fused :
    lane0F (.ffma (.v 6) (.v 4) (.v 5)) [(4, 0x40400000), (5, 0x40000000), (6, 0xC0C00000)] 6 = some (0, 0) := by decide
-- R196, R198: BALLOT's pair and IRED over four lanes of ones.
theorem test_ballot : owed0 (.ballot (.v 6) (.v 4)) [(4, 1)] = some [(1, 0), (0, 0)] := by decide
theorem test_ired_add : owed0 (.ired (.v 6) (.v 4) (.v 5)) [(4, 7), (5, 0)] = some [(7, 0)] := by decide
/-- What is outstanding for lane 0 after one instruction of lane 0 alone. -/
def owedSolo (i : Instr) (vals : List (Nat × Word)) : Option (List (Word × Word)) :=
  (after i (solo vals)).map fun w => w.outst.map fun o => (o.val, o.flags)

-- The worked quantisation of R192 and R193.
theorem test_qscale : owedSolo (.qscale (.v 12) (.v 4) (.v 8)) [(4, 0x40400000), (5, 0xBF400000), (6, 0x3DCCCCCD), (8, 0x28430000)] =
    some [(0x7B, 0)] := by decide +kernel
theorem test_cvt_packs : owedSolo (.cvtPacks (.v 12) (.v 4) (.v 8))
    [(4, 0x40400000), (5, 0xBF400000), (6, 0x3DCCCCCD), (8, 0x28430000), (12, 0x7B)] = some [(0x004DE474, 1)] := by decide +kernel
-- R130: $lane; R363: REGSTAT's pool and allocation.
theorem test_sread_lane : lane0 (.sread (.v 4) 0) [(4, 9)] 4 = some 0 := by decide
theorem test_regstat : owed0 (.regstat (.v 4)) [] = some [(128, 0)] := by decide
-- R168, R174: the set's PCs.
theorem test_bra_back : (after (.bra (-5)) (bench [])).map (·.pcs) = some [(0x104 + 4 - 20, 15)] := by decide
theorem test_bz_splits :
    (after (.bz (.v 4) 2) (bench [(4, 1)])).map (·.pcs) = some [(0x108, 1), (0x110, 14)] := by decide
-- R396: without a handler a trap ends the launch with STATUS 8 and DETAIL 0x100 + cause.
theorem test_breakpoint_unhandled : failed .bkpt [] = some (8, 0x118) := by decide
theorem test_privileged_unhandled : failed .halt [] = some (8, 0x102) := by decide
theorem test_window_unhandled : failed (.wbase 63) [] = some (8, 0x103) := by decide
theorem test_format_unhandled : failed (.cvt (.v 6) (.v 4) (.v 5)) [(5, 0xFFFF0000)] = some (8, 0x108) := by decide
-- R254: a store enters the buffer; R257: an address that is no multiple of the size.
theorem test_stl_enters_buffer :
    (after (.stl (.v 6) (.v 4) .word 1) (solo [(4, 8), (6, 0x01020304)])).map
      (fun w => w.sbuf.map (·.op)) = some [.ls [(12, 4), (13, 3), (14, 2), (15, 1)]] := by decide
theorem test_alignment_unhandled : failed (.ldl (.v 6) (.v 4) .word 0) [(4, 2)] = some (8, 0x109) := by decide
-- A step from a state with a program fetches the word, decodes it and runs it (MOVI v5, 3277).
theorem test_step_runs_the_word :
    (match Machine.step (State.reset.withFetchWord 32 0x16140CCD) with
      | .next t => (t.waves.get? 0).map fun w => w.regs.get 0 (64 * 5 + 3)
      | _ => none) = some 3277 := by decide +kernel

/-! ## The statements' hypotheses can be met -/

/-- An issue of lane 0 alone at the program's PC, registers `vals`, the wave, team and machine changed as given. -/
def at_ (vals : List (Nat × Word)) (fw : Wave → Wave := id) (ft : Team → Team := id) (fs : State → State := id) : Ctx :=
  let w := fw { benchWave vals with threads := 1, live := 1, helper := 0, pcs := [(BitVec.ofNat 57 programPc, 1)] }
  let t := ft benchTeam
  ⟨fs (benchOf w t), 0, w, t, 15 &&& w.live, BitVec.ofNat 57 programPc, 0⟩

theorem ready (c : Ctx) (i : Instr) (hc : c.s.ctx = some c)
    (h : (i.wf && (c.check (c.s.formOf i)).isNone && c.w.shadowRoom (c.targets (c.s.formOf i))) = true) : Ready c.s i c := by
  simp only [Bool.and_eq_true, Option.isNone_iff_eq_none] at h
  exact ⟨h.1.1, hc, h.1.2, h.2⟩

theorem lane_zero {l : Nat} (h : hasLane 1 l = true) : l = 0 := by
  rcases l with _ | l
  · rfl
  · simp [hasLane, BitVec.getLsbD_one] at h

/-- What holds of lane 0 holds of every counted lane of `at_`. -/
theorem on_lane_zero {P : Nat → Prop} (h : P 0) : ∀ l, hasLane 1 l = true → P l := fun _ hl => lane_zero hl ▸ h

/-- Where no region is open no word has been read. -/
theorem readers_none {s : State} (h : ∀ e ∈ s.waves, e.2.region = none) (ls : List Loc) (but : Option Nat) : s.readers ls but = [] := by
  simp only [State.readers, List.map_eq_nil_iff, List.filter_eq_nil_iff]
  intro e he
  simp [Wave.hasRead, h e he]

theorem witness_integerEffects : ∃ s i c d f, intResult i = some (d, f) ∧ Ready s i c ∧ windowOnly i :=
  ⟨_, .iadd (.v 4) (.v 4) (.v 5), at_ [], _, _, rfl, ready _ _ rfl (by decide), by unfold windowOnly; decide⟩

theorem witness_pairEffects : ∃ s i c d f, pairResult i = some (d, f) ∧ Ready s i c ∧ windowOnly i :=
  ⟨_, .iaddW (.v 6) (.v 8) (.v 10), at_ [], _, _, rfl, ready _ _ rfl (by decide), by unfold windowOnly; decide⟩

theorem witness_floatEffects : ∃ s i c o, fpResult i = some o ∧ Ready s i c ∧ windowOnly i :=
  ⟨_, .ffma (.v 6) (.v 8) (.v 10), at_ [], _, rfl, ready _ _ rfl (by decide), by unfold windowOnly; decide⟩

theorem witness_floatUnitEffects : ∃ s i c d f, fpUnitResult i = some (d, f) ∧ Ready s i c ∧ windowOnly i :=
  ⟨_, .frcp (.v 6) (.v 8), at_ [], _, _, rfl, ready _ _ rfl (by decide), by unfold windowOnly; decide⟩

/-- A tie, a fraction below it and one above it. -/
theorem witness_roundingModes : ∃ u n d : Nat, 0 < d ∧ u < 2 ^ 24 ∧ 2 * (n % d) = d ∧ 2 * ((n + 1) % d) > d ∧ 2 * ((n - 1) % d) < d :=
  ⟨0, 6, 4, by decide⟩

theorem witness_formatsRoundTrip : ∃ p code n m, 1 ≤ p ∧ p ≤ 7 ∧ code < 2 ^ 8 ∧ (Kind.b8 p true).decode code = .fin n m :=
  ⟨4, 0x38, _, _, by decide, by decide, by decide, rfl⟩

theorem witness_conversionEffects : ∃ s i c o, cvtResult i = some o ∧ Ready s i c ∧ windowOnly i ∧ o.legal c :=
  ⟨_, .cvt (.v 6) (.v 4) (.v 5), at_ [(5, 0x00430000)], _, rfl, ready _ _ rfl (by decide),
    by unfold windowOnly; decide, on_lane_zero (by decide)⟩

theorem witness_conversionFormatTrap : ∃ s i c o l, cvtResult i = some o ∧ Ready s i c ∧ windowOnly i ∧
    hasLane c.cnt l = true ∧ o.fmt.halves (c.operand o.b l) = none ∧
    ∀ k, k < l → hasLane c.cnt k = true → (o.fmt.halves (c.operand o.b k)).isSome = true :=
  ⟨_, .cvt (.v 6) (.v 4) (.v 5), at_ [(5, 0xFFFF0000)], _, 0, rfl, ready _ _ rfl (by decide),
    by unfold windowOnly; decide, by decide, by decide, fun k h => absurd h (Nat.not_lt_zero k)⟩

theorem witness_qscaleEffects : ∃ s c d a b x y, Ready s (.qscale d a b) c ∧ c.cnt ≠ 0 ∧
    (∀ l, hasLane c.cnt l = true → c.reg b l = c.reg b c.first) ∧ qscaleFmt.halves (c.reg b c.first) = some (x, y) :=
  ⟨_, at_ [(8, 0x28430000)], .v 12, .v 4, .v 8, _, _, ready _ _ rfl (by decide), by decide, on_lane_zero (by decide), rfl⟩

theorem witness_crossLaneEffects : ∃ s i c o, laneResult i = some o ∧ Ready s i c ∧ c.cnt ≠ 0 ∧
    ∀ b bits, o.uniform = some (b, bits) → agree c b bits :=
  ⟨_, .ired (.v 6) (.v 4) (.v 5), at_ [(4, 7)], _, rfl, ready _ _ rfl (by decide), by decide,
    by rintro b bits ⟨⟩; exact on_lane_zero (by decide)⟩

theorem witness_floatReductions : ∃ s c d a b, c.cnt ≠ 0 ∧ agree c b 2 ∧ Ready s (.fred d a b) c ∧ Ready s (.fscan d a b) c :=
  ⟨_, at_ [(5, 3)], .v 6, .v 4, .v 5, by decide, on_lane_zero (by decide), ready _ _ rfl (by decide), ready _ _ rfl (by decide)⟩

/-- A queue register bound to an empty channel of eight slots, wave 0 its producer. -/
def benchChannel : Binding := ⟨false, 1, 3, 0, [], [], []⟩

/-- The same with one value for lane 0. -/
def benchFilled : Binding := ⟨false, 1, 3, 0, [(0, 1)], [], []⟩

theorem witness_queueOperandEffects : ∃ s i c o, qOp i = some o ∧ Ready s i c ∧ ¬ windowOnly i ∧ o.legal c ∧
    (∀ q ∈ sourceQueues o.srcs, canPop c q ∧ s.readers [.chan c.w.tid q] (some c.wid) = []) ∧
    sourceQueues o.srcs ≠ [] ∧ c.w.region = none ∧ ∀ q, o.d = .q q → canPush c q :=
  ⟨_, .mov (.v 6) (.q 0), at_ [] id fun t => { t with queues := [(0, benchFilled)] }, _, rfl, ready _ _ rfl (by decide),
    by unfold windowOnly; decide, trivial,
    by
      intro q hq
      obtain rfl := List.mem_singleton.mp (show q ∈ [0] from hq)
      exact ⟨⟨benchFilled, rfl, on_lane_zero (by decide)⟩, by decide⟩,
    by decide, rfl, by rintro q ⟨⟩⟩

/-- A push where every lane has room. -/
theorem witness_queueOperandEffects_push : ∃ s i c o q, qOp i = some o ∧ Ready s i c ∧ o.d = .q q ∧ canPush c q :=
  ⟨_, .addi (.q 1) (.v 4) 1, at_ [] id fun t => { t with queues := [(1, benchChannel)] }, _, 1, rfl, ready _ _ rfl (by decide),
    rfl, benchChannel, rfl, rfl, by decide, on_lane_zero (by decide)⟩

/-- An unbound queue register traps; an empty channel whose producer is the wave itself waits. -/
theorem witness_queueOperandStops : (∃ s i c o pre x post, qOp i = some o ∧ Ready s i c ∧ c.cnt ≠ 0 ∧
      queueTraps c o = pre ++ some x :: post ∧ ∀ y ∈ pre, y = none) ∧
    ∃ s i c o, qOp i = some o ∧ Ready s i c ∧ c.cnt ≠ 0 ∧ (∀ y ∈ queueTraps c o, y = none) ∧
      ∃ q ∈ sourceQueues o.srcs, ¬ canPop c q :=
  ⟨⟨_, .mov (.v 6) (.q 0), at_ [], _, [], _, [], rfl, ready _ _ rfl (by decide), by decide, rfl, by decide⟩,
    ⟨_, .mov (.v 6) (.q 0), at_ [] id fun t => { t with queues := [(0, benchChannel)] }, _, rfl, ready _ _ rfl (by decide),
      by decide, by decide, 0, by decide, by
        rintro ⟨b, hb, h⟩
        cases hb
        exact absurd (h 0 (by decide)) (by decide)⟩⟩

theorem witness_controlEffects : ∃ s i c o, control i = some o ∧ Ready s i c ∧ o.legal c :=
  ⟨_, .jmp (.v 4), at_ [(4, 0x200)], _, rfl, ready _ _ rfl (by decide), on_lane_zero (by unfold aligned; decide)⟩

theorem witness_linkEffects : ∃ s c d a, Ready s (.jcall d a) c ∧ ∀ l, hasLane c.cnt l = true → aligned (pairPc c a l) :=
  ⟨_, at_ [(4, 0x200)], .v 6, .v 4, ready _ _ rfl (by decide), on_lane_zero (by unfold aligned; decide)⟩

theorem witness_misalignedTarget : ∃ s i c a l, jumpPair i = some a ∧ Ready s i c ∧ hasLane c.cnt l = true ∧ ¬ aligned (pairPc c a l) :=
  ⟨_, .jmp (.v 4), at_ [(4, 0x202)], .v 4, 0, rfl, ready _ _ rfl (by decide), by decide, by unfold aligned; decide⟩

theorem witness_exitEffects : ∃ s c, Ready s .exit c ∧ c.w.region = none ∧ c.w.outst = [] ∧
    s.readers [.task c.t.lid] (some c.wid) = [] :=
  ⟨_, at_ [], ready _ _ rfl (by decide), rfl, rfl, by decide⟩

/-- $taddr is read in a handler; $fpmode is written anywhere. -/
theorem witness_specialRegisters : (∃ s c, Ready s (.sread (.v 4) 26) c) ∧ ∃ s c, Ready s (.swrite (.v 4) 16) c :=
  ⟨⟨_, at_ [] fun w => { w with level := .s }, ready _ _ rfl (by decide)⟩, ⟨_, at_ [], ready _ _ rfl (by decide)⟩⟩

theorem witness_softwareTraps : ∃ s c h, quiet c.w ∧ c.w.level = .u ∧ handlerEntry s c.t = some h ∧ c.cnt ≠ 0 ∧
    Ready s .bkpt c ∧ Ready s (.trap 7) c :=
  ⟨_, at_ [] id fun t => { t with handler := some 0x400 }, 0x400, ⟨rfl, rfl, rfl, rfl, rfl⟩, rfl, rfl, by decide,
    ready _ _ rfl (by decide), ready _ _ rfl (by decide)⟩

/-- A trap in a wave at U without a handler, and a held one that TRAP_ENTRY takes at S. -/
theorem witness_takingATrap : (∃ (s : State) (w : Wave) (m : Team) (i : TrapInfo) (code : Nat), s.waves.get? 0 = some w ∧
      s.teams.get? w.tid = some m ∧ (i.cause, code) ∈ causeCodes ∧ i.viol = none ∧ quiet w ∧ w.level = .u ∧
      handlerEntry s m = none) ∧
    ∃ (s : State) (w : Wave) (m : Team) (i : TrapInfo) (set : Mask) (pc : PC) (word : Word), s.waves.get? 0 = some w ∧
      s.teams.get? w.tid = some m ∧ i.viol = none ∧ quiet w ∧ w.level = .s ∧ w.stop = some ⟨.trap i, set, pc, word⟩ ∧
      s.failed m.lid = false ∧ s.ev.x = 0 :=
  ⟨⟨(at_ []).s, (at_ []).w, (at_ []).t, ⟨.breakpoint, 1, 0, 0, none⟩, 0x18, rfl, rfl, by decide, rfl,
      ⟨rfl, rfl, rfl, rfl, rfl⟩, rfl, rfl⟩,
    let c := at_ [] fun w => { w with level := .s, stop := some ⟨.trap ⟨.breakpoint, 1, 0, 0, none⟩, 1, 0, 0⟩ }
    ⟨c.s, c.w, c.t, ⟨.breakpoint, 1, 0, 0, none⟩, 1, 0, 0, rfl, rfl, rfl, ⟨rfl, rfl, rfl, rfl, rfl⟩, rfl, rfl, by decide, rfl⟩⟩

theorem witness_decodeChecks : ∃ (s : State) (i : Instr) (c : Ctx) (x : TrapInfo), i.isWord = true ∧ i.wf = true ∧
    s.ctx = some c ∧ c.check (s.formOf i) = some x ∧ c.cnt ≠ 0 ∧ c.w.level = .u :=
  ⟨(at_ []).s, .halt, at_ [], ⟨.privileged, 1, 0, 0, none⟩, rfl, rfl, rfl, rfl, by decide, rfl⟩

/-- TRET 1 and TRET 2, whose lane resumes at the pair in its hidden registers 14:15, here 0. -/
theorem witness_trapReturn : ∃ s c r, Ready s (.tret .skip) c ∧ Ready s (.tret .fixed) c ∧ c.w.level = .s ∧ c.w.recd = some r :=
  ⟨_, at_ [] fun w => { w with level := .s, recd := some ⟨[(0x100, 1)], 0, .u, 0, 0, 0, 1⟩ }, _, ready _ _ rfl (by decide),
    ready _ _ rfl (by decide), rfl, rfl⟩

theorem witness_trapKills : ∃ s c, Ready s (.tret .killTeam) c ∧ Tbl.ascending 0 s.waves = true ∧
    (∀ w, s.readers [.task c.t.lid] w = []) ∧ s.begun c.w.tid = [] ∧ Ready s (.tret .killLaunch) c :=
  ⟨_, at_ [] fun w => { w with level := .s }, ready _ _ rfl (by decide), by decide, readers_none (by decide) _,
    by decide, ready _ _ rfl (by decide)⟩

theorem no_region {s : State} {w : Wave} (h : s.waves = [(0, w)]) (hw : w.region = none) : noRegion s := by
  intro e he
  obtain rfl := List.mem_singleton.mp (h ▸ he)
  exact hw

theorem clean_host {s : State} (h : s.hostLines = []) : cleanHost s := by
  intro k x hx
  rw [h] at hx
  cases hx

theorem one_owner {k : Nat} {o : Owner} (h : Tbl.get? [(0, Owner.init 0 0)] k = some o) : o.migQ = none := by
  rcases k with _ | k
  · cases h; rfl
  · cases h

/-- What holds of what lane 0 makes of its access holds for every counted lane of `at_`. -/
theorem lane_access {α : Type} {f : Nat → Option α} {P : Nat → α → Prop} [∀ a, Decidable (P 0 a)]
    (h : (f 0).all (fun a => decide (P 0 a)) = true) : ∀ l a, hasLane 1 l = true → f l = some a → P l a := by
  intro l a hl ha
  obtain rfl := lane_zero hl
  simpa [ha] using h

/-- A held translation of the page at 0 to the frame at 0x40000, readable, writable and executable. -/
def benchPage : Trans := ⟨0, 0, 16, ⟨0x40, 0, 0, 0, false, false, false, true, true, true⟩⟩

/-- A core that holds one translation. -/
def holding (t : Trans) (s : State) : State := { s with cores := [(0, { Core.init with tlb := [t] })] }

/-- The hypotheses of LoadEffects about a load. -/
def loadMeets (s : State) (i : Instr) (c : Ctx) (o : MemOp) (got : Nat → List Byte) : Prop :=
  loadOp i = some o ∧ Ready s i c ∧ o.passes c ∧ (∀ e ∈ c.w.sbuf, e.held = false) ∧
    (c.w.unperformed = true → c.w.cautious = 0 ∧ c.w.level = .u) ∧
    (∀ l a, hasLane c.set l = true → o.lane c l = some a →
      a.tgt.remote = false ∧ c.isAbsent a.tgt = false ∧ c.readBytes a.tgt o.n = some (got l)) ∧
    c.missingKeys o.n (o.accesses c c.set) = [] ∧ (c.touches o.n (o.accesses c c.set) (o.found c)).isSome = true

/-- A die whose directory lists the line of 0x40000. -/
def listing (s : State) : State := { s with dies := [(0, { Die.init with dir := [(4096, 1)] })] }

/-- LDL of a byte the wave has just stored, so that a region opens; LD of a mapped word. -/
theorem witness_loadEffects : (∃ s i c o got, loadMeets s i c o got ∧ c.w.unperformed = true) ∧
    ∃ (s : State) (c : Ctx) (o : MemOp) (got : Nat → List Byte), loadMeets s (.ld (.v 6) (.v 4) .word 1) c o got :=
  ⟨⟨_, .ldl (.v 6) (.v 4) .word 1, at_ [(4, 8)] fun w => { w with sbuf := [⟨.ls [(13, 3)], 0, 0, false, false, []⟩] }, _,
      fun _ => [0, 3, 0, 0], ⟨rfl, ready _ _ rfl (by decide), on_lane_zero (by decide), by decide, by decide,
        lane_access (by decide), by decide, by decide⟩, by decide⟩,
    ⟨_, at_ [(4, 8)] id id (listing ∘ holding benchPage), _, fun _ => [0, 0, 0, 0], rfl, ready _ _ rfl (by decide),
      on_lane_zero (by decide), by decide, by decide, lane_access (by decide), by decide +kernel, by decide +kernel⟩⟩

theorem witness_loadRoom : ∃ (c : Ctx) (s : State) (as : List LaneAcc) (a : LaneAcc) (p : Phys) (tr : Trans),
    (s.core c.t.core).l1.length + as.length ≤ 4096 ∧ (s.die (c.t.core / 200)).dir.length + as.length ≤ 64 + Config.dieDirMore ∧
    as = [a] ∧ a.tgt = .mem p ∧ a.tr = some tr ∧ p.tier ≠ 2 ∧ p.tier ≠ 4 ∧ p.sp ≠ .peer ∧
    (∃ k, k < 4 ∧ lastByte (c.w.memKnown p.sp) (p.addr + k) = none) ∧ p.sector ∉ (s.core c.t.core).l1 :=
  ⟨at_ [] id id (holding benchPage), (at_ [] id id (holding benchPage)).s, [⟨0, .mem ⟨.dev, 0x40000, 0, 0, false⟩, some benchPage⟩], _, ⟨.dev, 0x40000, 0, 0, false⟩,
    benchPage, by decide, show 0 + 1 ≤ 64 + Config.dieDirMore by omega, rfl, rfl, rfl, by decide, by decide, by decide,
    ⟨0, by decide, by decide⟩, by decide⟩

theorem witness_storeEffects : ∃ (s : State) (i : Instr) (c : Ctx) (o : MemOp), storeOp i = some o ∧ Ready s i c ∧ o.passes c ∧
    ∀ l a, hasLane c.cnt l = true → o.lane c l = some a → c.isAbsent a.tgt = false ∧ ∀ x, a.tgt = .ls x → c.draining x = false := by
  refine ⟨_, .stl (.v 6) (.v 4) .word 1, at_ [(4, 8)], _, rfl, ready _ _ rfl (by decide), on_lane_zero (by decide), ?_⟩
  intro l a hl h
  obtain rfl := lane_zero hl
  obtain rfl := Option.some.inj ((show _ = some (⟨0, .ls 12, none⟩ : LaneAcc) from rfl).symm.trans h)
  refine ⟨by decide, ?_⟩
  rintro x ⟨⟩
  decide

theorem witness_storeBufferEntries : (∃ bs : List (Nat × List Byte), bs ≠ [] ∧
      ∀ e ∈ bs, e.2 ≠ [] ∧ e.1 / 128 = (e.1 + e.2.length - 1) / 128) ∧
    ∃ (w : Wave) (ops : List SbOp), w.spilling = none ∧ w.sbuf.length ≤ 32 ∧ ops.length = 40 :=
  ⟨⟨[(4, [1, 2]), (124, [3, 4, 5, 6])], by decide, by decide⟩, ⟨(at_ []).w, List.replicate 40 (.ls []), rfl, by decide, by decide⟩⟩

/-- A read answered from memory, and one held back by an unperformed atomic on its word. -/
theorem witness_readsForward : (∃ (c : Ctx) (p : Phys) (n : Nat) (bs : List Byte), c.readBytes (.mem p) n = some bs) ∧
    ∃ (c : Ctx) (p : Phys) (n : Nat), c.readBytes (.mem p) n = none :=
  ⟨⟨at_ [], ⟨.dev, 0x40, 0, 0, false⟩, 4, [0, 0, 0, 0], by decide⟩,
    ⟨at_ [] fun w => { w with irrev := some (.atom 0 .add false [⟨0, .mem ⟨.dev, 0x40, 0, 0, false⟩, 1, 0⟩] none) },
      ⟨.dev, 0x40, 0, 0, false⟩, 4, by decide⟩⟩

/-- A misaligned local address: step 2 fails. -/
theorem witness_accessTraps : ∃ (s : State) (i : Instr) (c : Ctx) (o : MemOp) (l : Nat), loadOp i = some o ∧ Ready s i c ∧
    hasLane c.cnt l = true ∧ (o.within c l = true) ∧ (match o.place c l with | .error .align => true | _ => false) = true ∧
    ∀ k, hasLane c.cnt k = true → l ≤ k :=
  ⟨_, .ldl (.v 6) (.v 4) .word 0, at_ [(4, 2)], _, 0, rfl, ready _ _ rfl (by decide), by decide, by decide, by decide,
    fun _ _ => Nat.zero_le _⟩

/-- A held entry keeps a load back; an absent line parks its wave; a draining handle keeps a store back. -/
theorem witness_accessWaits :
    (∃ (s : State) (i : Instr) (c : Ctx) (o : MemOp), Ready s i c ∧ o.passes c ∧ loadOp i = some o ∧ ∃ e ∈ c.w.sbuf, e.held = true) ∧
    (∃ (s : State) (i : Instr) (c : Ctx) (o : MemOp), Ready s i c ∧ o.passes c ∧ loadOp i = some o ∧ c.w.unperformed = false ∧
      (∀ e ∈ c.w.sbuf, e.held = false) ∧ ∃ l a, hasLane c.cnt l = true ∧ o.lane c l = some a ∧ c.isAbsent a.tgt = true) ∧
    ∃ (s : State) (i : Instr) (c : Ctx) (o : MemOp), Ready s i c ∧ o.passes c ∧ storeOp i = some o ∧
      ∃ l a x, hasLane c.cnt l = true ∧ o.lane c l = some a ∧ a.tgt = .ls x ∧ c.draining x = true :=
  ⟨⟨_, .ldl (.v 6) (.v 4) .word 1, at_ [(4, 8)] fun w => { w with sbuf := [⟨.ls [(13, 3)], 0, 0, true, false, []⟩] }, _,
      ready _ _ rfl (by decide), on_lane_zero (by decide), rfl, _, List.mem_singleton.mpr rfl, rfl⟩,
    ⟨_, .ldl (.v 6) (.v 4) .word 1, at_ [(4, 8)] id fun t => { t with absent := [0] }, _, ready _ _ rfl (by decide),
      on_lane_zero (by decide), rfl, by decide, by decide, 0, _, by decide, rfl, by decide⟩,
    ⟨_, .stl (.v 6) (.v 4) .word 1, at_ [(4, 8)] id id fun s =>
        { s with cores := [(0, { Core.init with handles := [(0, ⟨0, 0, 128, .draining, 0, 1, false⟩)] })] }, _,
      ready _ _ rfl (by decide), on_lane_zero (by decide), rfl, 0, _, 12, by decide, rfl, rfl, by decide⟩⟩

theorem witness_atomicIssues : ∃ (s : State) (i : Instr) (c : Ctx) (f : AtomForm), atomForm i = some f ∧ Ready s i c ∧
    f.access.passes c ∧ c.w.region = none ∧ c.w.unperformed = false ∧
    ∀ l a, hasLane c.cnt l = true → f.access.lane c l = some a → c.isAbsent a.tgt = false :=
  ⟨_, .atomAdd (.v 10) (.v 4) (.v 6), at_ [(4, 0x40), (6, 1)] id id (holding benchPage), _, rfl, ready _ _ rfl (by decide),
    on_lane_zero (by decide), rfl, by decide, lane_access (by decide)⟩

/-- A wave with an unperformed atomic of lane 0 on a place. -/
def withAtomic (tgt : AtomTgt) (w : Wave) : Wave := { w with irrev := some (.atom 0 .add false [⟨0, tgt, 5, 0⟩] none) }

/-- In memory and in the local store. -/
theorem witness_atomicPerforms : ∀ tgt ∈ [AtomTgt.mem ⟨.dev, 0x40, 0, 0, false⟩, .ls 8],
    ∃ (s : State) (w : Wave) (m : Team) (ls : List AtomLane) (a : AtomLane), s.waves.get? s.ev.x = some w ∧
      s.teams.get? w.tid = some m ∧ w.irrev = some (.atom 0 .add false ls none) ∧ ls.Pairwise (fun p q => p.lane < q.lane) ∧ a ∈ ls ∧
      a.tgt = tgt ∧ a.lane = s.ev.y ∧ noRegion s ∧ cleanHost s ∧ (∀ l ∈ a.tgt.locs w.tid 4, ∀ e ∈ s.pend, e.1 ≠ l) ∧
      (∀ k, k < 4 → s.inBias (0x40 + k) = false) ∧ m.barriers = [] := by
  intro tgt _
  exact ⟨(at_ [] (withAtomic tgt)).s, (at_ [] (withAtomic tgt)).w, benchTeam, [⟨0, tgt, 5, 0⟩], ⟨0, tgt, 5, 0⟩, rfl, rfl, rfl,
    List.pairwise_singleton _ _, List.mem_singleton.mpr rfl, rfl, rfl, no_region rfl rfl,
    clean_host rfl, (fun _ _ _ h => by cases h), fun _ _ => rfl, rfl⟩

/-- A page of a peer; a lane of such a load. -/
theorem witness_remoteLoads : (∃ (s : State) (i : Instr) (c : Ctx) (o : MemOp), loadOp i = some o ∧ Ready s i c ∧
      c.w.region = none ∧ c.w.unperformed = false ∧ ∃ l, hasLane c.set l = true ∧ o.within c l = true) ∧
    ∃ (s : State) (w : Wave) (seq : Nat) (z : Size) (ls : List (Nat × Phys)) (p : Phys), s.waves.get? s.ev.x = some w ∧
      w.irrev = some (.load seq z ls) ∧ ls.find? (fun e => e.1 = s.ev.y) = some (s.ev.y, p) ∧
      ∀ l ∈ (AtomTgt.mem p).locs 0 (accessBytes z), ∀ e ∈ s.pend, e.1 ≠ l :=
  ⟨⟨_, .ld (.v 6) (.v 4) .word 0, at_ [], _, rfl, ready _ _ rfl (by decide), rfl, by decide, 0, by decide, by decide⟩,
    ⟨(at_ [] fun w => { w with irrev := some (.load 0 .word [(0, ⟨.host, 0x40, 0, 4, false⟩)]) }).s, _, 0, .word,
      [(0, ⟨.host, 0x40, 0, 4, false⟩)], ⟨.host, 0x40, 0, 4, false⟩, rfl, rfl, rfl, fun _ _ _ h => by cases h⟩⟩

/-- The page at 0 in the host's memory, TIER 4. -/
theorem witness_remoteLoads_page : ∃ (s : State) (i : Instr) (c : Ctx) (o : MemOp), loadOp i = some o ∧ Ready s i c ∧ o.passes c ∧
    c.w.region = none ∧ c.w.unperformed = false ∧
    ∃ l a p, hasLane c.set l = true ∧ o.lane c l = some a ∧ a.tgt = .mem p ∧ (p.tier = 2 ∨ p.tier = 4) :=
  ⟨_, .ld (.v 6) (.v 4) .word 0, at_ [] id id (holding ⟨0, 0, 16, ⟨0x40, 0, 0, 4, false, false, false, true, true, true⟩⟩), _, rfl,
    ready _ _ rfl (by decide), on_lane_zero (by decide), rfl, by decide, 0, _, _, by decide, rfl, rfl, by decide⟩

/-- A wave with one entry in its store buffer. -/
def withEntry (e : SbEntry) (w : Wave) : Wave := { w with sbuf := [e] }

/-- The three moments of an entry's course: not sent, awaited by die 0, acknowledged. -/
theorem witness_storeEntryCourse :
    ∀ e ∈ [SbEntry.mk (.mem .dev 0 0 false [(0x40, 1)]) 0 0 false false [], ⟨.mem .dev 0 0 false [(0x40, 1)], 0, 0, false, true, [0]⟩,
        ⟨.mem .dev 0 0 false [(0x40, 1)], 0, 0, false, true, []⟩],
      ∃ (s : State) (w : Wave), s.waves.get? s.ev.x = some w ∧ w.sbuf = [e] ∧ keysRise s ∧ running s w ∧ w.irrev = none ∧
        s.pend = [] ∧ cleanHost s ∧ noRegion s ∧ s.inBias 0x40 = false ∧ ∀ k o, s.owners.get? k = some o → o.migQ = none := by
  intro e _
  exact ⟨(at_ [] (withEntry e)).s, (at_ [] (withEntry e)).w, rfl, rfl, ⟨rfl, rfl⟩, ⟨benchTeam, rfl, rfl⟩, rfl, rfl,
    clean_host rfl, no_region rfl rfl, rfl, fun _ _ => one_owner⟩

/-- Entries of every local kind. -/
theorem witness_localEntries :
    ∀ o ∈ [SbOp.ls [(12, 4)], .bull (.cb 0 3) 7, .bull (.db 0 3) 7, .arrive 1, .push 0 [(0, 5)]],
      ∃ (s : State) (w : Wave) (m : Team), s.waves.get? s.ev.x = some w ∧ s.teams.get? w.tid = some m ∧
        w.sbuf = [⟨o, 0, 0, false, false, []⟩] ∧ w.spilling = none ∧ w.irrev = none ∧ s.failed m.lid = false ∧ noRegion s ∧
        m.barriers = [] ∧ m.queues.get? 0 = some benchChannel := by
  intro o _
  exact ⟨(at_ [] (withEntry ⟨o, 0, 0, false, false, []⟩) fun t => { t with queues := [(0, benchChannel)] }).s, _, _, rfl, rfl, rfl, rfl,
    rfl, rfl, no_region rfl rfl, rfl, rfl⟩

theorem witness_resultReturns : ∃ (s : State) (w : Wave) (o : Outst), s.waves.get? s.ev.x = some w ∧ w.outst[s.ev.y]? = some o ∧
    o.ready = true ∧ o.lane < 64 :=
  ⟨(at_ [] fun w => { w with outst := [⟨0, 0, some ⟨false, 6⟩, true, 63, 7, 1, true⟩] }).s, _,
    ⟨0, 0, some ⟨false, 6⟩, true, 63, 7, 1, true⟩, rfl, rfl, rfl, by decide⟩

/-- A region with one held entry behind its waymark. -/
def benchRegion (reads : List Loc) : Region := ⟨3, [(0x100, 1)], 0, 0, 0, 0, 0, [(6, [])], reads⟩

theorem witness_regionCommits : (∃ (s : State) (w : Wave) (r : Region), s.waves.get? s.ev.x = some w ∧ w.region = some r ∧
      w.irrev = none ∧ w.sbuf ≠ [] ∧ (∀ e ∈ w.sbuf, r.seq ≤ e.seq) ∧ Tbl.ascending 0 s.cmds = true ∧ s.cmds = []) ∧
    ∃ (s : State) (w : Wave), s.waves.get? s.ev.x = some w ∧ w.cautious = 1 :=
  ⟨⟨(at_ [] fun w => { w with region := some (benchRegion []), sbuf := [⟨.ls [(13, 3)], 4, 0, true, false, []⟩] }).s, _, _, rfl, rfl,
      rfl, by decide, by decide, rfl, rfl⟩,
    ⟨(at_ [] fun w => { w with cautious := 1 }).s, _, rfl, rfl⟩⟩

theorem witness_rollbackRestores : ∃ (s : State) (ls : List Loc) (v : Nat) (w : Wave) (r : Region), s.readers ls none = [v] ∧
    s.waves.get? v = some w ∧ w.region = some r ∧ Tbl.ascending 0 r.shadow = true ∧ s.cmds = [] :=
  ⟨(at_ [] fun w => { w with region := some (benchRegion [.ls 0 3]) }).s, [.ls 0 3], 0, _, _, by decide, rfl, rfl, by decide, rfl⟩

/-- The three outcomes of a fetch: a page that may be fetched from, one that may not, none. -/
theorem witness_literalLoads : (∃ (s : State) (i : Instr) (c : Ctx) (d : Reg) (k : Int) (n : Nat), literalForm i = some (d, k, n) ∧
      Ready s i c ∧ ∃ tr p, s.fetchAccess c.t c.w.level (displaced c k).toNat = .ok tr p) ∧
    (∃ (s : State) (i : Instr) (c : Ctx) (d : Reg) (k : Int) (n : Nat), literalForm i = some (d, k, n) ∧ Ready s i c ∧ c.cnt ≠ 0 ∧
      ∃ x, s.fetchAccess c.t c.w.level (displaced c k).toNat = .viol x) ∧
    ∃ (s : State) (i : Instr) (c : Ctx) (d : Reg) (k : Int) (n : Nat), literalForm i = some (d, k, n) ∧ Ready s i c ∧ c.cnt ≠ 0 ∧
      ∃ x, s.fetchAccess c.t c.w.level (displaced c k).toNat = .park x :=
  ⟨⟨_, .ldlit (.v 6) 4, at_ [] id id (holding benchPage), _, _, _, rfl, ready _ _ rfl (by decide), _, _, rfl⟩,
    ⟨_, .ldlit (.v 6) 4, at_ [] id id (holding { benchPage with leaf := { benchPage.leaf with x := false } }), _, _, _, rfl,
      ready _ _ rfl (by decide), by decide, _, rfl⟩,
    ⟨_, .ldlit (.v 6) 4, at_ [], _, _, _, rfl, ready _ _ rfl (by decide), by decide, _, rfl⟩⟩

theorem witness_fetchFaults : (∃ (s : State) (c : Ctx), s.ctx = some c ∧ c.cnt ≠ 0 ∧
      ∃ x, s.fetchAccess c.t c.w.level c.pc.toNat = .park x) ∧
    ∃ (s : State) (c : Ctx), s.ctx = some c ∧ c.cnt = 0 ∧ c.set ≠ 0 :=
  ⟨⟨(at_ []).s, at_ [], rfl, by decide, _, rfl⟩, ⟨(at_ [] fun w => { w with helper := 1, threads := 0 }).s, _, rfl, by decide, by decide⟩⟩

/-- The state a program of one word leaves: its wave's issue is the act chosen, and the set that issues stands at the word. -/
theorem witness_stepRunsDecoded :
    (match (State.reset.withFetchWord 32 0x16140CCD).chosen with | .issue 0 => true | _ => false) = true := by decide +kernel

theorem witness_stepRunsDecoded_set : ∃ (s : State) (w w1 : Wave) (m : Team) (x : Stand) (tr : Trans) (p : Phys),
    s.waves.get? 0 = some w ∧ s.teams.get? w.tid = some m ∧ s.mayIssue w m = true ∧ s.choice 0 w m = (w1, some x) ∧
    ¬ (w.fired = true ∧ w.waiting = none) ∧ w.waiting = none ∧ w.sweep = none ∧
    w.pcs.Pairwise (fun a b => a.1.toNat < b.1.toNat) ∧
    ((s.setWave 0 w1).forSet 0 x.set x.pc x.word).fetchAccess m w.level x.pc.toNat = .ok tr p := by
  let c := at_ [] id id (holding benchPage)
  have h : (match c.s.choice 0 c.w c.t with
      | (w1, some x) => match ((c.s.setWave 0 w1).forSet 0 x.set x.pc x.word).fetchAccess c.t c.w.level x.pc.toNat with
        | .ok _ _ => true
        | _ => false
      | _ => false) = true := by decide +kernel
  split at h
  · rename_i w1 x hx
    split at h
    · rename_i tr p ha
      exact ⟨c.s, c.w, w1, c.t, x, tr, p, rfl, rfl, by decide, hx, by decide, rfl, rfl, by decide, ha⟩
    · cases h
  · cases h

/-- The tables of a program of one word. -/
theorem witness_pageWalk : ∃ (s : State) (o : Owner) (e1 e2 e3 e4 : Nat),
    let entry (a : Nat) : Nat := leValue (s.bytesAt .dev o.key a 16)
    let frame (e : Nat) : Nat := e / 2 ^ 60 % 2 ^ 44 * 4096
    let pointer (e size : Nat) : Prop := e % 2 ^ 60 = 1 ∧ e < 2 ^ 104 ∧ frame e % size = 0 ∧ frame e + size ≤ 0x20000000000
    entry o.root = e1 ∧ entry (frame e1) = e2 ∧ entry (frame e2) = e3 ∧ entry (frame e3) = e4 ∧
    pointer e1 32768 ∧ pointer e2 32768 ∧ pointer e3 16384 ∧ e4 % 16 = 3 ∧ e4 / 2 ^ 8 % 2 ^ 28 = 0 ∧ e4 / 2 ^ 36 % 2 ^ 5 = 0 ∧
    e4 / 2 ^ 48 % 2 ^ 12 = 0 ∧ e4 < 2 ^ 104 ∧ o.grant.contains (e4 / 2 ^ 41 % 2 ^ 7) = true ∧ frame e4 % 65536 = 0 ∧
    frame e4 + 65536 ≤ 0x20000000000 :=
  ⟨State.reset.withProgram 0, Owner.init 0 0, pointerEntry 0x10000, pointerEntry 0x20000, pointerEntry 0x30000, leafEntry 0x40000,
    by decide +kernel⟩

/-- A page that nothing maps, a page held, and a page held without the permission. -/
theorem witness_accessRights : (at_ []).s.xlate 0 0 0 64 0x104 = .pageFault ∧
    (at_ [] id id (holding benchPage)).s.xlate 0 0 0 64 0x104 = .ok benchPage ∧
    benchPage.leaf.tier = 0 ∧ benchPage.leaf.moving = false ∧ benchPage.leaf.w = true := by
  refine ⟨rfl, rfl, rfl, rfl, rfl⟩

theorem witness_collectiveChecks : (∃ (s : State) (i : Instr) (c : Ctx) (f : CollForm), collForm i = some f ∧ Ready s i c ∧
      c.cnt = 0 ∧ c.set ≠ 0) ∧
    ∃ (s : State) (i : Instr) (c : Ctx) (f : CollForm), collForm i = some f ∧ Ready s i c ∧ c.cnt ≠ 0 ∧ ¬ f.uniform c := by
  refine ⟨⟨_, .hgen (.v 6) (.v 4), at_ [] fun w => { w with helper := 1, threads := 0 }, _, rfl, ready _ _ rfl (by decide), by decide,
    by decide⟩, ⟨_, .hgen (.v 6) (.v 4), at_ [(4, 3)] fun w => { w with threads := 3, live := 3 }, _, rfl, ready _ _ rfl (by decide),
    by decide, ?_⟩⟩
  intro h
  exact absurd (h (.v 4, 0, 32) (by decide) 1 (by decide)) (by decide)

/-- Handle 5 of team 0, filling with nothing under way, and full. -/
def withHandles (h : Handle) (s : State) : State := { s with cores := [(0, { Core.init with handles := [(5, h)] })] }

theorem agreed_zero {i : Instr} {c : Ctx} {f : CollForm} (hf : collForm i = some f) (hc : c.cnt = 1) : agreed i c := by
  intro g hg
  obtain rfl := Option.some.inj (hf.symm.trans hg)
  have hl : ∀ l, hasLane c.cnt l = true → l = 0 := fun l h => lane_zero (hc ▸ h)
  have h0 : c.first = 0 := by simp only [Ctx.first, hc]; decide
  exact ⟨fun e _ l h => by rw [hl l h, h0], fun e _ l h => by rw [hl l h, h0], by rw [hc]; decide⟩

theorem witness_handleEffects : (∃ (s : State) (c : Ctx), Ready s (.halloc (.v 6) (.v 4) (.v 5)) c ∧
      agreed (.halloc (.v 6) (.v 4) (.v 5)) c ∧ allocatable c (uval c (.v 4)) (uval c (.v 5)) ∧
      (s.core (4 * c.t.cluster + c.t.pos)).handles.get? 0 = none ∧ s.readers [.handle 0 0] (some c.wid) = []) ∧
    ∀ h ∈ [Handle.mk 0 0 128 .filling 0 0 false, ⟨0, 0, 128, .full, 0, 0, false⟩],
      ∃ (s : State) (c : Ctx), namedHandle c (uval c (.v 4)) = some h ∧ c.s = s ∧ s.readers [.handle 0 5] (some c.wid) = [] ∧
        mayReadWords c ∧ ∀ i ∈ [Instr.hfree (.v 4), .hseal (.v 4), .lsfence (.v 4), .hwait (.v 4), .hgen (.v 6) (.v 4),
          .hstat (.v 6) (.v 4)], Ready s i c ∧ agreed i c := by
  refine ⟨⟨_, at_ [(4, 256), (5, 128)], ready _ _ rfl (by decide), agreed_zero rfl (by decide), ?_, rfl, by decide⟩, ?_⟩
  · exact ⟨by decide, by decide, by decide, by decide, (fun e h => by cases h), (fun e h => by cases h)⟩
  · intro h hm
    have hc : ∀ h ∈ [Handle.mk 0 0 128 .filling 0 0 false, ⟨0, 0, 128, .full, 0, 0, false⟩],
        namedHandle (at_ [(4, 5)] id id (withHandles h)) (uval (at_ [(4, 5)] id id (withHandles h)) (.v 4)) = some h := by decide
    refine ⟨_, at_ [(4, 5)] id id (withHandles h), hc h hm, rfl, readers_none (no_region rfl rfl) _ _, ?_, ?_⟩
    · exact ⟨fun h => absurd h (by fin_cases hm <;> decide), (fun e h => by cases h)⟩
    · intro i hi
      fin_cases hm <;> fin_cases hi <;> exact ⟨ready _ _ rfl (by decide), agreed_zero rfl (by decide)⟩

/-- A command of team 0 and wave 0, released, with nothing done. -/
def benchCmd (k : CmdKind) (slots : Nat := 0) : Cmd :=
  { tid := 0, wid := 0, seq := 0, owner := 0, level := .u, kind := k, counter := none, inb := [], outb := [], barriers := [], lines := [],
    undo := [], held := false, released := true, queued := true, engine := none, slots := slots, slotsDone := 0, done := [], got := [], outBytes := [],
    flags := 0, faults := [], fatal := false }

/-- A tensor of four words. -/
def benchTensor : Tensor := ⟨0, 1, 4, [4, 1, 1, 1], [4, 0, 0, 0], [4, 1, 1, 1], 16⟩

/-- A large handle at index 5 of core 0, accumulator bank 0 mapped, record 0 bound. -/
def engineBench (st : HState) (s : State) : State :=
  { s with
    cores := [(0, { Core.init with handles := [(5, ⟨0, 0, 65536, st, 0, 0, false⟩)] })]
    clusters := [(0, { Cluster.init with recs := [(0, ⟨0x1000, .tensor benchTensor⟩)], banks := [(0, ⟨.mapped, []⟩)] })] }

/-- A copy in global memory. -/
theorem witness_engineCommands : ∃ (s : State) (c : Ctx) (d a b : Reg) (p : Plan), Ready s (.bcopy d a b) c ∧ agreed (.bcopy d a b) c ∧
    copyOrder c a b p ∧ mayOrder c p ∧ s.readers (handleWords (p.inb ++ p.outb)) (some c.wid) = [] := by
  refine ⟨_, at_ [(9, 0), (10, 0xFFFFFFFF), (11, 4), (12, 0x100), (14, 0x200)], .v 24, .v 8, .v 12,
    { kind := .bcopy 0 0 0 4 0x100 0x200, ctr := some 2, barriers := [] }, ready _ _ rfl (by decide), agreed_zero rfl (by decide),
    ?_, ?_, by decide⟩
  · exact ⟨by decide, by decide, by decide, by decide, by decide, by decide, Or.inl (by decide), fun _ => by decide, fun _ => by decide,
      Or.inl ⟨by decide, by decide, rfl⟩⟩
  · exact ⟨fun h => absurd rfl h, (fun e h => by cases h), (fun e h => by cases h), (fun e h => by cases h), by decide⟩

/-- A tile fetch into a filling handle, and a tile store from a full one. -/
theorem witness_engineCommands_tile : (∃ (s : State) (c : Ctx) (d a b : Reg) (p : Plan), Ready s (.tfetch d a b) c ∧
      agreed (.tfetch d a b) c ∧ tileOrder false c a b p ∧ p.inb = [(0, 5)]) ∧
    ∃ (s : State) (c : Ctx) (d a b : Reg) (p : Plan), Ready s (.tstore d a b) c ∧ agreed (.tstore d a b) c ∧ tileOrder true c a b p ∧
      p.outb = [(0, 5)] :=
  ⟨⟨_, at_ [(12, 0), (13, 5), (14, 0xFFFFFFFF)] id id (engineBench .filling), .v 20, .v 12, .v 16, _, ready _ _ rfl (by decide),
      agreed_zero rfl (by decide), ⟨benchTensor, ⟨0, 0, 65536, .filling, 0, 0, false⟩, by decide, by decide, Or.inl (by decide),
        by decide, by decide, by decide, fun h => absurd h (by decide), rfl⟩, rfl⟩,
    ⟨_, at_ [(12, 0), (13, 5), (14, 0xFFFFFFFF)] id id (engineBench .full), .v 20, .v 12, .v 16, _, ready _ _ rfl (by decide),
      agreed_zero rfl (by decide), ⟨benchTensor, ⟨0, 0, 65536, .full, 0, 0, false⟩, by decide, by decide, Or.inl (by decide),
        by decide, by decide, by decide, fun h => absurd h (by decide), rfl⟩, rfl⟩⟩

/-- A multicast to the team at position 1 of the gang. -/
def castBench (s : State) : State :=
  { s with
    teams := [(0, benchTeam), (1, { benchTeam with pos := 1 })]
    cores := [(0, { Core.init with handles := [(5, ⟨0, 0, 128, .full, 0, 0, false⟩)] }),
              (1, { Core.init with handles := [(6, ⟨1, 0, 128, .filling, 0, 0, false⟩)] })] }

theorem witness_engineCommands_cast : ∃ (s : State) (c : Ctx) (d a : Reg) (p : Plan), Ready s (.tmcast d a) c ∧ agreed (.tmcast d a) c ∧
    castOrder c a p ∧ p.inb = [(1, 6)] := by
  refine ⟨_, at_ [(8, 5), (9, 6), (10, 0xFFFFFFFF), (11, 2)] id id castBench, .v 22, .v 8, _, ready _ _ rfl (by decide),
    agreed_zero rfl (by decide), ⟨⟨0, 0, 128, .full, 0, 0, false⟩,
      [(1, { benchTeam with pos := 1 }, ⟨1, 0, 128, .filling, 0, 0, false⟩)], by decide, Or.inl (by decide), by decide, by decide,
      by decide, by decide, ?_, rfl⟩, rfl⟩
  intro e he
  obtain rfl := List.mem_singleton.mp he
  refine ⟨⟨by decide, by decide, ?_⟩, by decide, by decide, by decide⟩
  decide

theorem witness_engineTraps : ∃ (s : State) (c : Ctx) (d a : Reg), Ready s (.tmcast d a) c ∧ agreed (.tmcast d a) c ∧
    namedHandle c (uval c a) = none :=
  ⟨_, at_ [(8, 7)], .v 22, .v 8, ready _ _ rfl (by decide), agreed_zero rfl (by decide), by decide⟩

/-- A mask bit for a position without a team; a target that has not allocated the index; one whose handle is too short. -/
theorem witness_castTargets :
    (∃ (s : State) (c : Ctx) (h : Handle), Ready s (.tmcast (.v 22) (.v 8)) c ∧ agreed (.tmcast (.v 22) (.v 8)) c ∧
      namedHandle c (uval c (.v 8)) = some h ∧ barrierWordOk c (uval c (.v 8) 2) ∧ (uval c (.v 8) 3).testBit 1 = true ∧
      ∀ e ∈ s.teams, ¬ (e.2.lid = c.t.lid ∧ e.2.gang = c.t.gang ∧ e.2.pos = 1)) ∧
    ∀ i ∈ [7, 6], ∃ (s : State) (c : Ctx) (e : Nat × Team), Ready s (.tmcast (.v 22) (.v 8)) c ∧
      uval c (.v 8) 1 = i ∧ [e].map (·.2.pos) = (List.range 4).filter ((uval c (.v 8) 3).testBit ·) ∧
      e ∈ s.teams ∧ (s.core 1).handles.get? 6 = some ⟨1, 0, 128, .filling, 0, 0, false⟩ ∧ (s.core 1).handles.get? 7 = none := by
  refine ⟨⟨_, at_ [(8, 5), (9, 6), (10, 0xFFFFFFFF), (11, 2)] id id (engineBench .full), ⟨0, 0, 65536, .full, 0, 0, false⟩,
    ready _ _ rfl (by decide), agreed_zero rfl (by decide), by decide, Or.inl (by decide), by decide, by decide⟩, ?_⟩
  intro i hi
  let c := at_ [(8, 5), (9, BitVec.ofNat 32 i), (10, 0xFFFFFFFF), (11, 2)] id id castBench
  refine ⟨c.s, c, (1, { benchTeam with pos := 1 }), ?_⟩
  rcases List.mem_cons.mp hi with rfl | hi
  · exact ⟨ready _ _ rfl (by decide), by decide, by decide, by decide, by decide, by decide⟩
  · obtain rfl := List.mem_singleton.mp hi
    exact ⟨ready _ _ rfl (by decide), by decide, by decide, by decide, by decide, by decide⟩

theorem witness_matrixCommands : (∃ (s : State) (c : Ctx) (a : Reg) (bank : Nat), Ready s (.mzero a) c ∧ agreed (.mzero a) c ∧
      bankNamed c (uval c a) = some bank) ∧
    (∃ (s : State) (c : Ctx) (d a b : Reg) (p : Plan), Ready s (.mma d a b) c ∧ agreed (.mma d a b) c ∧
      matrixOrder c a (uval c b) 0 1 p) ∧
    ∃ (s : State) (c : Ctx) (d a b : Reg) (y : Half) (p : Plan), Ready s (.mdrain d a b) c ∧ agreed (.mdrain d a b) c ∧
      drainOrder c a b y p :=
  ⟨⟨_, at_ [] id (fun t => { t with bankMap := [(0, 0)] }) (engineBench .full), .v 8, 0, ready _ _ rfl (by decide),
      agreed_zero rfl (by decide), by decide⟩,
    ⟨_, at_ [(9, 5), (10, 5), (11, 0x00020002), (12, 0x01000000)] id (fun t => { t with bankMap := [(0, 0)] }) (engineBench .full),
      .v 20, .v 8, .v 12, _, ready _ _ rfl (by decide), agreed_zero rfl (by decide), ⟨0, 0, 65536, .full, 0, 0, false⟩,
      ⟨0, 0, 65536, .full, 0, 0, false⟩, 0, by decide, by decide, by decide, by unfold arrayFormatsOk arrayHalfOk; decide, by decide,
      by decide, by decide, by decide, by decide, by decide, by decide, by decide, rfl⟩,
    ⟨_, at_ [(17, 5), (18, 0xFFFFFFFF), (19, 0x00020000)] id (fun t => { t with bankMap := [(0, 0)] }) (engineBench .full),
      .v 22, .v 16, .v 7, ⟨.bf16, .rne, false, 0⟩, _, ready _ _ rfl (by decide), agreed_zero rfl (by decide),
      ⟨0, 0, 65536, .full, 0, 0, false⟩, 0, by decide, by decide, by decide, by decide, by decide, by decide, by decide, by decide,
      by decide, Or.inl ⟨by decide, by decide, rfl⟩⟩⟩

/-- A word that names no handle; a number not claimed; the reserved low half of an MDRAIN; a source rounding of an MMA. -/
theorem witness_matrixTraps : (∃ (s : State) (c : Ctx), Ready s (.mzero (.v 8)) c ∧ agreed (.mzero (.v 8)) c ∧
      bankNamed c (uval c (.v 8)) = none) ∧
    (∃ (s : State) (c : Ctx), Ready s (.mma (.v 20) (.v 8) (.v 12)) c ∧ agreed (.mma (.v 20) (.v 8) (.v 12)) c ∧
      namedHandle c (uval c (.v 8) 1) = none) ∧
    (∃ (s : State) (c : Ctx), Ready s (.mma (.v 20) (.v 8) (.v 12)) c ∧ agreed (.mma (.v 20) (.v 8) (.v 12)) c ∧
      (namedHandle c (uval c (.v 8) 1)).isSome = true ∧ (namedHandle c (uval c (.v 8) 2)).isSome = true ∧
      bankNamed c (uval c (.v 8)) = none) ∧
    ∃ (s : State) (c : Ctx), Ready s (.mdrain (.v 22) (.v 16) (.v 7)) c ∧ agreed (.mdrain (.v 22) (.v 16) (.v 7)) c ∧
      (namedHandle c (uval c (.v 16) 1)).isSome = true ∧ uval c (.v 16) 2 = 0xFFFFFFFF ∧ (bankNamed c (uval c (.v 16) % 8)).isSome = true ∧
      ¬ (uval c (.v 16) 3 % 2 ^ 16 = 0 ∨ uval c (.v 16) 3 % 2 ^ 16 = 8) :=
  ⟨⟨_, at_ [], ready _ _ rfl (by decide), agreed_zero rfl (by decide), by decide⟩,
    ⟨_, at_ [(9, 5)], ready _ _ rfl (by decide), agreed_zero rfl (by decide), by decide⟩,
    ⟨_, at_ [(9, 5), (10, 5)] id id (engineBench .full), ready _ _ rfl (by decide), agreed_zero rfl (by decide), by decide, by decide,
      by decide⟩,
    ⟨_, at_ [(17, 5), (18, 0xFFFFFFFF), (19, 0x00020001)] id (fun t => { t with bankMap := [(0, 0)] }) (engineBench .full),
      ready _ _ rfl (by decide), agreed_zero rfl (by decide), by decide, by decide, by decide, by decide⟩⟩

/-- Tiles of ones in FP16, without scales; a NaN in a bank word. -/
theorem witness_arrayArithmetic : ∃ (a : TileView), a.half.kind ≠ .int8 ∧ (a.half.kind.bits = 8 ∨ a.half.kind.bits = 16) ∧
    (∀ g, scaleIs a 0 (8 * g) 1) ∧ (∀ k, ∃ n m, tileElem a 0 k = .fin n m) ∧ ∃ old, (f32 old).isNan = true :=
  ⟨⟨⟨.bf16, .rne, false, 0⟩, fun _ => 0⟩, by decide, by decide, fun _ => Or.inl ⟨rfl, rfl⟩, fun _ => ⟨_, _, rfl⟩,
    ⟨0x7FC00000, by decide⟩⟩

/-- A claim, a release, and a bank to settle. -/
theorem witness_bankClaims : (∃ (s : State) (c : Ctx) (d a : Reg), Ready s (.abclaim d a) c ∧ agreed (.abclaim d a) c ∧
      c.w.region = none ∧ 1 ≤ uval c a ∧ uval c a ≤ 8 ∧ c.t.bankMap.length + uval c a ≤ c.t.banks) ∧
    (∃ (s : State) (c : Ctx) (a : Reg), Ready s (.abrel a) c ∧ agreed (.abrel a) c ∧ uval c a < 2 ^ 8 ∧
      ∀ k, k < 8 → (uval c a).testBit k = true → (c.t.bankMap.get? k).isSome = true) ∧
    ∃ (s : State) (b : Bank), (s.cluster s.ev.x).banks.get? s.ev.y = some b ∧ b.st = .unsettled 0 0 ∧ s.cmds = [] :=
  ⟨⟨_, at_ [(4, 1)], .v 5, .v 4, ready _ _ rfl (by decide), agreed_zero rfl (by decide), rfl, by decide, by decide, by decide⟩,
    ⟨_, at_ [(4, 1)] id (fun t => { t with bankMap := [(0, 0)] }) (engineBench .full), .v 4, ready _ _ rfl (by decide),
      agreed_zero rfl (by decide), by decide, by decide⟩,
    ⟨{ State.reset with clusters := [(0, { Cluster.init with banks := [(0, ⟨.unsettled 0 0, []⟩)] })] }, _, rfl, rfl, rfl⟩⟩

/-- A claim that waits and can be met. -/
theorem witness_bankClaims_grant : ∃ (s : State) (w : Wave) (m : Team) (word : Word) (set : Mask) (ks ps : List Nat),
    (s.cluster s.ev.x).abq = [(0, 1)] ∧ s.teams.get? 0 = some m ∧ s.failed m.lid = false ∧ s.waves.get? 0 = some w ∧ w.tid = 0 ∧
    w.claiming = some word ∧ w.waiting = some set ∧ w.region = none ∧
    lowestFree 1 m.banks (fun k => (m.bankMap.get? k).isNone) ks ∧
    lowestFree 1 8 (fun k => ((s.cluster s.ev.x).banks.get? k).isNone) ps :=
  let c := at_ [] (fun w => { w with claiming := some 0x54014200, waiting := some 1 }) id
    fun s => { s with clusters := [(0, { Cluster.init with abq := [(0, 1)] })] }
  ⟨c.s, c.w, c.t, 0x54014200, 1, [0], [0], rfl, rfl, rfl, rfl, rfl, rfl, rfl, rfl, ⟨by decide, rfl⟩, ⟨by decide, rfl⟩⟩

/-- A slot of each kind of array command. -/
theorem witness_arraySlots :
    ∀ k ∈ [CmdKind.mzero 0, .mma 0 ⟨5, 0, 0, 0, 0, 2⟩ ⟨5, 0, 0, 32768, 0, 2⟩ 1, .mdrain 0 0 0 0 0x00020000 0,
        .mdrain 0 0 0 0 0x10430000 0],
      ∃ (s : State) (r : Nat × Nat × Nat × Cmd) (m : Team), s.withheld = none ∧ servedNext s s.ev.x r ∧
        s.teams.get? r.2.2.2.tid = some m ∧ r.2.2.2.kind = k ∧ ((s.cluster s.ev.x).banks.get? 0).isSome = true := by
  intro k hk
  let c := fun k => at_ [] id id fun s => { engineBench .draining s with cmds := [(0, benchCmd k 1)] }
  have hr : ∀ k ∈ [CmdKind.mzero 0, .mma 0 ⟨5, 0, 0, 0, 0, 2⟩ ⟨5, 0, 0, 32768, 0, 2⟩ 1, .mdrain 0 0 0 0 0x00020000 0,
        .mdrain 0 0 0 0 0x10430000 0],
      (c k).s.readyTeams (c k).s.ev.x = [(0, 0, 0, benchCmd k 1)] := by decide
  refine ⟨(c k).s, (0, 0, 0, benchCmd k 1), benchTeam, rfl, ⟨?_, ?_⟩, rfl, rfl, rfl⟩
  · rw [hr k hk]; exact List.mem_singleton.mpr rfl
  · rw [hr k hk]
    intro q hq
    obtain rfl := List.mem_singleton.mp hq
    exact ⟨Nat.le_refl _, fun _ => Or.inl rfl⟩

/-- The bytes of R275's record of a tensor of four words at 0x200, PITCH 16, by address from a base. -/
def recordBytes (base : Nat) : List (Nat × Byte) :=
  [(base, 1), (base + 1, 1), (base + 2, 2), (base + 9, 2), (base + 16, 4), (base + 20, 1), (base + 24, 1), (base + 28, 1), (base + 32, 4),
   (base + 64, 4), (base + 66, 1), (base + 68, 1), (base + 70, 1), (base + 72, 16)]

/-- What a computed access answers, checked by evaluating it. -/
theorem answers {e : Except AccStop LaneAcc} {x : LaneAcc}
    (h : (match e with | .ok a => decide (a.lane = x.lane ∧ a.tgt = x.tgt ∧ a.tr = x.tr) | .error _ => false) = true) : e = .ok x := by
  cases e with
  | ok a =>
    obtain ⟨h1, h2, h3⟩ := of_decide_eq_true h
    cases a; cases x
    cases h1; cases h2; cases h3
    rfl
  | error _ => cases h

/-- A lane's read of the record's sector k, and its bytes. -/
def recordLane (k : Nat) : LaneAcc := ⟨0, .mem ⟨.dev, 0x40100 + 32 * k, 0, 0, false⟩, some benchPage⟩

@[inherit_doc recordLane] def recordSector (k : Nat) : List Byte :=
  (List.range 32).map fun i => (lastByte (recordBytes 0x40100) (0x40100 + 32 * k + i)).getD 0

def recordBench : Ctx :=
  at_ [(6, 0x100), (12, 63)] id id fun s => { holding benchPage s with
    mem := recordBytes 0x40100, dies := [(0, { Die.init with dir := [(4100, 1), (4102, 1)] })] }

theorem witness_layoutRecords : ∃ (s : State) (c : Ctx) (a b : Reg) (addr id : Nat) (as : Nat → LaneAcc) (bs : Nat → List Byte)
    (l : Layout), Ready s (.lrbind a b) c ∧ agreed (.lrbind a b) c ∧ id = uval c b ∧ id < 64 ∧ addr = (c.regW a c.first).toNat ∧
    addr % 64 = 0 ∧ recordRead c addr as bs ∧ (recordTouched c addr as).isSome = true ∧ layoutBytes ((six bs).flatMap fun b => b) l := by
  refine ⟨_, recordBench, .v 6, .v 12, 0x100, 63, recordLane, recordSector,
    .tensor ⟨0x200, 1, 4, [4, 1, 1, 1], [4, 0, 0, 0], [4, 1, 1, 1], 16⟩, ready _ _ rfl (by decide), agreed_zero rfl (by decide), by decide,
    by decide, by decide, by decide, ⟨?_, by decide +kernel⟩, by decide +kernel, ?_⟩
  · intro k hk
    refine ⟨?_, ?_⟩
    · interval_cases k <;> exact answers (by decide +kernel)
    · have : ∀ k, k < 6 → recordBench.readBytes (recordLane k).tgt 32 = some (recordSector k) := by decide +kernel
      exact this k hk
  · refine ⟨by decide +kernel, by decide +kernel, ?_, ?_, by decide +kernel, by decide +kernel, by decide +kernel, by decide +kernel,
      by decide +kernel, by decide +kernel, by decide +kernel, by decide, by decide, by decide, by decide, by decide, by decide,
      by decide, by decide⟩
    · have : ∀ k, k < 8 → 3 ≤ k → ((six recordSector).flatMap fun b => b).getD k 0 = 0 := by decide +kernel
      exact fun k h1 h2 => this k h2 h1
    · have : ∀ k, k < 192 → 76 ≤ k → ((six recordSector).flatMap fun b => b).getD k 0 = 0 := by decide +kernel
      exact fun k h1 h2 => this k h2 h1

/-- An unaligned address; a first sector on a page not mapped. -/
theorem witness_layoutRecords_stops :
    (∃ (s : State) (c : Ctx), Ready s (.lrbind (.v 6) (.v 12)) c ∧ agreed (.lrbind (.v 6) (.v 12)) c ∧ uval c (.v 12) < 64 ∧
      uval c (.v 6) % 64 ≠ 0) ∧
    (∃ (s : State) (c : Ctx), Ready s (.lrbind (.v 6) (.v 12)) c ∧ agreed (.lrbind (.v 6) (.v 12)) c ∧ 64 ≤ uval c (.v 12)) ∧
    (∃ (s : State) (c : Ctx), Ready s (.lrflush (.v 12)) c ∧ agreed (.lrflush (.v 12)) c ∧ uval c (.v 12) < 64 ∧
      (s.cluster c.t.cluster).recs.get? (uval c (.v 12)) = none) ∧
    ∃ (s : State) (c : Ctx), Ready s (.lrbind (.v 6) (.v 12)) c ∧ agreed (.lrbind (.v 6) (.v 12)) c ∧
      c.globalLane .load 32 c.first (BitVec.ofNat 64 0x100) = .error (.park .page) :=
  ⟨⟨_, at_ [(6, 0x104), (12, 63)], ready _ _ rfl (by decide), agreed_zero rfl (by decide), by decide, by decide⟩,
    ⟨_, at_ [(6, 0x100), (12, 64)], ready _ _ rfl (by decide), agreed_zero rfl (by decide), by decide⟩,
    ⟨_, at_ [(12, 63)], ready _ _ rfl (by decide), agreed_zero rfl (by decide), by decide, rfl⟩,
    ⟨_, at_ [(6, 0x100), (12, 63)], ready _ _ rfl (by decide), agreed_zero rfl (by decide), rfl⟩⟩

/-- A ticket reached, one not yet reached. -/
theorem witness_timelineCounters : ∀ n ∈ [2, 3], ∃ (s : State) (c : Ctx), Ready s (.tlwait (.v 20) (.v 4)) c ∧
    agreed (.tlwait (.v 20) (.v 4)) c ∧ uval c (.v 4) < 4 ∧ (c.regW (.v 20) c.first).toNat = n ∧ (counterOf c (uval c (.v 4))).taken = 3 ∧
    (counterOf c (uval c (.v 4))).value = 2 ∧ mayReadWords c := by
  intro n hn
  let c := at_ [(4, 3), (20, BitVec.ofNat 32 n)] id fun t => { t with ctr := [(3, ⟨2, 3, []⟩)] }
  refine ⟨c.s, c, ?_⟩
  rcases List.mem_cons.mp hn with rfl | hn
  · exact ⟨ready _ _ rfl (by decide), agreed_zero rfl (by decide), by decide, by decide, by decide, by decide,
      (fun h => absurd h (by decide)), fun e h => by cases h⟩
  · obtain rfl := List.mem_singleton.mp hn
    exact ⟨ready _ _ rfl (by decide), agreed_zero rfl (by decide), by decide, by decide, by decide, by decide,
      (fun h => absurd h (by decide)), fun e h => by cases h⟩

/-- A table of four rows of four FP32 words. -/
def benchTable : EmbTable := ⟨0, 4, 16, 4, 0, 0⟩

/-- One bag with one entry, pooled to the port. -/
theorem witness_embeddingBags : ∃ (s : State) (c : Ctx) (d a b : Reg) (hi : Handle) (x : EmbTable) (p : Plan) (entry : Nat → List Byte),
    Ready s (.embag d a b) c ∧ (∀ k, k < 4 → sameWord c a k 32) ∧ c.cnt ≠ 0 ∧ bagOrder c a b hi x p ∧ bagless c ∧ hi.st ≠ .filling ∧
    (∀ e ∈ c.w.sbuf, e.held = false) ∧
    (∀ g ∈ bagsOf c b, ∀ k, k < g.count → c.readBytes (.ls (hi.base + 8 * (g.off + k))) 8 = some (entry (g.off + k))) ∧
    s.readers (handleWords (p.inb ++ [(4 * c.t.cluster + c.t.pos, uval c a 1)])) (some c.wid) = [] ∧
    (∀ g ∈ bagsOf c b, ∀ k, k < g.count → entryIndex (entry (g.off + k)) < x.rows) ∧ mayOrder c p ∧ bagsOf c b = [⟨0, 0, 1⟩] := by
  let c := at_ [(8, 0x1000), (9, 5), (11, 0xFFFFFFFF), (12, 0x10000)] id (fun t => { t with queues := [(0, ⟨true, 0, 0, 0, [], [], []⟩)] })
    fun s => { engineBench .full s with clusters := [(0, { Cluster.init with recs := [(0, ⟨0x1000, .table benchTable⟩)] })] }
  refine ⟨_, c, .v 20, .v 8, .v 12, ⟨0, 0, 65536, .full, 0, 0, false⟩, benchTable, _, fun _ => List.replicate 8 0,
    ready _ _ rfl (by decide), ?_, by decide, ⟨by decide, by decide, by decide, by decide, by decide, by decide, Or.inl (by decide),
      by decide, Or.inl ⟨by decide, by decide, by decide, ⟨⟨true, 0, 0, 0, [], [], []⟩, by decide, rfl⟩, rfl⟩⟩, ⟨(fun e h => by cases h), rfl, rfl⟩, by decide,
    (fun e h => by cases h), by decide, by decide, by decide, ?_, by decide⟩
  · intro k _ l h
    have hc : c.cnt = 1 := by decide
    have hf : c.first = 0 := by decide
    rw [hc] at h
    rw [lane_zero h, hf]
  · exact ⟨fun h => absurd rfl h, (fun e h => by cases h), (fun e h => by cases h), (fun e h => by cases h), by decide⟩

/-- Two entries of one rank and one of another, pooled as a sum. -/
theorem witness_pooledValues : ∃ (es : List (Nat × Word × Word)), es ≠ [] ∧ (∀ e ∈ es, e.1 < 128) ∧
    ∃ (i : Nat) (e : Nat × Word × Word), es[i]? = some e ∧ e.1 = 5 :=
  ⟨[(5, 0, 0x3F800000), (5, 0, 0x40000000), (7, 0, 0)], by decide, by decide, 0, _, rfl, rfl⟩

/-- An index at ROWS. -/
theorem witness_embeddingBags_index : ∃ (c : Ctx) (entry : List Byte), bagsOf c (.v 12) = [⟨0, 0, 1⟩] ∧
    c.readBytes (.ls 0) 8 = some entry ∧ benchTable.rows ≤ entryIndex entry :=
  ⟨at_ [(12, 0x10000)] id (fun t => { t with ls := [(0, 4)] }), [4, 0, 0, 0, 0, 0, 0, 0], by decide, by decide, by decide⟩

/-- One command, its team's wave as the bench has it. -/
def cmdBench (c : Cmd) (s : State) : State := { s with cmds := [(0, c)] }

theorem witness_localElements : ∃ (s : State) (c : Cmd) (m n : Team) (to_ dst : Nat) (bs : List Byte), s.cmds.get? s.ev.x = some c ∧
    active s c m ∧ s.ev.y ∉ c.done ∧ localElement s c m s.ev.y to_ dst bs ∧ s.teams.get? to_ = some n ∧ barrierFree n dst bs.length ∧
    noRegion s ∧ cleanHost s :=
  ⟨(at_ [] id id (cmdBench (benchCmd (.mcast 0 4 [(0, 64)])))).s, _, benchTeam, benchTeam, 0, 64, _, rfl,
    ⟨rfl, rfl, rfl, rfl, rfl, rfl⟩, by decide, Or.inr (Or.inr (Or.inl ⟨_, _, _, 64, rfl, by decide, rfl, by decide, rfl⟩)), rfl,
    (fun b h => by cases h), no_region rfl rfl, clean_host rfl⟩

theorem witness_globalElements : ∃ (s : State) (c : Cmd) (m : Team) (p : Phys) (bs : List Byte), s.cmds.get? s.ev.x = some c ∧
    active s c m ∧ s.ev.y ∉ c.done ∧ globalElement s c m s.ev.y p bs ∧ noRegion s ∧ cleanHost s ∧
    (p.sp = .dev → ∀ k, k < bs.length → s.inBias (p.addr + k) = false) ∧ noStatus s p.sp p.addr bs.length :=
  ⟨(at_ [] id id fun s => cmdBench (benchCmd (.bcopy 2 0 0 4 0 0x100)) (holding benchPage s)).s, _, benchTeam,
    ⟨.dev, 0x40100, 0, 0, false⟩, _, rfl, ⟨rfl, rfl, rfl, rfl, rfl, rfl⟩, by decide,
    Or.inr (Or.inl ⟨_, _, _, _, _, rfl, by decide, ⟨_, (fun q h => by cases h), Or.inr ⟨benchPage, ⟨rfl, (fun f h => by cases h), rfl⟩,
      by decide, rfl, by unfold keyed; decide⟩⟩, rfl⟩), no_region rfl rfl, clean_host rfl, fun _ _ _ => rfl, by unfold noStatus; decide⟩

/-- A copy to the local store whose page has a leaf, the keys of peers held. -/
def copyBench (l : Leaf) : State :=
  (at_ [] id id fun s => cmdBench (benchCmd (.bcopy 1 0 0 4 0x100 0)) { holding ⟨0, 0, 16, l⟩ s with peerKey := [(0, 1)] }).s

/-- The first access of a copy: on a page not mapped, on the capacity tier with no buffer key, and on a page of a peer that has
the key (which peers have is free). -/
theorem witness_elementRequests : (∃ (s : State) (c : Cmd) (m : Team) (o : Owner), s.cmds.get? s.ev.x = some c ∧ active s c m ∧
      s.ev.y ∉ c.done ∧ firstAccess c s.ev.y .engineRead 0x100 4 ∧ engineMeets s c m .engineRead s.ev.y 0x100 (.park .page) ∧
      s.owners.get? c.owner = some o) ∧
    (∃ (s : State) (c : Cmd) (m : Team) (tr : Trans) (p : Phys), s.cmds.get? s.ev.x = some c ∧ active s c m ∧ s.ev.y ∉ c.done ∧
      firstAccess c s.ev.y .engineRead 0x100 4 ∧ engineMeets s c m .engineRead s.ev.y 0x100 (.ok tr p) ∧ s.pend = [] ∧ p.tier ≠ 2 ∧
      ∃ z, (s.held (4 * m.cluster + m.pos) (m.cluster / 50) c.owner 64 0x100 tr).missingKey p = some z) ∧
    (Config.peerHasKey 5 0 = true → ∃ (s : State) (c : Cmd) (m : Team) (tr : Trans) (p : Phys), s.cmds.get? s.ev.x = some c ∧
      active s c m ∧ s.ev.y ∉ c.done ∧ firstAccess c s.ev.y .engineRead 0x100 4 ∧
      engineMeets s c m .engineRead s.ev.y 0x100 (.ok tr p) ∧ s.pend = [] ∧ p.tier = 2 ∧ p.key < 128 ∧
      0 < s.fabRoom (m.cluster / 50) (dataWith c .engineRead 0x100 4)) := by
  have hf : firstAccess (benchCmd (.bcopy 1 0 0 4 0x100 0)) 0 .engineRead 0x100 4 :=
    Or.inr (Or.inr (Or.inl ⟨_, _, _, _, _, _, rfl, by decide, by decide, rfl, rfl, rfl⟩))
  refine ⟨⟨(at_ [] id id (cmdBench (benchCmd (.bcopy 1 0 0 4 0x100 0)))).s, _, benchTeam, Owner.init 0 0, rfl,
    ⟨rfl, rfl, rfl, rfl, rfl, rfl⟩, by decide, hf, ⟨rfl, (fun f h => by cases h), rfl⟩, rfl⟩,
    ⟨copyBench ⟨hbmEnd / 4096, 0, 0, 1, false, false, false, true, true, true⟩, _, benchTeam, _, _, rfl,
      ⟨rfl, rfl, rfl, rfl, rfl, rfl⟩, by decide, hf, ⟨rfl, (fun f h => by cases h), rfl⟩, rfl, by decide, _, rfl⟩, fun hk =>
    ⟨copyBench ⟨0x40, 5, 0, 2, false, false, false, true, true, true⟩, _, benchTeam, ⟨0, 0, 16, ⟨0x40, 5, 0, 2, false, false, false, true, true, true⟩⟩,
      ⟨.peer, 5 * 2 ^ 44 + 0x40100, 0, 2, false⟩, rfl, ⟨rfl, rfl, rfl, rfl, rfl, rfl⟩, by decide, hf, ⟨rfl, (fun f h => by cases h), ?_⟩,
      rfl, rfl, by decide, by decide⟩⟩
  show Xlat.access (.ok ⟨0, 0, 16, ⟨0x40, 5, 0, 2, false, false, false, true, true, true⟩⟩) .u .engineRead 0x100 = _
  simp [Xlat.access, Trans.peerError, hk, Leaf.grants, Trans.phys, Leaf.pa, capEnd]

/-- A row element on the capacity tier, and a pooled element for the port. -/
theorem witness_embeddingAccesses : (∃ (s : State) (c : Cmd) (m : Team) (g : Bag) (p : Phys) (y : Half), s.cmds.get? s.ev.x = some c ∧
      active s c m ∧ c.kind = .embag benchTable 0 0 none 0 [g] ∧ bagOf [g] g.lane = some g ∧ 0 < g.count ∧ g.lane < 64 ∧
      s.ev.y = gotElem g.lane 0 0 ∧ s.ev.y ∉ c.done ∧ c.got.get? (gotRow g.lane 0) = none ∧ embHalf benchTable.efmt = some y ∧
      cleanHost s ∧ (∃ tr, s.access 0 0 c.owner c.level .engineRead 64 benchTable.base = .ok tr p ∧
        keyed (s.held 0 0 c.owner 64 benchTable.base tr) p) ∧ c.faults = [] ∧ p.tier = 1 ∧ p.ace = false ∧ p.key < 128 ∧
      c.asked (2 * gotRow g.lane 0) benchTable.base = none ∧ 0x20000000000 ≤ p.addr ∧ s.bufferHolds (bufferOf p.addr) p.key = true ∧ s.pend = []) ∧
    (∃ (s : State) (c : Cmd) (m : Team) (g : Bag) (b : Binding), s.cmds.get? s.ev.x = some c ∧ active s c m ∧
      c.kind = .embag benchTable 0 0 none 0 [g] ∧ bagOf [g] g.lane = some g ∧ s.ev.y = 4096 * g.lane ∧ s.ev.y ∉ c.done ∧
      (∀ j, j < g.count → gotElem g.lane j 0 ∈ c.done) ∧ m.queues.get? 0 = some b ∧ b.port = true ∧
      (b.vals.get [] g.lane).length < 16 ∧ noRegion s ∧ ∀ o ∈ s.cmds, s.ev.x ≤ o.1) ∧
    ∃ s : State, (s.ev.x, s.ev.y) ∈ s.keyWants :=
  ⟨⟨(at_ [] id id fun s => { holding ⟨0, 0, 16, ⟨hbmEnd / 4096, 0, 0, 1, false, false, false, true, true, true⟩⟩ s with
        cmds := [(0, benchCmd (.embag benchTable 0 0 none 0 [⟨0, 0, 1⟩]))], bufKeys := [(0, [0])],
        ev := ⟨0, gotElem 0 0 0, 0, false, .none⟩ }).s, _, benchTeam, ⟨0, 0, 1⟩, ⟨.dev, hbmEnd, 0, 1, false⟩, ⟨.fp32, .rne, false, 0⟩, rfl,
      ⟨rfl, rfl, rfl, rfl, rfl, rfl⟩, rfl, by decide, by decide, by decide, rfl, by decide, rfl, by decide, clean_host rfl,
      ⟨_, rfl, by unfold keyed; decide⟩, rfl, rfl, rfl, by decide, by decide, by decide, by decide, rfl⟩,
    ⟨(at_ [] id (fun t => { t with queues := [(0, ⟨true, 0, 0, 0, [], [], []⟩)] }) (cmdBench { benchCmd (.embag benchTable 0 0 none 0
        [⟨0, 0, 1⟩]) with done := [gotElem 0 0 0] })).s, _, _, ⟨0, 0, 1⟩, _, rfl, ⟨rfl, rfl, rfl, rfl, rfl, rfl⟩, rfl, by decide, rfl,
      by decide, by decide, rfl, rfl, by decide, no_region rfl rfl, fun _ _ => Nat.zero_le _⟩,
    ⟨{ State.reset with keyWants := [(0, 0)] }, by decide⟩⟩

theorem witness_commandCourse : (∃ (s : State) (c : Cmd) (m : Team), s.cmds.get? s.ev.x = some c ∧ c.queued = true ∧ c.held = false ∧
      c.released = false ∧ s.teams.get? c.tid = some m ∧ s.failed m.lid = false ∧ clearBefore s c) ∧
    ∃ (s : State) (c : Cmd) (m : Team), s.cmds.get? s.ev.x = some c ∧ active s c m ∧ c.slotsDone = c.slots ∧
      (∀ e ∈ c.elems, e ∈ c.done) ∧ noRegion s ∧ (∀ l ∈ c.lines, l.1 = c.tid) ∧ (c.inb ++ c.outb).Nodup := by
  refine ⟨⟨(at_ [] id id (cmdBench { benchCmd (.bcopy 0 0 0 4 0 0) with released := false })).s, _, benchTeam, rfl, rfl, rfl, rfl, rfl,
      rfl, ?_⟩,
    ⟨(at_ [] id id (cmdBench { benchCmd (.bcopy 1 0 0 4 0 0) with done := [0], inb := [(0, 5)], counter := some (2, 1) })).s, _, benchTeam,
      rfl, ⟨rfl, rfl, rfl, rfl, rfl, rfl⟩, rfl, by decide, no_region rfl rfl, (fun l h => by cases h), by decide⟩⟩
  intro w hw
  cases hw
  exact ⟨(fun e h => by cases h), (fun _ _ _ _ _ h => by cases h), fun _ _ _ h => by cases h⟩

/-- A channel that may be bound, and a bound register that is no longer used. -/
theorem witness_queueRegisters : (∃ (s : State) (c : Ctx) (k : Binding), Ready s (.qbind (.v 4) (.v 5)) c ∧
      agreed (.qbind (.v 4) (.v 5)) c ∧ bindable c (uval c (.v 4)) (uval c (.v 5)) k ∧
      s.readers [.chan c.w.tid (uval c (.v 4) % 8)] (some c.wid) = []) ∧
    ∃ (s : State) (c : Ctx) (k : Binding), Ready s (.qunbind (.v 4)) c ∧ agreed (.qunbind (.v 4)) c ∧ uval c (.v 4) < 8 ∧
      c.t.queues.get? (uval c (.v 4)) = some k ∧ ¬ stillUsed c (uval c (.v 4)) k ∧ c.w.region = none ∧ mayReadWords c ∧
      Ready s (.qstat (.v 6) (.v 4)) c := by
  refine ⟨⟨_, at_ [(4, 0x13000), (5, 0)], ⟨false, 1, 3, 0, [], [], []⟩, ready _ _ rfl (by decide), agreed_zero rfl (by decide),
      ⟨by decide, by decide, by decide, Or.inl ⟨by decide, by decide, by decide, by decide, by decide, by decide, by decide,
        (fun e h => by cases h), by decide⟩⟩, by decide⟩,
    ⟨_, at_ [] id fun t => { t with queues := [(0, benchChannel)] }, _, ready _ _ rfl (by decide), agreed_zero rfl (by decide), by decide,
      rfl, ?_, rfl, ⟨fun h => absurd h (by decide), (fun e h => by cases h)⟩, ready _ _ rfl (by decide)⟩⟩
  rintro (⟨e, he, _, x, hx, _⟩ | ⟨h, _⟩)
  · obtain rfl := List.mem_singleton.mp he
    cases hx
  · cases h

/-- A BINIT of one barrier, and one with the count 0. -/
theorem witness_barrierStores : (∃ (s : State) (c : Ctx) (ok : Nat → Prop) (op : List (Nat × Nat) → SbOp),
      syncStore (.binit (.v 6) (.v 7)) = some (.v 6, .v 7, ok, op) ∧ Ready s (.binit (.v 6) (.v 7)) c ∧ namesBarriers c (.v 6) ∧
      ∀ l, hasLane c.cnt l = true → ok (c.reg (.v 7) l).toNat) ∧
    ∃ (s : State) (c : Ctx), Ready s (.binit (.v 6) (.v 7)) c ∧ namesBarriers c (.v 6) ∧ hasLane c.cnt 0 = true ∧
      (c.reg (.v 7) 0).toNat = 0 :=
  ⟨⟨_, at_ [(6, 16), (7, 1024)], _, _, rfl, ready _ _ rfl (by decide), on_lane_zero (by unfold barrierAt; decide),
      on_lane_zero (by decide)⟩,
    ⟨_, at_ [(6, 16)], ready _ _ rfl (by decide), on_lane_zero (by unfold barrierAt; decide), by decide, by decide⟩⟩

theorem witness_barrierEntries : ∀ o ∈ [SbOp.binit [(16, 2)], .owed [(16, 4)]], ∃ (s : State) (w : Wave) (m : Team),
    s.waves.get? s.ev.x = some w ∧ s.teams.get? w.tid = some m ∧ w.sbuf = [⟨o, 0, 0, false, false, []⟩] ∧ w.spilling = none ∧
    w.irrev = none ∧ s.failed m.lid = false ∧ noRegion s ∧ ∀ a ∈ m.barriers, a % 8 = 0 := by
  intro o _
  exact ⟨(at_ [] (withEntry ⟨o, 0, 0, false, false, []⟩)).s, _, benchTeam, rfl, rfl, rfl, rfl, rfl, rfl, no_region rfl rfl,
    fun a h => by cases h⟩

/-- A barrier at 16 with INIT 2 and LEFT 1, PHASE 0. -/
def barrierTeam (t : Team) : Team := { t with ls := [(16, 1), (18, 2)], barriers := [16] }

theorem bench_arrival : arrival (barrierTeam benchTeam) (phased ((barrierTeam benchTeam).lsPutWord 16 0x20000) 16) 16 0x20001 :=
  ⟨by decide, by unfold takesArrival barrierWord; decide, rfl⟩

theorem witness_barrierWaits : (∃ (s : State) (c : Ctx) (T : Nat → Team) (got : Nat → Word), Ready s (.barrive (.v 8) (.v 6)) c ∧
      namesBarriers c (.v 6) ∧ c.w.region = none ∧ T 0 = c.t ∧
      (∀ k l, (lanesOf c.cnt)[k]? = some l → arrival (T k) (T (k + 1)) (c.reg (.v 6) l).toNat (got l)) ∧
      s.readers ((lanesOf c.cnt).map fun l => .ls c.w.tid ((c.reg (.v 6) l).toNat / 4)) (some c.wid) = []) ∧
    (∃ (s : State) (c : Ctx) (word : Nat → Word), Ready s (.bwait (.v 6) (.v 8)) c ∧ namesBarriers c (.v 6) ∧ mayReadWords c ∧
      ∀ l, hasLane c.cnt l = true → barrierWord (word l).toNat ∧
        ∃ bs, c.readBytes (.ls (c.reg (.v 6) l).toNat) 4 = some bs ∧ word l = BitVec.ofNat 32 (leValue bs)) ∧
    ∃ (s : State) (c : Ctx) (ps : Mask), Ready s .tsync c ∧ (∀ l, hasLane ps l = true ↔ hasLane c.set l = true ∧ passesTsync c l) ∧
      c.cnt &&& ~~~c.w.tsMark ≠ 0 ∧ (∀ e ∈ c.w.sbuf, e.held = false) ∧ c.cnt &&& c.w.tsMark = 0 ∧ ¬ testEnds c (passesTsync c) := by
  let t0 := barrierTeam benchTeam
  let t1 := phased (t0.lsPutWord 16 0x20000) 16
  refine ⟨⟨_, at_ [(6, 16)] id barrierTeam, fun k => Nat.casesOn k t0 fun _ => t1, fun _ => 0x20001, ready _ _ rfl (by decide),
      on_lane_zero (by unfold barrierAt; decide), rfl, rfl, ?_, by decide⟩,
    ⟨_, at_ [(6, 16)] id barrierTeam, fun _ => 0x20001, ready _ _ rfl (by decide), on_lane_zero (by unfold barrierAt; decide),
      ⟨fun h => absurd h (by decide), (fun e h => by cases h)⟩,
      on_lane_zero ⟨by unfold barrierWord; decide, [1, 0, 2, 0], by decide +kernel, by decide +kernel⟩⟩,
    ⟨_, at_ [], 0, ready _ _ rfl (by decide), ?_, by decide, (fun e h => by cases h), by decide, ?_⟩⟩
  rotate_left
  · intro l
    refine ⟨fun h => by simp [hasLane] at h, ?_⟩
    rintro ⟨h, h1 | ⟨h1, _⟩⟩ <;> simp [hasLane, at_, benchWave, Wave.start] at h1
  · rintro (h | h)
    · rcases h 0 (by decide) with h | ⟨h, _⟩
      · exact absurd h (by decide)
      · exact absurd h (by decide)
    · exact absurd h (by decide)
  intro k l h
  have h1 : lanesOf (at_ [(6, 16)] id barrierTeam).cnt = [0] := by decide
  rw [h1] at h
  rcases k with _ | k
  · cases h
    exact bench_arrival
  · cases h

theorem bench_word : ∃ bs, (at_ [(6, 16), (8, 0x80000000)] id barrierTeam).readBytes (.ls 16) 4 = some bs ∧
    (0x20001 : Word) = BitVec.ofNat 32 (leValue bs) := ⟨[1, 0, 2, 0], by decide +kernel, by decide +kernel⟩

/-- One arrival of the two left; a phase that is over; an instance of TSYNC that is complete. -/
theorem witness_waitsComplete : (∃ (s : State) (c : Ctx), Ready s (.barrive (.v 8) (.v 6)) c ∧ namesBarriers c (.v 6) ∧
      c.w.region = none ∧ ∀ l, hasLane c.cnt l = true → barrierWord (c.t.lsWord (c.reg (.v 6) l).toNat).toNat ∧
        ((lanesOf c.cnt).filter fun k => c.reg (.v 6) k = c.reg (.v 6) l).length ≤
          field (c.t.lsWord (c.reg (.v 6) l).toNat).toNat 0 11) ∧
    (∃ (s : State) (c : Ctx), Ready s (.bwait (.v 6) (.v 8)) c ∧ namesBarriers c (.v 6) ∧ mayReadWords c ∧
      ∀ l, hasLane c.cnt l = true →
        ∃ w, barrierRead c (.v 6) l w ∧ barrierWord w.toNat ∧ w.getLsbD 31 ≠ (c.reg (.v 8) l).getLsbD 31) ∧
    ∃ (s : State) (c : Ctx), Ready s .tsync c ∧ mayReadWords c ∧ ∀ l, hasLane c.cnt l = true →
      hasLane c.w.tsMark l = true ∧ ¬ arrivalOpen c.w l ∧ instanceDone s c.w.tid (c.w.tsCount.get 0 l) :=
  ⟨⟨_, at_ [(6, 16)] id barrierTeam, ready _ _ rfl (by decide), on_lane_zero (by unfold barrierAt; decide), rfl,
      on_lane_zero ⟨by unfold barrierWord; decide, by decide⟩⟩,
    ⟨_, at_ [(6, 16), (8, 0x80000000)] id barrierTeam, ready _ _ rfl (by decide), on_lane_zero (by unfold barrierAt; decide),
      ⟨fun h => absurd h (by decide), (fun e h => by cases h)⟩,
      on_lane_zero ⟨0x20001, bench_word, by unfold barrierWord; decide, by decide⟩⟩,
    ⟨_, at_ [] fun w => { w with tsMark := 1 }, ready _ _ rfl (by decide), ⟨fun h => absurd h (by decide), (fun e h => by cases h)⟩,
      on_lane_zero ⟨by decide, (by rintro ⟨_, h, _⟩; cases h), fun _ _ _ _ _ => Nat.zero_le _⟩⟩⟩

/-- An unaligned barrier; a barrier never initialised, at BWAIT and at BARRIVE. -/
theorem witness_barrierTraps : (∃ (s : State) (c : Ctx), Ready s (.barrive (.v 8) (.v 6)) c ∧
      ∀ l, hasLane 1 l = true ↔ hasLane c.cnt l = true ∧ ¬ barrierAt c (c.reg (.v 6) l).toNat) ∧
    (∃ (s : State) (c : Ctx), Ready s (.bwait (.v 6) (.v 8)) c ∧ namesBarriers c (.v 6) ∧
      (∀ l, hasLane c.cnt l = true → barrierRead c (.v 6) l 0) ∧ ¬ barrierWord (0 : Word).toNat) ∧
    ∃ (s : State) (c : Ctx), Ready s (.barrive (.v 8) (.v 6)) c ∧ namesBarriers c (.v 6) ∧
      ∀ l, hasLane c.cnt l = true → ¬ takesArrival c.t (c.reg (.v 6) l).toNat := by
  refine ⟨⟨_, at_ [(6, 20)], ready _ _ rfl (by decide), fun l => ⟨fun h => ⟨h, ?_⟩, fun h => h.1⟩⟩,
    ⟨_, at_ [(6, 16)], ready _ _ rfl (by decide), on_lane_zero (by unfold barrierAt; decide),
      on_lane_zero ⟨[0, 0, 0, 0], by decide, by decide⟩, by unfold barrierWord; decide⟩,
    ⟨_, at_ [(6, 16)], ready _ _ rfl (by decide), on_lane_zero (by unfold barrierAt; decide),
      on_lane_zero (by unfold takesArrival barrierWord; decide)⟩⟩
  obtain rfl := lane_zero h
  unfold barrierAt
  decide

/-- A launch of one thread: the last to trigger. -/
theorem witness_triggerEffects : ∃ (s : State) (c : Ctx) (l : Launch), Ready s .trigger c ∧ s.launches.get? c.t.lid = some l ∧
    l.shape.isSome = true ∧ l.trigDone + (lanesOf (triggering c)).length = threadCount l :=
  ⟨_, at_ [] id id fun s => { s with launches := [(0, { programLaunch with trigDone := 3 })] }, _, ready _ _ rfl (by decide), rfl, rfl,
    by decide⟩

theorem witness_launchAppends : ∃ (s : State) (c : Ctx) (rec : Nat → List Byte) (acc : Nat → LaneAcc),
    Ready s (.launch (.v 10) (.v 4) (.v 6)) c ∧ noRegion s ∧
    ∀ l, hasLane c.cnt l = true → (c.reg (.v 6) l).toNat < 64 ∧ c.globalLane .load 64 l (c.regW (.v 4) l) = .ok (acc l) ∧
      c.readBytes (acc l).tgt 64 = some (rec l) ∧
      ∀ p, (acc l).tgt = .mem p → p.ace = true → ∀ x, c.s.owners.get? c.t.owner = some x → x.migQ = none :=
  ⟨_, at_ [(4, 0x100), (6, 63)] id id (holding benchPage), fun _ => List.replicate 64 0,
    fun _ => ⟨0, .mem ⟨.dev, 0x40100, 0, 0, false⟩, some benchPage⟩, ready _ _ rfl (by decide), no_region rfl rfl,
    on_lane_zero ⟨by decide, answers (by decide +kernel), by decide +kernel, fun p hp h => by cases hp; cases h⟩⟩

/-- A launch queue of two slots in LAUNCH mode at 0x200, its tail at 0x300, in a module whose page at 0 is mapped. -/
def benchQueue : Queue := ⟨⟨0x200, 0x300, 0x308, 1, 1, 0, 0⟩, .running, 0, 0, none, []⟩

def frontMem : Tbl Byte := (State.reset.withProgram 0).mem

def benchFront (q : Queue) (ls : Tbl Launch := []) (mem : Tbl Byte := frontMem) : State :=
  { State.reset with owners := [(0, { Owner.init 0 0 with queues := [(0, q)] })], launches := ls, mem := mem, keyVer := [(0, 1)] }

theorem witness_launchAppends_append : ∃ (s : State) (x : Queue) (tr tr' : Trans) (p r : Phys), s.queue? 0 0 = some x ∧
    x.desc.launchMode = true ∧ x.state = .running ∧ x.lastTail - x.taken < 2 ^ x.desc.logSize ∧ noRegion s ∧
    s.frontAccess 0 .store (x.desc.base.toNat + 64 * (x.lastTail % 2 ^ x.desc.logSize)) = .ok tr p ∧
    s.frontAccess 0 .store x.desc.tail.toNat = .ok tr' r ∧ cleanHost s ∧ (∀ k, k < 64 → p.sp = .dev → s.inBias (p.addr + k) = false) ∧
    (∀ k, k < 8 → r.sp = .dev → s.inBias (r.addr + k) = false) ∧ noStatus s p.sp p.addr 64 ∧ noStatus s r.sp r.addr 8 ∧ s.pend = [] ∧
    p.sp = r.sp ∧ p.addr / 32 + 2 ≤ r.addr / 32 ∧ p.addr % 32 = 0 ∧ r.addr % 8 = 0 := by
  have h : (match (benchFront benchQueue).frontAccess 0 .store 0x200, (benchFront benchQueue).frontAccess 0 .store 0x300 with
      | .ok _ p, .ok _ r => decide (p = ⟨.dev, 0x40200, 0, 0, false⟩ ∧ r = ⟨.dev, 0x40300, 0, 0, false⟩)
      | _, _ => false) = true := by decide +kernel
  split at h
  · rename_i _ _ tr p tr' r h1 h2
    obtain ⟨rfl, rfl⟩ := of_decide_eq_true h
    exact ⟨benchFront benchQueue, benchQueue, tr, tr', _, _, rfl, rfl, rfl, by decide, (fun e h => by cases h), h1, h2,
      clean_host (by decide +kernel), (fun _ _ _ => rfl), (fun _ _ _ => rfl), by unfold noStatus; decide, by unfold noStatus; decide, rfl,
      rfl, by decide, by decide, by decide⟩
  · cases h

/-- A task pushed into a free hamper of the cluster; a launch with overflow room. -/
theorem witness_taskPushes : (∃ (x : Cluster) (e : TaskEntry) (y : Option Cluster), Tbl.ascending 0 x.hampers = true ∧ placedIn x 0 e y ∧
      y.isSome = true) ∧
    ∃ (s : State) (c : Ctx) (l : Launch), Ready s (.tkpush (.v 16)) c ∧ s.launches.get? c.t.lid = some l ∧ noRegion s ∧
      pushedEntries c (.v 16) ≠ [] ∧ (∀ e ∈ pushedEntries c (.v 16), taskPc e % 4 = 0 ∧ taskPc e < 2 ^ 57) ∧
      ((s.cluster c.t.cluster).pushTasks c.t.lid (pushedEntries c (.v 16))).2 = [] :=
  ⟨⟨Cluster.init, [0x100, 0, 0, 0, 0, 0, 0, 0], _, rfl, Or.inr ⟨(fun h hh => by cases hh), Or.inl ⟨0, by decide, rfl,
      fun j h => absurd h (Nat.not_lt_zero j), rfl⟩⟩, rfl⟩,
    ⟨_, at_ [(16, 0x100)], _, ready _ _ rfl (by decide), rfl, no_region rfl rfl, by decide, by decide +kernel, by decide⟩⟩

/-- A launch with an overflow region of four entries at 0x100, one of them there, and every hamper of the cluster at another PC,
of the launch given; the page at 0 has a leaf if one is given. -/
def overflowBench (lid : Nat) (page : List Trans) (s : State) : State :=
  { s with
    launches := [(0, { programLaunch with ovf := 0x100, ovfN := 4, ovfTail := 1 })]
    cores := [(0, { Core.init with tlb := page })]
    clusters := [(0, { Cluster.init with hampers := (List.range 8).map fun k => (k, ⟨lid, 0x200 + 4 * k, [[0x200, 0, 1]]⟩) })] }

/-- A page that may not be read or written. -/
def lockedPage : Trans := ⟨0, 0, 16, ⟨0x40, 0, 0, 0, false, false, false, true, false, false⟩⟩

/-- Pushes past the hampers, and pops of the region alone, where its page is not mapped or may not be accessed. -/
theorem witness_taskStops : (∀ l ∈ [[], [lockedPage]], ∃ (s : State) (c : Ctx) (x : Launch) (es : List TaskEntry),
      Ready s (.tkpush (.v 16)) c ∧ s.launches.get? c.t.lid = some x ∧ c.w.region = none ∧ c.cnt ≠ 0 ∧ es = pushedEntries c (.v 16) ∧
      (∀ e ∈ es, taskPc e % 4 = 0 ∧ taskPc e < 2 ^ 57) ∧
      (let rest := ((s.cluster c.t.cluster).pushTasks c.t.lid es).2
       0 < rest.length ∧ x.ovfTail - x.ovfHead + rest.length ≤ x.ovfN) ∧
      if l = [] then c.ovfAccess .store (ringEntry x x.ovfTail) = .park .page
      else c.ovfAccess .store (ringEntry x x.ovfTail) = .viol ⟨0x120, .permission, .store, false⟩) ∧
    ∀ l ∈ [[], [lockedPage]], ∃ (s : State) (c : Ctx) (x : Launch), Ready s (.tkpop (.v 24)) c ∧ agreed (.tkpop (.v 24)) c ∧
      s.launches.get? c.t.lid = some x ∧ c.w.region = none ∧ x.ovfHead < x.ovfTail ∧
      (∀ k, k / 50 = c.t.cluster / 50 → ownHampers (s.cluster k) c.t.lid = []) ∧
      if l = [] then c.ovfAccess .load (ringEntry x x.ovfHead) = .park .page
      else c.ovfAccess .load (ringEntry x x.ovfHead) = .viol ⟨0x100, .permission, .load, false⟩ := by
  have other : ∀ l k, ownHampers ((at_ [] id id (overflowBench 1 l)).s.cluster k) 0 = [] := by
    intro l k
    rcases k with _ | k <;> rfl
  refine ⟨?_, ?_⟩
  · intro l h
    rcases List.mem_cons.mp h with rfl | h
    · exact ⟨_, at_ [(16, 0x100)] id id (overflowBench 0 []), _, _, ready _ _ rfl (by decide), rfl, rfl, by decide, rfl, by decide +kernel,
        by decide +kernel, by decide⟩
    · obtain rfl := List.mem_singleton.mp h
      exact ⟨_, at_ [(16, 0x100)] id id (overflowBench 0 [lockedPage]), _, _, ready _ _ rfl (by decide), rfl, rfl, by decide, rfl,
        by decide +kernel, by decide +kernel, by decide⟩
  · intro l h
    rcases List.mem_cons.mp h with rfl | h
    · exact ⟨_, at_ [] id id (overflowBench 1 []), _, ready _ _ rfl (by decide), agreed_zero rfl (by decide), rfl, rfl, by decide,
        (fun k _ => other _ k), by decide⟩
    · obtain rfl := List.mem_singleton.mp h
      exact ⟨_, at_ [] id id (overflowBench 1 [lockedPage]), _, ready _ _ rfl (by decide), agreed_zero rfl (by decide), rfl, rfl, by decide,
        (fun k _ => other _ k), by decide⟩

/-- A hamper of two entries in the cluster. -/
def hamperBench (s : State) : State :=
  { s with clusters := [(0, { Cluster.init with hampers := [(0, ⟨0, 0x100, [[0x100, 0, 1], [0x100, 0, 2]]⟩)] })] }

theorem witness_taskSources : ∃ (c : Ctx) (l : Launch) (h : Hamper), c.s.launches.get? c.t.lid = some l ∧
    ownHampers (c.s.cluster c.t.cluster) c.t.lid = [(0, h)] ∧ l.cancel = [] ∧
    Tbl.ascending 0 (c.s.cluster c.t.cluster).hampers = true :=
  ⟨at_ [] id id hamperBench, programLaunch, _, rfl, rfl, rfl, rfl⟩

theorem witness_taskEffects : ∃ (s : State) (c : Ctx) (l : Launch), s.launches.get? c.t.lid = some l ∧ c.w.region = none ∧
    s.readers [.task c.t.lid] (some c.wid) = [] ∧ Ready s (.tkpop (.v 24)) c ∧ agreed (.tkpop (.v 24)) c ∧ overflowReadable c l ∧
    Ready s .tkdone c ∧ Ready s (.tkcancel (.v 4) (.v 5)) c ∧ Ready s (.tkstat (.v 6) (.v 4)) c ∧ mayReadWords c :=
  ⟨_, at_ [(4, 3), (5, 1)] id id hamperBench, programLaunch, rfl, rfl, by decide, ready _ _ rfl (by decide), agreed_zero rfl (by decide),
    (fun i h => absurd h (Nat.not_lt_zero i)), ready _ _ rfl (by decide), ready _ _ rfl (by decide), ready _ _ rfl (by decide),
    fun h => absurd h (by decide), (fun e h => by cases h)⟩

/-- A claim the pool meets, one past 512, and a release of the top registers. -/
theorem witness_registerPool : (∃ (s : State) (c : Ctx), Ready s (.regclm 48) c ∧ c.cnt ≠ 0 ∧ c.w.region = none ∧ c.t.claims = [] ∧
      c.w.alloc + 8 * 48 ≤ 512 ∧ 8 * 48 ≤ c.t.pool) ∧
    (∃ (s : State) (c : Ctx), Ready s (.regclm 49) c ∧ c.cnt ≠ 0 ∧ c.w.region = none ∧ 512 < c.w.alloc + 8 * 49 ∧ c.w.retired = false ∧
      c.t.claims = []) ∧
    (∃ (s : State) (c : Ctx), Ready s (.regrel 15) c ∧ Ready s (.wbase 15) c ∧ c.cnt ≠ 0 ∧ c.w.region = none ∧ 8 * 15 + 8 ≤ c.w.alloc ∧
      8 * 15 + c.w.base + 8 ≤ c.w.alloc ∧ c.w.outst = []) ∧
    ∃ (s : State) (m : Team) (w : Wave) (set : Mask), s.teams.get? s.ev.x = some m ∧ m.claims = [(0, 2)] ∧ 8 * 2 ≤ m.pool ∧
      s.failed m.lid = false ∧ s.waves.get? 0 = some w ∧ w.tid = s.ev.x ∧ w.waiting = some set := by
  let c := at_ [] (fun w => { w with waiting := some 1, claiming := some 0x4C000002 }) fun t => { t with pool := 16, claims := [(0, 2)] }
  exact ⟨⟨_, at_ [] id fun t => { t with pool := 384 }, ready _ _ rfl (by decide), by decide, rfl, rfl, by decide, by decide⟩,
    ⟨_, at_ [], ready _ _ rfl (by decide), by decide, rfl, by decide, rfl, rfl⟩,
    ⟨_, at_ [], ready _ _ rfl (by decide), ready _ _ rfl (by decide), by decide, rfl, by decide, by decide, rfl⟩,
    c.s, c.t, c.w, 1, rfl, rfl, by decide, rfl, rfl, rfl, rfl⟩

/-- A claim larger than the pool by the only wave of its team. -/
theorem witness_claimDeadlock : ∃ (s : State) (c : Ctx), Ready s (.regclm 3) c ∧ c.cnt ≠ 0 ∧ c.w.region = none ∧
    c.w.alloc + 8 * 3 ≤ 512 ∧ deadlocks c 3 :=
  ⟨_, at_ [] id fun t => { t with pool := 16 }, ready _ _ rfl (by decide), by decide, rfl, by decide, ⟨0, 3, [], rfl, by decide⟩,
    fun e h _ => by
      obtain rfl := List.mem_singleton.mp h
      exact Or.inr ⟨_, List.mem_singleton_self _, rfl⟩⟩

/-- Each instruction of the group at the level that may run it. -/
theorem witness_systemEffects : (∃ (s : State) (c : Ctx), Ready s (.tlbinv (.v 5) (.v 4) 0) c ∧ c.cnt ≠ 0 ∧ c.w.region = none ∧
      invalidated c (uval c (.v 5)) (uval c (.v 4)) 0 0 0x10000 0x20000 ∧ c.w.fence = none ∧ drainedBefore s 0 s.seq ∧
      Tbl.ascending 0 s.cores = true ∧ Tbl.ascending 0 s.dies = true) ∧
    ∃ (s : State) (c : Ctx), c.cnt ≠ 0 ∧ Ready s (.icinv 1) c ∧ Ready s (.csrrd (.v 6) 11) c ∧ Ready s (.csrwr (.v 6) 9) c ∧
      Ready s (.perfrd (.v 6) 7) c ∧ Ready s .halt c := by
  refine ⟨⟨_, at_ [] fun w => { w with level := .s, hidden := [(256, 1)] }, ready _ _ rfl (by decide), by decide, rfl, ⟨by decide, by decide⟩, rfl, ?_,
      rfl, rfl⟩,
    ⟨_, at_ [] fun w => { w with level := .m }, by decide, ready _ _ rfl (by decide), ready _ _ rfl (by decide), ready _ _ rfl (by decide),
      ready _ _ rfl (by decide), ready _ _ rfl (by decide)⟩⟩
  refine ⟨?_, fun e h => by cases h⟩
  intro e he _ _ _
  obtain rfl := List.mem_singleton.mp he
  exact ⟨(fun x h => by cases h), (fun r h => by cases h), (fun _ _ _ _ _ h => by cases h), fun _ _ _ h => by cases h⟩


/-- A command held in a region, whose handle nothing has changed since, that a rollback makes void. -/
theorem witness_voidCompletion : ∃ (s : State) (cid : Nat) (c : Cmd) (u : Undo) (h : Handle) (v : Nat) (w : Wave) (r : Region)
    (ls : List Loc), s.cmds.get? cid = some c ∧ (c.undo.map fun u => (u.core, u.idx)).Nodup ∧ u ∈ c.undo ∧
    (s.core u.core).handles.get? u.idx = some h ∧ (s.core u.core).changes.get 0 u.idx = u.changes ∧ s.readers ls none = [v] ∧
    s.waves.get? v = some w ∧ w.region = some r ∧ c.wid = v ∧ c.held = true ∧ r.seq ≤ c.seq :=
  ⟨(at_ [] (fun w => { w with region := some (benchRegion [.ls 0 2]) }) id fun s => { s with
      cmds := [(4, { benchCmd (.bcopy 1 0 0 4 0x100 0) with
        seq := 3, held := true, undo := [⟨0, 5, ⟨0, 0, 65536, .full, 0, 0, false⟩, 0, 1⟩] })]
      cores := [(0, { Core.init with handles := [(5, ⟨0, 0, 65536, .filling, 1, 0, false⟩)], changes := [(5, 1)] })] }).s, 4, _, _, _, 0, _, _,
    [.ls 0 2], rfl, by decide, List.mem_singleton_self _, rfl, rfl, by decide, rfl, rfl, rfl, rfl, by decide⟩

/-- A full cancel set, and an instance that is not in it. -/
theorem witness_taskEffects_full : ∃ (s : State) (c : Ctx) (l : Launch), Ready s (.tkcancel (.v 4) (.v 5)) c ∧
    s.launches.get? c.t.lid = some l ∧ (lanesOf c.cnt)[0]? = some 0 ∧ c.reg (.v 5) 0 = 0 ∧ (c.reg (.v 4) 0).toNat ∉ l.cancel ∧
    256 ≤ l.cancel.length :=
  ⟨_, at_ [(4, 3)] id id fun s => { s with launches := [(0, { programLaunch with cancel := List.range' 10 256 })] }, _,
    ready _ _ rfl (by decide), rfl, by decide, by decide,
    by intro h; rw [List.mem_range'_1] at h; exact absurd h.1 (by decide), by decide +kernel⟩

/-- The front's page holds an image of 256 bytes at 0x1000: one wave of one thread, eight registers, code from byte 128. -/
def imageBytes : List Byte :=
  leBytes 4 0x4C554946 ++ leBytes 2 1 ++ leBytes 2 0 ++ leBytes 4 256 ++ leBytes 4 128 ++ leBytes 4 128 ++ leBytes 4 128 ++
    List.replicate 16 0 ++ leBytes 2 8 ++ leBytes 2 8 ++ leBytes 1 1 ++ leBytes 1 1 ++ leBytes 2 1 ++ List.replicate 80 0

def imageShape : Shape := ⟨1, 1, 8, 0, 1, 0, 0x1080, none, 0, 0⟩

/-- The launch of that image, as taken. -/
def imageLaunch : Launch :=
  { programLaunch with image := 0x1000, stage := .taken, shape := none, nextGang := 0, threadsO := 0 }

def imageMem : Tbl Byte := ((benchFront benchQueue).writeBytes .dev 0 (placed 0x41000 imageBytes)).mem

def imageState : State := benchFront benchQueue [(0, imageLaunch)] imageMem

theorem front_reads {s : State} {own va n : Nat} {bs : List Byte}
    (h : (match s.frontRead own va n with | .ok b => decide (b = bs) | .error _ => false) = true) : s.frontRead own va n = .ok bs := by
  split at h
  · rename_i b hb
    rw [hb, of_decide_eq_true h]
  · cases h

theorem front_word {s : State} {own va v : Nat}
    (h : (match s.frontWord own va with | .ok b => decide (b = v) | .error _ => false) = true) : s.frontWord own va = .ok v := by
  split at h
  · rename_i b hb
    rw [hb, of_decide_eq_true h]
  · cases h

theorem no_front_word {s : State} {own va : Nat} {P : Nat → Prop}
    (h : (match s.frontWord own va with | .ok _ => true | .error _ => false) = false) : ∀ v, s.frontWord own va = .ok v → P v := by
  intro v hv
  rw [hv] at h
  cases h

theorem front_place {s : State} {own va : Nat} {k : AccKind} (p : Phys)
    (h : (match s.frontAccess own k va with | .ok _ x => decide (x = p) | _ => false) = true) : ∃ tr, s.frontAccess own k va = .ok tr p := by
  split at h
  · rename_i tr x hx
    exact ⟨tr, by rw [hx, of_decide_eq_true h]⟩
  · cases h

/-- A queue whose tail's address is not mapped, and the machine of a queue with one record to take. -/
theorem witness_takingRecords : (∃ (s : State) (x : Queue), s.queue? s.ev.x s.ev.y = some x ∧ x.state = .running ∧ launchesApart s ∧
      tailAsked s s.ev.x x ∧ ∀ v, (tailState s s.ev.x x).frontWord s.ev.x x.desc.tail.toNat = .ok v →
        v < x.lastTail ∨ x.taken + 2 ^ x.desc.logSize < v) ∧
    ∃ (s : State) (x : Queue) (bs : List Byte), s.queue? s.ev.x s.ev.y = some x ∧ x.state = .running ∧ launchesApart s ∧
      tailKnown s s.ev.x s.ev.y x s x ∧ x.lastTail = x.taken + 1 ∧ s.launches = [] ∧
      (let sR := s.frontReady s.ev.x (x.desc.base.toNat + 64 * (x.taken % 2 ^ x.desc.logSize)) 64
       sR.frontRead s.ev.x (x.desc.base.toNat + 64 * (x.taken % 2 ^ x.desc.logSize)) 64 = .ok bs ∧ fieldAt bs 16 8 = 0 ∧
         ∃ tr p, sR.frontAccess s.ev.x .store 0 = .ok tr p) := by
  refine ⟨⟨benchFront { benchQueue with desc := ⟨0x200, 2 ^ 50, 0x308, 1, 0, 0, 0⟩ }, _, rfl, rfl,
      (fun a h => by cases h), ⟨by decide, fun c h => by cases h⟩, no_front_word (by decide +kernel)⟩,
    ⟨benchFront { benchQueue with lastTail := 1 }, _, List.replicate 64 0, rfl, rfl, (fun a h => by cases h),
      ⟨rfl, fun h => absurd rfl h.1, fun _ => rfl⟩, rfl, rfl, front_reads (by decide +kernel), by decide, ?_⟩⟩
  obtain ⟨tr, h⟩ := front_place (s := (benchFront { benchQueue with lastTail := 1 }).frontReady 0 0x200 64) (own := 0) (va := 0)
    (k := .store) ⟨.dev, 0x40000, 0, 0, false⟩ (by decide +kernel)
  exact ⟨tr, _, h⟩

/-- A tail that the front loads, and finds one record on. -/
theorem witness_takingRecords_tail : ∃ (s : State) (x : Queue) (v : Nat), s.queue? s.ev.x s.ev.y = some x ∧ x.state = .running ∧
    tailAsked s s.ev.x x ∧ (tailState s s.ev.x x).frontWord s.ev.x x.desc.tail.toNat = .ok v ∧ x.lastTail ≤ v ∧
    v ≤ x.taken + 2 ^ x.desc.logSize :=
  ⟨benchFront { benchQueue with desc := ⟨0x200, 0x300, 0x308, 1, 0, 0, 0⟩ }, _, 0, rfl, rfl, ⟨by decide, fun c h => by cases h⟩,
    front_word (by decide +kernel), by decide, by decide⟩

theorem witness_queueStates : (∃ (s : State) (x : Queue), s.queue? s.ev.x s.ev.y = some x ∧ x.state = .disabled ∧ x.desc.logSize ≠ 0 ∧
      s.hk.ready = true) ∧
    ∃ (s : State) (x : Queue) (l : Launch), s.queue? s.ev.x s.ev.y = some x ∧ x.state ≠ .disabled ∧ s.launches = [(0, l)] ∧
      l.stage ≠ .running ∧ l.owner = s.ev.x ∧ l.queue = s.ev.y ∧ Tbl.ascending 0 s.launches = true ∧ l.fail = none :=
  ⟨⟨{ benchFront { benchQueue with state := .disabled } with hk := { State.reset.hk with ready := true } }, _, rfl, rfl, by decide, rfl⟩,
    ⟨benchFront benchQueue [(0, imageLaunch)], _, imageLaunch, rfl, by decide, rfl, by decide, rfl, rfl, rfl, rfl⟩⟩

/-- No condition of R45 holds of the image. -/
theorem image_fits : ∀ n, ¬ imageFault imageBytes imageLaunch imageShape n := by
  intro n h
  rcases n with _ | _ | _ | _ | _ | _ | _ | _ | _ | _ | _ | _ | n <;> simp only [imageFault, imageParts] at h
  · revert h; decide
  · rcases h with ⟨k, hk, h⟩ | h
    · have : ∀ k, k < 128 → (k = 53 ∨ k = 54 ∨ k = 55 ∨ 84 ≤ k) → fieldAt imageBytes k 1 = 0 := by decide +kernel
      exact h (this k (by omega) (by omega))
    · revert h; decide
  · apply h
    have h1 : fieldAt imageBytes 76 4 = 0 := by decide +kernel
    refine ⟨by decide +kernel, (fun h => absurd h1 h), by decide +kernel, by decide +kernel, by decide +kernel, by decide +kernel,
      by decide +kernel, by decide, by decide, by decide, by decide, by decide, by decide, by decide, by decide, by decide,
      by decide, ⟨3, by decide, by decide, by decide +kernel⟩, by decide +kernel, by decide +kernel, by decide +kernel,
      by decide +kernel, by decide +kernel, by decide +kernel, by decide +kernel⟩
  · rcases h with ⟨p, hp, h⟩ | h
    · have : ∀ p ∈ imageParts imageBytes, ¬ fieldAt imageBytes 8 4 < p.1 + p.2 := by decide +kernel
      exact this p hp h
    · apply h
      have h1 : ((if fieldAt imageBytes 80 4 = 0 then [] else [(fieldAt imageBytes 76 4, fieldAt imageBytes 80 4)]) : List (Nat × Nat)) =
        [] := by decide +kernel
      have h2 : imageParts imageBytes = [(128, 128)] := by decide +kernel
      simp only [imageParts] at h2
      rw [h1, h2]
      simp [apart]
  all_goals revert h; decide +kernel

theorem witness_imageChecks : ∃ (s : State) (lid : Nat) (l : Launch) (bs : List Byte) (x : Shape) (o : Owner), s.ev.x = lid ∧
    s.launches.get? lid = some l ∧ l.stage = .taken ∧ l.fail = none ∧ (∀ p, l.pred0 = some p → l.sat0 = true) ∧
    (∀ p, l.pred1 = some p → l.sat1 = true) ∧ (s.frontReady l.owner l.image 128).frontRead l.owner l.image 128 = .ok bs ∧ bs.length = 128 ∧ shaped bs l x ∧
    (∀ n, ¬ imageFault bs l x n) ∧ (s.frontReady l.owner l.image 128).owners.get? l.owner = some o ∧ fieldAt bs 76 4 = 0 := by
  obtain ⟨o, ho⟩ := Option.isSome_iff_exists.mp
    (by decide +kernel : ((imageState.frontReady 0 0x1000 128).owners.get? 0).isSome = true)
  exact ⟨imageState, 0, imageLaunch, imageBytes, imageShape, o, rfl, rfl, rfl, rfl, (fun p h => by cases h), (fun p h => by cases h),
    front_reads (by decide +kernel), by decide +kernel, ⟨by decide, by decide, by decide, by decide, by decide, by decide, by decide, by decide,
      by decide, by decide⟩, image_fits, ho, by decide +kernel⟩

/-- A launch that is checked and has no gang placed, its teams of one wave; what a cluster holds leaves it no room, or all of it. -/
def checkedLaunch : Launch := { programLaunch with stage := .checked, nextGang := 0 }

theorem program_fits (s : State) (l : Launch) (hl : l.colaunch = false) : ∀ d, ¬ neverFits s l programShape d := by
  rintro d (⟨_, h⟩ | ⟨_, _, _, h, _⟩)
  · exact h 8 (by decide)
  · rw [hl] at h
    cases h

/-- One launch in the table. -/
def placeBench (s : State) : State := { s with launches := [(0, checkedLaunch)], teams := [], waves := [] }

theorem place_may {s : State} (h1 : s.launches = [(0, checkedLaunch)]) (h2 : s.saved = []) : mayPlace s 0 checkedLaunch := by
  refine ⟨by rw [h1]; rfl, by decide, rfl, by decide, ?_, ?_, fun g h => by rw [h2] at h; cases h⟩
  all_goals
    intro e h
    rw [h1] at h
    obtain rfl := List.mem_singleton.mp h
    intros
    exact absurd rfl ‹_›

theorem place_alone {s : State} (h1 : s.launches = [(0, checkedLaunch)]) : ∀ k y, k ≠ 0 → ¬ mayPlace s k y := by
  intro k y hk h
  have := h.1
  rw [h1] at this
  rcases k with _ | k
  · exact hk rfl
  · cases this

theorem place_considered {s : State} (h1 : s.launches = [(0, checkedLaunch)]) (h2 : s.saved = []) (h3 : s.candidate = none)
    (h4 : s.passedBy = []) : considered s 0 checkedLaunch programShape := by
  refine ⟨place_may h1 h2, rfl, by rw [h1]; rfl, Or.inr ⟨(fun k y _ h => by rw [h3] at h; cases h), Or.inl ⟨by rw [h4]; exact List.not_mem_nil,
    fun k y hk _ h => absurd h (place_alone h1 k y hk)⟩⟩⟩

theorem empty_admits {s : State} (hc : s.cluster 0 = Cluster.init) (ht : s.teams = []) : admits s 0 0 0 programShape := by
  refine ⟨by rw [hc]; rfl, Or.inl (by rw [hc]; rfl), Or.inl (by rw [hc]; rfl), (fun _ e h => by rw [ht] at h; cases h),
    (fun e h => by rw [ht] at h; cases h), ?_, ?_, ?_⟩ <;> simp only [teamSum, ht] <;> decide

/-- A launch whose gang goes to cluster 0. -/
theorem witness_gangPlacement : ∃ (s : State) (lid : Nat) (l : Launch) (sh : Shape), considered s lid l sh ∧ 1 ≤ sh.nTeams ∧
    sh.nTeams ≤ 4 ∧ sh.nWaves ≤ 16 ∧ (∀ d, ¬ neverFits s l sh d) ∧ l.colaunch = false ∧ gangGoes s lid l sh 0 ∧
    (s.cluster 0).owner = none := by
  let s := placeBench State.reset
  refine ⟨s, 0, checkedLaunch, programShape, place_considered rfl rfl rfl rfl, by decide, by decide, by decide, program_fits _ _ rfl, rfl, ⟨by decide, empty_admits rfl rfl, (fun d h => by cases h), ?_⟩, rfl⟩
  intro y hy h
  simp [checkedLaunch, programLaunch] at h

/-- The keys k to k + n - 1, each with the value v. -/
def filled {α : Type} (v : α) : Nat → Nat → Tbl α
  | _, 0 => []
  | k, n + 1 => (k, v) :: filled v (k + 1) n

theorem get?_filled {α : Type} (v : α) (n : Nat) : ∀ k x, k ≤ x → x < k + n → (filled v k n).get? x = some v := by
  induction n with
  | zero => intro k x h1 h2; omega
  | succ n ih =>
    intro k x h1 h2
    by_cases h : k = x
    · subst h
      simp [filled, Tbl.get?]
    · simp only [filled, Tbl.get?, if_neg h]
      exact ih (k + 1) x (by omega) (by omega)

/-- Cluster 0 filled by a team of class 3, the others out of service. -/
def fullState : State :=
  { State.reset with
    launches := [(0, checkedLaunch)], teams := [(5, { benchTeam with lid := 7, prio := 3, localBytes := 524288 })],
    clusters := (0, Cluster.init) :: filled { Cluster.init with inService := false } 1 799 }

theorem full_only : ∀ x, x < 800 → x ≠ 0 → (fullState.cluster x).inService = false := by
  intro x h1 h2
  have h : fullState.cluster x = { Cluster.init with inService := false } := by
    simp only [fullState, State.cluster, Tbl.get, Tbl.get?, if_neg (Ne.symm h2)]
    rw [get?_filled _ _ _ _ (by omega) (by omega)]
    rfl
  rw [h]

theorem full_admits : ∀ x, x < 800 → ¬ admits fullState x 0 0 programShape := by
  intro x hx h
  by_cases h0 : x = 0
  · subst h0
    have := (h.2.2.2.2.2.2.2 0 (by decide)).2.2.2
    revert this
    decide
  · have := full_only x hx h0
    rw [h.1] at this
    cases this

/-- A launch that drains cluster 0, and a drain whose deadline has passed. -/
theorem witness_drains : (∃ (s : State) (l : Launch) (sh : Shape), considered s s.ev.x l sh ∧ (∀ d, ¬ neverFits s l sh d) ∧ (∀ d ∈ s.drains, d.lid ≠ s.ev.x) ∧
      (∀ x, x < 800 → ¬ admits s x l.owner s.ev.x sh) ∧ (∀ d ∈ s.drains, d.prio ≤ l.prio) ∧ l.colaunch = false ∧
      (∀ x, x < 800 → (s.teams.filter fun e => e.2.cluster = x ∧ l.prio < e.2.prio).length < 65) ∧
      admits { s with teams := s.teams.filter fun e => ¬ (e.2.cluster = 0 ∧ l.prio < e.2.prio) } 0 l.owner s.ev.x sh ∧
      (s.teams.filter fun e => e.2.cluster = 0 ∧ l.prio < e.2.prio) ≠ []) ∧
    ∃ (s : State) (d : Drain) (n tid : Nat) (m : Team), s.drains = [d] ∧ d.cluster = s.ev.x ∧ d.started = some n ∧
      n + 1000 * s.drainDl ≤ s.clock.toNat ∧ s.teams = [(tid, m)] ∧ m.cluster = s.ev.x ∧ d.prio < m.prio ∧ m.saving = none ∧
      s.failed m.lid = false ∧ noRegion s ∧ (∀ e ∈ s.cmds, e.2.tid ≠ tid ∨ e.2.queued = true) ∧ keysRise s := by
  refine ⟨⟨fullState, checkedLaunch, programShape, place_considered rfl rfl rfl rfl, program_fits _ _ rfl, (fun d h => by cases h), full_admits,
      (fun d h => by cases h), rfl, (fun x _ => lt_of_le_of_lt (List.length_filter_le _ _) (by decide)),
      empty_admits rfl (by decide), by decide⟩,
    ⟨{ (at_ [] id fun t => { t with prio := 3 }).s with drains := [⟨0, 1, 4, some 0⟩], clock := 2000000 }, _, _, 0, _, rfl, rfl, rfl,
      by decide, rfl, rfl, by decide, rfl, rfl, no_region rfl rfl, (fun e h => by cases h), rfl, rfl⟩⟩

/-- The only cluster that could be drained. -/
theorem full_drains : ∀ y, y < 800 → admits { fullState with teams := fullState.teams.filter fun e => ¬ (e.2.cluster = y ∧ checkedLaunch.prio < e.2.prio) }
    y 0 0 programShape → y = 0 := by
  intro y hy h
  by_contra h0
  have h1 : (fullState.cluster y).inService = true := h.1
  rw [full_only y hy h0] at h1
  cases h1

/-- A drain of a lower class's launch that passes to a higher one, and one that waits for slots which are now free. -/
theorem witness_drains_passed : (∃ (s : State) (l : Launch) (sh : Shape), considered s s.ev.x l sh ∧ (∀ d, ¬ neverFits s l sh d) ∧
      (∀ d ∈ s.drains, d.lid ≠ s.ev.x) ∧ (∀ x, x < 800 → ¬ admits s x l.owner s.ev.x sh) ∧ ∃ d ∈ s.drains, l.prio < d.prio) ∧
    ∃ (s : State) (l : Launch) (sh : Shape) (d : Drain) (own : Nat) (o : Owner), considered s s.ev.x l sh ∧ (∀ d, ¬ neverFits s l sh d) ∧
      (∀ x, x < 800 → ¬ admits s x l.owner s.ev.x sh) ∧ s.drains = [d] ∧ d.cluster < 800 ∧ d.lid = s.ev.x ∧ d.prio ≤ l.prio ∧
      d.started = none ∧ (s.cluster d.cluster).owner = some own ∧ s.owners.get? own = some o ∧
      (s.teams.filter fun e => e.2.cluster = d.cluster ∧ d.prio < e.2.prio).length + o.framesUsed.length ≤ o.frameSlots := by
  refine ⟨⟨{ fullState with drains := [⟨0, 3, 9, none⟩] }, checkedLaunch, programShape, place_considered rfl rfl rfl rfl,
      program_fits _ _ rfl, by decide, full_admits, by decide⟩,
    ⟨{ fullState with
        drains := [⟨0, 0, 0, none⟩], owners := [(0, { Owner.init 0 0 with frameSlots := 4 })]
        clusters := fullState.clusters.put 0 { Cluster.init with owner := some 0 } }, checkedLaunch, programShape, _, 0, _,
      place_considered rfl rfl rfl rfl, program_fits _ _ rfl, ?_, rfl, by decide, rfl, by decide, rfl, rfl, rfl, by decide⟩⟩
  intro x hx h
  by_cases h0 : x = 0
  · subst h0
    have := (h.2.2.2.2.2.2.2 0 (by decide)).2.2.2
    revert this
    decide
  · have h1 : (fullState.cluster x).inService = true := by
      rcases x with _ | x
      · exact absurd rfl h0
      · exact h.1
    rw [full_only x hx h0] at h1
    cases h1

/-- Cluster 0 of owner 0 with one task entry, wanted by owner 1. -/
def passState (mem : Tbl Byte := frontMem) : State :=
  { benchFront benchQueue [(0, { programLaunch with ovf := 0x2000, ovfN := 4 })] mem with
    owners := [(0, Owner.init 0 0), (1, Owner.init 0 1)], ev := ⟨0, 1, 0, false, .none⟩
    clusters := [(0, { Cluster.init with owner := some 0, hampers := [(0, ⟨0, 0x100, [[0x100, 0, 1, 0, 0, 0, 0, 0]]⟩)] })] }

theorem witness_clusterPasses : ∃ (s : State) (own : Nat) (o : Owner) (lid k : Nat) (l : Launch) (e : TaskEntry) (h : Hamper),
    (s.cluster s.ev.x).owner = some own ∧ own ≠ s.ev.y ∧ s.owners.get? s.ev.y = some o ∧ (∀ e ∈ s.teams, e.2.cluster ≠ s.ev.x) ∧
    (s.cluster s.ev.x).hampers = [(k, h)] ∧ h.lid = lid ∧ h.entries = [e] ∧ e.length = 8 ∧ s.launches.get? lid = some l ∧
    l.ovfTail - l.ovfHead + 1 ≤ l.ovfN ∧ ∃ tr p, s.frontAccess l.owner .engineWrite (l.ovf + 32 * (l.ovfTail % l.ovfN)) = .ok tr p := by
  obtain ⟨tr, h⟩ := front_place (s := passState) (own := 0) (va := 0x2000) (k := .engineWrite) ⟨.dev, 0x42000, 0, 0, false⟩ (by decide +kernel)
  exact ⟨passState, 0, _, 0, 0, _, _, _, rfl, by decide, rfl, (fun e h => by cases h), rfl, rfl, rfl, rfl, rfl, by decide, tr, _, h⟩

/-- What a computation of the front gives. -/
def gives {α : Type} [DecidableEq α] (x : Except Access α) (v : α) : Bool :=
  match x with
  | .ok w => decide (w = v)
  | .error _ => false

def succeeds {α : Type} : Except Access α → Bool
  | .ok _ => true
  | .error _ => false

theorem of_gives {α : Type} [DecidableEq α] {x : Except Access α} {v : α} (h : gives x v = true) : x = .ok v := by
  cases x with
  | ok w => exact congrArg _ (of_decide_eq_true h)
  | error _ => cases h

theorem of_succeeds {α : Type} {x : Except Access α} (h : succeeds x = true) : ∃ v, x = .ok v := by
  cases x with
  | ok w => exact ⟨w, rfl⟩
  | error _ => cases h

/-- A team whose only wave waits for a page. -/
def parkWave (w : Wave) : Wave := { w with stop := some ⟨.park ⟨.page, .load, 0x200000⟩, 1, BitVec.ofNat 57 programPc, 0⟩ }

theorem witness_parkingSaves : (∃ (s : State) (m : Team) (k : Nat) (w : Wave) (p : ParkInfo) (set : Mask) (pc : PC) (word : Word),
      loneTeam s s.ev.x m ∧ m.saving = none ∧ s.waves = [(k, w)] ∧ w.tid = s.ev.x ∧ w.region = none ∧
      w.stop = some ⟨.park p, set, pc, word⟩ ∧ ∀ e ∈ s.cmds, e.2.tid ≠ s.ev.x ∨ e.2.queued = true) ∧
    ∃ (s : State) (m : Team) (o : Owner) (l : Launch), loneTeam s s.ev.x m ∧ m.saving = some 0 ∧ s.owners.get? m.owner = some o ∧
      s.launches.get? m.lid = some l ∧ s.drains = [] ∧
      (∀ e ∈ s.waves, e.2.tid = s.ev.x → e.2.region = none ∧ e.2.sbuf = [] ∧ e.2.irrev = none ∧ e.2.spilling = none ∧ e.2.outst = []) ∧
      (∀ e ∈ s.cmds, e.2.tid ≠ s.ev.x) ∧ o.framesUsed.length < o.frameSlots ∧ Tbl.ascending 0 s.waves = true ∧ m.claims = [] ∧
      Tbl.ascending 0 (s.core (4 * m.cluster + m.pos)).handles = true ∧ Tbl.ascending 0 (s.cluster m.cluster).banks = true ∧
      Tbl.ascending 0 m.recs = true ∧ (∀ e ∈ m.recs, e.1 < 64) ∧ m.bankMap.length ≤ 8 ∧ (0 ∉ o.framesUsed ∧ ∀ k, k < 0 → k ∈ o.framesUsed) ∧
      let size := Framed.size ⟨m, fun _ => none, fun _ _ => 0, (s.waves.filter fun e => e.2.tid = s.ev.x).map (·.2)⟩
      ∃ ps, (s.walksTouch m.owner (o.frameBase + 1441792 * 0) size).framePieces m.owner o .store (o.frameBase + 1441792 * 0) size =
        .ok ps := by
  refine ⟨⟨(at_ [] parkWave).s, _, _, _, _, _, _, _, ⟨rfl, rfl, rfl⟩, rfl, rfl, rfl, rfl, rfl, fun e h => by cases h⟩,
    ⟨(at_ [] (fun w => { parkWave w with alloc := 16 }) (fun t => { t with saving := some 0 }) fun s =>
        { s with owners := [(0, { Owner.init 0 0 with frameSlots := 1 })], mem := frontMem }).s, _, _, _, ⟨rfl, rfl, rfl⟩, rfl, rfl, rfl, rfl,
      ?_, (fun e h => by cases h), by decide, rfl, rfl, rfl, rfl, rfl, (fun e h => by cases h), by decide, by decide, ?_⟩⟩
  · intro e h _
    obtain rfl := List.mem_singleton.mp h
    exact ⟨rfl, rfl, rfl, rfl, rfl⟩
  · exact of_succeeds (by decide +kernel)

/-- An owner with a fault queue at 0x2000 and one entry to post, then posted. -/
def faultOwner (posted : Bool) : Owner :=
  { Owner.init 0 0 with faultQ := some ⟨0x2000, 4, 0, none⟩, faults := [⟨0, 0x200000, 0x104, some 0, .page, .load, 0, 0, posted⟩] }

theorem witness_faultEntries : (∃ (s : State) (o : Owner) (f : FaultEnt) (r : Ring), s.owners.get? s.ev.x = some o ∧ o.faultQ = some r ∧
      o.faults.find? (fun f => !f.posted) = some f ∧ f.seq = s.ev.y ∧
      (let sR := s.ringReady s.ev.x r Owner.withFaultQ
       sR.frontWord s.ev.x r.block = .ok 0 ∧ sR.frontWord s.ev.x (r.block + 8) = .ok 0)) ∧
    ∃ (s : State) (o : Owner), s.owners.get? s.ev.x = some o ∧ ∃ f ∈ o.faults, f.seq = s.ev.y ∧ f.posted = true :=
  ⟨⟨{ benchFront benchQueue with owners := [(0, faultOwner false)] }, _, _, _, rfl, rfl, rfl, rfl, front_word (by decide +kernel),
      front_word (by decide +kernel)⟩,
    ⟨{ State.reset with owners := [(0, faultOwner true)] }, _, rfl, _, List.mem_singleton_self _, rfl, rfl⟩⟩

/-- The bytes of the frame of a team of one wave and one thread at PC 0, with eight registers. -/
def frameByte : Nat → Byte
  | 0 => 0x46
  | 1 => 0x52
  | 2 => 0x41
  | 3 => 0x4D
  | 23 => 1
  | 24 => 1
  | 26 => 8
  | 16896 => 8
  | 16966 => 14
  | _ => 0

def framePlaces : List Nat := [0, 1, 2, 3, 23, 24, 26, 16896, 16966]

theorem frame_zero {i : Nat} (h : i ∉ framePlaces) : frameByte i = 0 := by
  simp only [framePlaces, List.mem_cons, List.not_mem_nil, or_false, not_or] at h
  unfold frameByte
  split <;> simp_all

def frameList : List Byte := (List.range 24576).map frameByte

theorem frame_field {o n : Nat} (h : o + n ≤ 24576) : fieldAt frameList o n = leValue ((List.range n).map fun j => frameByte (o + j)) := by
  unfold fieldAt
  congr 1
  apply List.ext_getElem
  · simp [frameList]; omega
  · intro i h1 h2
    simp [frameList]

theorem le_zero : ∀ n, leValue ((List.range n).map fun _ => (0 : Byte)) = 0 := by
  intro n
  induction n with
  | zero => rfl
  | succ n ih => rw [List.range_succ_eq_map]; simpa [leValue, Function.comp_def] using ih

theorem frame_none {o n : Nat} (h : o + n ≤ 24576) (hz : ∀ k ∈ framePlaces, k < o ∨ o + n ≤ k) : fieldAt frameList o n = 0 := by
  rw [frame_field h, ← le_zero n]
  congr 1
  apply List.map_congr_left
  intro j hj
  refine frame_zero fun hm => ?_
  have := hz _ hm
  have := List.mem_range.mp hj
  omega

def frameTeam : Team :=
  { benchTeam with nWaves := 1, nThreads := 1, regsPer := 8, localBytes := 0, banks := 0, bankMap := [] }

def frameWave : Wave :=
  { benchWave [] with threads := 1, helper := 14, live := 15, alloc := 8, regs := [], pcs := [(0, 15)] }

def benchFramed : Framed := ⟨frameTeam, fun _ => none, fun _ _ => 0, [frameWave]⟩

theorem bench_frame_holds : FrameHolds benchFramed 0 0 frameList := by
  have far {o n : Nat} (h1 : 27 ≤ o) (h2 : o + n ≤ 16896) : fieldAt frameList o n = 0 :=
    frame_none (by omega) (by intro k hk; simp [framePlaces] at hk; omega)
  refine ⟨by simp [frameList]; rfl, ?_, fun i hi => far (by omega) (by omega), fun q hq => far (by omega) (by omega),
    fun i hi => ⟨?_, ?_⟩, fun i hi => far (by omega) (by omega), fun k l hk hl => far (by omega) (by omega),
    fun k hk => far (by omega) (by omega), ?_, fun a ha => absurd ha (Nat.not_lt_zero a), fun i j hi => absurd hi (Nat.not_lt_zero i)⟩
  · have h : ∀ f ∈ headFields frameTeam 0 0, 0 + f.1 + f.2.1 ≤ 24576 ∧
        leValue ((List.range f.2.1).map fun j => frameByte (0 + f.1 + j)) = f.2.2 % 2 ^ (8 * f.2.1) := by decide +kernel
    intro f hf
    rw [frame_field (h f hf).1]
    exact (h f hf).2
  · rw [far (by omega) (by omega)]
    simp [benchFramed, frameTeam, benchTeam, Team.start]
  · rw [far (by omega) (by omega)]
    rfl
  · intro i w h
    rcases i with _ | i
    · cases h
      refine ⟨fun l hl => ?_, ?_, fun r l hr hl => ?_, fun r l hr hl => ?_⟩
      · rw [show benchFramed.start 0 = 16384 from rfl, far (by omega) (by omega)]
        have : ∀ l, l < 64 → (pcOfLane frameWave.pcs l).toNat = 0 := by decide +kernel
        exact (this l hl).symm
      · have h : ∀ f ∈ waveFields frameWave, 16384 + 512 + f.1 + f.2.1 ≤ 24576 ∧
            leValue ((List.range f.2.1).map fun j => frameByte (16384 + 512 + f.1 + j)) = f.2.2 % 2 ^ (8 * f.2.1) := by decide +kernel
        intro f hf
        rw [show benchFramed.start 0 = 16384 from rfl, frame_field (h f hf).1]
        exact (h f hf).2
      all_goals
        rw [show benchFramed.start 0 = 16384 from rfl, frame_none]
        · rfl
        · have : frameWave.alloc = 8 := rfl
          omega
        · intro k hk
          simp [framePlaces] at hk
          omega
    · cases h

theorem bench_frame_fits : FrameFits benchFramed 0 0 := by
  refine ⟨by unfold fieldsFit; decide +kernel, (fun i h hh => by cases hh), (fun q b hb => by cases hb), rfl, ⟨by decide, (fun b hb => by cases hb)⟩,
    fun w hw => ?_, fun i w hw l hl => ?_⟩
  · obtain rfl := List.mem_singleton.mp hw
    unfold fieldsFit
    decide +kernel
  · rcases i with _ | i
    · cases hw
      have : ∀ l, l < 64 → (hasLane frameWave.threads l = true ↔ l < min 64 (frameTeam.nThreads - 64 * 0)) := by decide +kernel
      exact this l hl
    · cases hw

theorem quiet_read {s : State} {own n : Nat} {p : Phys} (h1 : s.pend = []) (h2 : s.hdm.en = false) (h3 : p.tier ≠ 2) :
    SameStore s (s.agentReads own p n) := by
  have h : ∀ ls, s.quiet ls = s := fun ls => by simp [State.quiet, h1]
  unfold State.agentReads
  rw [State.askLines, if_pos h3, h]
  exact SameStore.homeTouches _ _ _ _ _ h2

/-- A saved gang of that team, ready to return, its frame at 0x8000. -/
def savedBench : SavedGang := ⟨0, 0, 0, 0, [⟨0, frameTeam, [⟨0, 0⟩], [], 0, [], 0, 24576⟩], [], some 0⟩

def frameMem : Tbl Byte :=
  ((benchFront benchQueue).writeBytes .dev 0 (framePlaces.map fun i => (0x48000 + i, frameByte i))).mem

def savedState : State :=
  { benchFront benchQueue [(0, programLaunch)] frameMem with
    saved := [(0, savedBench)], owners := [(0, { Owner.init 0 0 with frameBase := 0x8000, frameSlots := 1 })] }

theorem frame_bytes {t : State} (hm : t.mem = frameMem) (hk : t.memKey = []) (hh : t.hdm.en = false) :
    t.bytesAt .dev 0 0x48000 24576 = frameList := by
  have out : ∀ e ∈ frameMem, e.1 < 0x48000 ∨ 0x4E000 ≤ e.1 ∨ e.1 - 0x48000 ∈ framePlaces := by decide +kernel
  have at_places : ∀ i ∈ framePlaces, frameMem.get 0 (0x48000 + i) = frameByte i := by decide +kernel
  refine List.map_congr_left fun i hi => ?_
  have hi := List.mem_range.mp hi
  have hb : t.byteAt .dev 0 (0x48000 + i) = frameMem.get 0 (0x48000 + i) := by
    simp [State.byteAt, State.homeByte, State.hdmTouch, State.inHdm, hh, State.keyFits, hk, hm, Tbl.get]
  rw [hb]
  by_cases h : i ∈ framePlaces
  · exact at_places i h
  · rw [frame_zero h]
    have : Tbl.get? frameMem (0x48000 + i) = none := by
      refine Tbl.get?_eq_none _ fun e he h2 => ?_
      rcases out e he with h3 | h3 | h3
      · omega
      · omega
      · exact h (by rw [show i = e.1 - 0x48000 by omega]; exact h3)
    simp [Tbl.get, this]

theorem one_piece (s : State) (own : Nat) (p : Phys) (n : Nat) :
    ([(p, 0, n)].flatMap fun q : Phys × Nat × Nat =>
      ([(p, 0, n)].foldl (fun u q => u.agentReads own q.1 q.2.2) s).bytesAt q.1.sp q.1.key q.1.addr q.2.2) =
    (s.agentReads own p n).bytesAt p.sp p.key p.addr n := by simp

/-- The state once the walks for the frame have read their entries. -/
def walkedState : State := savedState.walksTouch 0 0x8000 24576

theorem saved_holds : FrameHolds benchFramed 0 0
    ((walkedState.agentReads 0 ⟨.dev, 0x48000, 0, 0, false⟩ 24576).bytesAt .dev 0 0x48000 24576) := by
  have hw : SameStore savedState walkedState := SameStore.walksTouch _ _ _ _ rfl
  have hp : walkedState.pend = [] := List.isEmpty_iff.mp (by decide +kernel)
  have hs : SameStore savedState (walkedState.agentReads 0 ⟨.dev, 0x48000, 0, 0, false⟩ 24576) :=
    hw.trans (quiet_read hp (by rw [hw.hdm]; rfl) (by decide))
  have h1 : savedState.mem = frameMem := by simp only [savedState, benchFront]
  have h2 : savedState.memKey = [] := by simp only [savedState, benchFront, State.reset]
  rw [frame_bytes (hs.mem.trans h1) (hs.memKey.trans h2) (by rw [hs.hdm]; rfl)]
  exact bench_frame_holds

theorem witness_gangRestores : ∃ (s : State) (g : SavedGang) (v : SavedTeam) (o : Owner) (l : Launch) (sh : Shape) (r : Nat)
    (ps : List (Phys × Nat × Nat)) (x : Framed) (free : List Nat), s.saved.get? s.ev.x = some g ∧ g.teams = [v] ∧ g.ready = some r ∧
    (∀ e ∈ s.saved, ∀ q, e.2.ready = some q → r < q ∨ (r = q ∧ s.ev.x ≤ e.1)) ∧ s.launches.get? g.lid = some l ∧ l.fail = none ∧
    l.shape = some sh ∧ s.owners.get? g.owner = some o ∧ admits s s.ev.y g.owner g.lid sh ∧ (s.cluster s.ev.y).setAside = none ∧ (s.cluster s.ev.y).owner = none ∧
    (∀ h ∈ v.handles, (s.core (4 * s.ev.y + v.team.pos)).handles.get? h = none) ∧
    lowestFree v.banks 8 (fun b => ((s.cluster s.ev.y).banks.get? b).isNone) free ∧
    (s.walksTouch g.owner (o.frameBase + 1441792 * v.slot) v.bytes).framePieces g.owner o .load (o.frameBase + 1441792 * v.slot) v.bytes =
      .ok ps ∧
    (let sR := ps.foldl (fun u p => u.agentReads g.owner p.1 p.2.2)
       (s.walksTouch g.owner (o.frameBase + 1441792 * v.slot) v.bytes)
     FrameHolds x 0 0 (ps.flatMap fun p => sR.bytesAt p.1.sp p.1.key p.1.addr p.2.2)) ∧
    FrameFits x 0 0 ∧ v.team.owner = g.owner ∧ v.banks = x.m.bankMap.length ∧ v.waves.length = x.ws.length ∧ x.m.queues = [] ∧ s.pend = [] ∧ cleanHost s := by
  have h : walkedState.framePieces 0 { Owner.init 0 0 with frameBase := 0x8000, frameSlots := 1 } .load 0x8000 24576 =
    .ok [(⟨.dev, 0x48000, 0, 0, false⟩, 0, 24576)] := of_gives (by decide +kernel)
  refine ⟨savedState, savedBench, _, _, programLaunch, programShape, 0, _, benchFramed, [], rfl, rfl, rfl, ?_, rfl, rfl, rfl, rfl,
    empty_admits rfl rfl, rfl, rfl, (fun h hh => by cases hh), ⟨by decide, by decide⟩, h, ?_, bench_frame_fits, rfl, rfl, rfl, rfl, rfl,
    clean_host rfl⟩
  · intro e h q hq
    obtain rfl := List.mem_singleton.mp h
    cases hq
    exact Or.inr ⟨rfl, Nat.le_refl _⟩
  · exact (congrArg (FrameHolds benchFramed 0 0) (one_piece walkedState 0 ⟨.dev, 0x48000, 0, 0, false⟩ 24576)).mpr saved_holds

theorem witness_retirement : (∃ (s : State) (w : Wave) (m : Team), s.waves.get? s.ev.x = some w ∧ s.teams.get? w.tid = some m ∧
      s.failed m.lid = false ∧ w.retired = false ∧ w.live = 0 ∧ w.region = none ∧ w.outst = [] ∧ w.sbuf = [] ∧ w.irrev = none ∧
      w.spilling = none ∧ m.claims = [] ∧ ∀ h ∈ (s.core (4 * m.cluster + m.pos)).handles, h.2.tid = w.tid → h.2.fills = 0 ∧ h.2.refs = 0) ∧
    (∃ (s : State) (w : Wave) (m : Team), s.waves.get? s.ev.x = some w ∧ s.teams.get? w.tid = some m ∧ s.failed m.lid = false ∧
      w.retired = false ∧ w.live ≠ 0) ∧
    (∃ (s : State) (m : Team), s.teams.get? s.ev.x = some m ∧ s.failed m.lid = false ∧ ¬ mayRetire s s.ev.x m) ∧
    ∃ (s : State) (m : Team), s.teams.get? s.ev.x = some m ∧ s.failed m.lid = false ∧ mayRetire s s.ev.x m ∧
      Tbl.ascending 0 s.launches = true := by
  refine ⟨⟨(at_ [] fun w => { w with live := 0, pcs := [] }).s, _, benchTeam, rfl, rfl, rfl, rfl, rfl, rfl, rfl, rfl, rfl, rfl, rfl,
      fun h hh => by cases hh⟩,
    ⟨(at_ []).s, _, benchTeam, rfl, rfl, rfl, rfl, by decide⟩,
    ⟨(at_ []).s, benchTeam, rfl, rfl, fun h => absurd (h.1 _ (List.mem_singleton_self _) rfl) (by decide)⟩,
    ⟨(at_ [] fun w => { w with retired := true }).s, benchTeam, rfl, rfl, ⟨?_, (fun e h => by cases h), fun h hh => by cases hh⟩, rfl⟩⟩
  intro e h _
  obtain rfl := List.mem_singleton.mp h
  rfl

theorem witness_launchEnds : (∃ (s : State) (l : Launch), s.launches.get? s.ev.x = some l ∧ l.stage = .running ∧ l.fail = none ∧
      l.nextGang = l.gangs ∧ l.gangsDone = l.gangs) ∧
    ∃ (s : State) (l : Launch) (status detail : Nat), s.launches.get? s.ev.x = some l ∧ l.fail = some (status, detail) ∧
      Tbl.ascending 0 s.teams = true ∧ s.teams ≠ [] :=
  ⟨⟨{ State.reset with launches := [(0, { programLaunch with gangsDone := 1 })] }, _, rfl, rfl, rfl, rfl, rfl⟩,
    ⟨(at_ [] id id fun s => { s with launches := [(0, { programLaunch with fail := some (7, 2) })] }).s, _, 7, 2, rfl, rfl, rfl,
      by decide⟩⟩

/-- The module once CXL is up. -/
def readyState (own : List (Nat × Owner)) (x y z : Nat) (d : EvData := .none) (b : Bool := false) : State :=
  { State.reset with hk := ⟨6, false, false, true, false⟩, owners := own, ev := ⟨x, y, z, b, d⟩ }

theorem witness_ownerLife : (∃ s : State, s.hk.ready = true ∧ s.ev.x < 64 ∧ s.owners.get? s.ev.x = none ∧ s.ev.y < 128 ∧
      s.ev.z % 8192 = 0 ∧ s.ev.z + 8192 ≤ 2 ^ 41 ∧ ¬ keyTaken s s.ev.x s.ev.y ∧ ∀ e ∈ s.owners, e.1 ≠ s.ev.x) ∧
    (∃ s : State, s.hk.ready = true ∧ s.ev.x < 64 ∧ s.owners.get? s.ev.x = none ∧ s.ev.y < 128 ∧ s.ev.z % 8192 = 0 ∧
      s.ev.z + 8192 ≤ 2 ^ 41 ∧ keyTaken s s.ev.x s.ev.y) ∧
    (∃ (s : State) (o : Owner), s.owners.get? s.ev.x = some o ∧ Tbl.ascending 0 s.owners = true ∧ s.launches = [] ∧ s.teams = [] ∧
      s.saved = [] ∧ o.queues = [] ∧ o.grant.Nodup) ∧
    ∃ (s : State) (o : Owner), s.owners.get? s.ev.x = some o ∧ s.ev.data = .keys (.policy false) :=
  ⟨⟨readyState [] 0 5 0, rfl, by decide, rfl, by decide, by decide, by decide, (fun ⟨_, h, _⟩ => by cases h), fun e h => by cases h⟩,
    ⟨readyState [(1, Owner.init 0 5)] 0 5 0, rfl, by decide, rfl, by decide, by decide, by decide,
      ⟨_, List.mem_singleton_self _, by decide, by decide⟩⟩,
    ⟨readyState [(0, Owner.init 0 5)] 0 5 0, _, rfl, rfl, rfl, rfl, rfl, rfl, by decide⟩,
    ⟨readyState [(0, Owner.init 0 5)] 0 0 0 (.keys (.policy false)), _, rfl, rfl⟩⟩

/-- A change of a tag at the boundary of its numbers, and a register of an owner. -/
theorem witness_registerWrites_stops : (∃ (s : State) (w : RegWrite), s.hk.recovery = true ∧ s.ev.data = .reg w) ∧
    ∃ s : State, s.hk.ready = false :=
  ⟨⟨{ readyState [] 0 0 0 (.reg (.fabTmo 1)) with hk := ⟨1, false, true, false, false⟩ }, _, rfl, rfl⟩, ⟨State.reset, rfl⟩⟩

theorem witness_registerWrites : (∃ s : State, s.ev.x < 16 ∧ s.ev.y < 128 ∧ s.hk.recovery = false ∧ noRegion s) ∧ (∃ s : State, s.ev.x < 2 ^ 32) ∧
    ∃ (s : State) (w : RegWrite) (own : Nat) (o : Owner), s.ev.data = .reg w ∧ s.hk.recovery = false ∧ regOwner w = some own ∧ s.owners.get? own = some o :=
  ⟨⟨readyState [] 15 127 0x81, by decide, by decide, rfl, fun e h => by cases h⟩, ⟨readyState [] 1 0 0, by decide⟩,
    ⟨readyState [(0, Owner.init 0 5)] 0 0 0 (.reg (.grant 0 5 false)), _, 0, _, rfl, rfl, rfl, rfl⟩⟩

/-- A sleep that has ended, a core that all its waves leave, one whose entry phase is over, one that wakes, one that is halted. -/
theorem witness_coresAndSleep : (∃ (s : State) (w : Wave) (m : Team), s.waves.get? s.ev.x = some w ∧ s.teams.get? w.tid = some m ∧
      w.sweep = none ∧ 1 < w.pcs.length ∧ 64 ≤ w.brCount ∧ w.waiting = none ∧ s.mayIssue w m = true ∧ s.eligibleSets s.ev.x w m ≠ []) ∧
    (∃ (s : State) (w : Wave), s.waves.get? s.ev.x = some w ∧ w.sleep = some s.clock.toNat) ∧
    (∃ s : State, s.ev.x < 3200 ∧ (s.core s.ev.x).gate = .awake ∧
      ∀ w, onCore s s.ev.x w → ∃ u, w.sleep = some u ∧ s.clock.toNat + 65536 ≤ u) ∧
    (∃ s : State, (s.core s.ev.x).gate = .entering s.clock.toNat) ∧
    (∃ s : State, (s.core s.ev.x).gate = .gated ∧ ∃ w, onCore s s.ev.x w ∧ ∀ u, w.sleep = some u → u ≤ s.clock.toNat + 3000) ∧
    (∃ (s : State) (l : Launch), (s.core s.ev.x).gate = .waking s.clock.toNat true ∧ s.ev.y = 1 ∧
      ∃ e ∈ s.teams, 4 * e.2.cluster + e.2.pos = s.ev.x ∧ s.launches.get? e.2.lid = some l ∧ l.fail = none) ∧
    ∃ s : State, (s.core s.ev.x).halted = true := by
  refine ⟨?_, ⟨(at_ [] fun w => { w with sleep := some 0 }).s, _, rfl, rfl⟩,
    ⟨readyState [] 3199 0 0, by decide, rfl, fun w h => by obtain ⟨_, ⟨_, h⟩, _⟩ := h; cases h⟩,
    ⟨{ State.reset with cores := [(0, { Core.init with gate := .entering 0 })] }, rfl⟩,
    ⟨(at_ [] id id fun s => { s with cores := [(0, { Core.init with gate := .gated })] }).s, rfl, _,
      ⟨rfl, ⟨0, List.mem_singleton_self _⟩, benchTeam, rfl, rfl⟩, fun u h => by cases h⟩,
    ⟨(at_ [] id id fun s => { s with cores := [(0, { Core.init with gate := .waking 0 true })], ev := ⟨0, 1, 0, false, .none⟩ }).s,
      programLaunch, rfl, rfl, _, List.mem_singleton_self _, rfl, rfl, rfl⟩,
    ⟨{ State.reset with cores := [(0, { Core.init with halted := true })] }, rfl⟩⟩
  let w : Wave := { Wave.start programShape 0 0 0 0 0 with pcs := [(0x104, 3), (0x108, 12)], brCount := 64 }
  let s : State := { benchOf w benchTeam with cores := [(0, { Core.init with tlb := [benchPage] })], mem := frontMem }
  exact ⟨s, w, benchTeam, rfl, rfl, rfl, by decide, by decide, rfl, by decide +kernel, by
    have h : (s.eligibleSets s.ev.x w benchTeam).isEmpty = false := by decide +kernel
    intro h2
    rw [h2] at h
    cases h⟩

/-- Power that is not withheld, power that is, in and out of the recovery state. -/
theorem witness_housekeeping : (∃ s : State, s.withheld = none) ∧ (∃ s : State, s.withheld ≠ none) ∧
    (∃ s : State, s.throttle ≤ 100 ∧ s.hk.bootStep < 16 ∧ s.pwrLim ≤ 8000 ∧ s.eccCorr ≤ 65535 ∧ s.eccUncorr ≤ 65535 ∧
      s.hk.recovery = false ∧ s.ev.x < 2 ^ 16 ∧ s.ev.data = .error .corrected) ∧ ∃ s : State, s.hk.recovery = true :=
  ⟨⟨State.reset, rfl⟩, ⟨{ State.reset with withheld := some 0 }, by decide⟩,
    ⟨readyState [] 0xFFFF 0 0 (.error .corrected), by decide +kernel, by decide, by decide, by decide, by decide, rfl, by decide, rfl⟩,
    ⟨{ State.reset with hk := ⟨1, false, true, false, false⟩ }, rfl⟩⟩

/-- An uncorrectable error; a debug unlock, where a token is valid (which one is, is free) and in the recovery state. -/
theorem witness_powerAndErrors : (∃ s : State, Tbl.ascending 0 s.launches = true ∧ s.launches ≠ []) ∧
    (∃ s : State, Tbl.ascending 0 s.launches = true ∧ s.ev.data = .error (.uncorrectable 0)) ∧
    (∀ b, Config.tokenValid 0 b = true → ∃ s : State, Tbl.ascending 0 s.launches = true ∧ s.ev.data = .bytes b ∧
      Config.tokenValid s.deviceId b = true ∧ s.hk.recovery = false) ∧
    ∃ (s : State) (b : List Byte), s.ev.data = .bytes b ∧ s.hk.recovery = true :=
  ⟨⟨(at_ []).s, rfl, by decide⟩, ⟨readyState [] 0 0 0 (.error (.uncorrectable 0)), rfl, rfl⟩,
    fun b h => ⟨readyState [] 0 0 0 (.bytes b), rfl, rfl, h, rfl⟩,
    ⟨{ readyState [] 0 0 0 (.bytes []) with hk := ⟨1, false, true, false, false⟩ }, _, rfl, rfl⟩⟩

/-- A reset with a cluster out of service, the registers' writes, and a report. -/
theorem witness_bringUp : (∃ (s : State) (bad : List Nat), s.ev.data = .nats bad ∧ s.ev.x ≠ 6 ∧ Tbl.ascending 0 s.fwStaged = true) ∧
    (∃ s : State, s.ev.x = 6 ∧ s.hk.bootStep = 5) ∧
    (∃ (s : State) (out : List Nat), s.ev.x < 2 ^ 20 ∧ s.hk.bootStep = 4 ∧ s.ev.flag = true ∧ s.ev.data = .nats out) ∧
    (∃ (s : State) (m : List Byte), s.ev.data = .bytes m ∧ s.hk.recovery = false ∧ s.mr.length = 8 ∧ 5 ≤ s.ev.x ∧ s.ev.x < 8) ∧
    ∃ (s : State) (nonce : List Byte) (o : Owner), s.ev.data = .bytes nonce ∧ nonce.length = 32 ∧ s.hk.recovery = false ∧
      s.owners.get? s.ev.x = some o :=
  ⟨⟨readyState [] 0 0 0 (.nats [799]), _, rfl, by decide, rfl⟩,
    ⟨{ readyState [] 6 0 0 with hk := ⟨5, false, false, false, false⟩ }, rfl, rfl⟩,
    ⟨{ readyState [] 0xFFFFF 0 0 (.nats [0]) true with hk := ⟨4, false, false, false, false⟩ }, _, by decide, rfl, rfl, rfl⟩,
    ⟨readyState [] 7 0 0 (.bytes [1]), _, rfl, rfl, by decide, by decide, by decide⟩,
    ⟨readyState [(0, Owner.init 0 5)] 0 0 0 (.bytes (List.replicate 32 7)), _, _, rfl, by decide, rfl, rfl⟩⟩

theorem none_pending {s : State} (h : s.pend = []) (sp : Space) (a n : Nat) : noPending s sp a n := by
  intro p hp
  rw [h] at hp
  cases hp

/-- A request of device 3. -/
def peerRequest (r : MemReq) : FabReq := ⟨3, 0, 5, 0x1000, 7, r⟩

/-- A device with a key under identifier 7 and a number. -/
def fabricState (r : MemReq) : State := { readyState [] 0 0 0 (.fabric (peerRequest r)) with deviceIdValid := true, keyVer := [(7, 1)] }

/-- A link at 16 retries with a request it has not had acknowledged; a copy; each request once; what another party does at a
peer's memory. -/
theorem witness_fabricTraffic : (∃ (s : State) (r : OutReq), s.ev.x < 32 ∧ (s.link s.ev.x).down = false ∧ s.ev.flag = false ∧
      (s.link s.ev.x).retries = 16 ∧ s.fabOut[0]? = some r ∧ r.port = some s.ev.x ∧ (s.link s.ev.x).acked < r.flit) ∧
    (∃ (s : State) (r : FabReq), s.ev.data = .fabric r ∧ s.ev.flag = false ∧ r.stream < 64 ∧ s.deviceIdValid = false) ∧
    (∃ (s : State) (r : FabReq) (w : Window) (resp : List Byte), s.ev.data = .fabric r ∧ s.ev.flag = false ∧ r.stream < 64 ∧
      s.deviceIdValid = true ∧ s.fabWindow.get? (64 * r.src + r.stream) = some w ∧ w.resp.get? r.seq = some resp ∧ anyPort s (16 + resp.length)) ∧
    (∀ q ∈ [MemReq.read 32, .write [1, 2], .atomic 0 false 1 0], ∃ (s : State) (r : FabReq), s.ev.data = .fabric r ∧ r.req = q ∧
      s.ev.flag = false ∧ r.stream < 64 ∧ s.deviceIdValid = true ∧ s.fabWindow.get? (64 * r.src + r.stream) = none ∧ r.seq < 1024 ∧
      noPending s .dev r.addr (reqBytes r.req) ∧ r.key < 128 ∧ s.keyVer.get 0 r.key ≠ 0 ∧ noRegion s ∧ noHdm s ∧ unwatched s ∧
      r.addr + reqBytes r.req ≤ 0x50000000000 ∧ anyPort s 49) ∧
    ∃ (s : State) (r : FabReq), s.ev.data = .fabric r ∧ s.ev.flag = true ∧ r.stream < 64 ∧ r.addr / 2 ^ 44 ≠ s.deviceId ∧
      noPending s .peer r.addr (reqBytes r.req) ∧ noRegion s ∧ unwatched s ∧ r.req = .write [1, 2] := by
  refine ⟨⟨{ readyState [] 31 0 0 with links := [(31, ⟨false, 16, 100, 1⟩)], fabOut := [⟨0, 0, 3, 0, .wave 0, 16, some 31, 2, 0, 0, 0⟩] },
      _, by decide, rfl, rfl, rfl, rfl, rfl, by decide⟩,
    ⟨readyState [] 0 0 0 (.fabric (peerRequest (.read 32))), _, rfl, rfl, by decide, rfl⟩,
    ⟨{ fabricState (.read 32) with fabWindow := [(192, ⟨0, [(5, [1])]⟩)] }, _, _, _, rfl, rfl, by decide, rfl, rfl, rfl,
      0, by decide, rfl, by decide⟩, ?_,
    ⟨readyState [] 0 0 0 (.fabric ⟨3, 0, 5, 5 * 2 ^ 44, 7, .write [1, 2]⟩) true, _, rfl, rfl, by decide, by decide,
      none_pending rfl _ _ _, (fun e h => by cases h), (fun e h => by cases h), rfl⟩⟩
  intro q hq
  refine ⟨fabricState q, peerRequest q, rfl, rfl, rfl, show 0 < 64 by decide, rfl, rfl, show 5 < 1024 by decide, none_pending rfl _ _ _,
    show 7 < 128 by decide, show (1 : Nat) ≠ 0 by decide, (fun e h => by cases h), rfl, (fun e h => by cases h), ?_, 0, by decide, rfl, show flits (0 + 49) - 0 ≤ 256 by decide⟩
  have : ∀ q ∈ [MemReq.read 32, .write [1, 2], .atomic 0 false 1 0], 0x1000 + reqBytes q ≤ 0x50000000000 := by decide
  exact this q hq

/-- No port takes a response while every link is down. -/
theorem witness_fabricTraffic_closed : ∃ s : State, s.deviceIdValid = true ∧ ∀ n, ¬ anyPort s n := by
  refine ⟨{ fabricState (.read 32) with links := filled ⟨true, 0, 0, 0⟩ 0 32 }, rfl, fun n h => ?_⟩
  obtain ⟨p, h1, h2, _⟩ := h
  rw [State.link, Tbl.get, get?_filled _ _ _ _ (Nat.zero_le p) (by omega)] at h2
  cases h2

/-- A request without a response for 200 µs; a target that has been silent. -/
theorem witness_fabricLosses : (∃ (s : State) (r : OutReq), s.fabOut[s.ev.x]? = some r ∧ r.last + 200000 ≤ s.clock.toNat ∧
      r.resends < 8 ∧ ∃ p, portOpen s p r.bytes ∧ r.port ≠ some p) ∧
    (∃ (s : State) (r : OutReq), s.fabOut[s.ev.x]? = some r ∧ s.clock.toNat < r.last + 200000) ∧
    ∃ s : State, Tbl.ascending 0 s.launches = true ∧ s.fabHeard.get 0 s.ev.x + 1000 * s.fabTmo.toNat ≤ s.clock.toNat ∧
      (∃ r ∈ s.fabOut, r.device = s.ev.x ∧ r.first + 1000 * s.fabTmo.toNat ≤ s.clock.toNat) ∧
      ∃ e ∈ s.launches, (∃ r ∈ s.fabOut, r.device = s.ev.x ∧ r.owner = e.2.owner) ∧ e.2.stage = .running ∧ e.2.fail = none :=
  ⟨⟨{ State.reset with fabOut := [⟨0, 0, 3, 0, .wave 0, 16, none, 0, 7, 0, 0⟩], clock := 200000 }, _, rfl, by decide, by decide, 0,
      ⟨by decide, rfl, by decide⟩, by decide⟩,
    ⟨{ State.reset with fabOut := [⟨0, 0, 3, 0, .wave 0, 16, none, 0, 0, 0, 0⟩] }, _, rfl, by decide⟩,
    ⟨{ (at_ []).s with fabOut := [⟨0, 0, 0, 0, .wave 0, 16, none, 0, 8, 0, 0⟩], clock := 10000000 }, rfl, by decide,
      ⟨_, List.mem_singleton_self _, rfl, by decide⟩, _, List.mem_singleton_self _, ⟨_, List.mem_singleton_self _, rfl, rfl⟩, rfl, rfl⟩⟩

/-- A device with a number, given a lease's event. -/
def leaseState (x y z : Nat) (b : Bool := false) : State := { readyState [] x y z .none b with deviceIdValid := true }

/-- A page that may be leased and one that is blocked; a recall that is pending, one that a die begins, one it acknowledges. -/
theorem witness_leases : (∃ s : State, s.deviceIdValid = false) ∧
    (∃ s : State, s.deviceIdValid = true ∧ s.ev.x ∉ s.leaseBlocked ∧ s.leasesGranted.length < 65536) ∧
    (∃ s : State, s.deviceIdValid = true ∧ s.ev.x ∈ s.leaseBlocked) ∧
    (∃ s : State, s.deviceIdValid = true ∧ s.ev.flag = true ∧ (s.ev.x, s.ev.y) ∈ s.recallPending) ∧
    (∃ s : State, s.deviceIdValid = true ∧ s.ev.flag = false ∧ s.ev.z = 0 ∧ s.ev.x < 16) ∧
    (∃ s : State, s.deviceIdValid = true ∧ s.ev.flag = false ∧ s.ev.z ≠ 0 ∧ s.ev.y ∈ (s.die s.ev.x).recalls) ∧
    ∀ b, ∃ s : State, s.hk.recovery = b :=
  ⟨⟨State.reset, rfl⟩, ⟨leaseState 9 1 0, rfl, by decide, by decide⟩,
    ⟨{ leaseState 9 1 0 with leaseBlocked := [9] }, rfl, List.mem_singleton_self _⟩,
    ⟨{ leaseState 9 1 0 true with recallPending := [(9, 1)] }, rfl, rfl, List.mem_singleton_self _⟩,
    ⟨leaseState 15 9 0, rfl, rfl, rfl, by decide⟩,
    ⟨{ leaseState 15 9 1 with dies := [(15, { Die.init with recalls := [9] })] }, rfl, rfl, by decide, List.mem_singleton_self _⟩,
    fun b => ⟨{ leaseState 9 0 0 with hk := { State.reset.hk with recovery := b } }, rfl⟩⟩

theorem leases_table (l : List (Nat × Nat)) (last : Nat × Nat) (h1 : (65536, 1) ∉ l) (h2 : 65536 ≤ l.length)
    (h3 : l.getLast? = some last) (h4 : l.Nodup) : ∃ (s : State) (last : Nat × Nat), s.deviceIdValid = true ∧ s.ev.x ∉ s.leaseBlocked ∧
    (s.ev.x, s.ev.y) ∉ s.leasesGranted ∧ 65536 ≤ s.leasesGranted.length ∧ s.recallPending = [] ∧
    s.leasesGranted.getLast? = some last ∧ s.leasesGranted.Nodup :=
  ⟨{ leaseState 65536 1 0 with leasesGranted := l }, last, rfl, List.not_mem_nil, h1, h2, rfl, h3, h4⟩

/-- The least recently used of 65,536 leases is recalled. -/
theorem witness_leases_full : ∃ (s : State) (last : Nat × Nat), s.deviceIdValid = true ∧ s.ev.x ∉ s.leaseBlocked ∧
    (s.ev.x, s.ev.y) ∉ s.leasesGranted ∧ 65536 ≤ s.leasesGranted.length ∧ s.recallPending = [] ∧
    s.leasesGranted.getLast? = some last ∧ s.leasesGranted.Nodup := by
  refine leases_table ((List.range 65536).map fun n => (n, 1)) (65535, 1) ?_ (by rw [List.length_map, List.length_range]) ?_
    (List.Nodup.map (fun a b h => congrArg Prod.fst h) List.nodup_range)
  · intro h
    obtain ⟨n, hn, h⟩ := List.mem_map.mp h
    have h1 : n = 65536 := congrArg Prod.fst h
    have := List.mem_range.mp hn
    omega
  · rw [List.getLast?_map, List.getLast?_range, if_neg (by decide)]
    rfl

/-- A line the host takes, and an access to the first granule of an exposed range. -/
theorem witness_hostAccesses : (∃ s : State, s.hk.ready = false) ∧
    (∃ (s : State) (b : List Byte), s.hk.ready = true ∧ s.hk.pcieOnly = false ∧ noRegion s ∧ unwatched s ∧
      noPending s .host (64 * s.ev.x) 64 ∧ s.ev.data = .bytes b ∧ b.length = 64) ∧
    (∃ s : State, s.hk.ready = true ∧ s.hk.pcieOnly = false ∧ noRegion s ∧ unwatched s ∧ ¬ noPending s .host (64 * s.ev.x) 64) ∧
    ∀ r ∈ [HostReq.read, .write (List.replicate 64 1), .cache, .dirty (List.replicate 64 1)], ∃ s : State, s.hk.ready = true ∧
      s.hk.pcieOnly = false ∧ s.ev.data = .host r ∧
      s.hdm.en = true ∧ s.hdm.base * 2 ^ 30 ≤ s.ev.x ∧ s.ev.x < (s.hdm.base + s.hdm.size) * 2 ^ 30 ∧ s.ev.x < 2 ^ 41 ∧
      noPending s .dev (s.ev.x / 64 * 64) 64 ∧
      noPending s .dev (s.biasBase + (s.ev.x - s.hdm.base * 2 ^ 30) / 4096 / 8) 1 ∧ noRegion s ∧ unwatched s ∧
      (∀ k h d, s.hostLines.get? k = some h → h.dirty = some d → d.length ≤ 64) ∧
      (s.biasBase + s.hdm.size * 2 ^ 15 ≤ s.hdm.base * 2 ^ 30 ∨ (s.hdm.base + s.hdm.size) * 2 ^ 30 ≤ s.biasBase) :=
  ⟨⟨State.reset, rfl⟩,
    ⟨readyState [] 2 0 0 (.bytes (List.replicate 64 1)), _, rfl, rfl, (fun e h => by cases h), (fun e h => by cases h),
      none_pending rfl _ _ _, rfl, by decide⟩,
    ⟨{ readyState [] 2 0 0 with pend := [(.mem .host 32, 0)] }, rfl, rfl, (fun e h => by cases h), (fun e h => by cases h),
      fun h => h _ (List.mem_singleton_self _) 0 (by decide) rfl⟩,
    fun r _ => ⟨{ readyState [] (2 ^ 30) 0 0 (.host r) with hdm := ⟨true, 1, 0, 1⟩ }, rfl, rfl, rfl, rfl,
      show 1 * 2 ^ 30 ≤ 2 ^ 30 by decide, show 2 ^ 30 < (1 + 1) * 2 ^ 30 by decide, show 2 ^ 30 < 2 ^ 41 by decide, none_pending rfl _ _ _,
      none_pending rfl _ _ _, (fun e h => by cases h), (fun e h => by cases h), (fun k h d h1 => by cases h1),
      Or.inl (show 0 + 1 * 2 ^ 15 ≤ 1 * 2 ^ 30 by decide)⟩⟩

/-- The state after reset has what every step keeps, and a step from it answers a next state. -/
theorem witness_stepKeeps : ∃ s t : State, kept s ∧ step s = .next t := by
  have h : (match step { State.reset with sched := [0], inputs := [(.powerThrottle, ⟨9000, 50, 0, false, .none⟩)] } with | .next _ => true | _ => false) = true := by decide +kernel
  split at h
  · rename_i t ht
    exact ⟨_, t, ⟨⟨rfl, rfl, rfl⟩, by decide, by decide, by decide, by decide, by decide, by decide, by decide⟩, ht⟩
  · cases h

theorem witness_stepAnswers : ∃ s : State, s.inputs = [] := ⟨State.reset, rfl⟩

theorem witness_cyclesPass : ∃ s : State, Act.time ∈ s.acts := by
  have h : State.reset.mayPass = true := rfl
  refine ⟨State.reset, List.mem_append_right _ ?_⟩
  rw [if_pos h]
  exact List.mem_singleton_self _

theorem witness_decodeEncode : ∃ i : Instr, i.wf = true ∧ i.isWord = true := ⟨ .addi (.v 4) (.v 5) (-3), by decide, by decide⟩

theorem witness_encodeDecode : ∃ (w : Nat) (i : Instr), w < 2 ^ 32 ∧ decodeWord w = .ok i :=
  ⟨0x0A102FFD, .addi (.v 4) (.v 5) (-3), by decide, by decide⟩
/-! ## Witnesses of further clauses -/

/-- FRCP of 3, whose exact value lies in [1/4, 1/2); FEXP2 of 1,024, which overflows; the square root of 2. -/
theorem witness_unitBounds : (∃ (f : TFun) (a : Word) (neg : Bool) (m : Mag) (e : ℤ), f32 (flush false a) = .fin neg m ∧
      f.special (f32 (flush false a)) = none ∧ f.overflows neg m = false ∧
      (2 : ℚ) ^ e ≤ |ratOf (f.value neg m).1 (f.value neg m).2| ∧ |ratOf (f.value neg m).1 (f.value neg m).2| < 2 ^ (e + 1)) ∧
    (∃ (f : TFun) (a : Word) (neg : Bool) (m : Mag), f32 (flush false a) = .fin neg m ∧
      f.special (f32 (flush false a)) = none ∧ f.overflows neg m = true) ∧
    ∃ (a : Word) (m : Mag), f32 (flush false a) = .fin false m ∧ m.n ≠ 0 := by
  refine ⟨⟨.rcp, 0x40400000, false, ⟨12582912, 4194304⟩, -2, by decide, by decide, by decide, ?_, ?_⟩,
    ⟨.exp2, 0x44800000, _, _, rfl, by decide, by decide⟩, ⟨0x40400000, _, rfl, by decide⟩⟩
  · norm_num [TFun.value, ratOf, rat]
  · norm_num [TFun.value, ratOf, rat]

/-- A quiet NaN; a negative number; a turn and a half. -/
theorem witness_unitSpecials : (∃ a q, f32 a = .nan q) ∧ (∃ a m, f32 (flush false a) = .fin true m ∧ m.n ≠ 0) ∧
    ∃ a n m, ∃ z : ℤ, f32 (flush false a) = .fin n m ∧ m.n ≠ 0 ∧ ratOf n m = z + 1 / 2 := by
  refine ⟨⟨0x7FC00000, false, by decide⟩, ⟨0xC0400000, _, rfl, by decide⟩,
    ⟨0x3FC00000, false, ⟨12582912, 8388608⟩, 1, by decide, by decide, ?_⟩⟩
  norm_num [ratOf, rat]

/-- A state with a program whose owner's violation log, of two entries, lies at 0x1000 with its TAIL as given. -/
def logging (tail : Nat) : State :=
  let s := (State.reset.withProgram 0).writeBytes .dev 0 (placed 0x41008 (leBytes 8 tail))
  { s with owners := s.owners.upd 0 fun o => { o with vlog := some ⟨0x1000, 1, 0, none⟩ } }

/-- No log; a log with room, whose entry and TAIL can be stored; a full one, whose STATUS can be read. -/
theorem witness_violationLog : (∀ o, (at_ []).s.owners.get? 0 = some o → o.vlog = none) ∧
    (∃ s1 s2, let s0 := (logging 0).ringReady 0 ⟨0x1000, 1, 0, none⟩ .withVlog
      s0.frontWord 0 0x1000 = .ok 0 ∧ s0.frontWord 0 0x1008 = .ok 0 ∧
      s0.frontWrite 0 0x1100 (violationBytes ⟨5, .permission, .load, false⟩ 0x104 0 0 0) = .ok s1 ∧
      s1.frontWrite 0 0x1008 (le 8 1) = .ok s2) ∧
    let s0 := (logging 2).ringReady 0 ⟨0x1000, 1, 0, none⟩ .withVlog
    s0.frontWord 0 0x1000 = .ok 0 ∧ s0.frontWord 0 0x1008 = .ok 2 ∧ s0.frontWord 0 0x1010 = .ok 0 := by
  refine ⟨fun o h => by cases h; rfl, ?_, of_gives (by decide +kernel), of_gives (by decide +kernel),
    of_gives (by decide +kernel)⟩
  obtain ⟨s1, h1⟩ := of_succeeds (x := ((logging 0).ringReady 0 ⟨0x1000, 1, 0, none⟩ .withVlog).frontWrite 0 0x1100
    (violationBytes ⟨5, .permission, .load, false⟩ 0x104 0 0 0)) (by decide +kernel)
  have h2 : succeeds ((((logging 0).ringReady 0 ⟨0x1000, 1, 0, none⟩ .withVlog).frontWrite 0 0x1100
    (violationBytes ⟨5, .permission, .load, false⟩ 0x104 0 0 0)).bind fun s => s.frontWrite 0 0x1008 (le 8 1)) = true := by
    decide +kernel
  rw [h1] at h2
  obtain ⟨s2, h2⟩ := of_succeeds h2
  exact ⟨s1, s2, of_gives (by decide +kernel), of_gives (by decide +kernel), h1, h2⟩

/-- Core 1 of die 0 may hold sectors of the line of address 0. -/
def shared (s : State) : State := { s with homeDir := [(0, 1)], dies := [(0, { Die.init with dir := [(0, 2)] })] }

/-- The place 0x40 of HBM4E; a place of the capacity tier, whose buffer holds no key. -/
def hbmPlace : Phys := ⟨.dev, 0x40, 0, 0, false⟩
@[inherit_doc hbmPlace] def capPlace : Phys := ⟨.dev, 0x20000000000, 5, 1, false⟩

/-- An atomic whose word die 0 must be told of; one that every die has acknowledged; one whose buffer lacks the key. -/
theorem witness_atomicPerforms_told :
    (∃ c : Ctx, c = at_ [] (withAtomic (.mem hbmPlace)) id shared ∧
      noRegion c.s ∧ cleanHost c.s ∧ noStatus c.s .dev 0x40 4 ∧ c.s.missingKey hbmPlace = none ∧ c.s.pend = [] ∧
      toldDies c.s c.t.core (linesFrom .dev 0x40 4) 0 ∧
      (atomSeries .add false (BitVec.ofNat 64 (leValue (c.s.homeBytes 0 (.mem hbmPlace) 4))) [⟨0, .mem hbmPlace, 5, 0⟩]).2 ≠
        BitVec.ofNat 64 (leValue (c.s.homeBytes 0 (.mem hbmPlace) 4))) ∧
    (∃ w : Wave, w.irrev = some (.atom 0 .add false [⟨0, .mem hbmPlace, 5, 0⟩] (some (0, [])))) ∧
    ∃ k, (at_ [] (withAtomic (.mem capPlace))).s.missingKey capPlace = some k ∧ k ∉ (at_ []).s.keyWants :=
  ⟨⟨_, rfl, no_region rfl rfl, clean_host rfl, (fun e he r hr => by
        obtain rfl := List.mem_singleton.mp he
        cases hr), by decide, rfl,
      ⟨by decide, 0, ⟨by decide, 0, by decide, by decide⟩, by decide, fun h => absurd (h.2 1 (by decide) (by decide)) (by decide)⟩,
      by decide⟩,
    ⟨{ (at_ []).w with irrev := some (.atom 0 .add false [⟨0, .mem hbmPlace, 5, 0⟩] (some (0, []))) }, rfl⟩,
    ⟨_, rfl, by decide⟩⟩

theorem witness_atomicInvalidations : ∃ (s : State) (w : Wave) (ls : List AtomLane) (a : AtomLane),
    s.waves.get? s.ev.x = some w ∧ w.irrev = some (.atom 0 .add false ls (some (0, [0, 3]))) ∧ s.ev.y ∈ [0, 3] ∧
    ls.find? (fun e => e.lane = 0) = some a ∧ a.tgt = .mem hbmPlace ∧ keysRise s ∧ noRegion s :=
  ⟨(at_ [] fun w => { w with irrev := some (.atom 0 .add false [⟨0, .mem hbmPlace, 5, 0⟩] (some (0, [0, 3]))) }).s, _, _, _, rfl,
    rfl, by decide, rfl, rfl, ⟨rfl, rfl⟩, no_region rfl rfl⟩

/-- An entry of the capacity tier whose buffer lacks the key; another wave's region that has read an invalidated word. -/
theorem witness_storeEntryCourse_more : (∃ k, (at_ []).s.missingKey capPlace = some k ∧ k ∉ (at_ []).s.keyWants) ∧
    ∃ (s : State) (u : Wave) (r : Region), s.waves.get? 1 = some u ∧ u.region = some r ∧ .mem .dev 16 ∈ r.reads ∧
      touches .dev [(0x40, 1)] (.mem .dev 16) ∧ noStatus s .dev 0x40 1 := by
  refine ⟨⟨_, rfl, by decide⟩, { (at_ []).s with waves := [(1, { (at_ []).w with region := some (benchRegion [.mem .dev 16]) })] }, _,
    _, rfl, rfl, by decide, ⟨(0x40, 1), by decide, by decide⟩, ?_⟩
  intro e he r hr
  obtain rfl := List.mem_singleton.mp he
  cases hr

/-- A step that issues, and the state it leaves at rest. -/
theorem witness_stepIssues : (match (State.reset.withFetchWord 32 0x16140CCD).chosen with | .issue 0 => true | _ => false) = true ∧
    ∃ s : State, s.crossings = [] ∧ (∀ k w, s.waves.get? k = some w → w.mayCommit = false ∧ w.sweep = none) ∧
      Tbl.ascending 0 s.waves = true := by
  refine ⟨witness_stepRunsDecoded, (at_ []).s, rfl, ?_, rfl⟩
  intro k w h
  rcases k with _ | k
  · cases h; exact ⟨rfl, rfl⟩
  · cases h

/-- A page that holds the program's word, fetched through a held translation. -/
def coded (w : Nat) (s : State) : State := (holding benchPage s).writeBytes .dev 0 (placed (0x40000 + programPc) (leBytes 4 w))

/-- A set that stands at a word that decodes, one at a word that traps. -/
theorem witness_eligibility :
    (∃ x i c, x ∈ (at_ [] id id (coded 0x16140CCD)).s.standing 0 (at_ []).w benchTeam ∧ x.instr = some i ∧
      (at_ [] id id (coded 0x16140CCD)).s.at_ 0 x = some c) ∧
    ∃ x, x ∈ (at_ [] id id (coded 0)).s.standing 0 (at_ []).w benchTeam ∧ x.instr = none := by
  have h1 : ∃ i, ((at_ [] id id (coded 0x16140CCD)).s.stand 0 benchTeam .u (BitVec.ofNat 57 programPc, 1)).instr = some i := by
    rw [← Option.isSome_iff_exists]; decide +kernel
  have h2 : ((at_ [] id id (coded 0)).s.stand 0 benchTeam .u (BitVec.ofNat 57 programPc, 1)).instr = none := by
    rw [← Option.isNone_iff_eq_none]; decide +kernel
  obtain ⟨i, h1⟩ := h1
  exact ⟨⟨_, i, _, List.mem_singleton.mpr rfl, h1, rfl⟩, ⟨_, List.mem_singleton.mpr rfl, h2⟩⟩

theorem witness_switchMarker : (∃ (s : State) (w : Wave) (m : Team), s.waves.get? s.cur.wid = some w ∧ s.teams.get? w.tid = some m) ∧
    ∃ w : Wave, w.parked = true :=
  ⟨⟨(at_ []).s, _, _, rfl, rfl⟩, { (at_ []).w with parked := true }, rfl⟩

theorem witness_claimChecks : ∃ (s : State) (c : Ctx), Ready s (.regclm 1) c ∧ c.w.retired = false ∧
    (∀ q ∈ c.t.claims, q.1 ≠ c.w.idx) ∧ c.cnt = 0 :=
  ⟨_, at_ [] fun w => { w with helper := 1, threads := 0 }, ready _ _ rfl (by decide), rfl, by decide, by decide⟩

/-- Two lanes apart, each alone at a VANY. -/
def apartWave (w : Wave) : Wave := { w with threads := 3, live := 3, pcs := [(BitVec.ofNat 57 0x104, 1), (BitVec.ofNat 57 0x108, 2)] }

@[inherit_doc apartWave] def apartBench : Ctx :=
  at_ [] apartWave id fun s => (coded 0x28C10280 s).writeBytes .dev 0
    (placed (0x40000 + 0x108) (leBytes 4 0x28C10280))

theorem witness_collectiveDivergence : ∃ (s : State) (w : Wave) (m : Team) (x : Stand), s.waves.get? 0 = some w ∧
    s.teams.get? w.tid = some m ∧ s.mayIssue w m = true ∧ w.waiting = none ∧ w.sweep = none ∧
    w.pcs.Pairwise (fun a b => a.1.toNat < b.1.toNat) ∧ s.eligibleSets 0 w m = [] ∧ x ∈ s.standing 0 w m ∧ x.set &&& w.counted ≠ 0 ∧
    ∀ y ∈ s.standing 0 w m, y.set &&& w.counted ≠ 0 → x.pc.toNat ≤ y.pc.toNat ∧ ∃ i c, y.instr = some i ∧
      s.at_ 0 y = some c ∧ ∃ l, l < 64 ∧ hasLane c.set l = false ∧ needsCounted i = true ∧ c.cnt ≠ 0 ∧ hasLane c.w.counted l = true := by
  have h0 : (apartBench.s.stand 0 benchTeam .u (BitVec.ofNat 57 0x104, 1)).instr.any needsCounted = true := by decide +kernel
  have h1 : (apartBench.s.stand 0 benchTeam .u (BitVec.ofNat 57 0x108, 2)).instr.any needsCounted = true := by decide +kernel
  have hn : (apartBench.s.eligibleSets 0 apartBench.w benchTeam).isEmpty = true := by decide +kernel
  refine ⟨apartBench.s, apartBench.w, benchTeam, _, rfl, rfl, by decide +kernel, rfl, rfl, by decide +kernel,
    List.isEmpty_iff.mp hn, List.mem_cons_self, by decide +kernel, ?_⟩
  have ex : ∀ {o : Option Instr}, o.any needsCounted = true → ∃ i, o = some i ∧ needsCounted i = true := by
    rintro (_ | i) h
    · cases h
    · exact ⟨i, rfl, h⟩
  intro y hy _
  obtain ⟨e, he, rfl⟩ := List.mem_map.mp hy
  rcases List.mem_cons.mp he with rfl | he'
  · obtain ⟨i, hi, hc⟩ := ex h0
    exact ⟨Nat.le_refl _, _, _, hi, rfl, 1, by decide, by decide +kernel, hc, by decide +kernel, by decide +kernel⟩
  · obtain rfl := List.mem_singleton.mp he'
    obtain ⟨i, hi, hc⟩ := ex h1
    exact ⟨by decide +kernel, _, _, hi, rfl, 0, by decide, by decide +kernel, hc, by decide +kernel, by decide +kernel⟩

/-- No handle of the number; one that fills with a fill under way; a length of no bytes; an index past 63. -/
theorem witness_handleStops :
    (∃ (s : State) (c : Ctx), Ready s (.hfree (.v 4)) c ∧ agreed (.hfree (.v 4)) c ∧ namedHandle c (uval c (.v 4)) = none) ∧
    (∃ (s : State) (c : Ctx) (h : Handle), Ready s (.hwait (.v 4)) c ∧ agreed (.hwait (.v 4)) c ∧
      namedHandle c (uval c (.v 4)) = some h ∧ h.st = .filling ∧ h.fills ≠ 0) ∧
    (∃ (s : State) (c : Ctx), Ready s (.halloc (.v 6) (.v 4) (.v 5)) c ∧ agreed (.halloc (.v 6) (.v 4) (.v 5)) c ∧
      ¬ allocatable c (uval c (.v 4)) (uval c (.v 5))) ∧
    ∃ (s : State) (c : Ctx), Ready s (.hstat (.v 6) (.v 4)) c ∧ agreed (.hstat (.v 6) (.v 4)) c ∧ 64 ≤ uval c (.v 4) :=
  ⟨⟨_, at_ [(4, 5)], ready _ _ rfl (by decide), agreed_zero rfl (by decide), by decide⟩,
    ⟨_, at_ [(4, 5)] id id (withHandles ⟨0, 0, 128, .filling, 1, 0, false⟩), ⟨0, 0, 128, .filling, 1, 0, false⟩,
      ready _ _ rfl (by decide), agreed_zero rfl (by decide), by decide, rfl, by decide⟩,
    ⟨_, at_ [(4, 256), (5, 0)], ready _ _ rfl (by decide), agreed_zero rfl (by decide), fun h => absurd h.2.2.1 (by decide)⟩,
    ⟨_, at_ [(4, 64)], ready _ _ rfl (by decide), agreed_zero rfl (by decide), by decide⟩⟩

/-! ## Witnesses of clauses of later readings -/

/-- Below the smallest subnormal code of FP32; at the largest finite one; past it. -/
theorem witness_formatRounding : fpFormat .fp32 = some (23, 127, 0x7F800000) ∧
    (codeMag 23 127 0 ≤ rat ⟨1, 2 ^ 150⟩ ∧ rat ⟨1, 2 ^ 150⟩ < codeMag 23 127 (0 + 1)) ∧
    (codeMag 23 127 0x7F7FFFFF ≤ rat ⟨2 ^ 128 - 2 ^ 104, 1⟩ ∧ rat ⟨2 ^ 128 - 2 ^ 104, 1⟩ < codeMag 23 127 (0x7F7FFFFF + 1)) ∧
    codeMag 23 127 0x7F800000 ≤ rat ⟨2 ^ 128, 1⟩ := by
  refine ⟨rfl, ⟨?_, ?_⟩, ⟨?_, ?_⟩, ?_⟩ <;> norm_num [codeMag, rat]

/-- A word that names no destination format. -/
theorem witness_qscaleEffects_format : ∃ s c d a b, Ready s (.qscale d a b) c ∧ c.cnt ≠ 0 ∧
    (∀ l, hasLane c.cnt l = true → c.reg b l = c.reg b c.first) ∧ qscaleFmt.halves (c.reg b c.first) = none :=
  ⟨_, at_ [(8, 0xFFFF0000)], .v 12, .v 4, .v 8, ready _ _ rfl (by decide), by decide, on_lane_zero (by decide), rfl⟩

/-- A page of the capacity tier, whose buffers hold no key. -/
def capPage : Trans := ⟨0, 0, 16, ⟨hbmEnd / 4096, 0, 0, 1, false, false, false, true, true, true⟩⟩

/-- An issue whose fetch needs a key that its buffer lacks. -/
theorem witness_stepIssues_wants : ∃ (s t : State) (w : Want), s.chosen = .issue 0 ∧ s.stepping.issueWave 0 = .next t ∧ w ∈ t.wants ∧
    w ∉ s.met := by
  let s := holding capPage (State.reset.withFetchWord 32 0x16140CCD)
  have h1 : (match s.chosen with | .issue 0 => true | _ => false) = true := by decide +kernel
  have h2 : (match s.stepping.issueWave 0 with | .next t => t.wants.any (· ∉ s.met) | _ => false) = true := by decide +kernel
  split at h1
  · split at h2
    · obtain ⟨w, hw, h⟩ := List.any_eq_true.mp h2
      exact ⟨s, _, w, ‹_›, ‹_›, hw, of_decide_eq_true h⟩
    · cases h2
  · cases h1

/-- Two lanes apart, each alone at a QXCH. -/
def exchangeBench : Ctx :=
  at_ [] apartWave id fun s => (coded 0 s).writeBytes .dev 0
    (placed (0x40000 + 0x104) (leBytes 4 (encode false (.qxch (.v 6) (.v 4) (.v 5)))) ++
      placed (0x40000 + 0x108) (leBytes 4 (encode false (.qxch (.v 6) (.v 4) (.v 5)))))

theorem witness_collectiveDivergence_live : ∃ (s : State) (w : Wave) (m : Team) (x : Stand), s.waves.get? 0 = some w ∧
    s.teams.get? w.tid = some m ∧ (∃ y ∈ s.standing 0 w m, ∃ i, y.instr = some i ∧ needsLive i = true) ∧
    s.mayIssue w m = true ∧ w.waiting = none ∧ w.sweep = none ∧ w.pcs.Pairwise (fun a b => a.1.toNat < b.1.toNat) ∧
    s.eligibleSets 0 w m = [] ∧ x ∈ s.standing 0 w m ∧ x.set &&& w.live ≠ 0 ∧
    ∀ y ∈ s.standing 0 w m, y.set &&& w.live ≠ 0 → x.pc.toNat ≤ y.pc.toNat ∧ ∃ i c, y.instr = some i ∧
      s.at_ 0 y = some c ∧ ∃ l, l < 64 ∧ hasLane c.set l = false ∧ needsLive i = true ∧ hasLane c.w.live l = true := by
  have h0 : (exchangeBench.s.stand 0 benchTeam .u (BitVec.ofNat 57 0x104, 1)).instr.any needsLive = true := by decide +kernel
  have h1 : (exchangeBench.s.stand 0 benchTeam .u (BitVec.ofNat 57 0x108, 2)).instr.any needsLive = true := by decide +kernel
  have hn : (exchangeBench.s.eligibleSets 0 exchangeBench.w benchTeam).isEmpty = true := by decide +kernel
  have ex : ∀ {o : Option Instr}, o.any needsLive = true → ∃ i, o = some i ∧ needsLive i = true := by
    rintro (_ | i) h
    · cases h
    · exact ⟨i, rfl, h⟩
  refine ⟨exchangeBench.s, exchangeBench.w, benchTeam, _, rfl, rfl, ⟨_, List.mem_cons_self, ex h0⟩, by decide +kernel, rfl, rfl,
    by decide +kernel, List.isEmpty_iff.mp hn, List.mem_cons_self, by decide +kernel, ?_⟩
  intro y hy _
  obtain ⟨e, he, rfl⟩ := List.mem_map.mp hy
  rcases List.mem_cons.mp he with rfl | he'
  · obtain ⟨i, hi, hc⟩ := ex h0
    exact ⟨Nat.le_refl _, _, _, hi, rfl, 1, by decide, by decide +kernel, hc, by decide +kernel⟩
  · obtain rfl := List.mem_singleton.mp he'
    obtain ⟨i, hi, hc⟩ := ex h1
    exact ⟨by decide +kernel, _, _, hi, rfl, 0, by decide, by decide +kernel, hc, by decide +kernel⟩

/-- A multicast to no team. -/
theorem witness_engineCommands_castNone : ∃ (s : State) (c : Ctx) (d a : Reg) (p : Plan) (e : Handle), Ready s (.tmcast d a) c ∧
    agreed (.tmcast d a) c ∧ castOrder c a p ∧ (∀ e ∈ s.cmds, e.1 < s.nextCid ∧ ∀ h n, e.2.kind = .mcast h n [] → e.2.held = true) ∧
    (queued c p []).held = false ∧ uval c a 3 = 0 ∧ mayOrder c p ∧ namedHandle c (uval c a) = some e ∧
    s.readers (.ctr c.w.tid 0 :: handleWords p.outb) (some c.wid) = [] := by
  refine ⟨_, at_ [(8, 5), (9, 6), (10, 0xFFFFFFFF)] id id castBench, .v 22, .v 8, _, ⟨0, 0, 128, .full, 0, 0, false⟩,
    ready _ _ rfl (by decide), agreed_zero rfl (by decide), ⟨⟨0, 0, 128, .full, 0, 0, false⟩, [], by decide, Or.inl (by decide),
      by decide, by decide, by decide, by decide, (fun e he => by cases he), rfl⟩, (fun e he => by cases he), rfl, by decide,
    ⟨fun _ => ⟨fun h => absurd h (by decide), (fun e h => by cases h)⟩, (fun h hh => by cases hh), ?_, (fun l h => by cases h), by decide⟩,
    by decide, by decide⟩
  intro h hh
  obtain rfl := List.mem_singleton.mp hh
  exact ⟨_, rfl, by decide⟩

/-- A source that fills: the multicast may not be ordered. -/
theorem witness_engineCommands_castWaits : ∃ (c : Ctx) (p : Plan), castOrder c (.v 8) p ∧ ¬ mayOrder c p :=
  ⟨at_ [(8, 5), (9, 6), (10, 0xFFFFFFFF)] id id (engineBench .filling), _,
    ⟨⟨0, 0, 65536, .filling, 0, 0, false⟩, [], by decide, Or.inl (by decide), by decide, by decide, by decide, by decide,
      (fun e he => by cases he), rfl⟩, fun h => by
        obtain ⟨e, he, hf⟩ := h.2.2.1 (0, 5) List.mem_cons_self
        cases he
        exact hf rfl⟩

/-- A bulk copy to release: all engines idle, and each of its die's with 16 commands. -/
theorem witness_commandCourse_copies :
    (∃ (s : State) (c : Cmd) (m : Team), s.cmds.get? s.ev.x = some c ∧ c.queued = true ∧ c.held = false ∧ c.released = false ∧
      s.teams.get? c.tid = some m ∧ s.failed m.lid = false ∧ clearBefore s c ∧ c.kind.isCopy = true ∧
      ∃ k, k / 4 = m.cluster / 50 ∧ (s.cmds.filter fun e => e.2.engine = some k).length < 16) ∧
    ∃ (s : State) (c : Cmd) (m : Team), s.cmds.get? s.ev.x = some c ∧ c.queued = true ∧ c.held = false ∧ c.released = false ∧
      s.teams.get? c.tid = some m ∧ s.failed m.lid = false ∧ clearBefore s c ∧ c.kind.isCopy = true ∧
      ∀ k, k / 4 = m.cluster / 50 → 16 ≤ (s.cmds.filter fun e => e.2.engine = some k).length := by
  let copy := { benchCmd (.bcopy 0 0 0 4 0 0) with released := false }
  let busy (s : State) : State := { s with
    cmds := (0, copy) :: (List.range 64).map fun i => (i + 1, { benchCmd (.bcopy 0 0 0 4 0 0) with engine := some (i / 16) }) }
  refine ⟨⟨(at_ [] id id (cmdBench copy)).s, copy, benchTeam, rfl, rfl, rfl, rfl, rfl, rfl, ?_, rfl, 0, rfl, by decide⟩,
    ⟨(at_ [] id id busy).s, copy, benchTeam, rfl, rfl, rfl, rfl, rfl, rfl, ?_, rfl, ?_⟩⟩
  · intro w hw
    cases hw
    exact ⟨(fun e h => by cases h), (fun _ _ _ _ _ h => by cases h), fun _ _ _ h => by cases h⟩
  · intro w hw
    cases hw
    exact ⟨(fun e h => by cases h), (fun _ _ _ _ _ h => by cases h), fun _ _ _ h => by cases h⟩
  · intro k hk
    have h : ∀ k, k < 4 → 16 ≤ ((at_ [] id id busy).s.cmds.filter fun e => e.2.engine = some k).length := by decide
    exact h k (by have : k / 4 = 0 := hk; omega)

/-- TSYNC where an entry is held; where all have arrived but an arrival is not performed; where the test passes. -/
theorem witness_barrierWaits_tsync :
    (∃ (s : State) (c : Ctx), Ready s .tsync c ∧ c.cnt &&& ~~~c.w.tsMark ≠ 0 ∧ ∃ e ∈ c.w.sbuf, e.held = true) ∧
    (∃ (s : State) (c : Ctx), Ready s .tsync c ∧ c.cnt &&& ~~~c.w.tsMark = 0 ∧ c.cnt ≠ 0 ∧ ∃ l, arrivalOpen c.w l) ∧
    ∃ (s : State) (c : Ctx), Ready s .tsync c ∧ c.cnt &&& ~~~c.w.tsMark = 0 ∧ (∀ l, ¬ arrivalOpen c.w l) ∧
      testEnds c (passesTsync c) ∧ mayReadWords c := by
  refine ⟨⟨_, at_ [] fun w => { w with sbuf := [⟨.ls [], 0, 0, true, false, []⟩] }, ready _ _ rfl (by decide), by decide,
      ⟨_, List.mem_singleton_self _, rfl⟩⟩,
    ⟨_, at_ [] fun w => { w with tsMark := 1, sbuf := [⟨.arrive 1, 0, 0, false, false, []⟩] }, ready _ _ rfl (by decide), by decide,
      by decide, 0, _, List.mem_singleton_self _, _, rfl, by decide⟩,
    ⟨_, at_ [] fun w => { w with tsMark := 1 }, ready _ _ rfl (by decide), by decide, (by rintro l ⟨_, h, _⟩; cases h), ?_,
      fun h => absurd h (by decide), (fun e h => by cases h)⟩⟩
  exact Or.inl (on_lane_zero (Or.inr ⟨by decide, fun _ _ _ _ _ => Nat.zero_le _⟩))

/-- A drain of a lower class, the oldest of its class or below. -/
theorem witness_drains_oldest : ∃ (s : State) (l : Launch) (sh : Shape) (n : Nat) (f : Drain), considered s s.ev.x l sh ∧
    (∀ d, ¬ neverFits s l sh d) ∧ (∀ d ∈ s.drains, d.lid ≠ s.ev.x) ∧ (∀ x, x < 800 → ¬ admits s x l.owner s.ev.x sh) ∧
    s.drains[n]? = some f ∧ l.prio < f.prio ∧ ∀ j d, j < n → s.drains[j]? = some d → d.prio ≤ l.prio :=
  ⟨{ fullState with drains := [⟨0, 3, 9, none⟩] }, checkedLaunch, programShape, 0, _, place_considered rfl rfl rfl rfl,
    program_fits _ _ rfl, by decide, full_admits, rfl, by decide, fun j _ h => absurd h (Nat.not_lt_zero j)⟩

/-- A frame that cannot be stored, as no page stands there. -/
theorem witness_parkingSaves_fails : ∃ (s : State) (o : Owner) (a : Access),
    (s.walksTouch 0 o.frameBase 24576).framePieces 0 o .store o.frameBase 24576 = .error a := by
  have h : succeeds (((at_ []).s.walksTouch 0 (Owner.init 0 0).frameBase 24576).framePieces 0 (Owner.init 0 0) .store
    (Owner.init 0 0).frameBase 24576) = false := by decide +kernel
  refine ⟨(at_ []).s, Owner.init 0 0, ?_⟩
  match hx : ((at_ []).s.walksTouch 0 (Owner.init 0 0).frameBase 24576).framePieces 0 (Owner.init 0 0) .store
      (Owner.init 0 0).frameBase 24576 with
  | .ok _ => rw [hx] at h; cases h
  | .error a => exact ⟨a, rfl⟩

end Sys2Proof.Tests
end

/-! PROOFS. The acts of a step (O56). -/

namespace Sys2Proof.Machine

theorem act_time (s : State) : s.act .time = .next s.passCycle := rfl

/-- What the list of acts holds: acts that lead to a next state, and inputs. -/
theorem act_of_mem_acts {s : State} {a : Act} (h : a ∈ s.acts) :
    (∃ t, s.act a = .next t) ∨ ((∃ n, a = .input n ∧ n < s.inputs.length) ∧ ∀ r, s.act a ≠ .refused r) := by
  have next_of {x : Act} (hx : isNext (s.act x) = true) : ∃ t, s.act x = .next t := by
    cases hs : s.act x with
    | next t => exact ⟨t, rfl⟩
    | fault f => rw [hs] at hx; cases hx
    | refused r => rw [hs] at hx; cases hx
  simp only [State.acts, List.mem_append] at h
  rcases h with ((h | h) | h) | h
  · exact .inl (next_of (List.mem_filter.mp h).2)
  · have hf := Option.mem_toList.mp h
    obtain ⟨n, hn, rfl⟩ := List.mem_map.mp (List.mem_of_find?_eq_some hf)
    refine .inr ⟨⟨n, rfl, List.mem_range.mp hn⟩, fun r hr => ?_⟩
    have hp := List.find?_some hf
    rw [hr] at hp
    cases hp
  · exact .inl (next_of (List.mem_filter.mp h).2)
  · split at h
    · obtain rfl := List.mem_singleton.mp h
      exact .inl ⟨_, act_time s⟩
    · cases h

theorem chosen_cases (s : State) : s.chosen ∈ s.stepping.acts ∨ s.chosen = .time := by
  have pick (l : List Act) (k : Nat) : (l[k]?).getD .time ∈ l ∨ (l[k]?).getD .time = .time := by
    cases h : l[k]? with
    | none => exact .inr rfl
    | some a => exact .inl (List.mem_of_getElem? h)
  unfold State.chosen
  split <;> exact pick _ _

/-- What the chosen act does: it leads to a next state, or it is an input that is not refused. -/
theorem act_chosen (s : State) : (∃ t, s.stepping.act s.chosen = .next t) ∨
    ((∃ n, s.chosen = .input n ∧ n < s.inputs.length) ∧ ∀ r, s.stepping.act s.chosen ≠ .refused r) := by
  rcases chosen_cases s with h | h
  · exact act_of_mem_acts h
  · exact .inl ⟨_, by rw [h]; exact act_time _⟩

theorem step_next {s t : State} (h : s.stepping.act s.chosen = .next t) : step s = .next t.instant := by
  rw [step, State.stepOne, h]

theorem step_fault_iff {s : State} {f : Fault} : step s = .fault f ↔ s.stepping.act s.chosen = .fault f := by
  rw [step, State.stepOne]
  cases s.stepping.act s.chosen <;> simp

theorem step_refused_iff {s : State} {r : Refusal} : step s = .refused r ↔ s.stepping.act s.chosen = .refused r := by
  rw [step, State.stepOne]
  cases s.stepping.act s.chosen <;> simp

/-- Settles O56: the chosen act leads to a next state or is an input that is not refused. -/
theorem stepAnswers : Obligations.StepAnswers := by
  refine ⟨fun s r hr => ?_, fun s hs => ?_, fun s f hf => ?_⟩
  · rw [step_refused_iff] at hr
    rcases act_chosen s with ⟨t, ht⟩ | ⟨-, hno⟩
    · rw [ht] at hr; cases hr
    · exact hno r hr
  · rcases act_chosen s with ⟨t, ht⟩ | ⟨⟨n, -, hn⟩, -⟩
    · exact ⟨_, step_next ht⟩
    · rw [hs] at hn; cases hn
  · rw [step_fault_iff] at hf
    rcases act_chosen s with ⟨t, ht⟩ | ⟨⟨n, hn, -⟩, -⟩
    · rw [ht] at hf; cases hf
    · exact ⟨n, hn⟩

end Sys2Proof.Machine

/-! PROOFS. Power, the housekeeping registers and the errors that end launches (O51). -/

namespace Sys2Proof.Machine

open Spec

/-! ### Launches after a fatal error -/

/-- A launch after a fatal error of an owner (R409). -/
def Launch.failedFor (l : Launch) (own detail : Nat) : Launch :=
  if l.owner = own ∧ l.stage = .running ∧ l.fail.isNone then { l with fail := some (8, detail) } else l

theorem failOwner_eq (s : State) (own detail : Nat) :
    s.failOwner own detail = { s with launches := s.launches.map fun e => (e.1, e.2.failedFor own detail) } := by
  have h : (fun e : Nat × Launch =>
      if e.2.owner = own ∧ e.2.stage = .running ∧ e.2.fail.isNone then (e.1, { e.2 with fail := some (8, detail) }) else e) =
      fun e => (e.1, e.2.failedFor own detail) := by
    funext e
    rw [Launch.failedFor]
    split <;> rfl
  rw [State.failOwner, h]

theorem get?_map_snd {α : Type} (f : α → α) (t : Tbl α) (k : Nat) :
    Tbl.get? (t.map fun e => (e.1, f e.2)) k = (t.get? k).map f := by
  induction t with
  | nil => rfl
  | cons e t ih =>
    obtain ⟨j, v⟩ := e
    simp only [List.map_cons, Tbl.get?]
    split
    · rfl
    · exact ih

theorem struck_failedFor (l : Launch) (own detail : Nat) : struck (fun o => o = own) detail l (l.failedFor own detail) := by
  constructor <;> intro h <;> simp [Launch.failedFor, h]

theorem struck_none {detail : Nat} (l : Launch) : struck (fun _ => False) detail l l := ⟨fun h => h.1.elim, fun _ => rfl⟩

/-- A launch struck for some owners and then for others is struck for all of them: the first failure stands (R410). -/
theorem struck_trans {P Q : Nat → Prop} {d : Nat} {l m n : Launch} (h : struck P d l m) (k : struck Q d m n) :
    struck (fun o => P o ∨ Q o) d l n := by
  by_cases hl : P l.owner ∧ l.stage = .running ∧ l.fail = none
  · obtain rfl := h.1 hl
    have hn := k.2 (fun hc => by cases hc.2.2)
    exact ⟨fun _ => hn, fun hc => absurd ⟨.inl hl.1, hl.2⟩ hc⟩
  · obtain rfl := h.2 hl
    refine ⟨fun hc => k.1 ⟨hc.1.resolve_left fun hp => hl ⟨hp, hc.2⟩, hc.2⟩, fun hc => k.2 fun hq => hc ⟨.inr hq.1, hq.2⟩⟩

theorem strikes_failOwner (s : State) (own detail : Nat) : strikes s (s.failOwner own detail) (fun o => o = own) detail := by
  have hm : (s.failOwner own detail).launches = s.launches.map fun e => (e.1, e.2.failedFor own detail) := by rw [failOwner_eq]
  refine ⟨rfl, by rw [hm]; simp, fun k l hl => ⟨_, ?_, struck_failedFor l own detail⟩⟩
  rw [hm, get?_map_snd (Launch.failedFor · own detail), hl]
  rfl

theorem strikes_none (s : State) (detail : Nat) : strikes s s (fun _ => False) detail :=
  ⟨rfl, rfl, fun _ l hl => ⟨l, hl, struck_none l⟩⟩

theorem strikes_trans {s t u : State} {P Q : Nat → Prop} {d : Nat} (h : strikes s t P d) (k : strikes t u Q d) :
    strikes s u (fun o => P o ∨ Q o) d := by
  obtain ⟨ht, htk, hl⟩ := h
  obtain ⟨hu, huk, hm⟩ := k
  refine ⟨by rw [hu, ht], by rw [huk, htk], fun j l hj => ?_⟩
  obtain ⟨m, hm1, hs⟩ := hl j l hj
  obtain ⟨n, hn1, hs'⟩ := hm j m hm1
  exact ⟨n, hn1, struck_trans hs hs'⟩

theorem strikes_congr {s t : State} {P Q : Nat → Prop} {d : Nat} (hPQ : ∀ o, P o ↔ Q o) (h : strikes s t P d) : strikes s t Q d := by
  rwa [show P = Q from funext fun o => propext (hPQ o)] at h

/-- Failing the owners of a list strikes exactly theirs. -/
theorem strikes_failOwners (os : List (Nat × Owner)) (detail : Nat) : ∀ s : State,
    strikes s (os.foldl (fun s e => s.failOwner e.1 detail) s) (fun o => ∃ e ∈ os, e.1 = o) detail := by
  induction os with
  | nil => exact fun s => strikes_congr (by simp) (strikes_none s detail)
  | cons e os ih =>
    intro s
    refine strikes_congr (fun o => ?_) (strikes_trans (strikes_failOwner s e.1 detail) (ih (s.failOwner e.1 detail)))
    simp [eq_comm]

theorem strikes_failAll (s : State) (detail : Nat) : strikes s (s.failAll detail) (fun o => ∃ e ∈ s.owners, e.1 = o) detail :=
  strikes_failOwners s.owners detail s

theorem arrayFault_spec (s : State) : ∃ t, exec .arrayFault s = .next t ∧ strikes s t (fun o => (s.cluster s.ev.x).owner = some o) 3 := by
  refine ⟨_, rfl, ?_⟩
  cases h : (s.cluster s.ev.x).owner with
  | none => exact strikes_congr (by simp) (strikes_none s 3)
  | some own => exact strikes_congr (by simp [eq_comm]) (strikes_failOwner s own 3)

/-! ### Fresh keys -/

theorem freshKey_keyVer (s : State) (k : Nat) : (s.freshKey k).keyVer = s.keyVer.set 0 k (2 * s.keySeq + 1) := rfl

/-- The numbers of keys renewed one after the other: each of the list has one drawn since, the others their own. -/
theorem freshKeys_spec (ks : List Nat) : ∀ s : State,
    let t := ks.foldl State.freshKey s
    t = { s with keyVer := t.keyVer, keySeq := t.keySeq } ∧ s.keySeq ≤ t.keySeq ∧
    (∀ k ∈ ks, ∃ n, s.keySeq ≤ n ∧ t.keyVer.get 0 k = 2 * n + 1) ∧ ∀ k, k ∉ ks → t.keyVer.get 0 k = s.keyVer.get 0 k := by
  induction ks with
  | nil => exact fun s => ⟨rfl, le_rfl, (fun _ h => by cases h), fun _ _ => rfl⟩
  | cons j ks ih =>
    intro s
    obtain ⟨hfr, hle, hin, hout⟩ := ih (s.freshKey j)
    have hseq : (s.freshKey j).keySeq = s.keySeq + 1 := rfl
    rw [List.foldl_cons]
    refine ⟨by rw [hfr]; rfl, by omega, fun k hk => ?_, fun k hk => ?_⟩
    · by_cases hks : k ∈ ks
      · obtain ⟨n, hn, h⟩ := hin k hks
        exact ⟨n, by omega, h⟩
      · obtain rfl := (List.mem_cons.mp hk).resolve_right hks
        exact ⟨s.keySeq, le_rfl, by rw [hout _ hks, freshKey_keyVer, Tbl.get_set_self]⟩
    · rw [List.mem_cons, not_or] at hk
      rw [hout k hk.2, freshKey_keyVer, Tbl.get_set_ne _ _ hk.1]

theorem debugUnlock_spec (s : State) (b : List Byte) (hb : s.ev.data = .bytes b) (hv : Config.tokenValid s.deviceId b = true)
    (hr : s.hk.recovery = false) :
    ∃ t u, exec .debugUnlock s = .next t ∧ strikes s u (fun o => ∃ e ∈ s.owners, e.1 = o) 7 ∧
      t = { u with hk := { s.hk with debug := true }, keyVer := t.keyVer, keySeq := t.keySeq } ∧
      (∀ e ∈ s.owners, ∀ k ∈ e.2.grant, ∃ n, s.keySeq ≤ n ∧ t.keyVer.get 0 k = 2 * n + 1) ∧
      ∀ k, (∀ e ∈ s.owners, k ∉ e.2.grant) → t.keyVer.get 0 k = s.keyVer.get 0 k := by
  have hu := strikes_failAll s 7
  obtain ⟨hfr, -, hin, hout⟩ := freshKeys_spec (s.owners.flatMap fun e => e.2.grant).eraseDups (s.failAll 7)
  have hver : (s.failAll 7).keyVer = s.keyVer := by rw [hu.1]
  have hseq : (s.failAll 7).keySeq = s.keySeq := by rw [hu.1]
  have hhk : (s.failAll 7).hk = s.hk := by rw [hu.1]
  rw [hver] at hout
  rw [hseq] at hin
  refine ⟨{ (s.owners.flatMap fun e => e.2.grant).eraseDups.foldl State.freshKey (s.failAll 7) with
    hk := { s.hk with debug := true } }, s.failAll 7, ?_, hu, ?_, fun e he k hk => hin k ?_, fun k hk => hout k ?_⟩
  · change execDebugUnlock s = _
    simp [execDebugUnlock, hb, hv, hr]
  · rw [hfr]
  · exact List.mem_eraseDups.mpr (List.mem_flatMap.mpr ⟨e, he, hk⟩)
  · simpa [List.mem_eraseDups, List.mem_flatMap] using hk

theorem debugUnlock_refused (s : State) (b : List Byte) (hb : s.ev.data = .bytes b)
    (h : s.hk.recovery = true ∨ Config.tokenValid s.deviceId b = false) : ∃ why, exec .debugUnlock s = .refused (.notEnabled why) := by
  refine ⟨"the token does not authorise an unlock", ?_⟩
  change execDebugUnlock s = _
  rcases h with h | h <;> simp [execDebugUnlock, hb, h]

theorem memoryError_uncorrectable {s : State} {own : Nat} (h : s.ev.data = .error (.uncorrectable own)) :
    exec .memoryError s = .next ({ s with eccUncorr := min (s.eccUncorr + 1) 65535 }.failOwner own 1) := by
  change execMemoryError s = _
  rw [execMemoryError, h]

theorem memoryError_corrected {s : State} (h : s.ev.data = .error .corrected) :
    exec .memoryError s = .next { s with eccCorr := min (s.eccCorr + 1) 65535 } := by
  change execMemoryError s = _
  rw [execMemoryError, h]

theorem powerAndErrorsHold_holds : powerAndErrorsHold := by
  refine ⟨fun s _ => ⟨⟨_, rfl, strikes_failAll s 6⟩, arrayFault_spec s, fun own h => ?_, debugUnlock_spec s⟩, debugUnlock_refused⟩
  exact ⟨_, memoryError_uncorrectable h, strikes_failOwner _ own 1⟩

/-! ### Issue withheld (R444) -/

theorem throttle_eq (s : State) : s.throttle = withheldCycles s.clock.toNat s.withheldSpans s.withheld * 100 / 1000000 := rfl

/-- Judging the power changes `withheld` and its spans alone. -/
theorem judgePower_frame (s : State) :
    s.judgePower = { s with withheld := s.judgePower.withheld, withheldSpans := s.judgePower.withheldSpans } := by
  unfold State.judgePower
  split <;> split <;> rfl

theorem spans_congr {s t : State} (hc : t.clock = s.clock) (hw : t.withheld = s.withheld) (hs : t.withheldSpans = s.withheldSpans) :
    t.spans = s.spans := by
  rw [State.spans, hc, hw, hs]
  rfl

theorem throttle_congr {s t : State} (hc : t.clock = s.clock) (hs : t.spans = s.spans) : t.throttle = s.throttle := by
  rw [State.throttle, hs, hc]
  rfl

/-- A span that begins now counts no cycle. -/
theorem throttle_begin (s : State) (h : s.withheld = none) : { s with withheld := some s.clock.toNat }.throttle = s.throttle := by
  simp [State.throttle, State.spans, h, throttleWindow]

/-- Ending the span that goes on keeps what it counts. -/
theorem throttle_end (s : State) : { s with withheld := none, withheldSpans := s.spans }.throttle = s.throttle := by
  refine throttle_congr rfl ?_
  simp [State.spans, throttleWindow]

theorem judgePower_throttle (s : State) : s.judgePower.throttle = s.throttle := by
  unfold State.judgePower
  split
  · next h =>
    split
    · exact throttle_begin s h
    · rfl
  · split
    · exact throttle_end s
    · rfl

theorem judgePower_begins (s : State) (h : s.withheld = none) :
    s.judgePower.withheld = (if s.pwrLim < s.power then some s.clock.toNat else none) ∧ s.judgePower.withheldSpans = s.withheldSpans := by
  simp only [State.judgePower, h]
  split <;> simp [h]

theorem judgePower_ends (s : State) (u : Nat) (h : s.withheld = some u) :
    s.judgePower.withheld = (if s.power < s.pwrLim then none else some u) ∧
    (s.power < s.pwrLim → (u, s.clock.toNat) ∈ s.judgePower.withheldSpans) ∧
    (s.pwrLim ≤ s.power → s.judgePower.withheldSpans = s.withheldSpans) := by
  simp only [State.judgePower, h]
  split
  · next hp => exact ⟨rfl, fun _ => by simp [State.spans, h, throttleWindow], fun hl => absurd hp (not_lt.mpr hl)⟩
  · next hp => exact ⟨h, fun hl => absurd hl hp, fun _ => rfl⟩

/-- Judging the power holds it to the limit: `s` is any state with the same time and the same spans. -/
theorem judgePower_heldTo {s t : State} (hc : t.clock = s.clock) (hw : t.withheld = s.withheld)
    (hs : t.withheldSpans = s.withheldSpans) : heldTo s t.judgePower t.power t.pwrLim := by
  rw [heldTo, ← hc, ← hw, ← hs, judgePower_throttle, throttle_congr hc (spans_congr hc hw hs)]
  exact ⟨judgePower_begins t, judgePower_ends t, rfl⟩

/-! ### The housekeeping registers (R447, R449) -/

theorem measured_frame (s : State) : s.measured = { s with rails := s.measured.rails, temps := s.measured.temps } := by
  unfold State.measured
  split <;> rfl

theorem powerThrottle_spec (s : State) : ∃ t, exec .powerThrottle s = .next t ∧
    t = { s with power := s.ev.x, rails := t.rails, temps := t.temps, withheld := t.withheld, withheldSpans := t.withheldSpans } ∧
    (∀ l, s.ev.data = .nats l → t.rails = l.take 5 ∧ t.temps = l.drop 5) ∧
    ((∀ l, s.ev.data ≠ .nats l) → t.rails = s.rails ∧ t.temps = s.temps) ∧ heldTo s t s.ev.x s.pwrLim := by
  have hm := measured_frame s
  let m : State := { s.measured with power := s.ev.x }
  have hj := judgePower_frame m
  have hr : m.judgePower.rails = s.measured.rails := by rw [hj]
  have ht : m.judgePower.temps = s.measured.temps := by rw [hj]
  refine ⟨m.judgePower, rfl, ?_, fun l hl => ?_, fun hl => ?_, ?_⟩
  · rw [hr, ht, hj]
    simp only [m]
    rw [hm]
  · rw [hr, ht, State.measured, hl]
    exact ⟨rfl, rfl⟩
  · have h0 : s.measured = s := by
      unfold State.measured
      split
      · next l h => exact absurd h (hl l)
      · rfl
    rw [hr, ht, h0]
    exact ⟨rfl, rfl⟩
  · have hp : m.pwrLim = s.pwrLim := by simp only [m]; rw [hm]
    rw [← hp]
    exact judgePower_heldTo (t := m) (by simp only [m]; rw [hm]) (by simp only [m]; rw [hm]) (by simp only [m]; rw [hm])

theorem hkPwrlimWrite_spec (s : State) (hr : s.hk.recovery = false) (h1 : 4000 ≤ s.ev.x) (h2 : s.ev.x ≤ 8000) :
    ∃ t, exec .hkPwrlimWrite s = .next t ∧
      t = { s with pwrLim := s.ev.x, withheld := t.withheld, withheldSpans := t.withheldSpans } ∧ heldTo s t s.power s.ev.x := by
  have hx : s.ev.x % 65536 = s.ev.x := Nat.mod_eq_of_lt (by omega)
  refine ⟨{ s with pwrLim := s.ev.x }.judgePower, ?_, judgePower_frame _, judgePower_heldTo (s := s) (t := { s with pwrLim := s.ev.x })
    rfl rfl rfl⟩
  change execHkPwrlimWrite s = _
  simp [execHkPwrlimWrite, hr, hx, h1, h2]

theorem hkPwrlimWrite_ignored (s : State) (hr : s.hk.recovery = false) (hx : s.ev.x < 2 ^ 16) (h : s.ev.x < 4000 ∨ 8000 < s.ev.x) :
    exec .hkPwrlimWrite s = .next s := by
  have hn : ¬ (4000 ≤ s.ev.x % 2 ^ 16 ∧ s.ev.x % 2 ^ 16 ≤ 8000) := by rw [Nat.mod_eq_of_lt hx]; omega
  change execHkPwrlimWrite s = _
  rw [execHkPwrlimWrite, if_neg (by simp [hr]), if_neg hn]

/-- The fields of HK_STATE, whose places do not overlap, make up its word. -/
theorem hkState_sum (ready recovery debug : Bool) (t b : Nat) :
    b * 2 ^ 20 + t * 2 ^ 8 + (if debug then 4 else 0) + (if recovery then 2 else 0) + (if ready then 1 else 0) =
    (if ready then 1 else 0) * 2 ^ 0 + ((if recovery then 1 else 0) * 2 ^ 1 + ((if debug then 1 else 0) * 2 ^ 2 +
      (t * 2 ^ 8 + (b * 2 ^ 20 + 0)))) := by
  cases ready <;> cases recovery <;> cases debug <;> simp <;> omega

theorem fieldWord_five (a b c d e : Nat × Nat) : fieldWord [a, b, c, d, e] = BitVec.ofNat 32
    (a.1 * 2 ^ a.2 + (b.1 * 2 ^ b.2 + (c.1 * 2 ^ c.2 + (d.1 * 2 ^ d.2 + (e.1 * 2 ^ e.2 + 0))))) := by
  rw [fieldWord]
  simp only [List.map_cons, List.map_nil, List.sum_cons, List.sum_nil]

theorem hkState_fields (s : State) (ht : s.throttle ≤ 100) (hb : s.hk.bootStep < 16) : s.hkState = fieldWord
    [((if s.hk.ready then 1 else 0), 0), ((if s.hk.recovery then 1 else 0), 1), ((if s.hk.debug then 1 else 0), 2),
      (s.throttle, 8), (s.hk.bootStep, 20)] := by
  rw [State.hkState, Nat.mod_eq_of_lt hb, Nat.min_eq_left ht, hkState_sum, fieldWord_five]

theorem hkPwrlim_fields (s : State) (h : s.pwrLim ≤ 8000) : s.hkPwrlim = fieldWord [(s.pwrLim, 0)] := by
  rw [State.hkPwrlim, Nat.mod_eq_of_lt (by omega)]
  simp [fieldWord]

theorem hkEcc_fields (s : State) (h1 : s.eccCorr ≤ 65535) (h2 : s.eccUncorr ≤ 65535) :
    s.hkEcc = fieldWord [(s.eccCorr, 0), (s.eccUncorr, 16)] := by
  rw [State.hkEcc, Nat.min_eq_left h1, Nat.min_eq_left h2]
  simp [fieldWord, Nat.add_comm]

theorem mayIssue_withheld (s : State) (w : Wave) (m : Team) (h : s.withheld ≠ none) : s.mayIssue w m = false := by
  have hn : s.withheld.isNone = false := by simpa [Option.isSome_iff_ne_none] using h
  simp [State.mayIssue, hn]

theorem housekeepingHold_holds : housekeepingHold := by
  refine ⟨powerThrottle_spec, fun s => ?_, mayIssue_withheld, throttle_eq, hkState_fields, hkPwrlim_fields, hkEcc_fields,
    fun s => memoryError_corrected, fun s => rfl, fun s h => ⟨?_, hkPwrlimWrite_ignored s h, hkPwrlimWrite_spec s h⟩, fun s h => ⟨⟨_, if_pos h⟩, _, if_pos h⟩⟩
  · rw [State.monitored, List.map_append, List.append_assoc]
  · exact if_neg (by simp [h])

/-- Settles O51: what each write and each measurement leaves, and the launches that each error strikes. -/
theorem powerAndErrors : Obligations.PowerAndErrors := ⟨housekeepingHold_holds, powerAndErrorsHold_holds⟩

end Sys2Proof.Machine

/-! PROOFS. What the operations that a command's end is made of do: checks where no region is open, handles, presence bits,
tickets and credits (O35). -/

namespace Sys2Proof.Machine

open Spec

/-! ### Checks where no region is open -/

theorem noRegion_congr {s t : State} (ht : t.waves = s.waves) (h : noRegion s) : noRegion t := by
  rw [noRegion, ht]
  exact h

theorem readers_eq_nil {s : State} (h : noRegion s) (ls : List Loc) (but : Option Nat) : s.readers ls but = [] := by
  rw [State.readers, List.map_eq_nil_iff, List.filter_eq_nil_iff]
  intro e he
  simp [Wave.hasRead, h e he]

/-- Where no region is open a check rolls nothing back (R340). -/
theorem check_eq_self {s : State} (h : noRegion s) (ls : List Loc) (writer : Option Nat) : s.check ls writer = s := by
  rw [State.check, readers_eq_nil h]
  rfl

/-! ### Handles -/

theorem core_updCore (s : State) (c : Nat) (f : Core → Core) (j : Nat) :
    (s.updCore c f).core j = if j = c then f (s.core c) else s.core j := Tbl.get_set ..

theorem get?_put {α : Type} (t : Tbl α) (n m : Nat) (x : α) : (t.put n x).get? m = if m = n then some x else t.get? m := by
  split
  · next h => subst h; simp
  · next h => exact Tbl.get?_put_ne t h x

theorem core_setHandle (s : State) (core i : Nat) (h : Handle) (g j : Nat) : (s.setHandle core i h g).core j =
    if j = core then { s.core core with
      handles := (s.core core).handles.put i h, gen := (s.core core).gen.set 0 i g
      changes := (s.core core).changes.set 0 i ((s.core core).changes.get 0 i + 1) } else s.core j := core_updCore ..

theorem entry_setHandle (s : State) (core i : Nat) (h : Handle) (g : Nat) (e : Nat × Nat) :
    (s.setHandle core i h g).entry e = if e = (core, i) then some h else s.entry e := by
  obtain ⟨j, k⟩ := e
  simp only [State.entry, core_setHandle, Prod.mk.injEq]
  by_cases hj : j = core
  · subst hj
    simp [get?_put]
  · simp [hj]

theorem gen_setHandle (s : State) (core i : Nat) (h : Handle) (g j k : Nat) :
    ((s.setHandle core i h g).core j).gen.get 0 k = if (j, k) = (core, i) then g else (s.core j).gen.get 0 k := by
  simp only [core_setHandle, Prod.mk.injEq]
  by_cases hj : j = core
  · subst hj
    simp [Tbl.get_set]
  · simp [hj]

theorem changes_setHandle_ne (s : State) (core i : Nat) (h : Handle) (g : Nat) {j k : Nat} (hne : (j, k) ≠ (core, i)) :
    ((s.setHandle core i h g).core j).changes.get 0 k = (s.core j).changes.get 0 k := by
  rw [core_setHandle]
  split
  · next hj =>
    subst hj
    dsimp only
    exact Tbl.get_set_ne 0 (s.core j).changes (fun hk : k = i => hne (by rw [hk])) _
  · rfl

/-- The state `t` is `s` but for the cores. -/
def CoresOnly (s t : State) : Prop := t = { s with cores := t.cores }

theorem CoresOnly.refl (s : State) : CoresOnly s s := rfl

theorem CoresOnly.trans {a b c : State} (h : CoresOnly a b) (k : CoresOnly b c) : CoresOnly a c := by
  rw [CoresOnly] at *
  rw [k, h]

theorem changeHandle_of_none {s : State} (h : noRegion s) {core i : Nat} (wr : Option Nat) (f : Handle → Handle)
    (hs : s.entry (core, i) = none) : s.changeHandle core i wr f = s := by
  rw [State.changeHandle, check_eq_self h, hs]

theorem changeHandle_of_some {s : State} (h : noRegion s) {core i : Nat} {x : Handle} (wr : Option Nat) (f : Handle → Handle)
    (hs : s.entry (core, i) = some x) :
    s.changeHandle core i wr f = s.setHandle core i (f x) ((s.core core).gen.get 0 i) := by
  rw [State.changeHandle, check_eq_self h, hs]
  rfl

theorem changeHandle_coresOnly {s : State} (h : noRegion s) (core i : Nat) (wr : Option Nat) (f : Handle → Handle) :
    CoresOnly s (s.changeHandle core i wr f) := by
  cases hs : s.entry (core, i) with
  | none => rw [changeHandle_of_none h wr f hs]; rfl
  | some x => rw [changeHandle_of_some h wr f hs]; rfl

theorem entry_changeHandle {s : State} (h : noRegion s) (core i : Nat) (wr : Option Nat) (f : Handle → Handle) (e : Nat × Nat) :
    (s.changeHandle core i wr f).entry e = if e = (core, i) then (s.entry e).map f else s.entry e := by
  by_cases he : e = (core, i)
  · rw [if_pos he, he]
    cases hs : s.entry (core, i) with
    | none => rw [changeHandle_of_none h wr f hs, hs]; rfl
    | some x => rw [changeHandle_of_some h wr f hs, entry_setHandle, if_pos rfl]; rfl
  · rw [if_neg he]
    cases hs : s.entry (core, i) with
    | none => rw [changeHandle_of_none h wr f hs]
    | some x => rw [changeHandle_of_some h wr f hs, entry_setHandle, if_neg he]

/-- The end of a command on the handles of a list, one after the other. -/
def State.changeHandles (s : State) (wr : Option Nat) (f : Handle → Handle) (hs : List (Nat × Nat)) : State :=
  hs.foldl (fun s h => s.changeHandle h.1 h.2 wr f) s

theorem changeHandle_noRegion {s : State} (h : noRegion s) (core i : Nat) (wr : Option Nat) (f : Handle → Handle) :
    noRegion (s.changeHandle core i wr f) := noRegion_congr (by rw [changeHandle_coresOnly h]) h

theorem changeHandles_coresOnly (wr : Option Nat) (f : Handle → Handle) (hs : List (Nat × Nat)) : ∀ {s : State}, noRegion s →
    CoresOnly s (s.changeHandles wr f hs) := by
  induction hs with
  | nil => exact fun {s} _ => .refl s
  | cons x hs ih => exact fun {s} h => (changeHandle_coresOnly h x.1 x.2 wr f).trans (ih (changeHandle_noRegion h x.1 x.2 wr f))

theorem entry_changeHandles (wr : Option Nat) (f : Handle → Handle) (hs : List (Nat × Nat)) (e : Nat × Nat) : ∀ {s : State},
    noRegion s → hs.Nodup → (s.changeHandles wr f hs).entry e = if e ∈ hs then (s.entry e).map f else s.entry e := by
  induction hs with
  | nil => exact fun _ _ => rfl
  | cons x hs ih =>
    intro s h hn
    obtain ⟨hx, hn⟩ := List.nodup_cons.mp hn
    change ((s.changeHandle x.1 x.2 wr f).changeHandles wr f hs).entry e = _
    rw [ih (changeHandle_noRegion h x.1 x.2 wr f) hn, entry_changeHandle h]
    by_cases he : e = x
    · subst he
      simp [hx]
    · simp [he]

/-! ### Presence bits and tickets -/

theorem get?_upd {α : Type} (t : Tbl α) (n m : Nat) (f : α → α) :
    (t.upd n f).get? m = if m = n then (t.get? m).map f else t.get? m := by
  split
  · next h => subst h; exact Tbl.get?_upd_self ..
  · next h => exact Tbl.get?_upd_ne t h f

theorem get?_updTeam (s : State) (n m : Nat) (f : Team → Team) :
    (s.updTeam n f).teams.get? m = if m = n then (s.teams.get? m).map f else s.teams.get? m := get?_upd ..

/-- The state `t` is `s` but for the teams. -/
def TeamsOnly (s t : State) : Prop := t = { s with teams := t.teams }

theorem TeamsOnly.refl (s : State) : TeamsOnly s s := rfl

theorem TeamsOnly.trans {a b c : State} (h : TeamsOnly a b) (k : TeamsOnly b c) : TeamsOnly a c := by
  rw [TeamsOnly] at *
  rw [k, h]

theorem updTeam_teamsOnly (s : State) (n : Nat) (f : Team → Team) : TeamsOnly s (s.updTeam n f) := rfl

theorem present_teamsOnly (ls : List (Nat × Nat)) : ∀ s : State, TeamsOnly s (s.present ls) := by
  induction ls with
  | nil => exact .refl
  | cons x ls ih => exact fun s => (updTeam_teamsOnly s x.1 fun t => { t with absent := t.absent.filter (· != x.2) }).trans (ih _)

/-- A team with the presence bits of its lines in a list set. -/
def Team.withPresent (t : Team) (tid : Nat) (ls : List (Nat × Nat)) : Team :=
  { t with absent := t.absent.filter fun l => !ls.contains (tid, l) }

theorem withPresent_nil (t : Team) (tid : Nat) : t.withPresent tid [] = t := by
  rw [Team.withPresent, show (fun l => !List.contains ([] : List (Nat × Nat)) (tid, l)) = fun _ => true from rfl, List.filter_true]

theorem withPresent_cons (t : Team) (tid : Nat) (x : Nat × Nat) (ls : List (Nat × Nat)) :
    (if tid = x.1 then { t with absent := t.absent.filter (· != x.2) } else t).withPresent tid ls = t.withPresent tid (x :: ls) := by
  obtain ⟨a, b⟩ := x
  split
  · next h =>
    subst h
    simp only [Team.withPresent, List.filter_filter]
    congr 2
    funext l
    by_cases hb : l = b <;> simp [hb]
  · next h =>
    simp only [Team.withPresent]
    congr 2
    funext l
    simp [h]

theorem get?_present (ls : List (Nat × Nat)) (tid : Nat) : ∀ s : State,
    (s.present ls).teams.get? tid = (s.teams.get? tid).map (·.withPresent tid ls) := by
  induction ls with
  | nil =>
    intro s
    change s.teams.get? tid = _
    cases s.teams.get? tid with
    | none => rfl
    | some m => exact congrArg some (withPresent_nil m tid).symm
  | cons x ls ih =>
    intro s
    refine (ih (s.updTeam x.1 fun t => { t with absent := t.absent.filter (· != x.2) })).trans ?_
    rw [get?_updTeam]
    cases s.teams.get? tid with
    | none => split <;> rfl
    | some m =>
      have hm := withPresent_cons m tid x ls
      split at hm <;> simp_all

theorem completeTicket_teamsOnly (s : State) (tid : Nat) (c : Option (Nat × Nat)) : TeamsOnly s (s.completeTicket tid c) := by
  cases c <;> rfl

/-- A team with a command's ticket complete. -/
def Team.withTicket (t : Team) (c : Option (Nat × Nat)) : Team :=
  match c with
  | none => t
  | some (k, n) => { t with ctr := t.ctr.set Ctr.init k ((t.ctr? k).complete n) }

theorem get?_completeTicket (s : State) (tid : Nat) (c : Option (Nat × Nat)) (j : Nat) :
    (s.completeTicket tid c).teams.get? j = if j = tid then (s.teams.get? j).map (·.withTicket c) else s.teams.get? j := by
  cases c with
  | none =>
    change s.teams.get? j = _
    split
    · cases s.teams.get? j <;> rfl
    · rfl
  | some c => exact get?_updTeam ..

theorem withTicket_frame (t : Team) (c : Option (Nat × Nat)) : t.withTicket c = { t with ctr := (t.withTicket c).ctr } := by
  cases c <;> rfl

theorem withTicket_other (t : Team) (c : Option (Nat × Nat)) {k : Nat} (h : ∀ n, c ≠ some (k, n)) :
    (t.withTicket c).ctr.get Ctr.init k = t.ctr.get Ctr.init k := by
  cases c with
  | none => rfl
  | some c =>
    obtain ⟨j, n⟩ := c
    exact Tbl.get_set_ne _ _ (fun hk => h n (by rw [hk])) _

theorem withTicket_own (t : Team) (k n : Nat) :
    (t.withTicket (some (k, n))).ctr.get Ctr.init k = (t.ctr.get Ctr.init k).complete n := Tbl.get_set_self ..

/-! ### The counters (R278, R327) -/

theorem advance_taken (f : Nat) : ∀ c : Ctr, (c.advance f).taken = c.taken := by
  induction f with
  | zero => exact fun _ => rfl
  | succ f ih =>
    intro c
    rw [Ctr.advance]
    split
    · exact ih _
    · rfl

theorem le_advance (f : Nat) : ∀ c : Ctr, c.value ≤ (c.advance f).value := by
  induction f with
  | zero => exact fun _ => le_rfl
  | succ f ih =>
    intro c
    rw [Ctr.advance]
    split
    · exact Nat.le_of_succ_le (ih { c with value := c.value + 1, early := c.early.filter (· != c.value + 1) })
    · exact le_rfl

theorem complete_taken (c : Ctr) (n : Nat) : (c.complete n).taken = c.taken := advance_taken _ _

theorem le_complete (c : Ctr) (n : Nat) : c.value ≤ (c.complete n).value :=
  le_advance (c.early.length + 1) { c with early := n :: c.early }

/-- The next ticket's completion advances the counter to it at least. -/
theorem le_complete_next (c : Ctr) : c.value + 1 ≤ (c.complete (c.value + 1)).value := by
  rw [Ctr.complete, Ctr.advance, if_pos (by simp)]
  exact le_advance c.early.length ⟨c.value + 1, c.taken, _⟩

/-- While the next ticket is not complete the counter stays, and holds the completion for later. -/
theorem complete_early (c : Ctr) (n : Nat) (h : c.value + 1 ∉ n :: c.early) : c.complete n = { c with early := n :: c.early } := by
  rw [Ctr.complete, Ctr.advance, if_neg (by simpa using h)]

/-! ### Credits (R346, R348) -/

/-- A team after a credit to one of its barriers. -/
def Team.afterCredit (t : Team) (a : Nat) (n : Int) : Team := ((t.credited a n).barrierSettled a).name [a]

theorem creditBarrier_eq {s : State} (h : noRegion s) (tid a : Nat) (n : Int) (wr : Option Nat) :
    s.creditBarrier tid a n wr = s.updTeam tid (·.afterCredit a n) := by
  rw [State.creditBarrier, check_eq_self h]
  rfl

theorem barrierSettled_frame (t : Team) (a : Nat) : t.barrierSettled a = { t with ls := (t.barrierSettled a).ls } := by
  unfold Team.barrierSettled
  dsimp only
  split <;> rfl

/-- The team `t'` is `t` but for its local store and its list of barriers. -/
def CreditOnly (t t' : Team) : Prop := t' = { t with ls := t'.ls, barriers := t'.barriers }

theorem CreditOnly.refl (t : Team) : CreditOnly t t := rfl

theorem CreditOnly.trans {a b c : Team} (h : CreditOnly a b) (k : CreditOnly b c) : CreditOnly a c := by
  rw [CreditOnly] at *
  rw [k, h]

theorem afterCredit_creditOnly (t : Team) (a : Nat) (n : Int) : CreditOnly t (t.afterCredit a n) := by
  rw [Team.afterCredit, barrierSettled_frame]
  rfl

/-- Credits to the barriers of a list, one after the other. -/
def State.creditBarriers (s : State) (n : Int) (wr : Option Nat) (bs : List (Nat × Nat)) : State :=
  bs.foldl (fun s b => s.creditBarrier b.1 b.2 n wr) s

theorem creditBarriers_cons {s : State} (h : noRegion s) (n : Int) (wr : Option Nat) (b : Nat × Nat) (bs : List (Nat × Nat)) :
    s.creditBarriers n wr (b :: bs) = (s.updTeam b.1 (·.afterCredit b.2 n)).creditBarriers n wr bs := by
  change (s.creditBarrier b.1 b.2 n wr).creditBarriers n wr bs = _
  rw [creditBarrier_eq h]

theorem creditBarriers_teamsOnly (n : Int) (wr : Option Nat) (bs : List (Nat × Nat)) : ∀ {s : State}, noRegion s →
    TeamsOnly s (s.creditBarriers n wr bs) := by
  induction bs with
  | nil => exact fun {s} _ => .refl s
  | cons b bs ih =>
    intro s h
    rw [creditBarriers_cons h]
    exact (updTeam_teamsOnly s b.1 (·.afterCredit b.2 n)).trans (ih (s := s.updTeam b.1 (·.afterCredit b.2 n)) h)

/-- What credits leave of a team: its local store and its barriers alone may change, and nothing where no barrier is its own. -/
theorem get?_creditBarriers (n : Int) (wr : Option Nat) (bs : List (Nat × Nat)) (k : Nat) : ∀ {s : State}, noRegion s →
    ((∀ b ∈ bs, b.1 ≠ k) → (s.creditBarriers n wr bs).teams.get? k = s.teams.get? k) ∧
    ∀ m, s.teams.get? k = some m → ∃ m', (s.creditBarriers n wr bs).teams.get? k = some m' ∧ CreditOnly m m' := by
  induction bs with
  | nil => exact fun _ => ⟨fun _ => rfl, fun m hm => ⟨m, hm, rfl⟩⟩
  | cons b bs ih =>
    intro s h
    rw [creditBarriers_cons h]
    obtain ⟨ih1, ih2⟩ := ih (s := s.updTeam b.1 (·.afterCredit b.2 n)) h
    constructor
    · intro hb
      rw [ih1 fun x hx => hb x (List.mem_cons_of_mem _ hx), get?_updTeam, if_neg (Ne.symm (hb b List.mem_cons_self))]
    · intro m hm
      rw [get?_updTeam, hm] at ih2
      by_cases hk : k = b.1
      · rw [if_pos hk] at ih2
        obtain ⟨m', h1, h2⟩ := ih2 _ rfl
        exact ⟨m', h1, (afterCredit_creditOnly m b.2 n).trans h2⟩
      · rw [if_neg hk] at ih2
        exact ih2 m rfl

end Sys2Proof.Machine

/-! PROOFS. The course of an engine command: its release, its completion and its void completion (O35). -/

namespace Sys2Proof.Machine

open Spec

/-! ### Release (R286, R326) -/

theorem mem_freeEngines {s : State} {die k : Nat} :
    k ∈ s.freeEngines die ↔ k / 4 = die ∧ (s.cmds.filter fun e => e.2.engine = some k).length < 16 := by
  simp only [State.freeEngines, List.mem_filter, List.mem_map, List.mem_range, decide_eq_true_eq]
  refine and_congr_left fun _ => ⟨?_, fun h => ⟨k % 4, by omega, by omega⟩⟩
  rintro ⟨j, hj, rfl⟩
  omega

theorem pick_mem {s : State} {q k a : Nat} {l : List Nat} (h : s.pick q k l = some a) : a ∈ l := List.mem_of_getElem? h

/-- A free value among the entries of a list exists unless there are none. -/
theorem pick_eq_none {s : State} {q k : Nat} {l : List Nat} : s.pick q k l = none ↔ l = [] := by
  rw [State.pick, List.getElem?_eq_none_iff]
  constructor
  · intro h
    by_contra hl
    exact absurd (Nat.mod_lt (Config.freeNat s.tick q k) (List.length_pos_iff.mpr hl)) (by omega)
  · rintro rfl
    exact Nat.zero_le _

theorem engineFor_of_copy {s : State} {c : Cmd} {m : Team} (hk : c.kind.isCopy = true) (hm : s.teams.get? c.tid = some m) :
    s.engineFor c = s.pick 12 c.tid (s.freeEngines (m.cluster / 50)) := by
  rw [State.engineFor, if_pos hk, hm]
  rfl

theorem engineFor_of_not_copy {s : State} {c : Cmd} (hk : c.kind.isCopy = false) : s.engineFor c = none := by
  rw [State.engineFor, hk]
  rfl

/-- What an engine command to release has met but for the engine (R326). -/
structure Releasable (s : State) (x : Nat) (c : Cmd) (m : Team) : Prop where
  cmd : s.cmds.get? x = some c
  queued : c.queued = true
  held : c.held = false
  waits : c.released = false
  team : s.teams.get? c.tid = some m
  runs : s.failed m.lid = false
  clear : clearBefore s c

theorem Releasable.canRelease {s : State} {x : Nat} {c : Cmd} {m : Team} (h : Releasable s x c m) :
    s.canRelease x = (!c.kind.isCopy || (s.engineFor c).isSome) := by
  have hruns : s.cmdRuns c = true := by simp [State.cmdRuns, h.team, h.runs]
  rw [State.canRelease, h.cmd]
  dsimp only
  rw [h.queued, h.held, h.waits, hruns]
  cases hw : s.waves.get? c.wid with
  | none => simp
  | some w =>
    obtain ⟨hbuf, hatom, hload⟩ := h.clear w hw
    have hall : ((w.sbuf ++ w.spilling.getD []).all fun e => decide (c.seq ≤ e.seq)) = true :=
      List.all_eq_true.mpr fun e he => decide_eq_true (hbuf e he)
    dsimp only
    rw [hall]
    cases hi : w.irrev with
    | none => simp
    | some i =>
      cases i with
      | atom q op b ls sent => simp [hatom _ _ _ _ _ hi]
      | load q z ls => simp [hload _ _ _ hi]

theorem Releasable.released {s : State} {c : Cmd} {m : Team} (h : Releasable s s.ev.x c m)
    (he : c.kind.isCopy = false ∨ (s.engineFor c).isSome = true) : exec .engineCommandRelease s = .next
      { s with cmds := s.cmds.put s.ev.x { c with released := true, engine := s.engineFor c } } := by
  change execEngineCommandRelease s = _
  rw [execEngineCommandRelease, if_pos (by rw [h.canRelease]; rcases he with he | he <;> simp [he]), State.updCmd, Tbl.upd, h.cmd]

theorem Releasable.refused {s : State} {c : Cmd} {m : Team} (h : Releasable s s.ev.x c m) (hk : c.kind.isCopy = true)
    (he : s.engineFor c = none) : ∃ r, exec .engineCommandRelease s = .refused r := by
  refine ⟨.notEnabled "the command may not be released", ?_⟩
  change execEngineCommandRelease s = _
  rw [execEngineCommandRelease, if_neg (by rw [h.canRelease]; simp [hk, he])]

/-- A bulk copy is released to an engine of its die that has a context free, and to none where none has. -/
theorem Releasable.copy {s : State} {c : Cmd} {m : Team} (h : Releasable s s.ev.x c m) (hk : c.kind.isCopy = true) :
    ((∃ k, k / 4 = m.cluster / 50 ∧ (s.cmds.filter fun e => e.2.engine = some k).length < 16) →
      ∃ k, k / 4 = m.cluster / 50 ∧ (s.cmds.filter fun e => e.2.engine = some k).length < 16 ∧
        exec .engineCommandRelease s = .next
          { s with cmds := s.cmds.put s.ev.x { c with released := true, engine := some k } }) ∧
    ((∀ k, k / 4 = m.cluster / 50 → 16 ≤ (s.cmds.filter fun e => e.2.engine = some k).length) →
      ∃ r, exec .engineCommandRelease s = .refused r) := by
  have heng := engineFor_of_copy hk h.team
  constructor
  · rintro ⟨k, hk4, hfree⟩
    cases hp : s.pick 12 c.tid (s.freeEngines (m.cluster / 50)) with
    | none =>
      have hmem := mem_freeEngines.mpr ⟨hk4, hfree⟩
      rw [pick_eq_none.mp hp] at hmem
      cases hmem
    | some j =>
      rw [hp] at heng
      obtain ⟨hj4, hjfree⟩ := mem_freeEngines.mp (pick_mem hp)
      exact ⟨j, hj4, hjfree, by rw [h.released (.inr (by rw [heng]; rfl)), heng]⟩
  · intro hfull
    refine h.refused hk (heng.trans (pick_eq_none.mpr (List.eq_nil_iff_forall_not_mem.mpr fun k hmem => ?_)))
    obtain ⟨hk4, hfree⟩ := mem_freeEngines.mp hmem
    have := hfull k hk4
    omega

/-! ### Completion (R280) -/

/-- Step 2 of R280: the command's handles are released. -/
def State.handlesEnded (s : State) (c : Cmd) : State :=
  (s.changeHandles (some c.wid) Handle.fillDone c.inb).changeHandles (some c.wid) Handle.drainDone c.outb

/-- Steps 2 and 3 of R280: its handles are released, its lines present, its barriers credited. -/
def State.credited (s : State) (c : Cmd) (n : Nat) : State :=
  ((s.handlesEnded c).present c.lines).creditBarriers (-(n : Int)) (some c.wid) c.barriers

theorem handlesEnded_coresOnly {s : State} (h : noRegion s) (c : Cmd) : CoresOnly s (s.handlesEnded c) := by
  have h1 := changeHandles_coresOnly (some c.wid) Handle.fillDone c.inb h
  exact h1.trans (changeHandles_coresOnly _ _ _ (noRegion_congr (by rw [h1]) h))

theorem handlesEnded_noRegion {s : State} (h : noRegion s) (c : Cmd) : noRegion (s.handlesEnded c) :=
  noRegion_congr (by rw [handlesEnded_coresOnly h]) h

theorem present_noRegion {s : State} (h : noRegion s) (ls : List (Nat × Nat)) : noRegion (s.present ls) :=
  noRegion_congr (by rw [present_teamsOnly]) h

theorem credited_teamsOnly {s : State} (h : noRegion s) (c : Cmd) (n : Nat) : TeamsOnly (s.handlesEnded c) (s.credited c n) :=
  (present_teamsOnly c.lines _).trans (creditBarriers_teamsOnly _ _ _ (present_noRegion (handlesEnded_noRegion h c) _))

theorem credited_noRegion {s : State} (h : noRegion s) (c : Cmd) (n : Nat) : noRegion (s.credited c n) :=
  noRegion_congr (by rw [credited_teamsOnly h]) (handlesEnded_noRegion h c)

/-- A command's completion where no region is open. -/
theorem completeCmd_eq {s : State} (h : noRegion s) (x : Nat) (c : Cmd) (n : Nat) : s.completeCmd x c n =
    { s with
      cores := (s.handlesEnded c).cores
      teams := ((s.credited c n).completeTicket c.tid c.counter).teams
      waves := s.waves.upd c.wid (·.drainFlags c.flags)
      cmds := s.cmds.del x } := by
  have hend : ∀ u : State, u = s.credited c n →
      (let v := (u.completeTicket c.tid c.counter).updWave c.wid (·.drainFlags c.flags); { v with cmds := v.cmds.del x }) =
      { s with
        cores := (s.handlesEnded c).cores
        teams := ((s.credited c n).completeTicket c.tid c.counter).teams
        waves := s.waves.upd c.wid (·.drainFlags c.flags)
        cmds := s.cmds.del x } := by
    rintro _ rfl
    rw [completeTicket_teamsOnly, credited_teamsOnly h, handlesEnded_coresOnly h]
    rfl
  exact hend _ (check_eq_self (credited_noRegion h c n) _ _)

theorem sameStore_of_parts (s : State) (cs : Tbl Core) (ts : Tbl Team) (ws : Tbl Wave) (ks : Tbl Cmd) :
    SameStore s { s with cores := cs, teams := ts, waves := ws, cmds := ks } := ⟨rfl, rfl, rfl, rfl, rfl, rfl, rfl, rfl, rfl, rfl, rfl⟩

theorem get?_present_ended {s : State} (h : noRegion s) (c : Cmd) {k : Nat} {m : Team} (hm : s.teams.get? k = some m) :
    ((s.handlesEnded c).present c.lines).teams.get? k = some (m.withPresent k c.lines) := by
  rw [get?_present, handlesEnded_coresOnly h]
  exact congrArg _ hm

/-- What a command's credits and presence bits leave of a team: credits may have changed its local store. -/
theorem get?_credited {s : State} (h : noRegion s) (c : Cmd) (n : Nat) {k : Nat} {m : Team} (hm : s.teams.get? k = some m) :
    ∃ m', CreditOnly (m.withPresent k c.lines) m' ∧ (s.credited c n).teams.get? k = some m' := by
  obtain ⟨m', hm', hcr⟩ := (get?_creditBarriers (-(n : Int)) (some c.wid) c.barriers k
    (present_noRegion (handlesEnded_noRegion h c) c.lines)).2 _ (get?_present_ended h c hm)
  exact ⟨m', hcr, hm'⟩

theorem get?_credited_nil {s : State} (h : noRegion s) (c : Cmd) (n : Nat) {k : Nat} {m : Team} (hm : s.teams.get? k = some m)
    (hb : c.barriers = []) : (s.credited c n).teams.get? k = some (m.withPresent k c.lines) := by
  rw [State.credited, hb]
  exact get?_present_ended h c hm

theorem get?_credited_one {s : State} (h : noRegion s) (c : Cmd) (n : Nat) {k b : Nat} {m : Team} (hm : s.teams.get? k = some m)
    (hb : c.barriers = [(k, b)]) :
    (s.credited c n).teams.get? k = some ((m.withPresent k c.lines).afterCredit b (-(n : Int))) := by
  rw [State.credited, hb, creditBarriers_cons (present_noRegion (handlesEnded_noRegion h c) _)]
  refine (get?_updTeam ..).trans ?_
  rw [if_pos rfl, get?_present_ended h c hm]
  rfl

theorem withPresent_other (m : Team) {tid k : Nat} {ls : List (Nat × Nat)} (h : ∀ l ∈ ls, l.1 = tid) (hk : k ≠ tid) :
    m.withPresent k ls = m := by
  have hall : (fun l => !ls.contains (k, l)) = fun _ => true := by
    funext l
    simpa using fun hl => hk (h _ hl)
  rw [Team.withPresent, hall, List.filter_true]

/-- A team that is not the command's, with none of its barriers credited, is as it was. -/
theorem get?_completed_other {s : State} (h : noRegion s) (c : Cmd) (n : Nat) {k : Nat} (hl : ∀ l ∈ c.lines, l.1 = c.tid)
    (hk : k ≠ c.tid) (hb : ∀ b ∈ c.barriers, b.1 ≠ k) :
    ((s.credited c n).completeTicket c.tid c.counter).teams.get? k = s.teams.get? k := by
  rw [get?_completeTicket, if_neg hk, State.credited, (get?_creditBarriers _ _ _ k (present_noRegion (handlesEnded_noRegion h c) _)).1 hb,
    get?_present, handlesEnded_coresOnly h]
  change (s.teams.get? k).map _ = _
  cases s.teams.get? k with
  | none => rfl
  | some m => exact congrArg some (withPresent_other m hl hk)

/-- The command's own team: its ticket is complete as well. -/
theorem get?_completed_own {s : State} {c : Cmd} {n : Nat} {m : Team} (hm : (s.credited c n).teams.get? c.tid = some m) :
    ((s.credited c n).completeTicket c.tid c.counter).teams.get? c.tid = some (m.withTicket c.counter) := by
  rw [get?_completeTicket, if_pos rfl, hm]
  rfl

theorem drainFlags_of_noRegion {w : Wave} (h : w.region = none) (f : Word) : w.drainFlags f =
    if w.counted = 0 then w
    else match w.recd with
      | some r => { w with recd := some { r with fflags := r.fflags ||| f } }
      | none => { w with fflags := w.fflags ||| f } := by
  refine if_congr Iff.rfl rfl ?_
  cases w.recd with
  | some r => rfl
  | none => cases w; cases h; rfl

theorem mem_of_get? {α : Type} {t : Tbl α} {n : Nat} {x : α} (h : t.get? n = some x) : (n, x) ∈ t := by
  induction t with
  | nil => cases h
  | cons e t ih =>
    obtain ⟨k, v⟩ := e
    rw [Tbl.get?] at h
    split at h
    · next hk => subst hk; cases h; exact List.mem_cons_self
    · exact List.mem_cons_of_mem _ (ih h)

theorem entry_handlesEnded {s : State} (h : noRegion s) (c : Cmd) (hn : (c.inb ++ c.outb).Nodup) (e : Nat × Nat) :
    (s.handlesEnded c).entry e = if e ∈ c.inb then (s.entry e).map Handle.fillDone
      else if e ∈ c.outb then (s.entry e).map Handle.drainDone else s.entry e := by
  obtain ⟨hin, hout, hdis⟩ := List.nodup_append.mp hn
  have h1 := changeHandles_coresOnly (some c.wid) Handle.fillDone c.inb h
  rw [State.handlesEnded, entry_changeHandles _ _ _ _ (noRegion_congr (by rw [h1]) h) hout, entry_changeHandles _ _ _ _ h hin]
  by_cases hi : e ∈ c.inb
  · have ho : e ∉ c.outb := fun ho => hdis e hi e ho rfl
    rw [if_neg ho, if_pos hi, if_pos hi]
  · rw [if_neg hi, if_neg hi]

theorem fillDone_eq (h : Handle) : h.fillDone = { h with
    fills := h.fills - 1
    st := if h.fills - 1 = 0 ∧ h.auto = true ∧ h.st = .filling then .full else h.st } := by
  rw [Handle.fillDone]
  dsimp only
  split <;> rfl

theorem drainDone_eq (h : Handle) : h.drainDone = { h with
    refs := h.refs - 1
    st := if h.refs - 1 = 0 ∧ h.st = .draining then .full else h.st } := by
  rw [Handle.drainDone]
  dsimp only
  split <;> rfl

theorem withTicket_absent (t : Team) (c : Option (Nat × Nat)) : (t.withTicket c).absent = t.absent := by
  rw [withTicket_frame]

theorem barrierSettled_setAbsent (t : Team) (a : Nat) (l : List Nat) :
    ({ t with absent := l } : Team).barrierSettled a = { t.barrierSettled a with absent := l } := by
  have hw : ∀ i, ({ t with absent := l } : Team).lsWord i = t.lsWord i := fun _ => rfl
  by_cases h : (t.lsWord a).toNat % 2 ^ 11 = 0 ∧ t.lsWord (a + 4) = 0
  · simp only [Team.barrierSettled, hw, if_pos h]
    rfl
  · simp only [Team.barrierSettled, hw, if_neg h]

/-- The settled barrier does not look at presence bits, and credits subtract. -/
theorem afterCredit_eq (m : Team) (tid : Nat) (ls : List (Nat × Nat)) (b n : Nat) :
    (m.withPresent tid ls).afterCredit b (-(n : Int)) =
      { (m.lsPutWord (b + 4) (BitVec.ofInt 32 ((m.lsWord (b + 4)).toInt - n))).barrierSettled b with
        absent := (m.withPresent tid ls).absent, barriers := (m.barriers ++ [b]).eraseDups } := by
  have hc : (m.withPresent tid ls).credited b (-(n : Int)) =
      { m.lsPutWord (b + 4) (BitVec.ofInt 32 ((m.lsWord (b + 4)).toInt - n)) with absent := (m.withPresent tid ls).absent } := by
    rw [Int.sub_eq_add_neg]
    rfl
  rw [Team.afterCredit, hc, barrierSettled_setAbsent, barrierSettled_frame]
  rfl

theorem commandComplete_exec {s : State} {c : Cmd} {m : Team} (hc : s.cmds.get? s.ev.x = some c) (ha : active s c m)
    (hslots : c.slotsDone = c.slots) (hdone : ∀ e ∈ c.elems, e ∈ c.done) :
    exec .engineCommandComplete s = .next (s.completeCmd s.ev.x c c.credit) := by
  obtain ⟨hq, hrel, hheld, hfatal, hm, hf⟩ := ha
  have hcan : s.canComplete s.ev.x = true := by
    have hall : c.elems.all c.done.contains = true := by simpa using hdone
    simp [State.canComplete, hc, State.cmdActive, State.cmdRuns, hq, hrel, hheld, hfatal, hm, hf, hslots, hall]
  change execEngineCommandComplete s = _
  rw [execEngineCommandComplete, hc]
  exact if_pos hcan

theorem commandCourseHold_holds : commandCourseHold := by
  refine ⟨fun s c m hc hq hh hr hm hf hcl => ?_, fun s c m hc ha hslots hdone hreg hlines hnd => ?_⟩
  · have hrel : Releasable s s.ev.x c m := ⟨hc, hq, hh, hr, hm, hf, hcl⟩
    refine ⟨fun hk => ?_, fun hk => (hrel.copy hk).1, fun hk => (hrel.copy hk).2⟩
    rw [hrel.released (.inl hk), engineFor_of_not_copy hk]
  · obtain ⟨-, -, -, -, hm, -⟩ := id ha
    obtain ⟨m', hcr, hm'⟩ := get?_credited hreg c c.credit hm
    have hctr : m'.ctr = m.ctr := by rw [hcr]; rfl
    have habs : m'.absent = (m.withPresent c.tid c.lines).absent := by rw [hcr]
    have hentry := entry_handlesEnded hreg c hnd
    refine ⟨_, m'.withTicket c.counter, by rw [commandComplete_exec hc ha hslots hdone, completeCmd_eq hreg],
      (sameStore_of_parts ..).bytes, rfl, get?_completed_own hm', fun k hk hb => get?_completed_other hreg c _ hlines hk hb,
      fun h e hin he => ?_, fun h e hout he => ?_, fun j h hno => ?_, ?_, fun hb => ?_, fun k n hk => ⟨_, rfl, ?_⟩,
      fun b hb => ⟨_, rfl, ?_⟩, fun w hw => ?_⟩
    · refine (hentry h).trans ?_
      rw [if_pos hin, show s.entry h = some e from he, ← fillDone_eq]
      rfl
    · have hin : h ∉ c.inb := fun hin => (List.nodup_append.mp hnd).2.2 h hin h hout rfl
      refine (hentry h).trans ?_
      rw [if_neg hin, if_pos hout, show s.entry h = some e from he, ← drainDone_eq]
      rfl
    · rw [List.mem_append, not_or] at hno
      exact (hentry (j, h)).trans (by rw [if_neg hno.1, if_neg hno.2]; rfl)
    · rw [withTicket_absent, habs]
      rfl
    · rw [get?_credited_nil hreg c _ hm hb] at hm'
      obtain rfl := Option.some.inj hm'
      rw [withTicket_frame]
      rfl
    · have hr : (m'.withTicket c.counter).ctr.get Ctr.init k = (m.ctr.get Ctr.init k).complete n := by
        rw [hk, withTicket_own, hctr]
      rw [hr]
      refine ⟨complete_taken .., le_complete .., fun hn => ?_, fun hn => ?_⟩
      · rw [hn]
        exact le_complete_next _
      · rw [complete_early _ _ hn]
        exact ⟨rfl, rfl⟩
    · rw [get?_credited_one hreg c _ hm hb, afterCredit_eq] at hm'
      obtain rfl := Option.some.inj hm'
      rw [withTicket_frame]
    · refine (Tbl.get?_upd_self ..).trans ?_
      rw [hw]
      exact congrArg some (drainFlags_of_noRegion (hreg _ (mem_of_get? hw)) c.flags)

/-! ### Void completion (R279, R340) -/

/-- The state `t` is `s` but for the cores and the clusters. -/
def HandlesOnly (s t : State) : Prop := t = { s with cores := t.cores, clusters := t.clusters }

theorem HandlesOnly.refl (s : State) : HandlesOnly s s := rfl

theorem HandlesOnly.trans {a b c : State} (h : HandlesOnly a b) (k : HandlesOnly b c) : HandlesOnly a c := by
  rw [HandlesOnly] at *
  rw [k, h]

theorem undoHandle_handlesOnly (s : State) (inb : List (Nat × Nat)) (u : Undo) : HandlesOnly s (s.undoHandle inb u) := by
  unfold State.undoHandle
  dsimp only
  split
  · exact .refl s
  · split
    · split <;> rfl
    · rfl

/-- The entry, the generation and the count of changes of a handle are as they were. -/
def SameHandle (s t : State) (e : Nat × Nat) : Prop :=
  t.entry e = s.entry e ∧ (t.core e.1).gen.get 0 e.2 = (s.core e.1).gen.get 0 e.2 ∧
    (t.core e.1).changes.get 0 e.2 = (s.core e.1).changes.get 0 e.2

theorem SameHandle.refl (s : State) (e : Nat × Nat) : SameHandle s s e := ⟨rfl, rfl, rfl⟩

theorem SameHandle.trans {a b c : State} {e : Nat × Nat} (h : SameHandle a b e) (k : SameHandle b c e) : SameHandle a c e :=
  ⟨k.1.trans h.1, k.2.1.trans h.2.1, k.2.2.trans h.2.2⟩

theorem setHandle_sameHandle (s : State) (core i : Nat) (h : Handle) (g : Nat) {e : Nat × Nat} (he : e ≠ (core, i)) :
    SameHandle s (s.setHandle core i h g) e :=
  ⟨by rw [entry_setHandle, if_neg he], by rw [gen_setHandle, if_neg he], changes_setHandle_ne s core i h g he⟩

/-- What dropping operand tiles leaves of every handle. -/
theorem dropTiles_sameHandle (s : State) (core i : Nat) (e : Nat × Nat) : SameHandle s (s.dropTiles core i) e := ⟨rfl, rfl, rfl⟩

/-- The state after a handle is back as it was before a command's issue. -/
def State.putBack (s : State) (u : Undo) : State :=
  if u.genBefore = (s.core u.core).gen.get 0 u.idx then s.setHandle u.core u.idx u.before u.genBefore
  else (s.setHandle u.core u.idx u.before u.genBefore).dropTiles u.core u.idx

theorem putBack_sameHandle (s : State) (u : Undo) (e : Nat × Nat) :
    SameHandle (s.setHandle u.core u.idx u.before u.genBefore) (s.putBack u) e := by
  unfold State.putBack
  split
  · exact .refl _ _
  · exact dropTiles_sameHandle ..

/-- A handle gives back a command's step by R270. -/
def stepBack (inb : List (Nat × Nat)) (e : Nat × Nat) (h : Handle) : Handle := if inb.contains e then h.fillDone else h.drainDone

theorem undoHandle_eq (s : State) (inb : List (Nat × Nat)) (u : Undo) : s.undoHandle inb u =
    match s.entry (u.core, u.idx) with
    | none => s
    | some h =>
      if (s.core u.core).changes.get 0 u.idx = u.changes then s.putBack u
      else s.setHandle u.core u.idx (stepBack inb (u.core, u.idx) h) ((s.core u.core).gen.get 0 u.idx) := rfl

theorem undoHandle_sameHandle (s : State) (inb : List (Nat × Nat)) (u : Undo) {e : Nat × Nat} (he : e ≠ (u.core, u.idx)) :
    SameHandle s (s.undoHandle inb u) e := by
  rw [undoHandle_eq]
  split
  · exact .refl s e
  · split
    · exact (setHandle_sameHandle s _ _ _ _ he).trans (putBack_sameHandle s u e)
    · exact setHandle_sameHandle s _ _ _ _ he

/-- A void command's step on a handle is undone: the handle is as before the issue where nothing has changed it since, else it
gives back the step. -/
def Undone (s t : State) (inb : List (Nat × Nat)) (u : Undo) : Prop :=
  ∀ h, s.entry (u.core, u.idx) = some h →
    ((s.core u.core).changes.get 0 u.idx = u.changes →
      t.entry (u.core, u.idx) = some u.before ∧ (t.core u.core).gen.get 0 u.idx = u.genBefore) ∧
    ((s.core u.core).changes.get 0 u.idx ≠ u.changes →
      (t.core u.core).gen.get 0 u.idx = (s.core u.core).gen.get 0 u.idx ∧
      t.entry (u.core, u.idx) = some (stepBack inb (u.core, u.idx) h))

theorem undoHandle_undone (s : State) (inb : List (Nat × Nat)) (u : Undo) : Undone s (s.undoHandle inb u) inb u := by
  intro h hs
  have hself : ∀ x g, (s.setHandle u.core u.idx x g).entry (u.core, u.idx) = some x ∧
      ((s.setHandle u.core u.idx x g).core u.core).gen.get 0 u.idx = g := fun x g =>
    ⟨by rw [entry_setHandle, if_pos rfl], by rw [gen_setHandle, if_pos rfl]⟩
  rw [undoHandle_eq, hs]
  refine ⟨fun hc => ?_, fun hc => ?_⟩
  · dsimp only
    rw [if_pos hc]
    obtain ⟨h1, h2, -⟩ := putBack_sameHandle s u (u.core, u.idx)
    exact ⟨h1.trans (hself ..).1, h2.trans (hself ..).2⟩
  · dsimp only
    rw [if_neg hc]
    exact (hself ..).symm

theorem Undone.after {s t t' : State} {inb : List (Nat × Nat)} {u : Undo} (h : Undone s t inb u)
    (k : SameHandle t t' (u.core, u.idx)) : Undone s t' inb u := fun x hx =>
  ⟨fun hc => ⟨k.1.trans ((h x hx).1 hc).1, k.2.1.trans ((h x hx).1 hc).2⟩,
    fun hc => ⟨k.2.1.trans ((h x hx).2 hc).1, k.1.trans ((h x hx).2 hc).2⟩⟩

theorem Undone.before {s s' t : State} {inb : List (Nat × Nat)} {u : Undo} (k : SameHandle s s' (u.core, u.idx))
    (h : Undone s' t inb u) : Undone s t inb u := by
  obtain ⟨k1, k2, k3⟩ := k
  intro x hx
  obtain ⟨h1, h2⟩ := h x (k1.trans hx)
  rw [k3, k2] at *
  exact ⟨h1, h2⟩

/-- A void command's steps on handles, undone one after the other (R279). -/
def State.undoHandles (s : State) (inb : List (Nat × Nat)) (us : List Undo) : State := us.foldl (fun s u => s.undoHandle inb u) s

theorem undoHandles_handlesOnly (inb : List (Nat × Nat)) (us : List Undo) : ∀ s : State, HandlesOnly s (s.undoHandles inb us) := by
  induction us with
  | nil => exact .refl
  | cons u us ih => exact fun s => (undoHandle_handlesOnly s inb u).trans (ih _)

theorem undoHandles_sameHandle (inb : List (Nat × Nat)) (us : List Undo) {e : Nat × Nat} : ∀ s : State,
    (∀ u ∈ us, (u.core, u.idx) ≠ e) → SameHandle s (s.undoHandles inb us) e := by
  induction us with
  | nil => exact fun s _ => .refl s e
  | cons u us ih =>
    exact fun s h => (undoHandle_sameHandle s inb u (Ne.symm (h u List.mem_cons_self))).trans
      (ih _ fun v hv => h v (List.mem_cons_of_mem _ hv))

theorem undoHandles_undone (inb : List (Nat × Nat)) (us : List Undo) {u : Undo} : ∀ s : State, u ∈ us →
    (us.map fun u => (u.core, u.idx)).Nodup → Undone s (s.undoHandles inb us) inb u := by
  induction us with
  | nil => exact fun _ h => by cases h
  | cons v us ih =>
    intro s hu hn
    rw [List.map_cons, List.nodup_cons, List.mem_map] at hn
    obtain ⟨hv, hn⟩ := hn
    rcases List.mem_cons.mp hu with rfl | hu
    · exact (undoHandle_undone s inb u).after (undoHandles_sameHandle inb us _ fun w hw he => hv ⟨w, hw, he⟩)
    · exact .before (undoHandle_sameHandle s inb v fun he => hv ⟨u, hu, he⟩) (ih _ hu hn)

theorem voidCmd_of_none {s : State} {cid : Nat} (h : s.cmds.get? cid = none) : s.voidCmd cid = s := by
  rw [State.voidCmd, h]

theorem voidCmd_of_some {s : State} {cid : Nat} {c : Cmd} (h : s.cmds.get? cid = some c) : s.voidCmd cid =
    { s with
      cores := (s.undoHandles c.inb c.undo).cores
      clusters := (s.undoHandles c.inb c.undo).clusters
      teams := (((s.undoHandles c.inb c.undo).present c.lines).completeTicket c.tid c.counter).teams
      cmds := s.cmds.del cid } := by
  have hv : s.voidCmd cid = { ((s.undoHandles c.inb c.undo).present c.lines).completeTicket c.tid c.counter with
      cmds := (((s.undoHandles c.inb c.undo).present c.lines).completeTicket c.tid c.counter).cmds.del cid } := by
    rw [State.voidCmd, h]
    rfl
  rw [hv, completeTicket_teamsOnly, present_teamsOnly, undoHandles_handlesOnly]

/-- What a void completion leaves of a team. -/
theorem get?_voided (s : State) (c : Cmd) (tid : Nat) {m : Team} (hm : s.teams.get? tid = some m) :
    (((s.undoHandles c.inb c.undo).present c.lines).completeTicket c.tid c.counter).teams.get? tid =
      some (if tid = c.tid then (m.withPresent tid c.lines).withTicket c.counter else m.withPresent tid c.lines) := by
  have hu : (s.undoHandles c.inb c.undo).teams = s.teams := by rw [undoHandles_handlesOnly]
  rw [get?_completeTicket, get?_present, hu, hm]
  split <;> rfl

theorem withTicket_spec (m : Team) (k n : Nat) :
    ((m.withTicket (some (k, n))).ctr.get Ctr.init k).taken = (m.ctr.get Ctr.init k).taken ∧
    (m.ctr.get Ctr.init k).value ≤ ((m.withTicket (some (k, n))).ctr.get Ctr.init k).value ∧
    (n = (m.ctr.get Ctr.init k).value + 1 → n ≤ ((m.withTicket (some (k, n))).ctr.get Ctr.init k).value) := by
  rw [withTicket_own]
  refine ⟨complete_taken .., le_complete .., fun hn => ?_⟩
  rw [hn]
  exact le_complete_next _

theorem voidCmd_sameBytes (s : State) (cid : Nat) : SameBytes s (s.voidCmd cid) := by
  cases h : s.cmds.get? cid with
  | none => rw [voidCmd_of_none h]; exact (SameStore.refl s).bytes
  | some c => rw [voidCmd_of_some h]; exact SameStore.bytes ⟨rfl, rfl, rfl, rfl, rfl, rfl, rfl, rfl, rfl, rfl, rfl⟩

/-! ### Rollback makes held commands complete void (R341) -/

theorem voidCmd_gone (s : State) (cid : Nat) : (s.voidCmd cid).cmds.get? cid = none := by
  cases h : s.cmds.get? cid with
  | none => rw [voidCmd_of_none h, h]
  | some c => rw [voidCmd_of_some h]; exact Tbl.get?_del_self ..

theorem get?_del_none {α : Type} {t : Tbl α} {k : Nat} (h : t.get? k = none) (j : Nat) : (t.del j).get? k = none := by
  by_cases hk : k = j
  · rw [hk]; exact Tbl.get?_del_self ..
  · rw [Tbl.get?_del_ne t hk, h]

/-- A command that is gone stays gone. -/
theorem voidCmd_stays {s : State} {k : Nat} (h : s.cmds.get? k = none) (cid : Nat) : (s.voidCmd cid).cmds.get? k = none := by
  cases hc : s.cmds.get? cid with
  | none => rw [voidCmd_of_none hc, h]
  | some c => rw [voidCmd_of_some hc]; exact get?_del_none h cid

theorem voidCmds_stay (l : List Nat) {k : Nat} : ∀ {s : State}, s.cmds.get? k = none →
    (l.foldl (fun s c => s.voidCmd c) s).cmds.get? k = none := by
  induction l with
  | nil => exact id
  | cons c l ih => exact fun h => ih (voidCmd_stays h c)

theorem voidCmds_gone {l : List Nat} {k : Nat} (h : k ∈ l) : ∀ s : State,
    (l.foldl (fun s c => s.voidCmd c) s).cmds.get? k = none := by
  induction l with
  | nil => cases h
  | cons c l ih =>
    intro s
    rcases List.mem_cons.mp h with rfl | h
    · exact voidCmds_stay l (voidCmd_gone s k)
    · exact ih h _

/-- A wave with its region rolled back, its held commands not yet: the wave is at its waymark, and the core's counters tell. -/
def State.atWaymark (s : State) (wid : Nat) (w : Wave) (r : Region) : State :=
  let core := ((s.teams.get? w.tid).map (·.core)).getD 0
  let s := (s.setWave wid (w.toWaymark r)).count core 1
  if w.rollbacks + 1 = 4 then s.count core 3 else s

theorem atWaymark_cmds (s : State) (wid : Nat) (w : Wave) (r : Region) : (s.atWaymark wid w r).cmds = s.cmds := by
  unfold State.atWaymark
  dsimp only
  split <;> rfl

theorem rollbackOne_of_region {s : State} {wid : Nat} {w : Wave} {r : Region} (hw : s.waves.get? wid = some w)
    (hr : w.region = some r) : s.rollbackOne wid =
      ((s.atWaymark wid w r).heldOf wid r.seq).foldl (fun s c => s.voidCmd c) (s.atWaymark wid w r) := by
  rw [State.rollbackOne, hw]
  dsimp only
  rw [hr]
  rfl

theorem rollbackOne_stays {s : State} {k : Nat} (h : s.cmds.get? k = none) (wid : Nat) : (s.rollbackOne wid).cmds.get? k = none := by
  cases hw : s.waves.get? wid with
  | none => rw [State.rollbackOne, hw]; exact h
  | some w =>
    cases hr : w.region with
    | none => rw [State.rollbackOne, hw]; dsimp only; rw [hr]; exact h
    | some r =>
      rw [rollbackOne_of_region hw hr]
      exact voidCmds_stay _ (by rw [atWaymark_cmds, h])

theorem rollback_stays (f : Nat) {k : Nat} : ∀ (ws : List Nat) {s : State}, s.cmds.get? k = none →
    (State.rollback f ws s).cmds.get? k = none := by
  induction f with
  | zero => exact fun _ _ h => h
  | succ f ih =>
    intro ws s h
    cases ws with
    | nil => exact h
    | cons wid rest => exact ih _ (rollbackOne_stays h wid)

theorem mem_heldOf {s : State} {cid wid seq : Nat} {c : Cmd} (hc : s.cmds.get? cid = some c) (hw : c.wid = wid)
    (hh : c.held = true) (hs : seq ≤ c.seq) : cid ∈ s.heldOf wid seq := by
  rw [State.heldOf, List.mem_reverse]
  exact List.mem_map_of_mem (f := Prod.fst) (List.mem_filter.mpr ⟨mem_of_get? hc, by simp [hw, hh, hs]⟩)

theorem rollbackOne_gone {s : State} {wid cid : Nat} {w : Wave} {r : Region} {c : Cmd} (hw : s.waves.get? wid = some w)
    (hr : w.region = some r) (hc : s.cmds.get? cid = some c) (hcw : c.wid = wid) (hh : c.held = true) (hs : r.seq ≤ c.seq) :
    (s.rollbackOne wid).cmds.get? cid = none := by
  rw [rollbackOne_of_region hw hr]
  exact voidCmds_gone (mem_heldOf (by rw [atWaymark_cmds, hc]) hcw hh hs) _

theorem check_gone {s : State} {ls : List Loc} {writer : Option Nat} {v cid : Nat} {w : Wave} {r : Region} {c : Cmd}
    (hv : s.readers ls writer = [v]) (hw : s.waves.get? v = some w) (hr : w.region = some r) (hc : s.cmds.get? cid = some c)
    (hcw : c.wid = v) (hh : c.held = true) (hs : r.seq ≤ c.seq) : (s.check ls writer).cmds.get? cid = none := by
  have hf : ([v] : List Nat).length + 64 * (s.waves.length + 1) = 64 * (s.waves.length + 1) + 1 := Nat.add_comm ..
  rw [State.check, hv, if_neg (by simp), hf, State.rollback]
  exact rollback_stays _ _ (rollbackOne_gone hw hr hc hcw hh hs)

theorem voidCompletionHold_holds : voidCompletionHold := by
  refine ⟨fun s cid c hc hn => ?_, fun s ls writer v w r cid c hv hw hr hc hcw hh hs => check_gone hv hw hr hc hcw hh hs⟩
  refine ⟨voidCmd_sameBytes s cid, ?_⟩
  rw [voidCmd_of_some hc]
  refine ⟨rfl, rfl, fun tid m hm => ⟨_, get?_voided s c tid hm, ?_⟩, fun u h hu hh => ?_, fun j h hno => ?_⟩
  · split
    · next htid =>
      refine ⟨?_, fun k hk => ?_, fun k n _ hk => ?_⟩
      · rw [withTicket_frame]
        rfl
      · rw [withTicket_other _ _ fun n hn => hk n ⟨htid, hn⟩]
        rfl
      · rw [hk]
        exact withTicket_spec ..
    · next htid => exact ⟨rfl, fun _ _ => rfl, fun _ _ h _ => absurd h htid⟩
  · obtain ⟨h1, h2⟩ := undoHandles_undone c.inb c.undo s hu hn h hh
    refine ⟨h1, fun hne => ⟨(h2 hne).1, (h2 hne).2.trans ?_⟩⟩
    rw [stepBack, fillDone_eq, drainDone_eq]
    simp only [List.contains_iff_mem]
  · exact (undoHandles_sameHandle c.inb c.undo (e := (j, h)) s hno).1

/-- Settles O35: the course of a command through its release, its completion and its void completion. -/
theorem commandCourse : Obligations.CommandCourse := ⟨commandCourseHold_holds, voidCompletionHold_holds⟩

end Sys2Proof.Machine

/-! PROOFS. What an access leaves at its home, in the translations held and in the caches, and what it keeps (O18). -/

namespace Sys2Proof.Machine

open Spec

/-! ### At the home (R226, R240, R246, R329) -/

/-- The state `t` is `s` but for bytes under their keys and what the homes hold, count and need. -/
def HomeFrame (s t : State) : Prop :=
  t = { s with
    mem := t.mem, memKey := t.memKey, l2 := t.l2, hostLines := t.hostLines, agentLines := t.agentLines
    accessCnt := t.accessCnt, crossings := t.crossings, bufKeys := t.bufKeys, wants := t.wants }

theorem HomeFrame.refl (s : State) : HomeFrame s s := rfl

theorem HomeFrame.trans {a b c : State} (h : HomeFrame a b) (k : HomeFrame b c) : HomeFrame a c := by
  rw [HomeFrame] at *
  rw [k, h]

theorem homeFrame_foldl {α : Type} (f : State → α → State) (hf : ∀ s a, HomeFrame s (f s a)) (l : List α) (s : State) :
    HomeFrame s (l.foldl f s) :=
  foldl_keeps (P := HomeFrame s) f (fun t a h => h.trans (hf t a)) l s (.refl s)

theorem writeByte_homeFrame (s : State) (key : Nat) (a : Nat) (b : Byte) : HomeFrame s (s.writeByte .dev key a b) := rfl

theorem writeBytes_homeFrame (s : State) (key : Nat) (bs : List (Nat × Byte)) : HomeFrame s (s.writeBytes .dev key bs) :=
  homeFrame_foldl (fun t (e : Nat × Byte) => t.writeByte .dev key e.1 e.2) (fun s e => writeByte_homeFrame s key e.1 e.2) bs s

/-- Words of the device's memory lie at no place of another space. -/
theorem touches8_lineLocs (sp : Space) (line a : Nat) (h : sp ≠ .dev) : touches8 (lineLocs .dev line) sp a = false := by
  simp [touches8, lineLocs, h.symm]

theorem keepStatus_homeFrame (s old : State) (line : Nat) : HomeFrame s (s.keepStatus old (lineLocs .dev line)) := by
  refine homeFrame_foldl _ (fun s p => ?_) _ s
  split
  · next h =>
    have hsp : p.sp = .dev := by
      by_contra hne
      rw [touches8_lineLocs _ _ _ hne] at h
      exact absurd h.1 Bool.false_ne_true
    rw [hsp]
    exact writeBytes_homeFrame ..
  · exact .refl s

theorem backInvalidate_homeFrame (s : State) (line : Nat) : HomeFrame s (s.backInvalidate line) := by
  unfold State.backInvalidate
  split
  · exact .refl s
  · dsimp only
    have h : HomeFrame s { s with hostLines := s.hostLines.del line } := rfl
    split
    · exact h
    · exact h.trans ((writeBytes_homeFrame ..).trans (keepStatus_homeFrame ..))

theorem hdmTouch_homeFrame (s : State) (write : Bool) (a : Nat) : HomeFrame s (s.hdmTouch write a) := by
  unfold State.hdmTouch
  split
  · split
    · split
      · exact backInvalidate_homeFrame ..
      · exact .refl s
    · exact .refl s
  · exact .refl s

/-- A read takes no line back while the host holds none modified (R246). -/
theorem hdmTouch_clean {s : State} (h : cleanHost s) (a : Nat) : s.hdmTouch false a = s := by
  unfold State.hdmTouch
  split
  · split
    · next x hx => rw [h _ x hx]; rfl
    · rfl
  · rfl

theorem underKey_homeFrame (s : State) (u key : Nat) : HomeFrame s (s.underKey u key) := by
  unfold State.underKey State.useKey State.need
  split
  · rfl
  · split <;> rfl

theorem countPage_homeFrame (s : State) (own key pa : Nat) : HomeFrame s (s.countPage own key pa) := by
  unfold State.countPage
  dsimp only
  split
  · rfl
  · split <;> rfl

theorem countLine_homeFrame (s : State) (own key line : Nat) (ace : Bool) : HomeFrame s (s.countLine own key line ace) := by
  have h : HomeFrame s (if hbmEnd ≤ 128 * line then s.underKey (bufferOf (128 * line)) key else s) := by
    split
    · exact underKey_homeFrame ..
    · exact .refl s
  unfold State.countLine
  dsimp only
  split
  · exact h.trans (countPage_homeFrame ..)
  · exact h

theorem writeBack_homeFrame (s : State) (x : L2Line) : HomeFrame s (s.writeBack x) := by
  unfold State.writeBack
  split
  · exact countLine_homeFrame ..
  · exact .refl s

theorem HomeFrame.l2 {s t : State} (h : HomeFrame s t) (l : Tbl (List L2Line)) : HomeFrame s { t with l2 := l } :=
  h.trans rfl

theorem l2Room_homeFrame (s : State) (sl : Nat) : HomeFrame s (s.l2Room sl) := by
  unfold State.l2Room
  dsimp only
  split
  · exact .refl s
  · split
    · exact (writeBack_homeFrame s _).l2 _
    · exact .refl s

theorem l2Touch_homeFrame (s : State) (own : Nat) (p : Phys) (write : Bool) : HomeFrame s (s.l2Touch own p write) := by
  unfold State.l2Touch
  dsimp only
  split
  · split
    · exact ((writeBack_homeFrame s _).trans (countLine_homeFrame ..)).l2 _
    · split
      · exact (HomeFrame.refl s).l2 _
      · exact .refl s
  · exact ((l2Room_homeFrame s _).trans (countLine_homeFrame ..)).l2 _

/-- The host-line agent's lines alone. -/
theorem agentHold_eq (s : State) (p : Phys) (owned : Bool) :
    s.agentHold p owned = { s with agentLines := (s.agentHold p owned).agentLines } := by
  have room : s.agentRoom = { s with agentLines := s.agentRoom.agentLines } := by
    unfold State.agentRoom
    split
    · rfl
    · dsimp only
      split <;> rfl
  unfold State.agentHold
  split
  · dsimp only
    split
    · rfl
    · rw [room]
  · rfl

theorem homeTouch_homeFrame (s : State) (own : Nat) (p : Phys) (write : Bool) : HomeFrame s (s.homeTouch own p write) := by
  unfold State.homeTouch
  split
  · exact (hdmTouch_homeFrame ..).trans (l2Touch_homeFrame ..)
  · rw [agentHold_eq]; rfl
  · exact .refl s

/-- A read at its home changes no byte while the host holds no line modified. -/
theorem homeTouch_store {s : State} (h : cleanHost s) (own : Nat) (p : Phys) : SameStore s (s.homeTouch own p false) := by
  unfold State.homeTouch
  split
  · rw [hdmTouch_clean h]
    exact SameStore.l2Touch ..
  · rw [agentHold_eq]
    exact ⟨rfl, rfl, rfl, rfl, rfl, rfl, rfl, rfl, rfl, rfl, rfl⟩
  · exact .refl s

/-! ### What an access may change beside its wave -/

/-- What a read may change beside its wave: held translations, lines, counters and directories of cores and dies, what the
homes hold, count and need, and lines the host held modified, taken back. -/
structure ReadKeeps (s t : State) : Prop where
  rest : t = { s with
    cores := t.cores, dies := t.dies, mem := t.mem, memKey := t.memKey, l2 := t.l2, homeDir := t.homeDir
    hostLines := t.hostLines, agentLines := t.agentLines, accessCnt := t.accessCnt, crossings := t.crossings
    bufKeys := t.bufKeys, wants := t.wants }
  cores : ∀ k, t.core k =
    { s.core k with tlb := (t.core k).tlb, lastPage := (t.core k).lastPage, l1 := (t.core k).l1, perf := (t.core k).perf }
  dies : ∀ k, t.die k =
    { s.die k with walk := (t.die k).walk, leases := (t.die k).leases, recalls := (t.die k).recalls, dir := (t.die k).dir }
  store : cleanHost s → SameStore s t

theorem cleanHost_congr {s t : State} (h : SameStore s t) (hs : cleanHost s) : cleanHost t := by
  rw [cleanHost, h.hostLines]
  exact hs

namespace ReadKeeps

theorem refl (s : State) : ReadKeeps s s := ⟨rfl, fun _ => rfl, fun _ => rfl, fun _ => .refl s⟩

theorem trans {a b c : State} (h : ReadKeeps a b) (k : ReadKeeps b c) : ReadKeeps a c where
  rest := by rw [k.rest, h.rest]
  cores j := by rw [k.cores j, h.cores j]
  dies j := by rw [k.dies j, h.dies j]
  store hc := (h.store hc).trans (k.store (cleanHost_congr (h.store hc) hc))

theorem foldl {α : Type} (f : State → α → State) (hf : ∀ s a, ReadKeeps s (f s a)) (l : List α) (s : State) :
    ReadKeeps s (l.foldl f s) :=
  foldl_keeps (P := ReadKeeps s) f (fun t a h => h.trans (hf t a)) l s (.refl s)

theorem waves {s t : State} (h : ReadKeeps s t) : t.waves = s.waves := by rw [h.rest]

theorem teams {s t : State} (h : ReadKeeps s t) : t.teams = s.teams := by rw [h.rest]

theorem pend {s t : State} (h : ReadKeeps s t) : t.pend = s.pend := by rw [h.rest]

theorem tick {s t : State} (h : ReadKeeps s t) : t.tick = s.tick := by rw [h.rest]

theorem homeTouch (s : State) (own : Nat) (p : Phys) : ReadKeeps s (s.homeTouch own p false) where
  rest := by
    have h := homeTouch_homeFrame s own p false
    rw [HomeFrame] at h
    rw [h]
  cores k := by rw [homeTouch_homeFrame s own p false]; rfl
  dies k := by rw [homeTouch_homeFrame s own p false]; rfl
  store h := homeTouch_store h own p

/-- A core's translations, sectors and counters change. -/
theorem updCore (s : State) (n : Nat) (f : Core → Core)
    (hf : ∀ c, f c = { c with tlb := (f c).tlb, lastPage := (f c).lastPage, l1 := (f c).l1, perf := (f c).perf }) :
    ReadKeeps s (s.updCore n f) where
  rest := rfl
  cores k := by
    rw [core_updCore]
    split
    · next h => subst h; exact hf _
    · rfl
  dies _ := rfl
  store _ := ⟨rfl, rfl, rfl, rfl, rfl, rfl, rfl, rfl, rfl, rfl, rfl⟩

end ReadKeeps

theorem die_updDie (s : State) (d : Nat) (f : Die → Die) (j : Nat) :
    (s.updDie d f).die j = if j = d then f (s.die d) else s.die j := Tbl.get_set ..

namespace ReadKeeps

/-- A die's held pointers, leases and directory change. -/
theorem updDie (s : State) (n : Nat) (f : Die → Die)
    (hf : ∀ d, f d = { d with walk := (f d).walk, leases := (f d).leases, recalls := (f d).recalls, dir := (f d).dir }) :
    ReadKeeps s (s.updDie n f) where
  rest := rfl
  cores _ := rfl
  dies k := by
    rw [die_updDie]
    split
    · next h => subst h; exact hf _
    · rfl
  store _ := ⟨rfl, rfl, rfl, rfl, rfl, rfl, rfl, rfl, rfl, rfl, rfl⟩

end ReadKeeps


theorem get?_map_key {α : Type} (f : Nat → α → α) (t : Tbl α) (k : Nat) :
    Tbl.get? (t.map fun e => (e.1, f e.1 e.2)) k = (t.get? k).map (f k) := by
  induction t with
  | nil => rfl
  | cons e t ih =>
    obtain ⟨j, v⟩ := e
    simp only [List.map_cons, Tbl.get?]
    split
    · next h => subst h; rfl
    · exact ih

/-- Each core changed in its own way, one that the table does not list not at all. -/
theorem core_map (s : State) (f : Nat → Core → Core) (hf : ∀ k, f k Core.init = Core.init) (k : Nat) :
    ({ s with cores := s.cores.map fun e => (e.1, f e.1 e.2) } : State).core k = f k (s.core k) := by
  change (Tbl.get? (s.cores.map fun e => (e.1, f e.1 e.2)) k).getD Core.init = f k ((s.cores.get? k).getD Core.init)
  rw [get?_map_key]
  cases s.cores.get? k with
  | none => exact (hf k).symm
  | some c => rfl

/-! ### Translations held (R216, R217, R236, R237) -/

/-- The cores' sectors and the directories of the dies are the same. -/
structure SameLines (s t : State) : Prop where
  l1 : ∀ k, (t.core k).l1 = (s.core k).l1
  dir : ∀ k, (t.die k).dir = (s.die k).dir

theorem SameLines.refl (s : State) : SameLines s s := ⟨fun _ => rfl, fun _ => rfl⟩

theorem SameLines.trans {a b c : State} (h : SameLines a b) (k : SameLines b c) : SameLines a c :=
  ⟨fun j => (k.l1 j).trans (h.l1 j), fun j => (k.dir j).trans (h.dir j)⟩

/-- The cores of a die without the translations that rest on a lease. -/
def Core.unleased (d page k : Nat) (c : Core) : Core :=
  if k / 200 = d then
    { c with
      tlb := c.tlb.filter fun t => !(decide (t.leaf.tier = 2) && decide (t.leasePage = page))
      lastPage := c.lastPage.filter fun t => !(decide (t.2.leaf.tier = 2) && decide (t.2.leasePage = page)) }
  else c

/-- What a lookup may change: what any read may, but for sectors and directories. -/
structure LookKeeps (s t : State) : Prop where
  keeps : ReadKeeps s t
  lines : SameLines s t

namespace LookKeeps

theorem refl (s : State) : LookKeeps s s := ⟨.refl s, .refl s⟩

theorem trans {a b c : State} (h : LookKeeps a b) (k : LookKeeps b c) : LookKeeps a c :=
  ⟨h.keeps.trans k.keeps, h.lines.trans k.lines⟩

theorem foldl {α : Type} (f : State → α → State) (hf : ∀ s a, LookKeeps s (f s a)) (l : List α) (s : State) :
    LookKeeps s (l.foldl f s) :=
  foldl_keeps (P := LookKeeps s) f (fun t a h => h.trans (hf t a)) l s (.refl s)

theorem homeTouch (s : State) (own : Nat) (p : Phys) : LookKeeps s (s.homeTouch own p false) where
  keeps := .homeTouch s own p
  lines := by rw [homeTouch_homeFrame s own p false]; exact ⟨fun _ => rfl, fun _ => rfl⟩

theorem updCore (s : State) (n : Nat) (f : Core → Core)
    (hf : ∀ c, f c = { c with tlb := (f c).tlb, lastPage := (f c).lastPage, perf := (f c).perf }) :
    LookKeeps s (s.updCore n f) where
  keeps := .updCore s n f fun c => by rw [hf c]
  lines := by
    refine ⟨fun k => ?_, fun _ => rfl⟩
    rw [core_updCore]
    split
    · next h => subst h; rw [hf]
    · rfl

theorem updDie (s : State) (n : Nat) (f : Die → Die)
    (hf : ∀ d, f d = { d with walk := (f d).walk, leases := (f d).leases, recalls := (f d).recalls }) :
    LookKeeps s (s.updDie n f) where
  keeps := .updDie s n f fun c => by rw [hf c]
  lines := by
    refine ⟨fun _ => rfl, fun k => ?_⟩
    rw [die_updDie]
    split
    · next h => subst h; rw [hf]
    · rfl

theorem dropLease (s : State) (d page : Nat) : LookKeeps s (s.dropLease d page) := by
  have hm := core_map s (Core.unleased d page) fun k => by unfold Core.unleased; split <;> rfl
  have h : LookKeeps s { s with cores := s.cores.map fun e => (e.1, Core.unleased d page e.1 e.2) } := by
    refine ⟨⟨rfl, fun k => ?_, fun _ => rfl, fun _ => ?_⟩, fun k => ?_, fun _ => rfl⟩
    · rw [hm, Core.unleased]
      split <;> rfl
    · exact ⟨rfl, rfl, rfl, rfl, rfl, rfl, rfl, rfl, rfl, rfl, rfl⟩
    · rw [hm, Core.unleased]
      split <;> rfl
  exact h.trans (updDie _ d (fun x => { x with
    leases := x.leases.filter (· != page), recalls := page :: x.recalls.filter (· != page) }) fun _ => rfl)

theorem useLease (s : State) (d page : Nat) : LookKeeps s (s.useLease d page) := by
  have h : ∀ u, LookKeeps s u → LookKeeps s (u.updDie d fun x => { x with leases := page :: x.leases.filter (· != page) }) :=
    fun u h => h.trans (.updDie _ d _ fun _ => rfl)
  refine h _ ?_
  split
  · exact .refl s
  · split
    · exact .dropLease ..
    · exact .refl s

theorem walked (s : State) (die own va : Nat) : LookKeeps s (s.walked die own va) := by
  unfold State.walked
  split
  · exact .refl s
  · next o _ =>
    have h : LookKeeps s (s.entriesTouch own o (s.walkReads die own o va)) :=
      .foldl (fun (s : State) (a : Nat) => s.homeTouch own ⟨.dev, a, o.key, 0, false⟩ false) (fun s a => .homeTouch s own _) _ s
    dsimp only
    split
    · exact h
    · exact h.trans (.updDie _ die _ fun _ => rfl)

theorem held (s : State) (core die own lane va : Nat) (t : Trans) : LookKeeps s (s.held core die own lane va t) := by
  have h : LookKeeps s (if t.leaf.tier = 2 then s.useLease die t.leasePage else s) := by
    split
    · exact .useLease ..
    · exact .refl s
  unfold State.held
  revert h
  dsimp only
  generalize (if t.leaf.tier = 2 then s.useLease die t.leasePage else s) = u
  intro h
  split
  · exact h
  · refine (h.trans ?_).trans (.updCore _ core _ fun _ => rfl)
    split
    · exact .refl _
    · exact .walked ..

end LookKeeps

/-- The lookups of an access change no byte, wave, sector or directory. -/
theorem lookedUp_keeps (c : Ctx) (ea : Nat → DWord) (one : Nat → Except AccStop LaneAcc) : LookKeeps c.s (c.lookedUp ea one) := by
  refine LookKeeps.foldl _ (fun s l => ?_) _ c.s
  split
  · exact .held ..
  · exact .refl s

end Sys2Proof.Machine

/-! PROOFS. The directory and the L1 cache (R329, R330): reads that find room, and reads of states alike (O18). -/

namespace Sys2Proof.Machine

open Spec

/-! ### What a read through L1 keeps -/

theorem setDir_keeps (s : State) (die id : Nat) (m : BitVec 202) : ReadKeeps s (s.setDir die id m) :=
  (ReadKeeps.updDie s die (fun d => { d with dir := d.dir.set 0 id m }) fun _ => rfl).trans
    ⟨rfl, fun _ => rfl, fun _ => rfl, fun _ => ⟨rfl, rfl, rfl, rfl, rfl, rfl, rfl, rfl, rfl, rfl, rfl⟩⟩

/-- A core without the sectors of a die that satisfy a condition. -/
def Core.dropped (die : Nat) (p : Sector → Bool) (k : Nat) (c : Core) : Core :=
  if k / 200 = die then { c with l1 := c.l1.filter fun x => !p x } else c

theorem core_dropL1 (s : State) (die : Nat) (p : Sector → Bool) (k : Nat) :
    (s.dropL1 die p).core k = Core.dropped die p k (s.core k) := by
  rw [← core_map s (Core.dropped die p) (fun k => by unfold Core.dropped; split <;> rfl)]
  unfold State.dropL1
  congr 3
  funext e
  unfold Core.dropped
  split <;> rfl

theorem dropL1_keeps (s : State) (die : Nat) (p : Sector → Bool) : ReadKeeps s (s.dropL1 die p) where
  rest := rfl
  cores k := by
    rw [core_dropL1, Core.dropped]
    split <;> rfl
  dies _ := rfl
  store _ := ⟨rfl, rfl, rfl, rfl, rfl, rfl, rfl, rfl, rfl, rfl, rfl⟩

theorem evictDir_keeps (s : State) (die id : Nat) : ReadKeeps s (s.evictDir die id) :=
  (dropL1_keeps s die _).trans (setDir_keeps _ die id 0)

theorem enlist_keeps {s t : State} {core id : Nat} {keep : List Nat} (h : s.enlist core id keep = some t) : ReadKeeps s t := by
  unfold State.enlist at h
  dsimp only at h
  split at h
  · obtain rfl := Option.some.inj h
    exact setDir_keeps ..
  · obtain ⟨e, -, rfl⟩ := Option.map_eq_some_iff.mp h
    exact (evictDir_keeps s (core / 200) e.1).trans (setDir_keeps ..)

theorem l1Room_keeps {s t : State} {core : Nat} {keep : List Nat} (h : s.l1Room core keep = some t) : ReadKeeps s t := by
  unfold State.l1Room at h
  dsimp only at h
  split at h
  · obtain rfl := Option.some.inj h
    exact .refl s
  · obtain ⟨x, -, rfl⟩ := Option.map_eq_some_iff.mp h
    exact .updCore s core _ fun _ => rfl

/-- A miss of a core's L1, counted, is served at the home. -/
def State.missed (s : State) (core own : Nat) (p : Phys) : State := (s.count core 6).homeTouch own p false

theorem missed_keeps (s : State) (core own : Nat) (p : Phys) : LookKeeps s (s.missed core own p) :=
  (LookKeeps.updCore s core _ fun _ => rfl).trans (.homeTouch _ own p)

/-- A core takes a sector under its key. -/
def State.takeSector (s : State) (core : Nat) (p : Phys) : State :=
  s.updCore core fun c => { c with l1 := p.sector :: c.l1.filter fun x => !(x.sp == p.sp && x.n == p.addr / 32) }

/-- What a listed line's read does: nothing on a hit; else the miss is served, and the sector held unless a word is pending. -/
def State.serve (s : State) (core own : Nat) (p : Phys) (keep : List Nat) : Option State :=
  if (s.core core).l1.contains p.sector then some s
  else if (s.missed core own p).sectorPending p then some (s.missed core own p)
  else ((s.missed core own p).l1Room core keep).map (·.takeSector core p)

theorem fill_eq (s : State) (core own : Nat) (p : Phys) (keep : List Nat) : s.fill core own p keep =
    if p.tier = 2 ∨ p.tier = 4 then some s
    else (s.enlist core (lineId p.sp p.addr) keep).bind fun s => s.serve core own p keep := rfl

theorem serve_keeps {s t : State} {core own : Nat} {p : Phys} {keep : List Nat} (h : s.serve core own p keep = some t) :
    ReadKeeps s t := by
  have hm := (missed_keeps s core own p).keeps
  unfold State.serve at h
  split at h
  · obtain rfl := Option.some.inj h
    exact .refl s
  · split at h
    · obtain rfl := Option.some.inj h
      exact hm
    · obtain ⟨u, hu, rfl⟩ := Option.map_eq_some_iff.mp h
      exact (hm.trans (l1Room_keeps hu)).trans (.updCore u core _ fun _ => rfl)

/-- What a performed read of a lane does to global memory's lines (R255, R330). -/
def Ctx.touchLine (c : Ctx) (n : Nat) (keep : List Nat) (s : State) (p : Phys) : Option State :=
  if p.tier = 2 ∨ p.tier = 4 then some s
  else (s.enlist c.t.core (lineId p.sp p.addr) keep).bind fun s =>
    if (c.w.forwarded c.t (.mem p) n).all Option.isSome then some s else s.serve c.t.core c.t.owner p keep

theorem touch_mem {c : Ctx} {n : Nat} {keep : List Nat} {s : State} {a : LaneAcc} {p : Phys} (h : a.tgt = .mem p) :
    c.touch n keep s a = c.touchLine n keep s p := by
  unfold Ctx.touch Ctx.touchLine
  rw [h]
  dsimp only
  split
  · simp
  · exact fill_eq ..

/-- A read of the local store or of a bulletin word is in no cache. -/
theorem touch_local {c : Ctx} {n : Nat} {keep : List Nat} {s : State} {a : LaneAcc} (h : ¬ ∃ p, a.tgt = .mem p) :
    c.touch n keep s a = some s := by
  unfold Ctx.touch
  cases ha : a.tgt with
  | mem p => exact absurd ⟨p, ha⟩ h
  | ls x => rfl
  | bull l => rfl

theorem touch_keeps {c : Ctx} {n : Nat} {keep : List Nat} {s t : State} {a : LaneAcc} (h : c.touch n keep s a = some t) :
    ReadKeeps s t := by
  by_cases ha : ∃ p, a.tgt = .mem p
  · obtain ⟨p, hp⟩ := ha
    rw [touch_mem hp, Ctx.touchLine] at h
    split at h
    · obtain rfl := Option.some.inj h
      exact .refl s
    · obtain ⟨u, hu, ht⟩ := Option.bind_eq_some_iff.mp h
      split at ht
      · obtain rfl := Option.some.inj ht
        exact enlist_keeps hu
      · exact (enlist_keeps hu).trans (serve_keeps ht)
  · rw [touch_local ha] at h
    obtain rfl := Option.some.inj h
    exact .refl s

theorem touches_eq_foldlM (c : Ctx) (n : Nat) (as : List LaneAcc) (s : State) :
    c.touches n as s = as.foldlM (c.touch n (accLines as)) s := by
  have h : ∀ (keep : List Nat) (as : List LaneAcc) (o : Option State),
      as.foldl (fun s a => s.bind fun s => c.touch n keep s a) o = o.bind fun s => as.foldlM (c.touch n keep) s := by
    intro keep as
    induction as with
    | nil => intro o; cases o <;> rfl
    | cons a as ih =>
      intro o
      rw [List.foldl_cons, ih]
      cases o <;> rfl
  exact h (accLines as) as (some s)

theorem foldlM_touch_keeps {c : Ctx} {n : Nat} {keep : List Nat} {t : State} (as : List LaneAcc) : ∀ {s : State},
    as.foldlM (c.touch n keep) s = some t → ReadKeeps s t := by
  induction as with
  | nil =>
    intro s h
    obtain rfl := Option.some.inj h
    exact .refl s
  | cons a as ih =>
    intro s h
    obtain ⟨u, hu, ht⟩ := Option.bind_eq_some_iff.mp h
    exact (touch_keeps hu).trans (ih ht)

theorem touches_keeps {c : Ctx} {n : Nat} {as : List LaneAcc} {s t : State} (h : c.touches n as s = some t) : ReadKeeps s t := by
  rw [touches_eq_foldlM] at h
  exact foldlM_touch_keeps as h

/-! ### States alike to a core's reads -/

/-- Two states are alike to the reads of a core: its sectors, its die's directory, the free choices, the words pending and
the lines of read sets. -/
structure Alike (core : Nat) (s t : State) : Prop where
  l1 : (t.core core).l1 = (s.core core).l1
  dir : (t.die (core / 200)).dir = (s.die (core / 200)).dir
  tick : t.tick = s.tick
  pend : t.pend = s.pend
  covered : ∀ on id, t.covered on id = s.covered on id

theorem covered_keeps {s t : State} (h : ReadKeeps s t) (on : Nat → Bool) (id : Nat) : t.covered on id = s.covered on id := by
  rw [State.covered, h.waves, h.teams]
  rfl

theorem rel_map {α : Type} {R : State → State → Prop} {f g : α → State} (h : ∀ e, R (f e) (g e)) {x : Option α} :
    Option.Rel R (x.map f) (x.map g) := by
  cases x with
  | none => exact .none
  | some e => exact .some (h e)

namespace Alike

variable {core : Nat}

theorem of_keeps {s t s' t' : State} (h : Alike core s t) (k : ReadKeeps s s') (k' : ReadKeeps t t')
    (l1 : (t'.core core).l1 = (s'.core core).l1) (dir : (t'.die (core / 200)).dir = (s'.die (core / 200)).dir) :
    Alike core s' t' where
  l1 := l1
  dir := dir
  tick := by rw [k.tick, k'.tick, h.tick]
  pend := by rw [k.pend, k'.pend, h.pend]
  covered on id := by rw [covered_keeps k, covered_keeps k', h.covered]

theorem look {s t s' t' : State} (h : Alike core s t) (k : LookKeeps s s') (k' : LookKeeps t t') : Alike core s' t' :=
  h.of_keeps k.keeps k'.keeps (by rw [k.lines.l1, k'.lines.l1, h.l1]) (by rw [k.lines.dir, k'.lines.dir, h.dir])

theorem setDir {s t : State} (h : Alike core s t) (id : Nat) (m : BitVec 202) :
    Alike core (s.setDir (core / 200) id m) (t.setDir (core / 200) id m) := by
  refine h.of_keeps (setDir_keeps ..) (setDir_keeps ..) h.l1 ?_
  have hd : ∀ u : State, ((u.setDir (core / 200) id m).die (core / 200)).dir = (u.die (core / 200)).dir.set 0 id m := fun u => by
    change ((u.updDie (core / 200) fun d => { d with dir := d.dir.set 0 id m }).die (core / 200)).dir = _
    rw [die_updDie, if_pos rfl]
  rw [hd, hd, h.dir]

theorem evictDir {s t : State} (h : Alike core s t) (id : Nat) :
    Alike core (s.evictDir (core / 200) id) (t.evictDir (core / 200) id) := by
  refine setDir (h.of_keeps (dropL1_keeps ..) (dropL1_keeps ..) ?_ h.dir) id 0
  rw [core_dropL1, core_dropL1, Core.dropped, Core.dropped, if_pos rfl, if_pos rfl, h.l1]

theorem updCore {s t : State} (h : Alike core s t) (f : Core → Core)
    (hf : ∀ c, f c = { c with l1 := (f c).l1 }) (hl : ∀ c d : Core, c.l1 = d.l1 → (f c).l1 = (f d).l1) :
    Alike core (s.updCore core f) (t.updCore core f) := by
  have hk : ∀ u : State, ReadKeeps u (u.updCore core f) := fun u => .updCore u core f fun c => by rw [hf c]
  refine h.of_keeps (hk s) (hk t) ?_ h.dir
  rw [core_updCore, core_updCore, if_pos rfl, if_pos rfl]
  exact hl _ _ h.l1

theorem enlist {s t : State} (h : Alike core s t) (id : Nat) (keep : List Nat) :
    Option.Rel (Alike core) (s.enlist core id keep) (t.enlist core id keep) := by
  unfold State.enlist
  dsimp only
  rw [h.dir, h.tick]
  split
  · exact .some (h.setDir ..)
  · simp only [h.covered]
    have hj : ∀ (e : Nat × BitVec 202) m,
        Alike core ((s.evictDir (core / 200) e.1).setDir (core / 200) id m) ((t.evictDir (core / 200) e.1).setDir (core / 200) id m) :=
      fun e m => (h.evictDir e.1).setDir id m
    exact rel_map fun e => hj e _

theorem l1Room {s t : State} (h : Alike core s t) (keep : List Nat) :
    Option.Rel (Alike core) (s.l1Room core keep) (t.l1Room core keep) := by
  unfold State.l1Room
  dsimp only
  rw [h.l1, h.tick]
  split
  · exact .some h
  · simp only [h.covered]
    exact rel_map fun e => h.updCore _ (fun _ => rfl) fun c d hcd => by rw [hcd]

theorem serve {s t : State} (h : Alike core s t) (own : Nat) (p : Phys) (keep : List Nat) :
    Option.Rel (Alike core) (s.serve core own p keep) (t.serve core own p keep) := by
  have hm : Alike core (s.missed core own p) (t.missed core own p) := h.look (missed_keeps ..) (missed_keeps ..)
  have hp : (t.missed core own p).sectorPending p = (s.missed core own p).sectorPending p := by
    rw [State.sectorPending, hm.pend]; rfl
  unfold State.serve
  rw [h.l1, hp]
  split
  · exact .some h
  · split
    · exact .some hm
    · have hr := hm.l1Room keep
      revert hr
      generalize State.l1Room _ core keep = a
      generalize State.l1Room _ core keep = b
      intro hr
      cases hr with
      | none => exact .none
      | some hr => exact .some (hr.updCore _ (fun _ => rfl) fun c d hcd => by rw [hcd])

end Alike

/-- Contexts whose waves forward alike touch states that are alike into states that are alike. -/
theorem touch_alike {c c' : Ctx} (ht : c'.t = c.t) (hf : c'.w.forwarded = c.w.forwarded) (n : Nat) (keep : List Nat)
    {s t : State} (h : Alike c.t.core s t) (a : LaneAcc) :
    Option.Rel (Alike c.t.core) (c.touch n keep s a) (c'.touch n keep t a) := by
  by_cases ha : ∃ p, a.tgt = .mem p
  · obtain ⟨p, hp⟩ := ha
    rw [touch_mem hp, touch_mem hp, Ctx.touchLine, Ctx.touchLine, ht, hf]
    split
    · exact .some h
    · have he := h.enlist (lineId p.sp p.addr) keep
      revert he
      generalize State.enlist _ c.t.core _ keep = x
      generalize State.enlist _ c.t.core _ keep = y
      intro he
      cases he with
      | none => exact .none
      | some he =>
        simp only [Option.bind_some]
        split
        · exact .some he
        · exact he.serve ..
  · rw [touch_local ha, touch_local ha]
    exact .some h

theorem foldlM_touch_alike {c c' : Ctx} (ht : c'.t = c.t) (hf : c'.w.forwarded = c.w.forwarded) (n : Nat) (keep : List Nat)
    (as : List LaneAcc) : ∀ {s t : State}, Alike c.t.core s t →
    (as.foldlM (c.touch n keep) s).isSome = true → (as.foldlM (c'.touch n keep) t).isSome = true := by
  induction as with
  | nil => exact fun _ _ => rfl
  | cons a as ih =>
    intro s t h hs
    have hr := touch_alike ht hf n keep h a
    rw [List.foldlM_cons] at hs ⊢
    revert hs hr
    generalize c.touch n keep s a = x
    generalize c'.touch n keep t a = y
    intro hs hr
    cases hr with
    | none => exact hs
    | some hr => exact ih hr hs

/-- The reads of a load find room from a state as they do from one that is alike. -/
theorem touches_isSome {c c' : Ctx} (ht : c'.t = c.t) (hf : c'.w.forwarded = c.w.forwarded) (n : Nat) (as : List LaneAcc)
    {s t : State} (h : Alike c.t.core s t) (hs : (c.touches n as s).isSome = true) : (c'.touches n as t).isSome = true := by
  rw [touches_eq_foldlM] at hs ⊢
  exact foldlM_touch_alike ht hf n _ as h hs

end Sys2Proof.Machine

/-! PROOFS. What a read of global memory receives, and reads that find room (O18). -/

namespace Sys2Proof.Machine

open Spec

/-! ### Bytes read (R253, R255, R332) -/

theorem forwarded_mem (w : Wave) (t : Team) (p : Phys) (n : Nat) :
    w.forwarded t (.mem p) n = (List.range n).map fun i => lastByte (w.memKnown p.sp) (p.addr + i) := rfl

/-- Every byte of a read is forwarded. -/
theorem forwarded_all_iff (w : Wave) (t : Team) (p : Phys) (n : Nat) :
    (w.forwarded t (.mem p) n).all Option.isSome = true ↔ ∀ k, k < n → lastByte (w.memKnown p.sp) (p.addr + k) ≠ none := by
  simp [forwarded_mem, Option.isSome_iff_ne_none]

theorem heldAtHome_mem (s : State) (core tid n : Nat) (p : Phys) : s.heldAtHome core tid n (.mem p) = true ↔
    p.sector ∉ (s.core core).l1 ∧ ∃ x ∈ (AtomTgt.mem p).locs tid n, ∃ y, (x, y) ∈ s.pend := by
  simp only [State.heldAtHome, Bool.and_eq_true, Bool.not_eq_true', List.contains_eq_mem, decide_eq_false_iff_not,
    List.any_eq_true, decide_eq_true_eq]
  refine and_congr_right fun _ => ⟨?_, ?_⟩
  · rintro ⟨x, hx, ⟨z, y⟩, he, rfl⟩
    exact ⟨z, hx, y, he⟩
  · rintro ⟨x, hx, y, he⟩
    exact ⟨x, hx, (x, y), he, rfl⟩

theorem length_leBytes (n v : Nat) : (leBytes n v).length = n := by
  induction n generalizing v with
  | zero => rfl
  | succ n ih => exact congrArg Nat.succ (ih _)

theorem length_forwarded (w : Wave) (t : Team) (tgt : AtomTgt) (n : Nat) : (w.forwarded t tgt n).length = n := by
  unfold Wave.forwarded
  split
  · simp
  · simp
  · split
    · rw [List.length_map, length_leBytes]
    · exact List.length_replicate

theorem length_homeBytes (s : State) (tid : Nat) (tgt : AtomTgt) (n : Nat) : (s.homeBytes tid tgt n).length = n := by
  unfold State.homeBytes
  split
  · simp [State.bytesAt]
  · split <;> simp
  · exact length_leBytes ..

/-- The bytes of a read: those forwarded over those of the home. -/
def Ctx.mergedBytes (c : Ctx) (tgt : AtomTgt) (n : Nat) : List Byte :=
  ((c.w.forwarded c.t tgt n).zip (c.s.homeBytes c.w.tid tgt n)).map fun e => e.1.getD e.2

theorem length_mergedBytes (c : Ctx) (tgt : AtomTgt) (n : Nat) : (c.mergedBytes tgt n).length = n := by
  simp [Ctx.mergedBytes, length_forwarded, length_homeBytes]

/-- Bytes that are all forwarded merge with any of the home's. -/
theorem getD_zip_of_all {fw : List (Option Byte)} {hb : List Byte} (hl : fw.length = hb.length) (h : fw.all Option.isSome = true) :
    (fw.map fun b => b.getD 0) = (fw.zip hb).map fun e => e.1.getD e.2 := by
  refine List.ext_getElem (by simp [hl]) fun i h1 h2 => ?_
  have hi : i < fw.length := by simpa using h1
  obtain ⟨b, hb⟩ := Option.isSome_iff_exists.mp (List.all_eq_true.mp h fw[i] (List.getElem_mem hi))
  simp [hb]

/-- A read has its bytes unless it waits for one of its words. -/
theorem readBytes_cases (c : Ctx) (tgt : AtomTgt) (n : Nat) : c.readBytes tgt n =
    if (tgt.locs c.w.tid n).any c.w.undecided.contains = true ∨
        (¬ (c.w.forwarded c.t tgt n).all Option.isSome = true ∧ c.s.heldAtHome c.t.core c.w.tid n tgt = true) then none
    else some (c.mergedBytes tgt n) := by
  unfold Ctx.readBytes
  dsimp only
  by_cases hu : (tgt.locs c.w.tid n).any c.w.undecided.contains = true
  · rw [if_pos hu, if_pos (.inl hu)]
  · rw [if_neg hu]
    by_cases hf : (c.w.forwarded c.t tgt n).all Option.isSome = true
    · rw [if_pos hf, if_neg (by simp [hu, hf]), Ctx.mergedBytes,
        getD_zip_of_all ((length_forwarded ..).trans (length_homeBytes ..).symm) hf]
    · rw [if_neg hf]
      by_cases hh : c.s.heldAtHome c.t.core c.w.tid n tgt = true
      · rw [if_pos hh, if_pos (.inr ⟨hf, hh⟩)]
      · rw [if_neg hh, if_neg (by simp [hu, hh])]
        rfl

theorem length_readBytes {c : Ctx} {tgt : AtomTgt} {n : Nat} {bs : List Byte} (h : c.readBytes tgt n = some bs) : bs.length = n := by
  rw [readBytes_cases] at h
  split at h
  · exact absurd h nofun
  · obtain rfl := Option.some.inj h
    exact length_mergedBytes ..

theorem mergedBytes_mem (c : Ctx) (p : Phys) {n k : Nat} (h : k < n) : (c.mergedBytes (.mem p) n)[k]? =
    some ((lastByte (c.w.memKnown p.sp) (p.addr + k)).getD (c.s.byteAt p.sp p.key (p.addr + k))) := by
  simp [Ctx.mergedBytes, forwarded_mem, State.homeBytes, State.bytesAt, h]

theorem readsForwardHold_holds : Spec.readsForwardHold := by
  intro c p n bs own words
  have hown : own = lastByte (c.w.memKnown p.sp) := rfl
  have hu : words.any c.w.undecided.contains = true ↔ ∃ x ∈ words, x ∈ c.w.undecided := by simp
  have hf : ¬ (c.w.forwarded c.t (.mem p) n).all Option.isSome = true ↔ ∃ k, k < n ∧ own (p.addr + k) = none := by
    rw [forwarded_all_iff, hown]
    push Not
    rfl
  have hwait := or_congr hu (and_congr hf (heldAtHome_mem c.s c.t.core c.w.tid n p))
  rw [readBytes_cases]
  split
  · next hw => exact ⟨nofun, iff_of_true rfl (hwait.mp hw)⟩
  · next hw =>
    have hw := mt hwait.mpr hw
    refine ⟨fun h => ?_, iff_of_false nofun hw⟩
    obtain rfl := Option.some.inj h
    exact ⟨length_mergedBytes .., fun x hx hxu => hw (.inl ⟨x, hx, hxu⟩), fun k hk => mergedBytes_mem c p hk⟩

/-! ### Reads that find room (R1, R330, R416) -/

theorem length_put_le {α : Type} (t : Tbl α) (n : Nat) (x : α) : (t.put n x).length ≤ t.length + 1 := by
  induction t with
  | nil => exact le_rfl
  | cons e t ih =>
    obtain ⟨k, v⟩ := e
    unfold Tbl.put
    split
    · exact le_rfl
    · split
      · exact Nat.le_succ _
      · exact Nat.succ_le_succ ih

theorem length_del_le {α : Type} (t : Tbl α) (n : Nat) : (t.del n).length ≤ t.length := by
  induction t with
  | nil => exact le_rfl
  | cons e t ih =>
    obtain ⟨k, v⟩ := e
    unfold Tbl.del
    split
    · exact Nat.le_succ_of_le ih
    · exact Nat.succ_le_succ ih

theorem length_set_le {α : Type} [DecidableEq α] (d : α) (t : Tbl α) (n : Nat) (x : α) :
    (t.set d n x).length ≤ t.length + 1 := by
  unfold Tbl.set
  split
  · exact Nat.le_succ_of_le (length_del_le t n)
  · exact length_put_le t n x

/-- A core's line is listed in its die's directory and at the home (R330). -/
def Listed (core : Nat) (s : State) (id : Nat) : Prop :=
  ((s.die (core / 200)).dir.get 0 id).getLsbD (core % 200) = true ∧ (s.homeDir.get 0 id).getLsbD (core / 200) = true

/-- A core joins a line's mask in its die's directory. -/
def State.join (s : State) (core id : Nat) : State :=
  s.setDir (core / 200) id ((s.die (core / 200)).dir.get 0 id ||| coreBit core)

theorem dir_join (s : State) (core id : Nat) : ((s.join core id).die (core / 200)).dir =
    (s.die (core / 200)).dir.set 0 id ((s.die (core / 200)).dir.get 0 id ||| coreBit core) := by
  change ((s.updDie (core / 200) fun d => { d with dir := d.dir.set 0 id _ }).die (core / 200)).dir = _
  rw [die_updDie, if_pos rfl]

theorem getLsbD_coreBit (core : Nat) : (coreBit core).getLsbD (core % 200) = true := by
  have h : core % 200 < 202 := by omega
  rw [coreBit, BitVec.getLsbD_ofNat, Nat.testBit_two_pow_self, decide_eq_true h]
  rfl

theorem getLsbD_dieBit {die : Nat} (h : die < 17) : (dieBit die).getLsbD die = true := by
  rw [dieBit, BitVec.getLsbD_ofNat, Nat.testBit_two_pow_self, decide_eq_true h]
  rfl

theorem mask_ne_zero (m : BitVec 202) (core : Nat) : m ||| coreBit core ≠ 0#202 := by
  intro h
  have hb := congrArg (fun m : BitVec 202 => m.getLsbD (core % 200)) h
  simp [getLsbD_coreBit] at hb

theorem homeDir_join (s : State) (core id : Nat) :
    (s.join core id).homeDir = s.homeDir.set 0 id (s.homeDir.get 0 id ||| dieBit (core / 200)) := by
  change Tbl.set 0 s.homeDir id (if (_ ||| coreBit core) = 0#202 then _ else _) = _
  rw [if_neg (mask_ne_zero _ core)]
  rfl

theorem listed_join_self {core : Nat} (h : core < 3200) (s : State) (id : Nat) : Listed core (s.join core id) id := by
  constructor
  · rw [dir_join, Tbl.get_set_self, BitVec.getLsbD_or, getLsbD_coreBit, Bool.or_true]
  · rw [homeDir_join, Tbl.get_set_self, BitVec.getLsbD_or, getLsbD_dieBit (by omega), Bool.or_true]

theorem Listed.join {core : Nat} {s : State} {j : Nat} (h : Listed core s j) (id : Nat) : Listed core (s.join core id) j := by
  obtain ⟨hd, hh⟩ := h
  constructor
  · rw [dir_join, Tbl.get_set]
    split
    · next e => rw [BitVec.getLsbD_or, ← e, hd, Bool.true_or]
    · exact hd
  · rw [homeDir_join, Tbl.get_set]
    split
    · next e => rw [BitVec.getLsbD_or, ← e, hh, Bool.true_or]
    · exact hh

/-- What takes at most so many entries of a core's cache and of its die's directory, and unlists nothing. -/
structure Takes (core nl nd : Nat) (s t : State) : Prop where
  l1 : (t.core core).l1.length ≤ (s.core core).l1.length + nl
  dir : List.length (t.die (core / 200)).dir ≤ List.length (s.die (core / 200)).dir + nd
  listed : ∀ id, Listed core s id → Listed core t id

theorem Takes.refl (core : Nat) (s : State) : Takes core 0 0 s s := ⟨le_rfl, le_rfl, fun _ h => h⟩

theorem Takes.trans {core nl nd ml md : Nat} {a b c : State} (h : Takes core nl nd a b) (k : Takes core ml md b c) :
    Takes core (nl + ml) (nd + md) a c where
  l1 := by have := h.l1; have := k.l1; omega
  dir := by have := h.dir; have := k.dir; omega
  listed id hl := k.listed id (h.listed id hl)

theorem Takes.mono {core nl nd ml md : Nat} {a b : State} (h : Takes core nl nd a b) (hl : nl ≤ ml) (hd : nd ≤ md) :
    Takes core ml md a b := ⟨h.l1.trans (Nat.add_le_add_left hl _), h.dir.trans (Nat.add_le_add_left hd _), h.listed⟩

theorem missed_homeDir (s : State) (core own : Nat) (p : Phys) : (s.missed core own p).homeDir = s.homeDir := by
  have h := homeTouch_homeFrame (s.count core 6) own p false
  rw [HomeFrame] at h
  unfold State.missed
  rw [h]
  rfl

theorem missed_l1 (s : State) (core own k : Nat) (p : Phys) : ((s.missed core own p).core k).l1 = (s.core k).l1 :=
  (missed_keeps s core own p).lines.l1 k

theorem takeSector_core (s : State) (core : Nat) (p : Phys) : (s.takeSector core p).core core = { s.core core with
    l1 := p.sector :: (s.core core).l1.filter fun x => !(x.sp == p.sp && x.n == p.addr / 32) } := by
  rw [State.takeSector, core_updCore, if_pos rfl]

theorem missed_takes (s : State) (core own : Nat) (p : Phys) : Takes core 0 0 s (s.missed core own p) where
  l1 := by rw [missed_l1]; exact le_rfl
  dir := by rw [(missed_keeps s core own p).lines.dir]; exact le_rfl
  listed id h := by rw [Listed, (missed_keeps s core own p).lines.dir, missed_homeDir]; exact h

theorem takeSector_takes (s : State) (core : Nat) (p : Phys) : Takes core 1 0 s (s.takeSector core p) where
  l1 := by
    rw [takeSector_core]
    exact Nat.succ_le_succ (List.length_filter_le ..)
  dir := le_rfl
  listed _ h := h

/-- The state after a read of a listed line with an entry of the cache free. -/
def State.served (s : State) (core own : Nat) (p : Phys) : State :=
  if (s.core core).l1.contains p.sector then s
  else if (s.missed core own p).sectorPending p then s.missed core own p
  else (s.missed core own p).takeSector core p

theorem serve_room {s : State} {core : Nat} (h : (s.core core).l1.length < 4096) (own : Nat) (p : Phys) (keep : List Nat) :
    s.serve core own p keep = some (s.served core own p) := by
  unfold State.serve State.served
  split
  · rfl
  · split
    · rfl
    · rw [State.l1Room, if_pos (by rw [missed_l1]; exact h)]
      rfl

theorem served_takes (s : State) (core own : Nat) (p : Phys) : Takes core 1 0 s (s.served core own p) := by
  unfold State.served
  split
  · exact (Takes.refl core s).mono (Nat.zero_le 1) le_rfl
  · split
    · exact (missed_takes s core own p).mono (Nat.zero_le 1) le_rfl
    · exact (missed_takes s core own p).trans (takeSector_takes ..)

theorem enlist_room {s : State} {core : Nat} (h : List.length (s.die (core / 200)).dir < 64 + Config.dieDirMore) (id : Nat)
    (keep : List Nat) : s.enlist core id keep = some (s.join core id) := by
  unfold State.enlist
  dsimp only
  rw [if_pos (.inr h)]
  rfl

theorem join_takes (s : State) (core id : Nat) : Takes core 0 1 s (s.join core id) where
  l1 := le_rfl
  dir := by rw [dir_join]; exact length_set_le ..
  listed _ h := h.join id

/-- The state after a lane's read of global memory with an entry of the cache and one of the directory free. -/
def Ctx.touched (c : Ctx) (n : Nat) (p : Phys) (s : State) : State :=
  if p.tier = 2 ∨ p.tier = 4 then s
  else if (c.w.forwarded c.t (.mem p) n).all Option.isSome then s.join c.t.core (lineId p.sp p.addr)
  else (s.join c.t.core (lineId p.sp p.addr)).served c.t.core c.t.owner p

theorem touch_room {c : Ctx} {s : State} (h1 : (s.core c.t.core).l1.length < 4096)
    (hd : List.length (s.die (c.t.core / 200)).dir < 64 + Config.dieDirMore) (n : Nat) (keep : List Nat) {a : LaneAcc} {p : Phys}
    (ha : a.tgt = .mem p) : c.touch n keep s a = some (c.touched n p s) := by
  rw [touch_mem ha, Ctx.touchLine, Ctx.touched, enlist_room hd]
  split
  · rfl
  · rw [Option.bind_some]
    split
    · rfl
    · exact serve_room (s := s.join c.t.core (lineId p.sp p.addr)) h1 c.t.owner p keep

theorem touched_takes (c : Ctx) (n : Nat) (p : Phys) (s : State) : Takes c.t.core 1 1 s (c.touched n p s) := by
  have hj := join_takes s c.t.core (lineId p.sp p.addr)
  unfold Ctx.touched
  split
  · exact (Takes.refl _ s).mono (Nat.zero_le 1) (Nat.zero_le 1)
  · split
    · exact hj.mono (Nat.zero_le 1) le_rfl
    · exact hj.trans (served_takes ..)

theorem touched_listed {c : Ctx} (hc : c.t.core < 3200) (n : Nat) {p : Phys} (h2 : p.tier ≠ 2) (h4 : p.tier ≠ 4) (s : State) :
    Listed c.t.core (c.touched n p s) (lineId p.sp p.addr) := by
  have hl := listed_join_self hc s (lineId p.sp p.addr)
  rw [Ctx.touched, if_neg (by omega)]
  split
  · exact hl
  · exact (served_takes ..).listed _ hl

/-- Reads find room while there is an entry of the cache and one of the directory for each; their lines are then listed. -/
theorem foldlM_touch_room {c : Ctx} (hc : c.t.core < 3200) (n : Nat) (keep : List Nat) (as : List LaneAcc) : ∀ {s : State},
    (s.core c.t.core).l1.length + as.length ≤ 4096 →
    List.length (s.die (c.t.core / 200)).dir + as.length ≤ 64 + Config.dieDirMore →
    ∃ t, as.foldlM (c.touch n keep) s = some t ∧ (∀ id, Listed c.t.core s id → Listed c.t.core t id) ∧
      ∀ a ∈ as, ∀ p, a.tgt = .mem p → p.tier ≠ 2 → p.tier ≠ 4 → Listed c.t.core t (lineId p.sp p.addr) := by
  induction as with
  | nil => exact fun {s} _ _ => ⟨s, rfl, fun _ h => h, nofun⟩
  | cons a as ih =>
    intro s h1 hd
    rw [List.length_cons] at h1 hd
    have step : ∃ u, c.touch n keep s a = some u ∧ Takes c.t.core 1 1 s u ∧
        ∀ p, a.tgt = .mem p → p.tier ≠ 2 → p.tier ≠ 4 → Listed c.t.core u (lineId p.sp p.addr) := by
      by_cases hm : ∃ p, a.tgt = .mem p
      · obtain ⟨p, hp⟩ := hm
        refine ⟨_, touch_room (by omega) (by omega) n keep hp, touched_takes .., fun q hq h2 h4 => ?_⟩
        obtain rfl := AtomTgt.mem.inj (hp.symm.trans hq)
        exact touched_listed hc n h2 h4 s
      · exact ⟨s, touch_local hm, (Takes.refl _ s).mono (Nat.zero_le 1) (Nat.zero_le 1), fun p hp => absurd ⟨p, hp⟩ hm⟩
    obtain ⟨u, hu, ht, hl⟩ := step
    have hl1 := ht.l1
    have hdir := ht.dir
    obtain ⟨t, htu, hkeep, hall⟩ := ih (s := u) (by omega) (by omega)
    refine ⟨t, ?_, fun id h => hkeep id (ht.listed id h), fun b hb p hp h2 h4 => ?_⟩
    · rw [List.foldlM_cons, hu]
      exact htu
    · rcases List.mem_cons.mp hb with rfl | hb
      · exact hkeep _ (hl p hp h2 h4)
      · exact hall b hb p hp h2 h4

theorem ReadKeeps.onlyAccess {s t : State} (h : ReadKeeps s t) (wid : Nat) : OnlyAccess s t wid where
  rest := by
    have hr := h.rest
    have hw : t.waves = s.waves := h.waves
    have hq : t.seq = s.seq := by rw [h.rest]
    rw [hw, hq]
    exact hr
  waves k _ := by rw [h.waves]
  cores := h.cores
  dies := h.dies
  bytes hc := (h.store hc).bytes

theorem sectorPending_iff (s : State) (p : Phys) :
    s.sectorPending p = true ↔ ∃ e ∈ s.pend, ∃ w, e.1 = .mem p.sp w ∧ w / 8 = p.addr / 32 := by
  rw [State.sectorPending, List.any_eq_true]
  refine exists_congr fun e => and_congr_right fun _ => ?_
  cases e.1 <;> simp

theorem missed_perf (s : State) (core own : Nat) (p : Phys) :
    ((s.missed core own p).core core).perf.get 0 6 = ((s.core core).perf.get 0 6 + 1) % 2 ^ 32 := by
  have h := homeTouch_homeFrame (s.count core 6) own p false
  rw [HomeFrame] at h
  unfold State.missed
  rw [h]
  change ((s.count core 6).core core).perf.get 0 6 = _
  rw [State.count, core_updCore, if_pos rfl, Tbl.get_set_self]

/-- A miss takes the sector unless one of its words is pending, and is counted. -/
theorem served_miss {s : State} {core : Nat} (own : Nat) (p : Phys) (h : p.sector ∉ (s.core core).l1) :
    (p.sector ∈ ((s.served core own p).core core).l1 ↔ ¬ s.sectorPending p = true) ∧
    ((s.served core own p).core core).perf.get 0 6 = ((s.core core).perf.get 0 6 + 1) % 2 ^ 32 := by
  have hp : (s.missed core own p).sectorPending p = s.sectorPending p := by
    rw [State.sectorPending, (missed_keeps s core own p).keeps.pend]
    rfl
  rw [State.served, if_neg (by simpa using h), hp]
  split
  · next hs => exact ⟨iff_of_false (by rw [missed_l1]; exact h) (not_not.mpr hs), missed_perf ..⟩
  · next hs =>
    rw [takeSector_core]
    exact ⟨iff_of_true List.mem_cons_self hs, missed_perf ..⟩

theorem loadRoomHold_holds : Spec.loadRoomHold := by
  intro c s n as hc h1 hd
  obtain ⟨t, ht, -, hl⟩ := foldlM_touch_room hc n (accLines as) as h1 hd
  rw [← touches_eq_foldlM] at ht
  have hk := touches_keeps ht
  refine ⟨t, ht, hk.onlyAccess c.wid, hk.waves, hl, ?_⟩
  rintro a p rfl ha h2 h4 hf hs
  rw [List.length_singleton] at h1 hd
  have htd : t = c.touched n p s := by
    have hone : c.touches n [a] s = (c.touch n (accLines [a]) s a).bind some := touches_eq_foldlM ..
    rw [ht, touch_room (by omega) (by omega) n _ ha] at hone
    exact Option.some.inj hone
  have hnf : ¬ (c.w.forwarded c.t (.mem p) n).all Option.isSome = true := by
    obtain ⟨k, hk, hn⟩ := hf
    exact fun hall => (forwarded_all_iff ..).mp hall k hk hn
  rw [Ctx.touched, if_neg (by omega), if_neg hnf] at htd
  obtain ⟨hin, hperf⟩ := served_miss (s := s.join c.t.core (lineId p.sp p.addr)) (core := c.t.core) c.t.owner p hs
  rw [htd]
  refine ⟨hin.trans ?_, hperf⟩
  rw [sectorPending_iff]
  push Not
  rfl

end Sys2Proof.Machine

/-! PROOFS. Loads: the words that bytes become, and the accesses of the lanes after the copies of R336 (O18). -/

namespace Sys2Proof.Machine

open Spec

/-! ### Words of loaded bytes (R256) -/

/-- The word of four bytes, the low-order byte first. -/
def wordAt (bs : List Byte) (k : Nat) : Word :=
  BitVec.ofNat 32 (bs.getD (4 * k) 0).toNat + BitVec.ofNat 32 ((bs.getD (4 * k + 1) 0).toNat * 2 ^ 8) +
    BitVec.ofNat 32 ((bs.getD (4 * k + 2) 0).toNat * 2 ^ 16) + BitVec.ofNat 32 ((bs.getD (4 * k + 3) 0).toNat * 2 ^ 24)

theorem leValue_getD (bs : List Byte) : leValue bs = (bs.getD 0 0).toNat + 256 * leValue (bs.drop 1) := by
  cases bs <;> rfl

theorem leValue_div (k : Nat) : ∀ bs : List Byte, leValue bs / 256 ^ k = leValue (bs.drop k) := by
  induction k with
  | zero => exact fun bs => Nat.div_one _
  | succ k ih =>
    intro bs
    have hb := (bs.getD 0 0).isLt
    rw [leValue_getD bs, Nat.pow_succ', ← Nat.div_div_eq_div_mul, Nat.add_mul_div_left _ _ (by decide),
      Nat.div_eq_of_lt hb, Nat.zero_add, ih, List.drop_drop, Nat.add_comm]

theorem getD_drop (bs : List Byte) (i k : Nat) : (bs.drop i).getD k 0 = bs.getD (i + k) 0 := by
  simp [List.getD_eq_getElem?_getD]

/-- A value of four low bytes modulo the word. -/
theorem ofNat_four (a b c d r : Nat) : BitVec.ofNat 32 (a + 256 * (b + 256 * (c + 256 * (d + 256 * r)))) =
    BitVec.ofNat 32 a + BitVec.ofNat 32 (b * 2 ^ 8) + BitVec.ofNat 32 (c * 2 ^ 16) + BitVec.ofNat 32 (d * 2 ^ 24) := by
  rw [show a + 256 * (b + 256 * (c + 256 * (d + 256 * r))) = a + b * 2 ^ 8 + c * 2 ^ 16 + d * 2 ^ 24 + 2 ^ 32 * r by ring]
  simp only [← BitVec.ofNat_add]
  exact BitVec.eq_of_toNat_eq (by rw [BitVec.toNat_ofNat, BitVec.toNat_ofNat, Nat.add_mul_mod_self_left])

theorem ofNat_leValue (bs : List Byte) : BitVec.ofNat 32 (leValue bs) = wordAt bs 0 := by
  rw [leValue_getD bs, leValue_getD (bs.drop 1), leValue_getD ((bs.drop 1).drop 1), leValue_getD (((bs.drop 1).drop 1).drop 1)]
  simp only [List.drop_drop, getD_drop]
  exact ofNat_four ..

theorem wordAt_drop (bs : List Byte) (k : Nat) : wordAt (bs.drop (4 * k)) 0 = wordAt bs k := by
  simp only [wordAt, getD_drop, Nat.mul_zero, Nat.zero_add, Nat.add_zero]

theorem ofNat_leValue_div (bs : List Byte) (k : Nat) : BitVec.ofNat 32 (leValue bs / 2 ^ (32 * k)) = wordAt bs k := by
  rw [show (2 : Nat) ^ (32 * k) = 256 ^ (4 * k) by rw [show 256 = 2 ^ 8 from rfl, ← pow_mul]; congr 1; omega, leValue_div,
    ofNat_leValue, wordAt_drop]

theorem ofInt_signOf {n : Nat} (b : BitVec n) (hn : 0 < n) : BitVec.ofInt 32 (signOf n b.toNat) = b.signExtend 32 := by
  have h : signOf n b.toNat = b.toInt := by
    rw [signOf, BitVec.toInt_eq_toNat_cond, Nat.mod_eq_of_lt b.isLt]
    have hp : 2 ^ n = 2 * 2 ^ (n - 1) := by rw [← Nat.pow_succ', Nat.succ_eq_add_one, Nat.sub_add_cancel hn]
    have : b.toNat < 2 ^ (n - 1) ↔ 2 * b.toNat < 2 ^ n := by omega
    simp only [this]
  rw [h]
  rfl

theorem Size.words_eq {z : Size} {bs : List Byte} (h : bs.length = accessBytes z) {k : Nat} (hk : k < z.regs) :
    (Size.words z bs).getD k 0 = loadedWord z bs k := by
  have hdiv := ofNat_leValue_div bs k
  cases z with
  | ub | uh | word =>
    obtain rfl : k = 0 := Nat.lt_one_iff.mp hk
    exact ofNat_leValue bs
  | sb =>
    obtain rfl : k = 0 := Nat.lt_one_iff.mp hk
    obtain ⟨b, rfl⟩ := List.length_eq_one_iff.mp h
    exact ofInt_signOf b (by decide)
  | sh =>
    obtain rfl : k = 0 := Nat.lt_one_iff.mp hk
    obtain ⟨b, d, rfl⟩ := List.length_eq_two.mp h
    have hv : leValue [b, d] = (d ++ b : BitVec 16).toNat := by
      rw [BitVec.toNat_append, ← Nat.shiftLeft_add_eq_or_of_lt b.isLt, Nat.shiftLeft_eq]
      simp only [leValue]
      omega
    change BitVec.ofInt 32 (signOf 16 (leValue [b, d])) = _
    rw [hv]
    exact ofInt_signOf (d ++ b : BitVec 16) (by decide)
  | pr =>
    have hk : k = 0 ∨ k = 1 := by change k < 2 at hk; omega
    rcases hk with rfl | rfl
    · exact ofNat_leValue bs
    · exact hdiv
  | qd =>
    change k < 4 at hk
    rw [show loadedWord .qd bs k = wordAt bs k from rfl, ← hdiv]
    simp [Size.words, List.getD_eq_getElem?_getD, hk]

/-! ### What the copies of R336 leave of a context -/

/-- Two contexts that differ in their wave's region, and in the waves of their states, alone. -/
structure RegionOnly (c c' : Ctx) : Prop where
  w : c'.w = { c.w with region := c'.w.region }
  wid : c'.wid = c.wid
  t : c'.t = c.t
  set : c'.set = c.set
  pc : c'.pc = c.pc
  s : c'.s = { c.s with waves := c'.s.waves }

theorem shadow_regionOnly (c : Ctx) (f : Form) : RegionOnly c (c.shadow f) := by
  obtain ⟨hw, hwid, ht, hset, hpc, -, -, -, hs⟩ := shadow_spec c f
  exact ⟨by rw [hw], hwid, ht, hset, hpc, hs⟩

section

variable (s : State) (W : Tbl Wave)

theorem bytesAt_waves (sp : Space) (key a n : Nat) : ({ s with waves := W } : State).bytesAt sp key a n = s.bytesAt sp key a n := by
  have h : SameStore s { s with waves := W } := ⟨rfl, rfl, rfl, rfl, rfl, rfl, rfl, rfl, rfl, rfl, rfl⟩
  simp only [State.bytesAt, h.bytes sp key]

theorem walkFrom_waves (own : Nat) (o : Owner) (va fuel : Nat) : ∀ (level table : Nat) (ps : List WalkEnt),
    ({ s with waves := W } : State).walkFrom own o va fuel level table ps = s.walkFrom own o va fuel level table ps := by
  have he : ∀ level table, ({ s with waves := W } : State).entryAt o level table va = s.entryAt o level table va := fun _ _ => by
    simp only [State.entryAt, bytesAt_waves]
  induction fuel with
  | zero => exact fun _ _ _ => rfl
  | succ fuel ih =>
    intro level table ps
    simp only [State.walkFrom, he, ih]
    rfl

theorem xlate_waves (core die own lane va : Nat) :
    ({ s with waves := W } : State).xlate core die own lane va = s.xlate core die own lane va := by
  have hw : ∀ o, ({ s with waves := W } : State).walk die own o va = s.walk die own o va := fun o => by
    simp only [State.walk, walkFrom_waves]
    rfl
  simp only [State.xlate, hw]
  rfl

theorem access_waves (core die own : Nat) (lv : Level) (k : AccKind) (lane va : Nat) :
    ({ s with waves := W } : State).access core die own lv k lane va = s.access core die own lv k lane va := by
  simp only [State.access, xlate_waves]

theorem homeBytes_waves (tid : Nat) (tgt : AtomTgt) (n : Nat) :
    ({ s with waves := W } : State).homeBytes tid tgt n = s.homeBytes tid tgt n := by
  cases tgt with
  | mem p => exact bytesAt_waves ..
  | ls a => rfl
  | bull l => rfl

end

namespace RegionOnly

variable {c c' : Ctx} (h : RegionOnly c c')

include h

theorem reg (r : Reg) (l i : Nat) : c'.reg r l i = c.reg r l i := by
  unfold Ctx.reg
  rw [h.w]
  rfl

theorem regW (r : Reg) (l i : Nat) : c'.regW r l i = c.regW r l i := by
  rw [Ctx.regW, h.reg, h.reg]
  rfl

theorem cnt : c'.cnt = c.cnt := by
  rw [Ctx.cnt, h.set, h.w]
  rfl

theorem unit (e : Reg × Nat) : c'.unit e = c.unit e := by
  unfold Ctx.unit
  rw [h.w]
  rfl

theorem targets (f : Form) : c'.targets f = c.targets f := by
  rw [Ctx.targets, funext h.unit]
  rfl

theorem globalLane (k : AccKind) (n l : Nat) (ea : DWord) : c'.globalLane k n l ea = c.globalLane k n l ea := by
  have hl : c'.w.level = c.w.level := by rw [h.w]
  unfold Ctx.globalLane
  rw [h.s, h.t, hl, access_waves]

theorem localLane (k : AccKind) (n l : Nat) (ea : Word) : c'.localLane k n l ea = c.localLane k n l ea := by
  unfold Ctx.localLane Ctx.localPlace
  rw [h.s, h.t]
  rfl

theorem readBytes (tgt : AtomTgt) (n : Nat) : c'.readBytes tgt n = c.readBytes tgt n := by
  unfold Ctx.readBytes
  rw [h.s, h.t, h.w, homeBytes_waves]
  rfl

theorem isAbsent (tgt : AtomTgt) : c'.isAbsent tgt = c.isAbsent tgt := by
  unfold Ctx.isAbsent
  rw [h.t]

theorem missingKeys (n : Nat) (as : List LaneAcc) : c'.missingKeys n as = c.missingKeys n as := by
  unfold Ctx.missingKeys
  rw [h.s, h.t, h.w]
  rfl

theorem forwarded : c'.w.forwarded = c.w.forwarded := by
  rw [h.w]
  rfl

end RegionOnly

end Sys2Proof.Machine

/-! PROOFS. Loads complete with the bytes their reads receive (O18). -/

namespace Sys2Proof.Machine

open Spec

/-! ### The forms of a load (R250, R251, R256 to R258) -/

theorem bytes_eq_accessBytes (z : Size) : Size.bytes z = accessBytes z := by
  cases z <;> rfl

theorem eaM_eq (c : Ctx) (a : Reg) (z : Size) (off : Int) : c.eaM a z off = eaOff a z off c := by
  funext l
  rw [Ctx.eaM, eaOff, BitVec.ofInt_add, BitVec.ofInt_natCast, BitVec.ofNat_toNat, BitVec.setWidth_eq, bytes_eq_accessBytes]

theorem eaL_eq (c : Ctx) (a : Reg) (z : Size) (off : Int) : c.eaL a z off = eaLoc a z off c := by
  funext l
  rw [Ctx.eaL, eaLoc, BitVec.ofInt_add, BitVec.ofInt_natCast, BitVec.ofNat_toNat, BitVec.setWidth_eq, bytes_eq_accessBytes]

theorem eaX_eq (c : Ctx) (a b : Reg) (z : Size) : c.eaX a b z = eaIdx a b z c := by
  funext l
  rw [Ctx.eaX, eaIdx, BitVec.ofNat_add, BitVec.ofNat_toNat, BitVec.setWidth_eq, bytes_eq_accessBytes]

/-- An instruction that executes as a load of an access, for contexts whose counted lanes pass its checks. -/
structure LoadsAs (i : Instr) (o : MemOp) (f : Form) (body : Ctx → Res) : Prop where
  exec (s : State) : exec i s = issue f body s
  form (s : State) : s.formOf i = f
  dst : f.dst = [(o.r, o.z.regs)]
  size : o.n = Size.bytes o.z
  body (c : Ctx) : o.passes c → body c = c.load f o.r o.z (o.ea c) (o.one c)
  lane {c : Ctx} {l : Nat} {a : LaneAcc} : o.one c l = .ok a → a.lane = l
  ea {c c' : Ctx} : RegionOnly c c' → o.ea c' = o.ea c
  one {c c' : Ctx} : RegionOnly c c' → o.one c' = o.one c

theorem lane_eq (o : MemOp) (c : Ctx) (l : Nat) : o.lane c l =
    match o.one c l with
    | .ok a => some a
    | .error _ => none := by
  unfold MemOp.lane MemOp.one
  split <;> rfl

theorem passes_iff (o : MemOp) (c : Ctx) : o.passes c ↔ ∀ l ∈ lanesOf c.cnt, ∃ a, o.one c l = .ok a := by
  simp only [MemOp.passes, mem_lanesOf, lane_eq]
  refine forall₂_congr fun l _ => ?_
  cases o.one c l <;> simp

theorem globalLane_lane {c : Ctx} {k : AccKind} {n l : Nat} {ea : DWord} {a : LaneAcc} (h : c.globalLane k n l ea = .ok a) :
    a.lane = l := by
  unfold Ctx.globalLane at h
  split at h
  · exact absurd h nofun
  · split at h
    · exact absurd h nofun
    · split at h
      · exact absurd h nofun
      · exact absurd h nofun
      · split at h
        · exact absurd h nofun
        · rw [← Except.ok.inj h]

theorem localLane_lane {c : Ctx} {k : AccKind} {n l : Nat} {ea : Word} {a : LaneAcc} (h : c.localLane k n l ea = .ok a) :
    a.lane = l := by
  unfold Ctx.localLane at h
  split at h
  · exact absurd h nofun
  · split at h
    · exact absurd h nofun
    · rw [← Except.ok.inj h]

theorem ld_loadsAs (d a : Reg) (z : Size) (off : Int) : LoadsAs (.ld d a z off)
    (globalOp d z .load (accessBytes z) (eaOff a z off)) { dst := [(d, z.regs)], src := [(a, 2)] }
    (fun c => c.load { dst := [(d, z.regs)], src := [(a, 2)] } d z (c.eaM a z off)
      fun l => c.globalLane .load (Size.bytes z) l (c.eaM a z off l)) where
  exec _ := rfl
  form _ := rfl
  dst := rfl
  size := (bytes_eq_accessBytes z).symm
  body c _ := by
    rw [eaM_eq, bytes_eq_accessBytes]
    rfl
  lane h := globalLane_lane h
  ea h := by
    funext l
    simp only [globalOp, eaOff, h.regW]
  one h := by
    funext l
    simp only [globalOp, MemOp.one, if_true, eaOff, h.regW, h.globalLane]

theorem ldl_loadsAs (d a : Reg) (z : Size) (off : Int) : LoadsAs (.ldl d a z off)
    (localOp d z .load (accessBytes z) (eaLoc a z off)) { dst := [(d, z.regs)], src := [(a, 1)] }
    (fun c => c.load { dst := [(d, z.regs)], src := [(a, 1)] } d z (fun l => (c.eaL a z off l).setWidth 64)
      fun l => c.localLane .load (Size.bytes z) l (c.eaL a z off l)) where
  exec _ := rfl
  form _ := rfl
  dst := rfl
  size := (bytes_eq_accessBytes z).symm
  body c _ := by
    rw [eaL_eq, bytes_eq_accessBytes]
    rfl
  lane h := localLane_lane h
  ea h := by
    funext l
    simp only [localOp, eaLoc, h.reg]
  one h := by
    funext l
    simp only [localOp, MemOp.one, if_true, eaLoc, h.reg, h.localLane]

theorem boundedLane_eq (c : Ctx) (d a b : Reg) (z : Size) : c.boundedLane .load a b z = (boundedOp d a b z .load).one c := by
  funext l
  simp only [Ctx.boundedLane, Ctx.outOfBounds, MemOp.one, boundedOp, eaX_eq, bytes_eq_accessBytes, decide_eq_true_eq]
  by_cases hb : (c.reg b l 1).toNat ≤ (c.reg b l).toNat
  · rw [if_pos hb, if_neg (by omega)]
  · rw [if_neg hb, if_pos (by omega)]

/-- Where every counted lane passes, none is out of its bound. -/
theorem boundsStop_none {c : Ctx} {d a b : Reg} {z : Size} (h : (boundedOp d a b z .load).passes c) :
    c.boundsStop a b z = none := by
  have hnil : (lanesOf c.cnt).filter (c.outOfBounds b) = [] := by
    rw [List.filter_eq_nil_iff]
    intro l hl hb
    obtain ⟨x, hx⟩ := (passes_iff ..).mp h l hl
    rw [← boundedLane_eq, Ctx.boundedLane, if_pos hb] at hx
    exact absurd hx nofun
  rw [Ctx.boundsStop, hnil]

theorem ldx_loadsAs (d a b : Reg) (z : Size) : LoadsAs (.ldx d a b z) (boundedOp d a b z .load)
    { dst := [(d, z.regs)], src := [(a, 2), (b, 2)] }
    (fun c =>
      match c.boundsStop a b z with
      | some r => r
      | none => c.load { dst := [(d, z.regs)], src := [(a, 2), (b, 2)] } d z (c.eaX a b z) (c.boundedLane .load a b z)) where
  exec _ := rfl
  form _ := rfl
  dst := rfl
  size := (bytes_eq_accessBytes z).symm
  body c h := by
    rw [boundsStop_none h, eaX_eq, boundedLane_eq c d]
    rfl
  lane {c l a} h := by
    unfold MemOp.one at h
    split at h
    · exact globalLane_lane h
    · exact absurd h nofun
  ea h := by
    funext l
    simp only [boundedOp, eaIdx, h.regW, h.reg]
  one h := by
    funext l
    simp only [boundedOp, MemOp.one, decide_eq_true_eq, eaIdx, h.regW, h.reg, h.globalLane]

theorem loadOp_loadsAs {i : Instr} {o : MemOp} (h : loadOp i = some o) : ∃ f body, LoadsAs i o f body := by
  unfold loadOp at h
  split at h
  · obtain rfl := Option.some.inj h; exact ⟨_, _, ld_loadsAs ..⟩
  · obtain rfl := Option.some.inj h; exact ⟨_, _, ldl_loadsAs ..⟩
  · obtain rfl := Option.some.inj h; exact ⟨_, _, ldx_loadsAs ..⟩
  · exact absurd h nofun

/-! ### The lanes of a load -/

theorem accStop_none {o : MemOp} {c : Ctx} (h : o.passes c) (k : AccKind) (ea : Nat → DWord) : c.accStop k ea (o.one c) = none := by
  have hnil : ∀ g : Nat → Option (Nat × AccStop), (∀ l ∈ lanesOf c.cnt, g l = none) → (lanesOf c.cnt).filterMap g = [] :=
    fun g hg => List.filterMap_eq_nil_iff.mpr hg
  unfold Ctx.accStop
  dsimp only
  rw [hnil]
  · rfl
  · intro l hl
    obtain ⟨a, ha⟩ := (passes_iff o c).mp h l hl
    rw [ha]

theorem passing_eq_accesses (o : MemOp) (c : Ctx) : passing c.set (o.one c) = o.accesses c c.set := by
  unfold passing MemOp.accesses
  congr 1
  funext l
  refine Eq.trans ?_ (lane_eq o c l).symm
  cases o.one c l <;> rfl

theorem mem_accesses {o : MemOp} {c : Ctx} {m : Mask} {a : LaneAcc} :
    a ∈ o.accesses c m ↔ ∃ l, hasLane m l = true ∧ o.lane c l = some a := by
  simp only [MemOp.accesses, List.mem_filterMap, mem_lanesOf]

/-- What a lane of a load produces: the words of its bytes, and nothing where it made no access. -/
def loadOut (z : Size) (as : List LaneAcc) (got : Nat → List Byte) (l : Nat) : LaneOut :=
  if as.any fun a => a.lane = l then ⟨Size.words z (got l), {}⟩ else ⟨[], {}⟩

theorem find?_got {read : LaneAcc → Option (List Byte)} {as : List LaneAcc} {got : Nat → List Byte}
    (h : ∀ a ∈ as, read a = some (got a.lane)) (l : Nat) :
    ((as.map fun a => (a, read a)).find? fun e => e.1.lane = l).map (·.2) =
      if as.any fun a => a.lane = l then some (some (got l)) else none := by
  rw [List.find?_map, Option.map_map]
  cases hf : as.find? ((fun e : LaneAcc × Option (List Byte) => decide (e.1.lane = l)) ∘ fun a => (a, read a)) with
  | none =>
    rw [if_neg]
    · rfl
    · simpa using hf
  | some a =>
    have ha := List.mem_of_find?_eq_some hf
    have hl : a.lane = l := by simpa using List.find?_some hf
    rw [if_pos (List.any_eq_true.mpr ⟨a, ha, decide_eq_true hl⟩)]
    exact congrArg some ((h a ha).trans (by rw [hl]))

/-- A load whose lanes may read ends with its words outstanding and its reads joined to the region. -/
theorem loadLanes_go {c : Ctx} {f : Form} {d : Reg} {z : Size} {found t : State} {as : List LaneAcc} {got : Nat → List Byte}
    (hremote : ∀ a ∈ as, a.tgt.remote = false) (hspec : c.mustNotSpeculate = false) (hheld : ∀ e ∈ c.w.sbuf, e.held = false)
    (habsent : ∀ a ∈ as, c.isAbsent a.tgt = false) (hread : ∀ a ∈ as, c.readBytes a.tgt (Size.bytes z) = some (got a.lane))
    (hkeys : c.missingKeys (Size.bytes z) as = []) (ht : c.touches (Size.bytes z) as found = some t) :
    c.loadLanes f d z found as = .go (c.writeV d z.regs (loadOut z as got)
      (c.joinRegion f (as.flatMap fun a => a.tgt.locs c.w.tid (Size.bytes z)).eraseDups t)) := by
  have h1 : (as.any fun a => a.tgt.remote) = false := List.any_eq_false.mpr fun a ha => by rw [hremote a ha]; exact Bool.false_ne_true
  have h2 : c.w.sbuf.any (·.held) = false := List.any_eq_false.mpr fun e he => by rw [hheld e he]; exact Bool.false_ne_true
  have h3 : (as.any fun a => c.isAbsent a.tgt) = false := List.any_eq_false.mpr fun a ha => by rw [habsent a ha]; exact Bool.false_ne_true
  have h4 : ((as.map fun a => (a, c.readBytes a.tgt (Size.bytes z))).any fun e => e.2.isNone) = false := by
    rw [List.any_map, List.any_eq_false]
    intro a ha
    simp [hread a ha]
  unfold Ctx.loadLanes
  simp only [h1, hspec, h2, h3, h4, hkeys, ht, Bool.false_eq_true, if_false, List.isEmpty_nil, Bool.not_true]
  congr 2
  funext l
  have hg := find?_got hread l
  unfold loadOut
  revert hg
  generalize List.find? _ _ = e
  intro hg
  split at hg
  · next hl =>
    obtain ⟨⟨x, y⟩, rfl, hy⟩ := Option.map_eq_some_iff.mp hg
    obtain rfl : y = _ := hy
    rw [if_pos hl]
  · next hl =>
    obtain rfl := Option.map_eq_none_iff.mp hg
    rw [if_neg hl]

/-! ### What a load leaves -/

/-- The words that a lane owes are those of its bytes. -/
theorem loadOut_word {o : MemOp} {c : Ctx} {m : Mask} {got : Nat → List Byte} (hlane : ∀ l a, o.lane c l = some a → a.lane = l)
    (hlen : ∀ l, hasLane m l = true → (o.lane c l).isSome = true → (got l).length = accessBytes o.z) {l k : Nat}
    (hl : hasLane m l = true) (hk : k < o.z.regs) : (loadOut o.z (o.accesses c m) got l).word k =
      if (o.lane c l).isSome then loadedWord o.z (got l) k else 0 := by
  have hany : ((o.accesses c m).any fun a => a.lane = l) = (o.lane c l).isSome := by
    rw [Bool.eq_iff_iff, List.any_eq_true]
    constructor
    · rintro ⟨a, ha, hal⟩
      obtain ⟨j, -, hj⟩ := mem_accesses.mp ha
      obtain rfl : j = l := (hlane j a hj).symm.trans (of_decide_eq_true hal)
      rw [hj]
      rfl
    · intro h
      obtain ⟨a, ha⟩ := Option.isSome_iff_exists.mp h
      exact ⟨a, mem_accesses.mpr ⟨l, hl, ha⟩, decide_eq_true (hlane l a ha)⟩
  rw [loadOut, hany]
  split
  · next h => exact Size.words_eq (hlen l hl h) hk
  · rfl

theorem loadOut_flags (z : Size) (as : List LaneAcc) (got : Nat → List Byte) (l : Nat) : (loadOut z as got l).flags.word = 0 := by
  unfold loadOut
  split <;> rfl

theorem length_unit_le (c : Ctx) (d : Reg) (u : Nat) : (c.unit (d, u)).length ≤ u := by
  cases d <;> simp [Ctx.unit]

/-- What lanes owe, word by word. -/
theorem owed_eq_results {c : Ctx} {m : Mask} {d : Reg} {u : Nat} {out : Nat → LaneOut} {val : Nat → Nat → Word} (ready : Bool)
    (hval : ∀ l k, hasLane m l = true → k < u → (out l).word k = val l k) (hflags : ∀ l, (out l).flags.word = 0) :
    c.owed m d u out ready = c.results c.s.seq m d u val (fun _ => 0) ready := by
  simp only [Ctx.owed, Ctx.results, hflags]
  refine List.flatMap_congr fun l hl => List.ext_getElem (by simp) fun i h1 _ => ?_
  have hi : i < u := by
    rw [List.length_mapIdx] at h1
    exact h1.trans_le (length_unit_le c d u)
  rw [List.getElem_mapIdx, List.getElem_mapIdx, hval l i ((mem_lanesOf m l).mp hl) hi]

theorem shadowed_eq (w : Wave) (ps : List PReg) : w.shadowed ps = { w with region := (w.shadowed ps).region } := by
  unfold Wave.shadowed
  cases hr : w.region with
  | none => simp only
  | some r => rfl

theorem addReads_eq (w : Wave) (ls : List Loc) : w.addReads ls = { w with region := (w.addReads ls).region } := by
  unfold Wave.addReads
  cases hr : w.region with
  | none => simp only
  | some r => rfl

/-- The region after a load, from the wave that the copies of R336 leave. -/
theorem region_joined {c c' : Ctx} {f : Form} {ps : List PReg} (hw : c'.w = c.w.shadowed ps)
    (hs : c'.s.seq = c.s.seq) (ht : c'.targets f = ps) (ls : List Loc) :
    (if c'.w.region.isSome then c'.w.addReads ls
      else if c'.w.unperformed then ((c'.w.openRegion c'.s.seq).shadowed (c'.targets f)).addReads ls
      else c'.w) = { c.w with region := regionAfter c ps ls } := by
  rw [hs, ht]
  cases hr : c.w.region with
  | none =>
    have hw' : c'.w = c.w := by rw [hw, Wave.shadowed, hr]
    rw [hw', hr]
    simp only [Option.isSome_none, Bool.false_eq_true, if_false]
    unfold regionAfter
    by_cases hu : c.w.unperformed = true
    · rw [if_pos hu]
      simp only [hr, hu, and_self, if_true]
      rfl
    · rw [if_neg hu]
      simp only [hu, and_false, if_false, Bool.false_eq_true]
      simp only [Wave.shadowed, Wave.addReads, hr]
      rw [← hr]
  | some r =>
    have hsome : c'.w.region.isSome = true := by rw [hw, Wave.shadowed, hr]; rfl
    rw [if_pos hsome, hw]
    unfold regionAfter
    simp only [hr, reduceCtorEq, false_and, if_false]
    rw [addReads_eq, shadowed_eq c.w]

/-! ### The state that the copies of R336 leave -/

theorem any_put {α : Type} {t : Tbl α} {n : Nat} {x y : α} {p : Nat × α → Bool} (h : t.get? n = some x) (hp : p (n, y) = p (n, x)) :
    (t.put n y).any p = t.any p := by
  induction t with
  | nil => exact absurd h nofun
  | cons e t ih =>
    obtain ⟨k, v⟩ := e
    have hmem := mem_of_get? h
    simp only [Tbl.get?] at h
    unfold Tbl.put
    split
    · rw [List.any_cons, hp]
      by_cases hx : p (n, x) = true
      · rw [hx, Bool.true_or, List.any_eq_true.mpr ⟨_, hmem, hx⟩]
      · rw [Bool.eq_false_iff.mpr hx, Bool.false_or]
    · split
      · next hn =>
        rw [if_pos hn.symm] at h
        obtain rfl := Option.some.inj h
        rw [List.any_cons, List.any_cons, hp, hn]
      · next hn =>
        rw [if_neg (Ne.symm hn)] at h
        rw [List.any_cons, List.any_cons, ih h]

theorem covers_shadowed (w : Wave) (ps : List PReg) (id : Nat) : (w.shadowed ps).covers id = w.covers id := by
  unfold Wave.shadowed Wave.covers
  cases hr : w.region with
  | none => simp only [hr]
  | some r => rfl

theorem shadow_w (c : Ctx) (f : Form) : (c.shadow f).w = c.w.shadowed (c.targets f) := by
  rw [(shadow_spec c f).1, shadowed_eq c.w]

theorem shadow_covered {c : Ctx} (f : Form) (h : c.s.waves.get? c.wid = some c.w) (on : Nat → Bool) (id : Nat) :
    (c.shadow f).s.covered on id = c.s.covered on id := by
  unfold Ctx.shadow
  split
  · rfl
  · refine any_put h ?_
    rw [covers_shadowed, shadowed_eq]

theorem shadow_alike {c : Ctx} (f : Form) (h : c.s.waves.get? c.wid = some c.w) (core : Nat) : Alike core c.s (c.shadow f).s := by
  have hs := (shadow_regionOnly c f).s
  exact ⟨by rw [hs]; rfl, by rw [hs]; rfl, by rw [hs], by rw [hs], shadow_covered f h⟩

/-! ### The end of a load -/

/-- An issue that changes its wave, then what reads may, then its wave: what it leaves. -/
theorem onlyAccess_of {s a b t : State} {wid : Nat} (h : WaveOnly s a wid) (k : ReadKeeps a b) (j : OnlyWave b t wid) :
    OnlyAccess s t wid where
  rest := by rw [j.rest, k.rest, h.rest]
  waves n hn := by rw [j.waves n hn, k.waves, h.waves n hn]
  cores n := by rw [j.cores n, k.cores n, h.core n]
  dies n := by
    have hj : t.die n = b.die n := by rw [j.rest]; rfl
    have ha : a.die n = s.die n := by rw [h.rest]; rfl
    rw [hj, k.dies n, ha]
  bytes hc sp key x := by
    have hs := h.store.trans (k.store (cleanHost_congr h.store hc))
    rw [j.bytes, hs.bytes]

theorem finish_moved {sB : State} {c : Ctx} {wB : Wave} (hwid : sB.cur.wid = c.wid) (hset : sB.cur.set &&& wB.live = c.set)
    (hB : sB.waves.get? c.wid = some wB) (hp : wB.pcs = c.w.pcs) (next : Nat → PC) (back : Bool) :
    OnlyWave sB (sB.finish (fun l => some (next l)) back) c.wid ∧
    ∃ w', (sB.finish (fun l => some (next l)) back).waves.get? c.wid = some w' ∧ BooksOnly wB w' ∧ Moved c w' next := by
  obtain ⟨h1, w', h2, h3, h4⟩ := finish_spec sB (fun l => some (next l)) back wB (by rw [hwid]; exact hB)
  rw [hwid] at h1 h2
  rw [hset, hp] at h4
  refine ⟨h1, w', h2, h3, fun l hl => ?_, fun l hl => ?_⟩
  · rw [h4]; exact pcOfLane_move _ _ _ _ _ hl rfl
  · rw [h4]; exact pcOfLane_move_other _ _ _ _ hl

/-- What a load needs of a context to complete beside room for its lines (R251, R253, R257, R311, R341). -/
structure CanLoad (o : MemOp) (c : Ctx) (got : Nat → List Byte) : Prop where
  passes : o.passes c
  held : ∀ e ∈ c.w.sbuf, e.held = false
  spec : c.mustNotSpeculate = false
  remote : ∀ a ∈ o.accesses c c.set, a.tgt.remote = false
  absent : ∀ a ∈ o.accesses c c.set, c.isAbsent a.tgt = false
  read : ∀ a ∈ o.accesses c c.set, c.readBytes a.tgt o.n = some (got a.lane)
  keys : c.missingKeys o.n (o.accesses c c.set) = []

section

variable {i : Instr} {o : MemOp} {f : Form} {body : Ctx → Res} (hl : LoadsAs i o f body)

include hl

theorem LoadsAs.lane_lane {c : Ctx} {l : Nat} {a : LaneAcc} (h : o.lane c l = some a) : a.lane = l := by
  rw [lane_eq] at h
  split at h
  · next x hx =>
    obtain rfl := Option.some.inj h
    exact hl.lane hx
  · exact absurd h nofun

theorem LoadsAs.accesses_eq {c c' : Ctx} (h : RegionOnly c c') : o.accesses c' c'.set = o.accesses c c.set := by
  rw [← passing_eq_accesses, ← passing_eq_accesses, hl.one h, h.set]

theorem CanLoad.congr {c c' : Ctx} {got : Nat → List Byte} (hc : CanLoad o c got) (h : RegionOnly c c') : CanLoad o c' got where
  passes := by
    rw [passes_iff, h.cnt, hl.one h]
    exact (passes_iff o c).mp hc.passes
  held := by rw [h.w]; exact hc.held
  spec := by
    unfold Ctx.mustNotSpeculate
    rw [h.w]
    exact hc.spec
  remote := by rw [hl.accesses_eq h]; exact hc.remote
  absent := by simpa only [hl.accesses_eq h, h.isAbsent] using hc.absent
  read := by simpa only [hl.accesses_eq h, h.readBytes] using hc.read
  keys := by rw [hl.accesses_eq h, h.missingKeys]; exact hc.keys

/-- A load that can complete and finds room reads, joins the region and owes its words. -/
theorem LoadsAs.go {c : Ctx} {got : Nat → List Byte} (hc : CanLoad o c got) {u : State}
    (hu : c.touches o.n (o.accesses c c.set) (o.found c) = some u) :
    body c = .go (c.writeV o.r o.z.regs (loadOut o.z (o.accesses c c.set) got)
      (c.joinRegion f ((o.accesses c c.set).flatMap fun a => a.tgt.locs c.w.tid o.n).eraseDups u)) := by
  have hread := hc.read
  have hkeys := hc.keys
  rw [hl.size] at hread hkeys hu ⊢
  rw [hl.body c hc.passes, Ctx.load, accStop_none hc.passes]
  dsimp only
  rw [passing_eq_accesses]
  exact loadLanes_go hc.remote hc.spec hc.held hc.absent hread hkeys hu

/-- The words that the lanes of a set owe after a load. -/
theorem LoadsAs.owed {c : Ctx} {got : Nat → List Byte} (hc : CanLoad o c got) :
    c.owed c.set o.r o.z.regs (loadOut o.z (o.accesses c c.set) got) true =
      c.results c.s.seq c.set o.r o.z.regs (fun l k => if (o.lane c l).isSome then loadedWord o.z (got l) k else 0) (fun _ => 0)
        true := by
  refine owed_eq_results true (fun l k hl' hk => ?_) fun l => loadOut_flags ..
  refine loadOut_word (fun l a h => hl.lane_lane h) (fun l hl' h => ?_) hl' hk
  obtain ⟨a, ha⟩ := Option.isSome_iff_exists.mp h
  have hread := hc.read a (mem_accesses.mpr ⟨l, hl', ha⟩)
  rw [hl.lane_lane ha] at hread
  rw [length_readBytes hread, hl.size, bytes_eq_accessBytes]

end

theorem results_congr {c c' : Ctx} (h : RegionOnly c c') (seq : Nat) (m : Mask) (d : Reg) (u : Nat) (val : Nat → Nat → Word)
    (flags : Nat → Word) (ready : Bool) : c'.results seq m d u val flags ready = c.results seq m d u val flags ready := by
  unfold Ctx.results
  rw [h.unit, h.cnt]

/-- The wave after an open region, or the one a load opens, takes the words it reads. -/
def Ctx.joined (c : Ctx) (f : Form) (ls : List Loc) : Wave :=
  if c.w.region.isSome then c.w.addReads ls
  else if c.w.unperformed then ((c.w.openRegion c.s.seq).shadowed (c.targets f)).addReads ls
  else c.w

theorem wave_loaded {c : Ctx} {u : State} (f : Form) (ls : List Loc) (d : Reg) (n : Nat) (out : Nat → LaneOut)
    (hu : u.waves.get? c.wid = some c.w) : (c.writeV d n out (c.joinRegion f ls u)).waves.get? c.wid =
      some { c.joined f ls with outst := (c.joined f ls).outst ++ c.owed c.set d n out true } := by
  refine (Tbl.get?_upd_self ..).trans ?_
  rw [show (c.joinRegion f ls u).waves.get? c.wid = some (c.joined f ls) from (Tbl.get?_upd_self ..).trans (by rw [hu]; rfl)]
  rfl

theorem loaded_waveOnly (c : Ctx) (u : State) (f : Form) (ls : List Loc) (d : Reg) (n : Nat) (out : Nat → LaneOut) :
    WaveOnly u (c.writeV d n out (c.joinRegion f ls u)) c.wid :=
  (WaveOnly.upd u c.wid _).trans (WaveOnly.upd (c.joinRegion f ls u) c.wid _)

/-- What a load leaves of its wave, from a context after the copies of R336. -/
theorem LoadsAs.leaves {i : Instr} {o : MemOp} {f : Form} {body : Ctx → Res} (hl : LoadsAs i o f body) {c c' : Ctx}
    {got : Nat → List Byte} {u : State} (hR : RegionOnly c c') (hw : c'.w = c.w.shadowed (c.unit (o.r, o.z.regs)))
    (hc : CanLoad o c' got) (hu : c'.touches o.n (o.accesses c c.set) (o.found c') = some u)
    (huw : u.waves.get? c'.wid = some c'.w) : ∃ sB, body c' = .go sB ∧ WaveOnly u sB c.wid ∧ sB.waves.get? c.wid = some { c.w with
      region := regionAfter c (c.unit (o.r, o.z.regs))
        ((o.accesses c c.set).flatMap fun a => a.tgt.locs c.w.tid o.n).eraseDups
      outst := c.w.outst ++ c.results c.s.seq c.set o.r o.z.regs
        (fun l k => if (o.lane c l).isSome then loadedWord o.z (got l) k else 0) (fun _ => 0) true } := by
  have hacc := hl.accesses_eq hR
  have hlane : o.lane c' = o.lane c := by
    funext l
    rw [lane_eq, lane_eq, hl.one hR]
  have htid : c'.w.tid = c.w.tid := by rw [hR.w]
  have hseq : c'.s.seq = c.s.seq := by rw [hR.s]
  have htar : c'.targets f = c.unit (o.r, o.z.regs) := by rw [hR.targets]; simp [Ctx.targets, hl.dst]
  have howed := hl.owed hc
  rw [hacc, results_congr hR, hlane, hseq, hR.set] at howed
  have hgo := hl.go hc (u := u) (by rw [hacc]; exact hu)
  rw [hacc, htid] at hgo
  refine ⟨_, hgo, hR.wid ▸ loaded_waveOnly .., ?_⟩
  rw [← hR.wid, wave_loaded f _ _ _ _ huw, hR.set, howed, Ctx.joined, region_joined hw hseq htar]

theorem loadEffectsHold_holds : Spec.loadEffectsHold := by
  intro s i c o got hop hr hpass hheld hspec hlanes hkeys hroom words locs
  obtain ⟨f, body, hl⟩ := loadOp_loadsAs hop
  obtain ⟨hs, hwid, hw, -, hset, hpc, -⟩ := ctx_some hr.ctx
  have hwc : c.s.waves.get? c.wid = some c.w := by rw [hs, hwid]; exact hw
  have htar : c.targets f = c.unit (o.r, o.z.regs) := by simp [Ctx.targets, hl.dst]
  have hcan : CanLoad o c got := by
    have hmem : ∀ a ∈ o.accesses c c.set, a.tgt.remote = false ∧ c.isAbsent a.tgt = false ∧
        c.readBytes a.tgt o.n = some (got a.lane) := by
      intro a ha
      obtain ⟨l, hl', hla⟩ := mem_accesses.mp ha
      rw [hl.lane_lane hla]
      exact hlanes l a hl' hla
    refine ⟨hpass, hheld, ?_, fun a ha => (hmem a ha).1, fun a ha => (hmem a ha).2.1, fun a ha => (hmem a ha).2.2, hkeys⟩
    by_cases hu : c.w.unperformed = true
    · simp [Ctx.mustNotSpeculate, hspec hu]
    · simp [Ctx.mustNotSpeculate, hu]
  have hexec : exec i s = .next (c.settle f (body (c.shadow f))) := by
    rw [hl.exec, issue_ready f body hr.ctx (hl.form s ▸ hr.checks) (hl.form s ▸ hr.room)]
  have hR := shadow_regionOnly c f
  obtain ⟨-, -, -, -, -, -, hcw, hother, hrest⟩ := shadow_spec c f
  have hfound : Alike c.t.core (o.found c) (o.found (c.shadow f)) :=
    (shadow_alike f hwc c.t.core).look (lookedUp_keeps c ..) (lookedUp_keeps (c.shadow f) ..)
  obtain ⟨u, hu⟩ := Option.isSome_iff_exists.mp (touches_isSome hR.t hR.forwarded o.n (o.accesses c c.set) hfound hroom)
  have hku : ReadKeeps (c.shadow f).s u := (lookedUp_keeps (c.shadow f) ..).keeps.trans (touches_keeps hu)
  obtain ⟨sB, hgo, honly, hwB⟩ := hl.leaves hR (by rw [shadow_w, htar]) (CanLoad.congr hl hcan hR) hu
    (by rw [hku.waves, hR.wid]; exact hcw hwc)
  have hcur : sB.cur = s.cur := by rw [honly.rest, hku.rest, hR.s, hs]
  obtain ⟨h1, w', h2, h3, h4⟩ := finish_moved (by rw [hcur, hwid]) (by rw [hcur, hset]) hwB rfl (fun _ => c.pc + 4) false
  rw [hs] at h3
  refine ⟨_, w', by rw [hexec, hgo]; rfl, ?_, h2, h3, h4⟩
  rw [← hs]
  exact onlyAccess_of ⟨hrest, hother⟩ hku (honly.onlyWave h1)

/-- Settles O18: a load's checks, reads and room are those of the state with the copies of R336 made, and what it leaves is
assembled from what its lookups, its reads and the end of its issue keep. -/
theorem loadEffects : Obligations.LoadEffects := ⟨loadEffectsHold_holds, loadRoomHold_holds, readsForwardHold_holds⟩

end Sys2Proof.Machine

/-! PROOFS. The state after reset (O54). -/

namespace Sys2Proof.Machine

open Spec

/-- What every step keeps holds after reset (R244, R245, R415, R441, R444, R449). -/
theorem reset_kept : kept State.reset := by
  refine ⟨reset_memOk, ?_, ?_, ?_, ?_, ?_, ?_, ?_⟩ <;> decide

/-- Each measurement register is zero after reset (R441). -/
theorem reset_mr (i : Nat) (h : i < 8) : State.reset.mr[i]? = some (List.replicate 64 0) :=
  List.getElem?_replicate_of_lt h

/-- Settles O54: the fields of `State.reset` as they are written, the words of the housekeeping registers computed from them. -/
theorem resetValues : Obligations.ResetValues := by
  unfold Obligations.ResetValues
  exact ⟨rfl, rfl, rfl, rfl, rfl, rfl, rfl, rfl, by decide, by decide, by decide, rfl, rfl, rfl, reset_mr, rfl, rfl, rfl, rfl, rfl,
    fun _ _ => rfl, fun l => by cases l <;> rfl, fun _ _ => rfl, fun _ => ⟨rfl, rfl⟩, reset_kept⟩

end Sys2Proof.Machine

/-! PROOFS. What an access of an agent may change: performing what is pending, rollbacks and commits, the home's own work. The launch
front's table, and its queues but for their copies of tail words, are not among it (O43, O45). -/

namespace Sys2Proof.Machine

open Spec

theorem ascending_map_snd {α β : Type} (f : Nat × α → β) (t : Tbl α) (lo : Nat) :
    Tbl.ascending lo (t.map fun e => (e.1, f e)) = true ↔ Tbl.ascending lo t = true := by
  induction t generalizing lo with
  | nil => rfl
  | cons e t ih => simp only [List.map_cons, Tbl.ascending, Bool.and_eq_true, ih]

theorem ascending_upd {α : Type} {t : Tbl α} (n : Nat) (f : α → α) (h : Tbl.ascending 0 t = true) :
    Tbl.ascending 0 (t.upd n f) = true := by
  unfold Tbl.upd
  split
  · exact Tbl.ascending_put t _ h (Nat.zero_le n)
  · exact h

/-- A launch queue without its copy of the tail word. -/
def Queue.bare (x : Queue) : Queue := { x with copy := none }

/-- What an access of an agent may change: memory and what the homes and caches hold, waves, teams and commands through what is
performed and rolled back, and of the owners their rings and the queues' copies of tail words. -/
structure AgentKeeps (s t : State) : Prop where
  rest : t = { s with
    waves := t.waves, teams := t.teams, cmds := t.cmds, cores := t.cores, clusters := t.clusters, dies := t.dies
    mem := t.mem, memKey := t.memKey, host := t.host, peer := t.peer, peerKey := t.peerKey, l2 := t.l2, homeDir := t.homeDir
    pend := t.pend, crossings := t.crossings, accessCnt := t.accessCnt, queuedPages := t.queuedPages, hostLines := t.hostLines
    agentLines := t.agentLines, links := t.links, fabOut := t.fabOut, fabHeard := t.fabHeard, bufKeys := t.bufKeys
    keyWants := t.keyWants, wants := t.wants, owners := t.owners, icache := t.icache, imgCache := t.imgCache, msix := t.msix }
  queues : ∀ own q, (t.queue? own q).map Queue.bare = (s.queue? own q).map Queue.bare
  order : Tbl.ascending 0 s.owners = true → Tbl.ascending 0 t.owners = true

namespace AgentKeeps

theorem refl (s : State) : AgentKeeps s s := ⟨rfl, fun _ _ => rfl, id⟩

theorem trans {a b c : State} (h : AgentKeeps a b) (k : AgentKeeps b c) : AgentKeeps a c :=
  ⟨by rw [k.rest, h.rest], fun own q => (k.queues own q).trans (h.queues own q), k.order ∘ h.order⟩

theorem foldl {α : Type} (f : State → α → State) (hf : ∀ s a, AgentKeeps s (f s a)) (l : List α) (s : State) :
    AgentKeeps s (l.foldl f s) :=
  foldl_keeps (P := AgentKeeps s) f (fun t a h => h.trans (hf t a)) l s (.refl s)

theorem launches {s t : State} (h : AgentKeeps s t) : t.launches = s.launches := by rw [h.rest]

theorem drains {s t : State} (h : AgentKeeps s t) : t.drains = s.drains := by rw [h.rest]

theorem queue_isSome {s t : State} (h : AgentKeeps s t) (own q : Nat) : (t.queue? own q).isSome = (s.queue? own q).isSome := by
  have hq := congrArg Option.isSome (h.queues own q)
  simpa using hq

end AgentKeeps

theorem HomeFrame.agentKeeps {s t : State} (h : HomeFrame s t) : AgentKeeps s t := by
  rw [HomeFrame] at h
  exact ⟨by rw [h], (fun _ _ => by rw [h]; rfl), by rw [h]; exact id⟩

/-! ### Rollbacks and commits (R338, R340, R341) -/

theorem HandlesOnly.agentKeeps {s t : State} (h : HandlesOnly s t) : AgentKeeps s t := by
  rw [HandlesOnly] at h
  exact ⟨by rw [h], (fun _ _ => by rw [h]; rfl), by rw [h]; exact id⟩

theorem TeamsOnly.agentKeeps {s t : State} (h : TeamsOnly s t) : AgentKeeps s t := by
  rw [TeamsOnly] at h
  exact ⟨by rw [h], (fun _ _ => by rw [h]; rfl), by rw [h]; exact id⟩

namespace AgentKeeps

theorem updTeam (s : State) (k : Nat) (f : Team → Team) : AgentKeeps s (s.updTeam k f) := ⟨rfl, fun _ _ => rfl, id⟩

theorem updWave (s : State) (k : Nat) (f : Wave → Wave) : AgentKeeps s (s.updWave k f) := ⟨rfl, fun _ _ => rfl, id⟩

theorem voidCmd (s : State) (cid : Nat) : AgentKeeps s (s.voidCmd cid) := by
  cases h : s.cmds.get? cid with
  | none => rw [voidCmd_of_none h]; exact .refl s
  | some c => rw [voidCmd_of_some h]; exact ⟨rfl, fun _ _ => rfl, id⟩

theorem atWaymark (s : State) (wid : Nat) (w : Wave) (r : Region) : AgentKeeps s (s.atWaymark wid w r) := by
  unfold State.atWaymark
  dsimp only
  split <;> exact ⟨rfl, fun _ _ => rfl, id⟩

theorem rollbackOne (s : State) (wid : Nat) : AgentKeeps s (s.rollbackOne wid) := by
  cases hw : s.waves.get? wid with
  | none => rw [State.rollbackOne, hw]; exact .refl s
  | some w =>
    cases hr : w.region with
    | none => rw [State.rollbackOne, hw]; dsimp only; rw [hr]; exact .refl s
    | some r =>
      rw [rollbackOne_of_region hw hr]
      exact (atWaymark s wid w r).trans (.foldl _ voidCmd _ _)

theorem rollback (fuel : Nat) : ∀ (ws : List Nat) (s : State), AgentKeeps s (State.rollback fuel ws s) := by
  induction fuel with
  | zero => exact fun _ s => .refl s
  | succ fuel ih =>
    intro ws s
    cases ws with
    | nil => exact .refl s
    | cons wid rest => exact (rollbackOne s wid).trans (ih _ _)

theorem check (s : State) (ls : List Loc) (writer : Option Nat) : AgentKeeps s (s.check ls writer) := by
  unfold State.check
  dsimp only
  split
  · exact .refl s
  · exact rollback ..

theorem checkOn (s : State) (on : Team → Bool) (ls : List Loc) (writer : Option Nat) : AgentKeeps s (s.checkOn on ls writer) := by
  unfold State.checkOn
  dsimp only
  split
  · exact .refl s
  · exact rollback ..

theorem freeHeld (s : State) (wid cid : Nat) : AgentKeeps s (s.freeHeld wid cid) := by
  unfold State.freeHeld
  split
  · exact .refl s
  · split
    · have h : AgentKeeps s { s with cmds := s.cmds.del cid } := ⟨rfl, fun _ _ => rfl, id⟩
      exact h.trans ((check ..).trans (updTeam ..))
    · exact ⟨rfl, fun _ _ => rfl, id⟩

theorem commit (s : State) (wid : Nat) : AgentKeeps s (s.commit wid) := by
  unfold State.commit
  split
  · exact .refl s
  · have h : ∀ (w : Wave) (c : Nat), AgentKeeps s ((s.setWave wid w).count c 2) := fun _ _ => ⟨rfl, fun _ _ => rfl, id⟩
    exact (h _ _).trans (.foldl _ (fun s c => freeHeld s wid c) _ _)

theorem commitAll (s : State) : AgentKeeps s s.commitAll := by
  refine .foldl _ (fun s e => ?_) _ s
  split
  · exact commit ..
  · exact .refl s

/-! ### Invalidations and writes (R331, R340) -/

/-- What changes each owner's queues in their copies alone. -/
theorem dropCopies (s : State) (ls : List Loc) : AgentKeeps s (s.dropCopies ls) := by
  refine ⟨rfl, fun own q => ?_, (ascending_map_snd _ _ _).mpr⟩
  let g (x : Queue) : Queue := match x.copy with
    | some (sp, a) => if touches8 ls sp a then { x with copy := none } else x
    | none => x
  have hg : ∀ x, (g x).bare = x.bare := by
    intro x
    simp only [g]
    split
    · split <;> rfl
    · rfl
  have hm : (s.dropCopies ls).owners = s.owners.map fun e => (e.1, { e.2 with queues := e.2.queues.map fun x => (x.1, g x.2) }) := rfl
  have ho := get?_map_snd (fun o : Owner => { o with queues := o.queues.map fun x => (x.1, g x.2) }) s.owners own
  rw [State.queue?, State.queue?, hm, ho]
  cases s.owners.get? own with
  | none => rfl
  | some o =>
    change (Tbl.get? (o.queues.map fun x => (x.1, g x.2)) q).map Queue.bare = (o.queues.get? q).map Queue.bare
    rw [get?_map_snd g, Option.map_map]
    exact Option.map_congr fun x _ => hg x

theorem setDir (s : State) (die line : Nat) (m : BitVec 202) : AgentKeeps s (s.setDir die line m) := ⟨rfl, fun _ _ => rfl, id⟩

theorem invalidateDie (s : State) (d : Nat) (ls : List Loc) (writer : Option Nat) :
    AgentKeeps s (s.invalidateDie d ls writer) := by
  have h : AgentKeeps s (s.dropL1 d (sectorHit ls)) := ⟨rfl, fun _ _ => rfl, id⟩
  have h' := h.trans (checkOn _ (fun t => t.die == d) ls writer)
  refine AgentKeeps.trans (b := if d = 16 then State.dropCopies _ ls else _) (h'.trans ?_) (.foldl _ (fun s id => ?_) _ _)
  · split
    · exact dropCopies ..
    · exact .refl _
  · split
    · exact .refl s
    · exact setDir ..

theorem writeBytes (s : State) (sp : Space) (key : Nat) (bs : List (Nat × Byte)) : AgentKeeps s (s.writeBytes sp key bs) := by
  refine .foldl _ (fun s e => ?_) bs s
  cases sp <;> exact ⟨rfl, fun _ _ => rfl, id⟩

theorem keepStatus (s old : State) (ls : List Loc) : AgentKeeps s (s.keepStatus old ls) := by
  refine .foldl _ (fun s p => ?_) _ s
  split
  · exact writeBytes ..
  · exact .refl s

theorem migrationHead (s : State) (ls : List Loc) : AgentKeeps s (s.migrationHead ls) := by
  refine .foldl _ (fun s e => ?_) _ s
  split
  · split
    · exact ⟨rfl, fun _ _ => rfl, id⟩
    · exact .refl s
  · exact .refl s

theorem keepCode (s : State) (sp : Space) (bs : List (Nat × Byte)) : AgentKeeps s (s.keepCode sp bs) := by
  have h : ∀ c, AgentKeeps s { s with icache := c } := fun _ => ⟨rfl, fun _ _ => rfl, id⟩
  unfold State.keepCode
  split
  · exact .refl s
  · exact h _

theorem backInvalidate (s : State) (line : Nat) : AgentKeeps s (s.backInvalidate line) := (backInvalidate_homeFrame s line).agentKeeps

theorem homeTouch (s : State) (own : Nat) (p : Phys) (write : Bool) : AgentKeeps s (s.homeTouch own p write) :=
  (homeTouch_homeFrame s own p write).agentKeeps

theorem land (s : State) (sp : Space) (key : Nat) (bs : List (Nat × Byte)) (atomic : Bool) :
    AgentKeeps s (s.land sp key bs atomic) := by
  have hh : ∀ bs : List (Nat × Byte), AgentKeeps s (if sp = .dev then bs.foldl (fun s e => s.hdmTouch true e.1) s else s) := by
    intro bs
    split
    · exact .foldl _ (fun s (e : Nat × Byte) => (hdmTouch_homeFrame s true e.1).agentKeeps) _ _
    · exact .refl s
  have hi : ∀ (t : State) (l : List ImgEnt), AgentKeeps t { t with imgCache := l } := fun _ _ => ⟨rfl, fun _ _ => rfl, id⟩
  unfold State.land
  exact (hh _).trans ((keepCode ..).trans ((writeBytes ..).trans ((hi _ _).trans ((dropCopies ..).trans
    ((keepStatus ..).trans (migrationHead ..))))))

theorem performNow (s : State) (sp : Space) (key : Nat) (bs : List (Nat × Byte)) (writer : Option Nat) (atomic : Bool) :
    AgentKeeps s (s.performNow sp key bs writer atomic) :=
  (foldl _ (fun s d => invalidateDie s d _ writer) _ _).trans ((check ..).trans (land ..))

theorem performLs (s : State) (tid : Nat) (bs : List (Nat × Byte)) (writer : Option Nat) : AgentKeeps s (s.performLs tid bs writer) :=
  (check ..).trans (updTeam ..)

theorem performBulletin (s : State) (l : Loc) (v : Word) (writer : Option Nat) : AgentKeeps s (s.performBulletin l v writer) := by
  have h : ∀ t : State, AgentKeeps t (match l with
      | .cb c i => t.updCluster c fun x => { x with bull := x.bull.set 0 i v }
      | .db d i => t.updDie d fun x => { x with bull := x.bull.set 0 i v }
      | _ => t) := by
    intro t
    split
    · exact ⟨rfl, fun _ _ => rfl, id⟩
    · exact ⟨rfl, fun _ _ => rfl, id⟩
    · exact .refl t
  exact (check ..).trans (h _)

/-! ### What is pending is performed (R331, R332) -/

theorem fabAnswered (s : State) (p : OutReq → Bool) : AgentKeeps s (s.fabAnswered p) := by
  have h : AgentKeeps s ((s.fabOut.filter p).foldl (fun s r => match r.port with
      | some k => s.setLink k { s.link k with acked := max (s.link k).acked (min r.flit (s.flitOn (some k))) }
      | none => s) s) := by
    refine .foldl _ (fun s r => ?_) _ s
    split
    · exact ⟨rfl, fun _ _ => rfl, id⟩
    · exact .refl s
  exact h.trans ⟨rfl, fun _ _ => rfl, id⟩

theorem doAck (s : State) (x : Nat) : AgentKeeps s (s.doAck x) := by
  have h : ∀ ls, AgentKeeps s (s.unpend x ls) := fun _ => ⟨rfl, fun _ _ => rfl, id⟩
  unfold State.doAck
  split
  · exact .refl s
  · split
    · exact (h _).trans ((check ..).trans ((land ..).trans ((fabAnswered ..).trans (updWave ..))))
    · exact .refl s

theorem doInvalidate (s : State) (x y : Nat) : AgentKeeps s (s.doInvalidate x y) := by
  unfold State.doInvalidate
  split
  · exact .refl s
  · split
    · exact (invalidateDie ..).trans (updWave ..)
    · split
      · exact (invalidateDie ..).trans (updWave ..)
      · exact .refl s

theorem flipBias (s : State) (p : Phys) (n old new : Nat) : AgentKeeps s (s.flipBias p n old new) := .foldl _ backInvalidate _ s

theorem atomicAt (s : State) (own tid wid : Nat) (op : AtomOp) (wide : Bool) (l : AtomLane) :
    AgentKeeps s (s.atomicAt own tid wid op wide l).2 := by
  unfold State.atomicAt
  generalize (if wide then 8 else 4) = n
  cases l.tgt with
  | mem p =>
    dsimp only
    split
    · exact homeTouch ..
    · exact (homeTouch ..).trans ((flipBias ..).trans (performNow ..))
  | ls a =>
    dsimp only
    split
    · exact .refl s
    · exact performLs ..
  | bull k =>
    dsimp only
    split
    · exact .refl s
    · exact performBulletin ..

theorem irrevLeft (s : State) (wid : Nat) (r : Option Irrev) : AgentKeeps s (s.irrevLeft wid r) := by
  have h := updWave s wid fun w => { w with irrev := r }
  unfold State.irrevLeft
  dsimp only
  split
  · exact h.trans (fabAnswered ..)
  · exact h

theorem performAtomic (s : State) (x : Nat) (w : Wave) (seq : Nat) (op : AtomOp) (wide : Bool)
    (g : List AtomLane × List AtomLane) : AgentKeeps s (s.performAtomic x w seq op wide g) := by
  have h : AgentKeeps s (s.unpend x (g.1.flatMap fun l => l.locs w.tid wide)) := ⟨rfl, fun _ _ => rfl, id⟩
  exact h.trans ((foldl _ (fun s l => (atomicAt s _ w.tid x op wide l).trans (updWave ..)) _ _).trans (irrevLeft ..))

theorem doAtomic (s : State) (x y : Nat) : AgentKeeps s (s.doAtomic x y) := by
  unfold State.doAtomic
  split
  · exact .refl s
  · split
    · exact .refl s
    · dsimp only
      split
      · exact ⟨rfl, fun _ _ => rfl, id⟩
      · have hp : ∀ (t : State) (l : List (Loc × Nat)), AgentKeeps t { t with pend := l } := fun _ _ => ⟨rfl, fun _ _ => rfl, id⟩
        exact (foldl _ backInvalidate _ _).trans ((hp _ _).trans (updWave ..))
      · exact performAtomic ..
    · exact (foldl _ (fun s e => updWave s x _) _ _).trans (irrevLeft ..)

theorem finishPending (s : State) (x : Nat) : AgentKeeps s (s.finishPending x) := by
  unfold State.finishPending
  split
  · exact .refl s
  · split
    · exact (foldl _ (fun s d => doInvalidate s x d) _ _).trans (doAtomic ..)
    · split
      · split
        · exact (foldl _ (fun s d => doInvalidate s x d) _ _).trans (doAck ..)
        · exact .refl s
      · exact .refl s

theorem quiet (s : State) (ls : List Loc) : AgentKeeps s (s.quiet ls) :=
  .foldl _ (fun s x => (finishPending s x).trans (commitAll _)) _ s

/-! ### Accesses of agents (R231, R240, R246, R329) -/

theorem need (s : State) (w : Want) : AgentKeeps s (s.need w) := by
  unfold State.need
  split
  · exact .refl s
  · exact ⟨rfl, fun _ _ => rfl, id⟩

theorem askLines (s : State) (die own : Nat) (p : Phys) (n bytes : Nat) : AgentKeeps s (s.askLines die own p n bytes) := by
  unfold State.askLines
  split
  · exact .refl s
  · exact .foldl _ (fun s _ => need s _) _ s

theorem homeTouches (s : State) (own : Nat) (p : Phys) (n : Nat) (write : Bool) : AgentKeeps s (s.homeTouches own p n write) :=
  .foldl _ (fun s _ => homeTouch s own _ write) _ s

theorem agentReads (s : State) (own : Nat) (p : Phys) (n : Nat) : AgentKeeps s (s.agentReads own p n) :=
  (askLines ..).trans ((quiet ..).trans (homeTouches ..))

theorem agentWrites (s : State) (own : Nat) (p : Phys) (bs : List Byte) : AgentKeeps s (s.agentWrites own p bs) :=
  (askLines ..).trans ((homeTouches ..).trans ((quiet ..).trans (performNow ..)))

theorem walkTouch (s : State) (own va : Nat) : AgentKeeps s (s.walkTouch own va) := by
  unfold State.walkTouch
  split
  · exact .refl s
  · exact .foldl _ (fun s a => homeTouch s own _ false) _ s

theorem frontReady (s : State) (own va n : Nat) : AgentKeeps s (s.frontReady own va n) := by
  unfold State.frontReady
  dsimp only
  split
  · exact (walkTouch ..).trans (agentReads ..)
  · exact walkTouch ..

theorem frontWrite {s t : State} {own va : Nat} {bs : List Byte} (h : s.frontWrite own va bs = .ok t) : AgentKeeps s t := by
  unfold State.frontWrite at h
  dsimp only at h
  split at h
  · cases h
    exact (walkTouch ..).trans (agentWrites ..)
  · cases h

/-! ### Rings (R74, R221, R222, R411) -/

/-- An owner changes, its queues but for their copies of tail words do not. -/
theorem updOwner (s : State) (own : Nat) (f : Owner → Owner) (hf : ∀ o, (f o).queues = o.queues) : AgentKeeps s (s.updOwner own f) := by
  refine ⟨rfl, fun k q => ?_, ascending_upd _ _⟩
  change Option.map _ (((s.owners.upd own f).get? k).bind fun o => o.queues.get? q) = _
  rw [get?_upd]
  split
  · next h =>
    subst h
    rw [State.queue?]
    cases s.owners.get? k with
    | none => rfl
    | some o => simp [hf]
  · rfl

theorem ringReady (s : State) (own : Nat) (r : Ring) (put : Option Ring → Owner → Owner) (hp : ∀ x o, (put x o).queues = o.queues) :
    AgentKeeps s (s.ringReady own r put) := by
  have h : AgentKeeps s (((s.frontReady own r.block 8).frontReady own (r.block + 8) 8).frontReady own (r.block + 16) 8) :=
    (frontReady ..).trans ((frontReady ..).trans (frontReady ..))
  unfold State.ringReady
  dsimp only
  split
  · exact h.trans (updOwner _ _ _ (hp _))
  · exact h

/-- What an append to a ring leaves, whatever becomes of the entry. -/
theorem append (s : State) (own : Nat) (r : Ring) (size : Nat) (entry : Nat → List Byte) :
    (∀ t, s.append own r size entry = .done t → AgentKeeps s t) ∧
    ∀ t a, s.append own r size entry = .blocked t a → AgentKeeps s t := by
  unfold State.append
  split
  · split
    · exact ⟨fun t h => (by cases h), fun t a h => by cases h⟩
    · split
      · exact ⟨fun t h => (by cases h), fun t a h => by cases h; exact .refl s⟩
      · next s1 h1 =>
        split
        · exact ⟨fun t h => (by cases h), fun t a h => by cases h; exact frontWrite h1⟩
        · next s2 h2 => exact ⟨fun t h => (by cases h; exact (frontWrite h1).trans (frontWrite h2)), fun t a h => by cases h⟩
  · exact ⟨fun t h => (by cases h), fun t a h => by cases h; exact .refl s⟩
  · exact ⟨fun t h => (by cases h), fun t a h => by cases h; exact .refl s⟩

theorem bumpStatus {s t : State} {own : Nat} {r : Ring} {n : Nat} (h : s.bumpStatus own r n = .ok t) : AgentKeeps s t := by
  unfold State.bumpStatus at h
  split at h
  · exact frontWrite h
  · cases h

theorem logViol (s : State) (own : Nat) (v : Viol) (pc launch core : Nat) : AgentKeeps s (s.logViol own v pc launch core) := by
  unfold State.logViol
  split
  · exact .refl s
  · split
    · exact .refl s
    · next o _ r _ =>
      refine (ringReady s own r .withVlog fun _ _ => rfl).trans ?_
      dsimp only
      split
      · next t h => exact ((append ..).1 t h).trans (updOwner _ _ _ fun _ => rfl)
      · split
        · next t h => exact bumpStatus h
        · exact .refl _
      · next t a h => exact (append ..).2 t a h

theorem logAccess (s : State) (own : Nat) (a : Access) : AgentKeeps s (s.logAccess own a) := by
  unfold State.logAccess
  split
  · exact logViol ..
  · exact .refl s

theorem dropEvents (s : State) (own : Nat) (r : Ring) (n : Nat) : AgentKeeps s (s.dropEvents own r n) := by
  unfold State.dropEvents
  split
  · next t h => exact (bumpStatus h).trans (updOwner _ _ _ fun _ => rfl)
  · exact (logAccess ..).trans (updOwner _ _ _ fun _ => rfl)

theorem postEvent (s : State) (own ident value : Nat) : AgentKeeps s (s.postEvent own ident value) := by
  unfold State.postEvent
  split
  · exact .refl s
  · split
    · exact updOwner _ _ _ fun _ => rfl
    · next o _ r _ =>
      have hm : ∀ (t : State) (l : List (Nat × Nat)), AgentKeeps t { t with msix := l } := fun _ _ => ⟨rfl, fun _ _ => rfl, id⟩
      refine (ringReady s own r .withRing fun _ _ => rfl).trans (AgentKeeps.trans ?_ (hm _ _))
      split
      · next t h =>
        split
        · exact (append ..).1 t h
        · exact ((append ..).1 t h).trans (dropEvents ..)
      · exact dropEvents ..
      · next t a h => exact ((append ..).2 t a h).trans ((logAccess ..).trans (dropEvents ..))

theorem storeCompletion (s : State) (l : Launch) (w : Nat) : AgentKeeps s (s.storeCompletion l w) := by
  unfold State.storeCompletion
  split
  · next t h =>
    split
    · exact (frontWrite h).trans (postEvent ..)
    · exact frontWrite h
  · exact (logAccess ..).trans (postEvent ..)

end AgentKeeps

end Sys2Proof.Machine

/-! PROOFS. The end of a launch in the front: its word, its outcome, its dependants (R63 to R65, R72). -/

namespace Sys2Proof.Machine

open Spec

/-! ### Tables -/

theorem get?_filter {α : Type} (p : Nat × α → Bool) {n : Nat} (hp : ∀ v, p (n, v) = true) (t : Tbl α) :
    Tbl.get? (t.filter p) n = t.get? n := by
  induction t with
  | nil => rfl
  | cons e t ih =>
    obtain ⟨k, v⟩ := e
    rw [List.filter_cons]
    split
    · simp only [Tbl.get?, ih]
    · next h =>
      have hk : k ≠ n := fun hk => h (hk ▸ hp v)
      simp only [Tbl.get?, if_neg hk, ih]

/-- In a table with rising keys the keys of an entry's tail lie above it. -/
theorem get?_eq_none_of_lt {α : Type} {t : Tbl α} {lo n : Nat} (h : Tbl.ascending lo t = true) (hn : n < lo) : t.get? n = none := by
  induction t generalizing lo with
  | nil => rfl
  | cons e t ih =>
    simp only [Tbl.ascending, Bool.and_eq_true, decide_eq_true_eq] at h
    simp only [Tbl.get?]
    rw [if_neg (by omega)]
    exact ih h.2 (by omega)

/-- Where the keys rise, a change of one entry leaves every entry in its place. -/
theorem upd_eq_map {α : Type} {t : Tbl α} {lo : Nat} (h : Tbl.ascending lo t = true) (n : Nat) (f : α → α) :
    t.upd n f = t.map fun e => (e.1, if e.1 = n then f e.2 else e.2) := by
  have hnone : ∀ t : Tbl α, t.get? n = none → t.map (fun e => (e.1, if e.1 = n then f e.2 else e.2)) = t := by
    intro t ht
    induction t with
    | nil => rfl
    | cons e t ih =>
      simp only [Tbl.get?] at ht
      split at ht
      · cases ht
      · next hk => rw [List.map_cons, ih ht, if_neg hk]
  induction t generalizing lo with
  | nil => rfl
  | cons e t ih =>
    obtain ⟨k, v⟩ := e
    simp only [Tbl.ascending, Bool.and_eq_true, decide_eq_true_eq] at h
    by_cases hk : k = n
    · subst hk
      simp only [Tbl.upd, Tbl.get?, if_true, Tbl.put, lt_irrefl, if_false, List.map_cons]
      rw [hnone t (get?_eq_none_of_lt h.2 (Nat.lt_succ_self k))]
    · rw [List.map_cons, if_neg hk, ← ih h.2]
      unfold Tbl.upd
      simp only [Tbl.get?, if_neg hk]
      cases hg : Tbl.get? t n with
      | none => rfl
      | some x =>
        have hlt : ¬ n < k := fun hlt => by rw [get?_eq_none_of_lt h.2 (by omega)] at hg; cases hg
        simp only [Tbl.put, if_neg hlt, if_neg (Ne.symm hk)]

/-! ### Queues -/

theorem queue?_updQueue (s : State) (own q : Nat) (f : Queue → Queue) :
    (s.updQueue own q f).queue? own q = (s.queue? own q).map f := by
  change ((s.owners.upd own fun o => { o with queues := o.queues.upd q f }).get? own).bind (fun o => o.queues.get? q) = _
  rw [Tbl.get?_upd_self, State.queue?]
  cases s.owners.get? own with
  | none => rfl
  | some o => exact Tbl.get?_upd_self ..

/-- A change of a queue changes no byte where the owners stand in order: STATUS words are looked at in the same order (R222). -/
theorem updQueue_store {s : State} (h : Tbl.ascending 0 s.owners = true) (own q : Nat) (f : Queue → Queue) :
    SameStore s (s.updQueue own q f) := by
  refine ⟨rfl, rfl, rfl, rfl, rfl, rfl, rfl, rfl, rfl, rfl, ?_⟩
  have ho : (s.updQueue own q f).owners = s.owners.map fun e =>
      (e.1, if e.1 = own then { e.2 with queues := e.2.queues.upd q f } else e.2) := upd_eq_map h ..
  rw [State.statusPlaces, ho, List.flatMap_map, State.statusPlaces]
  congr 1
  funext e
  dsimp only
  split <;> rfl

theorem updQueue_order {s : State} (h : Tbl.ascending 0 s.owners = true) (own q : Nat) (f : Queue → Queue) :
    Tbl.ascending 0 (s.updQueue own q f).owners = true := ascending_upd _ _ h

/-- `t` is `s` but for the owners, which stand in order where they did, and no byte changes. -/
structure QueuesOnly (s t : State) : Prop where
  rest : t = { s with owners := t.owners }
  order : Tbl.ascending 0 s.owners = true → Tbl.ascending 0 t.owners = true
  store : Tbl.ascending 0 s.owners = true → SameStore s t

theorem QueuesOnly.refl (s : State) : QueuesOnly s s := ⟨rfl, id, fun _ => .refl s⟩

theorem updQueue_queuesOnly (s : State) (own q : Nat) (f : Queue → Queue) : QueuesOnly s (s.updQueue own q f) :=
  ⟨rfl, fun h => updQueue_order h own q f, fun h => updQueue_store h own q f⟩

theorem recordOutcome_queuesOnly (s : State) (own q n status : Nat) : QueuesOnly s (s.recordOutcome own q n status) := by
  unfold State.recordOutcome
  split
  · exact .refl s
  · exact updQueue_queuesOnly ..

theorem resetDone_queuesOnly (s : State) (own q : Nat) : QueuesOnly s (s.resetDone own q) := by
  unfold State.resetDone
  split
  · exact .refl s
  · split
    · exact updQueue_queuesOnly ..
    · exact .refl s

/-- The floor of a queue lies at or below every launch of it in the table (R65). -/
theorem floorOf_le {s : State} {own q : Nat} (x : Queue) {e : Nat × Launch} (he : e ∈ s.launches) (ho : e.2.owner = own)
    (hq : e.2.queue = q) : s.floorOf own q x ≤ e.2.seq :=
  List.min?_getD_le_of_mem (List.mem_map.mpr ⟨e, List.mem_filter.mpr ⟨he, by simp [ho, hq]⟩, rfl⟩)

/-- A queue keeps the outcomes at or above its floor (R65). -/
theorem keepOutcomes_get? {floor n : Nat} (h : floor ≤ n) (t : Tbl Nat) : (keepOutcomes floor t).get? n = t.get? n :=
  get?_filter _ (fun v => by simp [h]) t

/-- The outcome of a launch at or above the floor is kept (R65). -/
theorem recordOutcome_kept {s : State} {own q n : Nat} (status : Nat) {x : Queue} (hx : s.queue? own q = some x)
    (hf : s.floorOf own q x ≤ n) :
    ∃ y, (s.recordOutcome own q n status).queue? own q = some y ∧ y.outcomes.get? n = some status := by
  rw [State.recordOutcome, hx]
  dsimp only
  rw [queue?_updQueue, hx]
  exact ⟨_, rfl, by rw [keepOutcomes_get? hf, Tbl.get?_put_self]⟩

theorem resetDone_outcomes {s : State} {own q : Nat} {x : Queue} (hx : s.queue? own q = some x) :
    ∃ y, (s.resetDone own q).queue? own q = some y ∧ y.outcomes = x.outcomes := by
  rw [State.resetDone, hx]
  dsimp only
  split
  · rw [queue?_updQueue, hx]
    exact ⟨_, rfl, rfl⟩
  · exact ⟨x, hx, rfl⟩

/-! ### Dependants (R63, R64) -/

/-- A predecessor field names a launch. -/
def naming (p : Option Pred) (l : Launch) : Bool := p.any (·.names l)

theorem naming_iff (p : Option Pred) (l : Launch) :
    naming p l = true ↔ ∃ x, p = some x ∧ x.queue = l.queue ∧ x.seq = l.seq := by
  cases p <;> simp [naming, Pred.names]

/-- A launch after one that it may name has satisfied its dependants. -/
def Launch.satisfiedBy (d l : Launch) : Launch :=
  if d.owner = l.owner then { d with sat0 := d.sat0 || naming d.pred0 l, sat1 := d.sat1 || naming d.pred1 l } else d

/-- A launch after one that it may name has failed its dependants. -/
def Launch.failedBy (d l : Launch) : Launch :=
  if d.owner = l.owner ∧ d.fail.isNone ∧ d.stage ≠ .running then
    if !d.sat0 && naming d.pred0 l then { d with fail := some (6, 0) }
    else if !d.sat1 && naming d.pred1 l then { d with fail := some (6, 1) } else d
  else d

/-- A launch after one that it may name has completed with a status. -/
def Launch.afterEnd (d l : Launch) (status : Nat) : Launch := if status = 1 then d.satisfiedBy l else d.failedBy l

theorem satisfy_eq (s : State) (l : Launch) :
    (s.satisfy l fun _ => true) = { s with launches := s.launches.map fun e => (e.1, e.2.satisfiedBy l) } := by
  refine congrArg (fun t => { s with launches := t }) (List.map_congr_left fun e _ => ?_)
  unfold Launch.satisfiedBy naming
  split
  · cases h0 : e.2.pred0 <;> cases h1 : e.2.pred1 <;> simp [h0, h1]
  · rfl

theorem failedPred_eq (d l : Launch) : d.failedPred (·.names l) =
    if !d.sat0 && naming d.pred0 l then some 0 else if !d.sat1 && naming d.pred1 l then some 1 else none := by
  unfold Launch.failedPred naming
  cases d.pred0 <;> cases d.pred1 <;> simp

theorem informDependants_eq (s : State) (l : Launch) (status : Nat) :
    s.informDependants l status = { s with launches := s.launches.map fun e => (e.1, e.2.afterEnd l status) } := by
  unfold State.informDependants Launch.afterEnd
  split
  · exact satisfy_eq s l
  · refine congrArg (fun t => { s with launches := t }) (List.map_congr_left fun e _ => ?_)
    rw [failedPred_eq, Launch.failedBy]
    split
    · by_cases h0 : (!e.2.sat0 && naming e.2.pred0 l) = true
      · rw [if_pos h0, if_pos h0]
      · by_cases h1 : (!e.2.sat1 && naming e.2.pred1 l) = true
        · rw [if_neg h0, if_neg h0, if_pos h1, if_pos h1]
        · rw [if_neg h0, if_neg h0, if_neg h1, if_neg h1]
    · rfl

/-- What a predecessor's end may change of a launch. -/
theorem afterEnd_frame (d l : Launch) (status : Nat) : d.afterEnd l status =
    { d with sat0 := (d.afterEnd l status).sat0, sat1 := (d.afterEnd l status).sat1, fail := (d.afterEnd l status).fail } := by
  unfold Launch.afterEnd Launch.satisfiedBy Launch.failedBy
  split
  · split <;> rfl
  · split
    · split
      · rfl
      · split <;> rfl
    · rfl

theorem satisfiedBy_spec (d l : Launch) : ((d.satisfiedBy l).sat0 = true ↔ d.sat0 = true ∨ d.owner = l.owner ∧ naming d.pred0 l = true) ∧
    ((d.satisfiedBy l).sat1 = true ↔ d.sat1 = true ∨ d.owner = l.owner ∧ naming d.pred1 l = true) ∧ (d.satisfiedBy l).fail = d.fail := by
  unfold Launch.satisfiedBy
  split
  · next h => simp [h]
  · next h => simp [h]

/-- The first field that fails marks the launch (R64). -/
theorem failedBy_fail (d l : Launch) : (d.failedBy l).fail =
    if d.owner = l.owner ∧ d.fail.isNone ∧ d.stage ≠ .running then
      if !d.sat0 && naming d.pred0 l then some (6, 0) else if !d.sat1 && naming d.pred1 l then some (6, 1) else d.fail
    else d.fail := by
  unfold Launch.failedBy
  split
  · split
    · rfl
    · split <;> rfl
  · rfl

theorem failedBy_sat (d l : Launch) : (d.failedBy l).sat0 = d.sat0 ∧ (d.failedBy l).sat1 = d.sat1 := by
  unfold Launch.failedBy
  split
  · split
    · exact ⟨rfl, rfl⟩
    · split <;> exact ⟨rfl, rfl⟩
  · exact ⟨rfl, rfl⟩

theorem afterEnd_informed (d l : Launch) (status : Nat) : informed l status d (d.afterEnd l status) := by
  refine ⟨afterEnd_frame d l status, fun h => ?_, fun h => ?_⟩
  · simp only [← naming_iff, Launch.afterEnd, if_pos h]
    exact satisfiedBy_spec d l
  · obtain ⟨h0, h1⟩ := failedBy_sat d l
    simp only [← naming_iff, Launch.afterEnd, if_neg h]
    refine ⟨h0, h1, fun hf hr hn hs => ?_, fun hf hr hn0 hn hs => ?_, fun hc => ?_⟩
    · simp [failedBy_fail, hf, hr, hn.1, hn.2, hs]
    · have hm : ¬ (!d.sat0 && naming d.pred0 l) = true := fun hm => hn0 ⟨⟨hn.1, by simp_all⟩, by simp_all⟩
      simp [failedBy_fail, hf, hr, hn.1, hn.2, hs, hm]
    · rw [failedBy_fail]
      split
      · next hg =>
        have hm : ∀ b n : Bool, ¬ ((d.owner = l.owner ∧ n = true) ∧ b = false) → ¬ (!b && n) = true := by
          intro b n hc hm
          simp only [Bool.and_eq_true, Bool.not_eq_true'] at hm
          exact hc ⟨⟨hg.1, hm.2⟩, hm.1⟩
        obtain ⟨k0, k1⟩ := (hc.resolve_left fun hf => hf (Option.isNone_iff_eq_none.mp hg.2.1)).resolve_left hg.2.2
        rw [if_neg (hm _ _ k0), if_neg (hm _ _ k1)]
      · rfl

/-! ### A launch completes (R72, R435) -/

/-- The machine once a completed launch has left the table, its word stored. -/
def State.without (s : State) (lid : Nat) : State := { s with launches := s.launches.del lid }.endDrains lid

theorem completeLaunch_eq {s : State} {lid : Nat} {l : Launch} (hl : s.launches.get? lid = some l) (status detail : Nat) :
    s.completeLaunch lid status detail =
      ((((s.storeCompletion l (completionWord status detail l.gangsDone)).without lid).recordOutcome l.owner l.queue l.seq
        status).informDependants l status).resetDone l.owner l.queue := by
  rw [State.completeLaunch, hl]
  rfl

theorem completionWord_eq (status detail gangs : Nat) :
    completionWord status detail gangs = status + 256 * min gangs 0xFFFFFF + 2 ^ 32 * (detail % 65536) := by
  unfold completionWord
  ring

theorem storeCompletion_ok {s t : State} {l : Launch} {w : Nat} (hn : l.notify = false)
    (h : s.frontWrite l.owner l.compl (leBytes 8 w) = .ok t) : s.storeCompletion l w = t := by
  simp [State.storeCompletion, h, hn]

theorem endDrains_clusters (s : State) (lid : Nat) : (s.endDrains lid).clusters =
    s.clusters.map fun e => (e.1, if e.2.setAside = some lid then { e.2 with setAside := none } else e.2) := by
  refine List.map_congr_left fun e _ => ?_
  split <;> rfl

/-- Where the owners stand in order, a launch completes as the statements say (R63 to R65, R72). -/
theorem completeLaunch_completes {s : State} {lid : Nat} {l : Launch} (ho : Tbl.ascending 0 s.owners = true)
    (hl : s.launches.get? lid = some l) (status detail : Nat) : completes s lid l status detail (s.completeLaunch lid status detail) := by
  rw [completeLaunch_eq hl, completionWord_eq]
  generalize hw : status + 256 * min l.gangsDone 0xFFFFFF + 2 ^ 32 * (detail % 65536) = w
  have ha := AgentKeeps.storeCompletion s l w
  generalize hs : s.storeCompletion l w = a at ha
  let b := a.without lid
  have hr := recordOutcome_queuesOnly b l.owner l.queue l.seq status
  generalize hc : b.recordOutcome l.owner l.queue l.seq status = c at hr
  rw [informDependants_eq]
  let d : State := { c with launches := c.launches.map fun e => (e.1, e.2.afterEnd l status) }
  have hd := resetDone_queuesOnly d l.owner l.queue
  have hbl : b.launches = s.launches.del lid := congrArg (Tbl.del · lid) ha.launches
  have hcl : c.launches = s.launches.del lid := by rw [hr.rest]; exact hbl
  have htl : (d.resetDone l.owner l.queue).launches = (s.launches.del lid).map fun e => (e.1, e.2.afterEnd l status) := by
    rw [hd.rest, ← hcl]
  refine ⟨?_, fun s1 hn h1 => ?_, fun x e hx he heo heq hes => ?_, fun k j hk hj => ?_, fun x hx => ?_, fun k x hx => ?_⟩
  · rw [htl, get?_map_snd (Launch.afterEnd · l status), Tbl.get?_del_self]
    rfl
  · obtain rfl : a = s1 := by rw [← hs, storeCompletion_ok hn (hw ▸ h1)]
    have hoa := ha.order ho
    have hab : SameStore a b := ⟨rfl, rfl, rfl, rfl, rfl, rfl, rfl, rfl, rfl, rfl, rfl⟩
    have hcd : SameStore c d := ⟨rfl, rfl, rfl, rfl, rfl, rfl, rfl, rfl, rfl, rfl, rfl⟩
    exact (hab.trans ((hr.store hoa).trans (hcd.trans (hd.store (hr.order hoa))))).bytes
  · rw [htl] at he
    obtain ⟨e', he', rfl⟩ := List.mem_map.mp he
    have hfr := afterEnd_frame e'.2 l status
    dsimp only at heo heq hes
    rw [hfr] at heo heq hes
    obtain ⟨y, hy⟩ := Option.isSome_iff_exists.mp ((ha.queue_isSome l.owner l.queue).trans (by rw [hx]; rfl))
    have hby : b.queue? l.owner l.queue = some y := hy
    have hf : b.floorOf l.owner l.queue y ≤ l.seq := le_trans (floorOf_le y (by rw [hbl]; exact he') heo heq) hes
    obtain ⟨z, hz, hzo⟩ := recordOutcome_kept status hby hf
    rw [hc] at hz
    obtain ⟨u, hu, huo⟩ := resetDone_outcomes (s := d) (own := l.owner) (q := l.queue) (x := z) hz
    exact ⟨u, hu, by rw [huo, hzo]⟩
  · rw [htl, get?_map_snd (Launch.afterEnd · l status), Tbl.get?_del_ne _ hk, hj]
    exact ⟨_, rfl, afterEnd_informed j l status⟩
  · have hdr : (d.resetDone l.owner l.queue).drains = a.drains.filter fun d => d.lid != lid := by
      rw [hd.rest]
      change c.drains = _
      rw [hr.rest]
      rfl
    rw [hdr] at hx
    simpa using (List.mem_filter.mp hx).2
  · have hcl : (d.resetDone l.owner l.queue).clusters = ({ a with launches := a.launches.del lid }.endDrains lid).clusters := by
      rw [hd.rest]
      change c.clusters = _
      rw [hr.rest]
      rfl
    rw [hcl, endDrains_clusters,
      get?_map_snd (fun x : Cluster => if x.setAside = some lid then { x with setAside := none } else x)] at hx
    obtain ⟨y, -, rfl⟩ := Option.map_eq_some_iff.mp hx
    split
    · simp
    · assumption

end Sys2Proof.Machine

/-! PROOFS. The conditions of R45 for an image, as the descriptor's checks and as the statements say them. -/

namespace Sys2Proof.Machine

open Spec

/-! ### Bytes and bits -/

/-- A field of some bytes begins with its first byte. -/
theorem fieldAt_succ (bs : List Byte) (o n : Nat) : fieldAt bs o (n + 1) = fieldAt bs o 1 + 256 * fieldAt bs (o + 1) n := by
  unfold fieldAt
  rw [show bs.drop (o + 1) = (bs.drop o).drop 1 by rw [List.drop_drop]]
  cases bs.drop o with
  | nil => simp [leValue]
  | cons b t => simp [leValue]

/-- A field is 0 if each of its bytes is. -/
theorem fieldAt_ne_zero (bs : List Byte) (n : Nat) : ∀ o, fieldAt bs o n ≠ 0 ↔ ∃ k, o ≤ k ∧ k < o + n ∧ fieldAt bs k 1 ≠ 0 := by
  induction n with
  | zero => exact fun o => ⟨fun h => absurd rfl h, fun ⟨k, h1, h2, _⟩ => absurd h2 (by omega)⟩
  | succ n ih =>
    intro o
    rw [fieldAt_succ]
    constructor
    · intro h
      by_cases h0 : fieldAt bs o 1 = 0
      · obtain ⟨k, h1, h2, h3⟩ := (ih (o + 1)).mp (by omega)
        exact ⟨k, by omega, by omega, h3⟩
      · exact ⟨o, le_rfl, by omega, h0⟩
    · rintro ⟨k, h1, h2, h3⟩
      rcases Nat.eq_or_lt_of_le h1 with rfl | h
      · omega
      · have := (ih (o + 1)).mpr ⟨k, h, by omega, h3⟩
        omega

theorem testBit_iff_field (v i : Nat) : v.testBit i = true ↔ field v i 1 = 1 := by
  rw [Nat.testBit_eq_decide_div_mod_eq, decide_eq_true_eq]
  rfl

/-! ### The limits of R43 and R44 -/

theorem alignOk_iff (n : Nat) : alignOk n = true ↔ ∃ k, 3 ≤ k ∧ k ≤ 12 ∧ n = 2 ^ k := by
  simp only [alignOk, List.any_eq_true, List.mem_range, beq_iff_eq]
  constructor
  · rintro ⟨i, hi, rfl⟩
    exact ⟨i + 3, by omega, by omega, rfl⟩
  · rintro ⟨k, h1, h2, rfl⟩
    exact ⟨k - 3, by omega, by congr 1; omega⟩

theorem disjointParts_iff (l : List (Nat × Nat)) : disjointParts l = true ↔ l.Pairwise fun p q => apart p.1 p.2 q.1 q.2 := by
  induction l with
  | nil => simp [disjointParts]
  | cons p r ih => simp [disjointParts, ih, apart]

theorem signed_iff (d : Desc) : d.signed = (d.sigOff != 0) ↔ (field d.flags 1 1 = 1 ↔ d.sigOff ≠ 0) := by
  rw [← testBit_iff_field, Bool.eq_iff_iff, bne_iff_ne]
  rfl

/-- The limits of a descriptor and its launch's shape (R43, R44; condition 3 of R45). -/
theorem limits_iff (d : Desc) (x : Shape) : d.limits x = true ↔
    (d.sigLen = if d.sigOff = 0 then 0 else 3320) ∧ (d.sigOff ≠ 0 → d.imageLen ≤ d.sigOff ∧ d.sigOff % 8 = 0) ∧
    (field d.flags 1 1 = 1 ↔ d.sigOff ≠ 0) ∧ d.relocOff % 8 = 0 ∧ (d.relocCount = 0 → d.relocOff = 0) ∧ d.trapvec % 4 = 0 ∧
    d.entry % 4 = 0 ∧ 8 ≤ x.regs ∧ x.regs ≤ 512 ∧ x.regs % 8 = 0 ∧ 1 ≤ x.nWaves ∧ x.nWaves ≤ 16 ∧ 1 ≤ x.nTeams ∧ x.nTeams ≤ 4 ∧
    x.localBytes % 128 = 0 ∧ x.localBytes ≤ 524288 ∧ x.banks ≤ 8 ∧ (∃ k, 3 ≤ k ∧ k ≤ 12 ∧ d.argsAlign = 2 ^ k) ∧
    (d.argsLen = 0 → d.argsOff = 0) ∧ (d.rodataLen = 0 → d.rodataOff = 0) ∧ d.codeOff % 128 = 0 ∧ d.rodataOff % 128 = 0 ∧
    4 ≤ d.codeLen ∧ d.codeLen % 4 = 0 ∧ d.imageLen ≤ 2 ^ 26 := by
  rw [← signed_iff, ← alignOk_iff]
  simp only [Desc.limits, Bool.and_eq_true, Bool.or_eq_true, beq_iff_eq, bne_iff_ne, decide_eq_true_eq, and_assoc, ne_eq,
    or_iff_not_imp_left, not_not]

theorem inCode_iff (d : Desc) (o : Nat) : d.inCode o = true ↔ d.codeOff ≤ o ∧ o < d.codeOff + d.codeLen := by
  simp [Desc.inCode]

/-! ### The conditions of R45 -/

theorem shaped_unique {bs : List Byte} {l : Launch} {x : Shape} (h : shaped bs l x) : (Desc.ofBytes bs).shape l = x := by
  obtain ⟨h1, h2, h3, h4, h5, h6, h7, h8, h9, h10⟩ := h
  cases x
  simp only [Desc.shape, Shape.mk.injEq]
  exact ⟨h1.symm, h2.symm, h3.symm, h4.symm, h5.symm, h6.symm, h7.symm, h8.symm, h9.symm, h10.symm⟩

theorem reserved_iff (bs : List Byte) : (Desc.ofBytes bs).reserved = true ↔
    ∃ k, (k = 53 ∨ k = 54 ∨ k = 55 ∨ (84 ≤ k ∧ k < 128)) ∧ fieldAt bs k 1 ≠ 0 := by
  have h : (Desc.ofBytes bs).reserved = true ↔ fieldAt bs 53 3 ≠ 0 ∨ fieldAt bs 84 44 ≠ 0 := by simp [Desc.ofBytes]
  rw [h, fieldAt_ne_zero bs 3, fieldAt_ne_zero bs 44]
  constructor
  · rintro (⟨k, h1, h2, h3⟩ | ⟨k, h1, h2, h3⟩)
    · exact ⟨k, by omega, h3⟩
    · exact ⟨k, by omega, h3⟩
  · rintro ⟨k, h1, h3⟩
    by_cases hk : k < 84
    · exact .inl ⟨k, by omega, by omega, h3⟩
    · exact .inr ⟨k, by omega, by omega, h3⟩

/-- Condition 4: a part ends past the image, or two overlap (R42). -/
theorem partsFault_iff (d : Desc) : ((d.parts.any fun p => decide (d.imageLen < p.1 + p.2)) ||
      !disjointParts (d.parts ++ if d.sigLen = 0 then [] else [(d.sigOff, d.sigLen)])) = true ↔
    (∃ p ∈ d.parts, d.imageLen < p.1 + p.2) ∨
      ¬ (d.parts ++ if d.sigLen = 0 then [] else [(d.sigOff, d.sigLen)]).Pairwise fun p q => apart p.1 p.2 q.1 q.2 := by
  rw [Bool.or_eq_true, ← disjointParts_iff, List.any_eq_true, Bool.not_eq_true', Bool.not_eq_true]
  simp only [decide_eq_true_eq]

/-- Condition n of R45 is entry n − 1 of the descriptor's list. -/
theorem imageFault_iff {bs : List Byte} {l : Launch} {x : Shape} (h : shaped bs l x) (n : Nat) :
    imageFault bs l x (n + 1) ↔ ((Desc.ofBytes bs).conditions l)[n]? = some true := by
  rw [Desc.conditions, shaped_unique h]
  generalize hd : Desc.ofBytes bs = d
  match n with
  | 0 => subst hd; simp [imageFault, Desc.ofBytes]
  | 1 =>
    rw [imageFault, ← reserved_iff]
    subst hd
    simp only [List.getElem?_cons_succ, List.getElem?_cons_zero, Option.some.injEq, Bool.or_eq_true, decide_eq_true_eq, or_assoc]
    rfl
  | 2 =>
    have := limits_iff d x
    subst hd
    simp only [List.getElem?_cons_succ, List.getElem?_cons_zero, Option.some.injEq, Bool.not_eq_true']
    rw [← Bool.not_eq_true, this]
    rfl
  | 3 =>
    have := partsFault_iff d
    subst hd
    simp only [List.getElem?_cons_succ, List.getElem?_cons_zero, Option.some.injEq]
    rw [this]
    rfl
  | 4 =>
    have := inCode_iff d
    subst hd
    simp only [List.getElem?_cons_succ, List.getElem?_cons_zero, Option.some.injEq, Bool.or_eq_true, Bool.and_eq_true,
      Bool.not_eq_true', ← Bool.not_eq_true, this, bne_iff_ne]
    rfl
  | 5 =>
    simp only [List.getElem?_cons_succ, List.getElem?_cons_zero, Option.some.injEq, Bool.not_eq_true', decide_eq_false_iff_not]
    rfl
  | 6 => simp [imageFault]
  | 7 => simp [imageFault]
  | 8 => subst hd; simp [imageFault, Desc.ofBytes]
  | 9 =>
    subst hd
    simp only [List.getElem?_cons_succ, List.getElem?_cons_zero, Option.some.injEq, bne_iff_ne, ne_eq]
    rw [Bool.eq_iff_iff, show (Desc.ofBytes bs).tasks = (fieldAt bs 6 2).testBit 0 from rfl, testBit_iff_field]
    rfl
  | 10 => simp [imageFault]
  | n + 11 => simp [imageFault]

theorem imageFault_zero (bs : List Byte) (l : Launch) (x : Shape) : ¬ imageFault bs l x 0 := id

/-- No condition of R45 holds: the image passes on to its signature. -/
theorem failure_none {bs : List Byte} {l : Launch} {x : Shape} (h : shaped bs l x) (hn : ∀ n, ¬ imageFault bs l x n) :
    (Desc.ofBytes bs).failure l = none := by
  rw [Desc.failure, Option.map_eq_none_iff, List.findIdx?_eq_none_iff]
  intro b hb
  obtain ⟨n, hb⟩ := List.getElem?_of_mem hb
  rw [id, ← Bool.not_eq_true]
  rintro rfl
  exact hn (n + 1) ((imageFault_iff h n).mpr hb)

/-- The first condition of R45 that holds. -/
theorem failure_some {bs : List Byte} {l : Launch} {x : Shape} (h : shaped bs l x) {n : Nat} (hn : imageFault bs l x n)
    (hm : ∀ m, m < n → ¬ imageFault bs l x m) : (Desc.ofBytes bs).failure l = some n := by
  cases n with
  | zero => exact absurd hn (imageFault_zero bs l x)
  | succ n =>
    rw [Desc.failure, Option.map_eq_some_iff]
    refine ⟨n, List.findIdx?_eq_some_iff_getElem.mpr ?_, rfl⟩
    obtain ⟨hlt, hval⟩ := List.getElem?_eq_some_iff.mp ((imageFault_iff h n).mp hn)
    refine ⟨hlt, hval, fun j hj hc => hm (j + 1) (by omega) ((imageFault_iff h j).mpr ?_)⟩
    rw [List.getElem?_eq_getElem (by omega)]
    exact congrArg some hc

end Sys2Proof.Machine

/-! PROOFS. IMAGE_CHECK where the table of owners has rising keys: all that O43 says then holds. -/

namespace Sys2Proof.Machine

open Spec

/-- What O43 says of one state. -/
def imageChecksAt (s : State) : Prop :=
  ∀ (lid : Nat) (l : Launch), s.ev.x = lid → s.launches.get? lid = some l → l.stage = .taken → l.fail = none →
    (∀ p, l.pred0 = some p → l.sat0 = true) → (∀ p, l.pred1 = some p → l.sat1 = true) →
    let sR := s.frontReady l.owner l.image 128
    let ends (u : State) (status detail : Nat) : Prop := ∃ t, exec .imageCheck s = .next t ∧ completes u lid l status detail t
    (∀ c, sR.frontRead l.owner l.image 128 = .error (.park c) → ends sR 2 12) ∧
    ∀ (bs : List Byte) (x : Shape), sR.frontRead l.owner l.image 128 = .ok bs → bs.length = 128 → shaped bs l x →
      (∀ n, imageFault bs l x n → (∀ m, m < n → ¬ imageFault bs l x m) → ends sR 2 n) ∧
      ((∀ n, ¬ imageFault bs l x n) → ∀ o, sR.owners.get? l.owner = some o →
        let passes (t : State) (imgs : List ImgEnt) : Prop := exec .imageCheck s = .next { t with
          launches := t.launches.put lid { l with stage := .checked, shape := some x }, imgCache := imgs }
        let others (t : State) : List ImgEnt := t.imgCache.filter fun i => ¬ (i.owner = l.owner ∧ i.va = l.image)
        (fieldAt bs 76 4 = 0 → (o.required = true → ends sR 3 1) ∧ (o.required = false → passes sR sR.imgCache)) ∧
        (fieldAt bs 76 4 ≠ 0 →
          let len := fieldAt bs 8 4
          (∀ e, sR.imgCache.find? (fun i => i.owner = l.owner ∧ i.va = l.image) = some e → passes sR ((e :: others sR).take 32)) ∧
          ((∀ e ∈ sR.imgCache, ¬ (e.owner = l.owner ∧ e.va = l.image)) →
            let sW := (sR.walksTouch l.owner l.image len).walksTouch l.owner (l.image + fieldAt bs 76 4) 3320
            (∀ c, sW.frontPieces l.owner l.image len = .error (.park c) → ends sW 2 12) ∧
            ∀ is sg, sW.frontPieces l.owner l.image len = .ok is → sW.frontPieces l.owner (l.image + fieldAt bs 76 4) 3320 = .ok sg →
            let t := sW.servePieces l.owner (is ++ sg)
            let image := t.readPieces is
            let block := t.readPieces sg
            let slot := fieldAt block 4 2
            let valid (key : List Byte) : Prop := fieldAt block 0 4 = 0x47534946 ∧ slot < 8 ∧ fieldAt block 6 2 = 3309 ∧
              fieldAt block 3317 3 = 0 ∧ mldsaVerify key (shake256 image 64) ((block.drop 8).take 3309) = true
            (slot < 8 → o.vkeys.get? slot = none → ends t 3 3) ∧
            (∀ key, o.vkeys.get? slot = some key → ¬ valid key → ends t 3 2) ∧
            (8 ≤ slot → ends t 3 2) ∧
            (∀ key, o.vkeys.get? slot = some key → valid key → 2 ^ 22 < len ∨ (∃ e ∈ is, e.1.sp = .peer) → passes t t.imgCache) ∧
            (∀ key, o.vkeys.get? slot = some key → valid key → len ≤ 2 ^ 22 → (∀ e ∈ is, e.1.sp ≠ .peer) →
              let kept : ImgEnt := ⟨l.owner, l.image, is.map fun e => (e.1.sp, e.1.addr, e.2)⟩
              passes (t.watchImage kept) ((kept :: others t).take 32)))))

theorem imageChecks_iff : Obligations.ImageChecks ↔ ∀ s, imageChecksAt s := Iff.rfl

/-! ### The accesses of the check -/

namespace AgentKeeps

theorem walksTouch (s : State) (own va n : Nat) : AgentKeeps s (s.walksTouch own va n) :=
  .foldl _ (fun s (p : Nat × Nat) => walkTouch s own p.1) _ s

theorem servePieces (s : State) (own : Nat) (l : List (Phys × Nat)) : AgentKeeps s (s.servePieces own l) :=
  .foldl _ (fun s (e : Phys × Nat) => agentReads s own e.1 e.2) l s

end AgentKeeps

/-- The front watches the lines of one extent of an image. -/
def State.watchExtent (s : State) (x : Space × Nat × Nat) : State :=
  (List.range (ceilDiv (x.2.1 % 128 + x.2.2) 128)).foldl
    (fun s i => s.watch 16 (lineId x.1 (x.2.1 / 128 * 128 + 128 * i)) 0) s

theorem watchImage_eq (s : State) (e : ImgEnt) : s.watchImage e = e.extents.foldl State.watchExtent s := rfl

/-- Watching looks at no cache of images. -/
theorem watchImage_with (s : State) (e : ImgEnt) (c : List ImgEnt) :
    { s with imgCache := c }.watchImage e = { s.watchImage e with imgCache := c } := by
  let put (t : State) : State := { t with imgCache := c }
  have h : ∀ (t : State) x, (put t).watchExtent x = put (t.watchExtent x) := fun t x =>
    List.foldl_hom put (g₁ := fun s i => s.watch 16 (lineId x.1 (x.2.1 / 128 * 128 + 128 * i)) 0)
      (g₂ := fun s i => s.watch 16 (lineId x.1 (x.2.1 / 128 * 128 + 128 * i)) 0) fun _ _ => rfl
  exact List.foldl_hom put (l := e.extents) (init := s) h

theorem watchImage_launches (s : State) (e : ImgEnt) : (s.watchImage e).launches = s.launches := by
  have h : ∀ (u t : State) x, t.launches = u.launches → (t.watchExtent x).launches = u.launches := fun u t x ht =>
    foldl_keeps (P := fun t : State => t.launches = u.launches)
      (fun t i => t.watch 16 (lineId x.1 (x.2.1 / 128 * 128 + 128 * i)) 0) (fun _ _ hu => hu) _ t ht
  exact foldl_keeps (P := fun t : State => t.launches = s.launches) State.watchExtent (h s) e.extents s rfl

theorem updLaunch_of_get? {s : State} {lid : Nat} {l : Launch} (h : s.launches.get? lid = some l) (f : Launch → Launch) :
    s.updLaunch lid f = { s with launches := s.launches.put lid (f l) } := by
  rw [State.updLaunch, Tbl.upd, h]

/-! ### Signatures (R47, R48) -/

section
variable {o : Owner} {image block : List Byte}

theorem signature_empty (hs : fieldAt block 4 2 < 8) (hk : o.vkeys.get? (fieldAt block 4 2) = none) :
    o.signature image block = some 3 := by
  simp [Owner.signature, hs, hk]

/-- A signature block as R47 lays it out, whose signature verifies under a key. -/
def goodSignature (image block key : List Byte) : Prop :=
  fieldAt block 0 4 = 0x47534946 ∧ fieldAt block 4 2 < 8 ∧ fieldAt block 6 2 = 3309 ∧ fieldAt block 3317 3 = 0 ∧
    mldsaVerify key (shake256 image 64) ((block.drop 8).take 3309) = true

theorem goodSignature_iff (key : List Byte) : goodSignature image block key ↔
    (sigFormed block && mldsaVerify key (shake256 image 64) ((block.drop 8).take 3309)) = true := by
  simp [goodSignature, sigFormed, and_assoc]

theorem signature_of_key {key : List Byte} (hk : o.vkeys.get? (fieldAt block 4 2) = some key) :
    (goodSignature image block key → o.signature image block = none) ∧
    (¬ goodSignature image block key → o.signature image block = some 2) := by
  rw [goodSignature_iff]
  constructor <;> intro h <;> simp only [Owner.signature, hk] <;> simp [h]

theorem signature_slot (hs : 8 ≤ fieldAt block 4 2) : o.signature image block = some 2 := by
  have h1 : ¬ fieldAt block 4 2 < 8 := by omega
  simp [Owner.signature, sigFormed, h1]

end

/-! ### The verification of an image (R48, R49) -/

section
variable {s : State} {l : Launch} {d : Desc} {o : Owner}

theorem verifyImage_unsigned (ho : s.owners.get? l.owner = some o) (hs : d.signed = false) :
    s.verifyImage l d = if o.required then .refused s 1 else .ok s := by
  simp [State.verifyImage, ho, hs]

theorem verifyImage_held (ho : s.owners.get? l.owner = some o) (hs : d.signed = true) {e : ImgEnt}
    (he : s.imgCache.find? (fun i => i.owner == l.owner && i.va == l.image) = some e) :
    s.verifyImage l d = .ok { s with imgCache := cacheImage e s.imgCache } := by
  simp [State.verifyImage, ho, hs, he]

/-- The machine once the walks to an image and its signature block have read their entries. -/
def State.imageWalked (s : State) (l : Launch) (d : Desc) : State :=
  (s.walksTouch l.owner l.image d.imageLen).walksTouch l.owner (l.image + d.sigOff) d.sigLen

variable (ho : s.owners.get? l.owner = some o) (hs : d.signed = true)
  (hn : s.imgCache.find? (fun i => i.owner == l.owner && i.va == l.image) = none)
include ho hs hn

theorem verifyImage_stopped {a : Access} (ha : (s.imageWalked l d).frontPieces l.owner l.image d.imageLen = .error a) :
    s.verifyImage l d = .unreadable (s.imageWalked l d) a := by
  rw [State.imageWalked] at ha
  simp [State.verifyImage, State.imageWalked, ho, hs, hn, ha]

variable {is sg : List (Phys × Nat)} (hi : (s.imageWalked l d).frontPieces l.owner l.image d.imageLen = .ok is)
  (hg : (s.imageWalked l d).frontPieces l.owner (l.image + d.sigOff) d.sigLen = .ok sg)
include hi hg

/-- A new image's verification, from its bytes and its signature block's. -/
theorem verifyImage_new {t : State} (ht : (s.imageWalked l d).servePieces l.owner (is ++ sg) = t) : s.verifyImage l d =
    match o.signature (t.readPieces is) (t.readPieces sg) with
    | some k => .refused t k
    | none =>
      if 2 ^ 22 < d.imageLen ∨ is.any (fun e => e.1.sp == .peer) then .ok t
      else
        let e : ImgEnt := ⟨l.owner, l.image, is.map fun e => (e.1.sp, e.1.addr, e.2)⟩
        .ok ({ t with imgCache := cacheImage e t.imgCache }.watchImage e) := by
  subst ht
  rw [State.imageWalked] at hi hg
  simp only [State.verifyImage, State.imageWalked, ho, hs, hn, hi, hg, Bool.not_true, Bool.false_eq_true, if_false] <;> rfl

end

/-! ### The branches of the check (R45, R48) -/

section
variable {s : State} {lid : Nat} {l : Launch}

theorem imageCheck_exec (hx : s.ev.x = lid) (hl : s.launches.get? lid = some l) (hst : l.stage = .taken) (hf : l.fail = none)
    (h0 : ∀ p, l.pred0 = some p → l.sat0 = true) (h1 : ∀ p, l.pred1 = some p → l.sat1 = true) :
    exec .imageCheck s = .next (s.checkImage lid l) := by
  have hr : l.released = true := by
    unfold Launch.released
    cases p0 : l.pred0 <;> cases p1 : l.pred1 <;> simp_all
  change execImageCheck s = _
  rw [execImageCheck, hx, hl]
  simp [hst, hf, hr]

theorem checkImage_parked {c : ParkCause}
    (h : (s.frontReady l.owner l.image 128).frontRead l.owner l.image 128 = .error (.park c)) :
    s.checkImage lid l = (s.frontReady l.owner l.image 128).completeLaunch lid 2 12 := by
  simp only [State.checkImage, h]
  rfl

variable {bs : List Byte} (h : (s.frontReady l.owner l.image 128).frontRead l.owner l.image 128 = .ok bs)
include h

theorem checkImage_faulty {n : Nat} (hf : (Desc.ofBytes bs).failure l = some n) :
    s.checkImage lid l = (s.frontReady l.owner l.image 128).completeLaunch lid 2 n := by
  simp only [State.checkImage, h, hf]

variable (hf : (Desc.ofBytes bs).failure l = none) {t : State}
include hf

theorem checkImage_unreadable {c : ParkCause}
    (hv : (s.frontReady l.owner l.image 128).verifyImage l (Desc.ofBytes bs) = .unreadable t (.park c)) :
    s.checkImage lid l = t.completeLaunch lid 2 12 := by
  simp only [State.checkImage, h, hf, hv]
  rfl

theorem checkImage_refused {k : Nat}
    (hv : (s.frontReady l.owner l.image 128).verifyImage l (Desc.ofBytes bs) = .refused t k) :
    s.checkImage lid l = t.completeLaunch lid 3 k := by
  simp only [State.checkImage, h, hf, hv]

theorem checkImage_passed (hv : (s.frontReady l.owner l.image 128).verifyImage l (Desc.ofBytes bs) = .ok t)
    (hl : t.launches.get? lid = some l) : s.checkImage lid l =
      { t with launches := t.launches.put lid { l with stage := .checked, shape := some ((Desc.ofBytes bs).shape l) } } := by
  simp only [State.checkImage, h, hf, hv]
  exact updLaunch_of_get? hl _

end

/-! ### The check as a whole -/

/-- Of an image that meets condition 3 of R45: FLAGS.SIGNED and the block's length say whether it is signed. -/
theorem signed_of_limits {bs : List Byte} {l : Launch} {x : Shape} (h : ¬ imageFault bs l x 3) :
    ((Desc.ofBytes bs).signed = true ↔ fieldAt bs 76 4 ≠ 0) ∧ (fieldAt bs 76 4 ≠ 0 → (Desc.ofBytes bs).sigLen = 3320) := by
  obtain ⟨hlen, -, hsig, -⟩ := not_not.mp h
  refine ⟨(testBit_iff_field _ 1).trans hsig, fun h0 => ?_⟩
  rw [if_neg h0] at hlen
  exact hlen

/-- The image of a launch in the cache, as the model and as the statements look for it. -/
theorem images_eq (own va : Nat) : (fun i : ImgEnt => i.owner == own && i.va == va) = fun i => decide (i.owner = own ∧ i.va = va) := by
  funext i
  rw [Bool.decide_and]
  rfl

theorem cacheImage_eq (e : ImgEnt) (c : List ImgEnt) :
    cacheImage e c = (e :: c.filter fun i => ¬ (i.owner = e.owner ∧ i.va = e.va)).take 32 := by
  simp only [cacheImage, decide_not]
  congr 3
  funext i
  exact congrArg not (congrFun (images_eq e.owner e.va) i)

/-- IMAGE_CHECK does what O43 says wherever the owners stand in order. -/
theorem imageChecksAt_of_order {s : State} (ho : Tbl.ascending 0 s.owners = true) : imageChecksAt s := by
  intro lid l hx hl hst hfail h0 h1
  have hexec := imageCheck_exec hx hl hst hfail h0 h1
  have hkR := AgentKeeps.frontReady s l.owner l.image 128
  have hend : ∀ {u : State} {st de : Nat}, AgentKeeps s u → s.checkImage lid l = u.completeLaunch lid st de →
      ∃ t, exec .imageCheck s = .next t ∧ completes u lid l st de t := fun hu hc =>
    ⟨_, hexec.trans (congrArg _ hc), completeLaunch_completes (hu.order ho) (by rw [hu.launches, hl]) _ _⟩
  refine ⟨fun c hc => hend hkR (checkImage_parked hc), fun bs x hbs _ hsh =>
    ⟨fun n hn hm => hend hkR (checkImage_faulty hbs (failure_some hsh hn hm)), fun hnone o hown => ?_⟩⟩
  have hf := failure_none hsh hnone
  obtain ⟨hsig, hlen⟩ := signed_of_limits (hnone 3)
  have hpass : ∀ {t : State}, (s.frontReady l.owner l.image 128).verifyImage l (Desc.ofBytes bs) = .ok t →
      t.launches = s.launches → exec .imageCheck s = .next { t with
        launches := t.launches.put lid { l with stage := .checked, shape := some x } } := fun hv ht => by
    rw [hexec, checkImage_passed hbs hf hv (by rw [ht, hl]), shaped_unique hsh]
  refine ⟨fun hun => ?_, fun hsg => ⟨fun e he => ?_, fun hnew => ?_⟩⟩
  · have hv := verifyImage_unsigned hown (Bool.eq_false_iff.mpr fun h => hsig.mp h hun)
    exact ⟨fun hr => hend hkR (checkImage_refused hbs hf (by rw [hv, if_pos hr])),
      fun hr => hpass (by rw [hv, hr]; rfl) hkR.launches⟩
  · obtain ⟨heo, hev⟩ : e.owner = l.owner ∧ e.va = l.image := by simpa using List.find?_some he
    have hv := verifyImage_held (d := Desc.ofBytes bs) hown (hsig.mpr hsg) (by rw [images_eq]; exact he)
    rw [cacheImage_eq, heo, hev] at hv
    exact hpass hv hkR.launches
  · have hn : (s.frontReady l.owner l.image 128).imgCache.find? (fun i => i.owner == l.owner && i.va == l.image) = none := by
      simpa using hnew
    have hW : (s.frontReady l.owner l.image 128).imageWalked l (Desc.ofBytes bs) =
        ((s.frontReady l.owner l.image 128).walksTouch l.owner l.image (fieldAt bs 8 4)).walksTouch l.owner
          (l.image + fieldAt bs 76 4) 3320 := by
      rw [State.imageWalked, hlen hsg]
      rfl
    have hkW := (hkR.trans (.walksTouch _ l.owner l.image (fieldAt bs 8 4))).trans
      (.walksTouch _ l.owner (l.image + fieldAt bs 76 4) 3320)
    refine ⟨fun c hc => hend hkW (checkImage_unreadable hbs hf
      (by rw [← hW] at hc ⊢; exact verifyImage_stopped hown (hsig.mpr hsg) hn hc)), fun is sg his hsgp => ?_⟩
    rw [← hW] at his hsgp
    have hv := verifyImage_new hown (hsig.mpr hsg) hn his (by rw [hlen hsg]; exact hsgp) rfl
    rw [hW] at hv
    have hkt := hkW.trans (.servePieces _ l.owner (is ++ sg))
    refine ⟨fun hs hk => ?_, fun key hk hbad => ?_, fun hs => ?_, fun key hk hgood hbig => ?_, fun key hk hgood hle hpeer => ?_⟩
    · exact hend hkt (checkImage_refused hbs hf (by rw [hv, signature_empty hs hk]))
    · exact hend hkt (checkImage_refused hbs hf (by rw [hv, (signature_of_key hk).2 hbad]))
    · exact hend hkt (checkImage_refused hbs hf (by rw [hv, signature_slot hs]))
    · refine hpass ?_ hkt.launches
      rw [hv, (signature_of_key hk).1 hgood]
      exact if_pos (hbig.imp id fun h => by simpa using h)
    · have hsmall : ¬ (2 ^ 22 < (Desc.ofBytes bs).imageLen ∨ is.any (fun e => e.1.sp == .peer) = true) := by
        rw [not_or, Bool.not_eq_true, List.any_eq_false]
        exact ⟨not_lt.mpr hle, fun e he => by simpa using hpeer e he⟩
      rw [(signature_of_key hk).1 hgood] at hv
      dsimp only at hv
      rw [if_neg hsmall, cacheImage_eq, watchImage_with] at hv
      exact hpass hv ((watchImage_launches _ _).trans hkt.launches)

end Sys2Proof.Machine

/-! PROOFS. Two statements that a misordered table of owners refutes (O43, O45). `completes` says that memory reads as the store of the
completion word left it, of every state, one whose table of owners has falling keys among them. There the outcome that the launch's
queue keeps goes to a new first entry of the table (`Tbl.put`), a read that takes back a line the host has modified meets the rings in
another order, and of two STATUS words that overlap another one keeps its OVF (R222, R246). Of the machine's own states none has such a
table; the statements lack the hypothesis. With it, what O43 says holds (`imageChecksAt_of_order`). -/

namespace Sys2Proof.Machine

open Spec

/-- A ring whose control block the device last used at an address of its own memory. -/
def ringUsedAt (a : Nat) : Option Ring := some ⟨0, 0, 0, some ⟨.dev, a, 0, 0, false⟩⟩

/-- A running queue that has taken no record. -/
def idleQueue : Queue := ⟨⟨0, 0, 0, 0, 0, 0, 0⟩, .running, 0, 0, none, []⟩

/-- A machine that lists owner 1 before owner 0, whose page table maps the page of address 0. STATUS of owner 1's ring lies one byte past
that of owner 0's, both with OVF set; the host has modified their line, to a first byte 1 with zeros behind it. -/
def misordered (l : Launch) : State :=
  { State.reset with
    mem := (programBytes 0).foldl (fun m e => m.set 0 e.1 e.2) ([(2 ^ 30 + 7, 0x80#8), (2 ^ 30 + 8, 0x80#8)] : Tbl Byte)
    hdm := ⟨true, 1, 0, 1⟩
    biasBase := 2 ^ 31
    hostLines := [(2 ^ 24, ⟨some (1#8 :: List.replicate 63 0#8)⟩)]
    owners := [(1, { Owner.init 0 0 with ring := ringUsedAt (2 ^ 30 - 15) }),
      (0, { Owner.init 0 0 with ring := ringUsedAt (2 ^ 30 - 16), queues := [(0, idleQueue)] })]
    launches := [(0, l)]
    candidate := some 0 }

/-- A launch does not complete where a byte reads otherwise after the act than after the store of its completion word. -/
theorem not_completes_of_byte {s u : State} {lid status detail : Nat} {l : Launch} {i : Instr} (a : Nat) (hn : l.notify = false)
    (h : (match exec i s, u.frontWrite l.owner l.compl
        (leBytes 8 (status + 256 * min l.gangsDone 0xFFFFFF + 2 ^ 32 * (detail % 65536))) with
      | .next t, .ok v => t.byteAt .dev 0 a != v.byteAt .dev 0 a
      | _, _ => false) = true) :
    ¬ ∃ t, exec i s = .next t ∧ completes u lid l status detail t := by
  rintro ⟨t, ht, -, hw, -⟩
  rw [ht] at h
  split at h
  · next v h1 h2 =>
    cases h1
    exact bne_iff_ne.mp h (hw _ hn h2 _ _ _)
  · cases h

/-- A released launch whose image is not mapped. -/
def unmappedLaunch : Launch := { programLaunch with stage := .taken, shape := none, nextGang := 0, image := 2 ^ 40 }

theorem misordered_unreadable :
    ((misordered unmappedLaunch).frontReady 0 (2 ^ 40) 128).frontRead 0 (2 ^ 40) 128 = .error (.park .page) := by
  have h : (match ((misordered unmappedLaunch).frontReady 0 (2 ^ 40) 128).frontRead 0 (2 ^ 40) 128 with
    | .error a => decide (a = .park .page)
    | .ok _ => false) = true := by decide +kernel
  split at h
  · next a ha => rw [ha, of_decide_eq_true h]
  · cases h

/-- Refutes O43: in `misordered unmappedLaunch` the unreadable image completes the launch, and the last byte of owner 1's STATUS, 0 after
the store of the completion word, reads 0x80 after the act. -/
theorem not_imageChecks : ¬ Obligations.ImageChecks := by
  unfold Obligations.ImageChecks
  intro h
  obtain ⟨hbad, -⟩ := h (misordered unmappedLaunch) 0 unmappedLaunch rfl rfl rfl rfl (fun _ _ => rfl) (fun _ _ => rfl)
  exact not_completes_of_byte (2 ^ 30 + 8) rfl (by decide +kernel) (hbad .page misordered_unreadable)

/-- A shape whose local store is larger than a core's. -/
def largeShape : Shape := { programShape with localBytes := 524289 }

/-- A checked launch of that shape. -/
def largeLaunch : Launch := { programLaunch with stage := .checked, shape := some largeShape, nextGang := 0 }

theorem largeLaunch_neverFits (s : State) : neverFits s largeLaunch largeShape 2 := by
  refine .inl ⟨rfl, fun c hc => ?_⟩
  obtain ⟨hc1, ⟨-, -, hl, -⟩, -⟩ := hc
  change c * 524289 ≤ 524288 at hl
  omega

theorem misordered_considered : considered (misordered largeLaunch) 0 largeLaunch largeShape := by
  have honly : ∀ e ∈ (misordered largeLaunch).launches, e.1 = 0 := fun e he => by rw [List.mem_singleton.mp he]
  exact ⟨⟨rfl, by decide, rfl, by decide, fun e he _ _ _ hne => absurd (honly e he) hne,
    fun e he hne => absurd (honly e he) hne, fun g hg => by cases hg⟩, rfl, rfl, .inl rfl⟩

/-- Refutes O45: in `misordered largeLaunch` the launch that never fits completes, and the last byte of owner 1's STATUS, 0 after the store
of the completion word, reads 0x80 after the act. -/
theorem not_gangPlacement : ¬ Obligations.GangPlacement := by
  unfold Obligations.GangPlacement
  intro h
  obtain ⟨hbad, -⟩ := h _ 0 largeLaunch largeShape misordered_considered (by decide) (by decide) (by decide)
  exact not_completes_of_byte (2 ^ 30 + 8) rfl (by decide +kernel) (hbad 2 (largeLaunch_neverFits _) rfl rfl)

end Sys2Proof.Machine

/-! PROOFS. TRIGGER and LAUNCH (O39). What TRIGGER does holds as it is stated. LAUNCH beside an unperformed store of its own wave refutes
the whole: R342 lets it issue only with nothing unperformed, and `Ready` does not ask for that. -/

namespace Sys2Proof.Machine

open Spec

/-! ### The dependants that wait for a trigger (R63) -/

/-- A predecessor field waits for a launch to trigger. -/
def awaiting (p : Option Pred) (l : Launch) : Bool := p.any fun x => x.names l && x.trigger

theorem awaiting_iff (p : Option Pred) (l : Launch) : awaiting p l = true ↔ awaits p l := by
  cases p with
  | none => simp [awaiting, awaits]
  | some x => simp [awaiting, awaits, Pred.names, and_comm]

/-- A launch once every thread of one that it may name has triggered. -/
def Launch.afterTrigger (d l : Launch) : Launch :=
  if d.owner = l.owner then { d with sat0 := d.sat0 || awaiting d.pred0 l, sat1 := d.sat1 || awaiting d.pred1 l } else d

theorem satisfy_trigger_eq (s : State) (l : Launch) :
    s.satisfy l (·.trigger) = { s with launches := s.launches.map fun e => (e.1, e.2.afterTrigger l) } := by
  refine congrArg (fun t => { s with launches := t }) (List.map_congr_left fun e _ => ?_)
  unfold Launch.afterTrigger awaiting
  split
  · cases h0 : e.2.pred0 <;> cases h1 : e.2.pred1 <;> simp [h0, h1]
  · rfl

theorem afterTrigger_spec (d l : Launch) :
    d.afterTrigger l = { d with sat0 := (d.afterTrigger l).sat0, sat1 := (d.afterTrigger l).sat1 } ∧
    ((d.afterTrigger l).sat0 = true ↔ d.sat0 = true ∨ (d.owner = l.owner ∧ awaits d.pred0 l)) ∧
    ((d.afterTrigger l).sat1 = true ↔ d.sat1 = true ∨ (d.owner = l.owner ∧ awaits d.pred1 l)) := by
  simp only [← awaiting_iff]
  unfold Launch.afterTrigger
  split
  · next h => simp [h]
  · next h => simp [h]

/-- Every thread of a launch has triggered or exited, and it has not failed. -/
theorem allTriggered_iff (l : Launch) :
    (l.allTriggered = true ∧ l.fail.isNone = true) ↔ l.shape.isSome = true ∧ l.trigDone = threadCount l ∧ l.fail = none := by
  rw [Option.isNone_iff_eq_none, Launch.allTriggered, Launch.threads, threadCount]
  cases l.shape <;> simp

/-! ### TRIGGER (R353) -/

/-- The table of launches with launch `lid` standing at `l` after a TRIGGER. -/
def launchesAfterTrigger (ls : Tbl Launch) (lid : Nat) (l : Launch) : Tbl Launch :=
  if l.allTriggered ∧ l.fail.isNone then (ls.put lid l).map fun e => (e.1, e.2.afterTrigger l) else ls.put lid l

theorem markTriggered_eq {s : State} {wid : Nat} {w : Wave} {t : Team} {l : Launch} (hw : s.waves.get? wid = some w)
    (ht : s.teams.get? w.tid = some t) (hl : s.launches.get? t.lid = some l) (lanes : Mask) :
    s.markTriggered wid lanes = { s.setWave wid { w with triggered := w.triggered ||| (lanes &&& w.threads) } with
      launches := launchesAfterTrigger s.launches t.lid
        { l with trigDone := l.trigDone + (lanesOf (lanes &&& w.threads &&& ~~~w.triggered)).length } } := by
  unfold State.markTriggered
  simp only [hw, ht]
  generalize (lanesOf (lanes &&& w.threads &&& ~~~w.triggered)).length = n
  generalize { w with triggered := w.triggered ||| (lanes &&& w.threads) } = w'
  have hu : ((s.setWave wid w').updLaunch t.lid fun l => { l with trigDone := l.trigDone + n }).launches =
      s.launches.put t.lid { l with trigDone := l.trigDone + n } := by
    change s.launches.upd t.lid _ = _
    rw [Tbl.upd, hl]
  rw [hu, Tbl.get?_put_self]
  dsimp only
  unfold launchesAfterTrigger
  split
  · rw [satisfy_trigger_eq, hu]
    rfl
  · rw [← hu]
    rfl

/-- An instruction without a destination makes no copy in an open region (R336). -/
theorem shadowed_nil (w : Wave) : w.shadowed [] = w := by
  unfold Wave.shadowed Wave.toShadow
  split
  · rfl
  · next hr => cases w; cases hr; rfl

/-- The context does not depend on the launches. -/
theorem ctx_withLaunches {s : State} {c : Ctx} (h : s.ctx = some c) (ls : Tbl Launch) :
    ({ s with launches := ls } : State).ctx = some { c with s := { s with launches := ls } } := by
  obtain ⟨hs, hwid, hw, ht, hset, hpc, hword⟩ := ctx_some h
  obtain ⟨⟩ := c
  simp only at hs hwid hw ht hset hpc hword
  subst hs hwid hset hpc hword
  simp only [State.ctx, hw, ht]

theorem exec_trigger {s : State} {c : Ctx} (h : Ready s .trigger c) :
    exec .trigger s = .next (((c.shadow {}).s.markTriggered c.wid c.cnt).finish fun _ => some (c.pc + 4)) := by
  obtain ⟨hw, hwid, -, hset, -⟩ := shadow_spec c {}
  have hcnt : (c.shadow {}).cnt = c.cnt := by rw [Ctx.cnt, hset, hw, Ctx.cnt]
  have hcheck : c.check {} = none := by simp [Ctx.check]
  change execTrigger s = _
  rw [execTrigger, issue_ready {} _ h.ctx hcheck h.room, hwid, hcnt]
  rfl

/-- The half of O39 that holds: TRIGGER marks the set's threads, and with the last one of a launch its dependants are satisfied. -/
theorem triggerEffects : triggerEffectsHold := by
  intro s c l hr hl l' all
  obtain ⟨hs, hcw, hw, ht, -, -, -⟩ := ctx_some hr.ctx
  obtain ⟨-, -, -, -, -, -, hput, hothers, hrest⟩ := shadow_spec c {}
  have hself := hput (by rw [hs, hcw]; exact hw)
  rw [shadow_w, show c.targets {} = [] from rfl, shadowed_nil] at hself
  rw [hs] at hothers hrest
  rw [exec_trigger hr]
  generalize (c.shadow {}).s = a at *
  have hlaunches : a.launches = s.launches := by rw [hrest]
  have hteams : a.teams = s.teams := by rw [hrest]
  let ls := launchesAfterTrigger s.launches c.t.lid l'
  let wB : Wave := { c.w with triggered := c.w.triggered ||| (c.cnt &&& c.w.threads) }
  have hmark : a.markTriggered c.wid c.cnt = { a.setWave c.wid wB with launches := ls } := by
    rw [markTriggered_eq hself (hteams ▸ ht) (hlaunches ▸ hl), hlaunches]
    rfl
  have honly : WaveOnly { s with launches := ls } { a.setWave c.wid wB with launches := ls } c.wid :=
    ⟨by rw [hrest]; rfl, fun k hk => (Tbl.get?_put_ne _ hk _).trans (hothers k hk)⟩
  obtain ⟨hwave, w', hw', hbooks, hmoved⟩ := go_spec (ctx_withLaunches hr.ctx ls) honly (wB := wB) (Tbl.get?_put_self _ _ _) rfl rfl
    (fun _ => c.pc + 4) false
  have hall : (l'.allTriggered = true ∧ l'.fail.isNone = true) ↔ all := allTriggered_iff l'
  refine ⟨_, ls, rfl, ?_, fun h => if_neg fun k => h (hall.mp k), fun h k x hx => ?_⟩
  · rw [hmark]
    exact ⟨hwave, w', hw', hbooks, hmoved.set, hmoved.others⟩
  · refine ⟨x.afterTrigger l', ?_, afterTrigger_spec x l'⟩
    have hls : ls = _ := if_pos (hall.mpr h)
    rw [hls, get?_map_snd (Launch.afterTrigger · l'), hx]
    rfl

/-! ### LAUNCH beside a store of its own wave (R331, R332, R354) -/

/-- A store of one byte to the record at 0x40100, sent to its home and acknowledged by every die. -/
def recordStore : SbEntry := ⟨.mem .dev 0 0 false [(0x40100, 1)], 0, 0, false, true, []⟩

/-- The program's wave with the record's address in v4:v5 of lane 0, queue 63 in v6, and the store in its buffer. -/
def storingWave : Wave :=
  { Wave.start programShape 0 0 0 0 0 with regs := [(64 * 4, 0x100), (64 * 6, 63)], sbuf := [recordStore] }

/-- A translation of the page at 0 to the frame at 0x40000, readable, writable and executable. -/
def recordPage : Trans := ⟨0, 0, 16, ⟨0x40, 0, 0, 0, false, false, false, true, true, true⟩⟩

/-- Lane 0 issues for the program's team, whose core holds the record's page. The word that the wave stores to is pending at its home, and
the owner has no queue. -/
def storingState : State :=
  { State.reset.withTeam 0 0 with
    waves := [(0, storingWave)]
    cores := [(0, { Core.init with tlb := [recordPage] })]
    pend := [(.mem .dev (0x40100 / 4), 0)]
    cur := ⟨0, 1, BitVec.ofNat 57 programPc, 0⟩ }

/-- The context of that issue. -/
def storingCtx : Ctx :=
  ⟨storingState, 0, storingWave, Team.start programLaunch 0 0 0 0 programShape, 1, BitVec.ofNat 57 programPc, 0⟩

theorem storingState_ready : Ready storingState (.launch (.v 10) (.v 4) (.v 6)) storingCtx where
  wf := by decide
  ctx := rfl
  checks := by decide
  room := by decide

theorem storingState_noRegion : noRegion storingState := by
  intro e he
  rw [List.mem_singleton.mp he]
  rfl

theorem storingCtx_access : ∃ x, storingCtx.globalLane .load 64 0 (storingCtx.regW (.v 4) 0) = .ok x := by
  have h : (storingCtx.globalLane .load 64 0 (storingCtx.regW (.v 4) 0)).isOk = true := by decide +kernel
  cases hx : storingCtx.globalLane .load 64 0 (storingCtx.regW (.v 4) 0) with
  | ok x => exact ⟨x, rfl⟩
  | error e => rw [hx] at h; cases h

/-- Lane 0 is the one counted lane. -/
theorem storingCtx_lane {l : Nat} (h : hasLane storingCtx.cnt l = true) : l = 0 := by
  have hone : storingCtx.cnt = 1#64 := by decide
  simpa [hasLane, hone, BitVec.getLsbD_one] using h

/-- The front's read of the record performs the store, which leaves the wave's buffer. -/
theorem storingState_performs {t : State} (h : exec (.launch (.v 10) (.v 4) (.v 6)) storingState = .next t) :
    (t.waves.get? 0).map (·.sbuf) = some [] := by
  have hrun : (match exec (.launch (.v 10) (.v 4) (.v 6)) storingState with
    | .next t => decide ((t.waves.get? 0).map (·.sbuf) = some [])
    | _ => false) = true := by decide +kernel
  rw [h] at hrun
  exact of_decide_eq_true hrun

/-- An issue that ends keeps the store buffer of the wave with the instruction's own effect. -/
theorem Ends.sbuf {sB t : State} {c : Ctx} {wB : Wave} {next : Nat → PC} (h : Ends sB t c wB next) :
    (t.waves.get? c.wid).map (·.sbuf) = some wB.sbuf := by
  obtain ⟨w', hw, hbooks, -⟩ := h.wave
  rw [hw, hbooks]
  rfl

/-- Refutes O39: in `storingState` LAUNCH takes the store out of its wave's buffer, where the statement keeps the buffer as it was. -/
theorem not_triggersAndLaunches : ¬ Obligations.TriggersAndLaunches := by
  unfold Obligations.TriggersAndLaunches
  rintro ⟨-, hlaunch, -⟩
  obtain ⟨x, hx⟩ := storingCtx_access
  have hreads : ∀ l, hasLane storingCtx.cnt l = true →
      (storingCtx.reg (.v 6) l).toNat < 64 ∧ storingCtx.globalLane .load 64 l (storingCtx.regW (.v 4) l) = .ok x := by
    intro l hl
    obtain rfl := storingCtx_lane hl
    exact ⟨by decide, hx⟩
  obtain ⟨_, _, _, t, -, -, -, -, ht, hends⟩ := hlaunch _ _ _ _ _ (fun _ => x) storingState_ready storingState_noRegion hreads
  cases hends.sbuf.symm.trans (storingState_performs ht)

end Sys2Proof.Machine

/-! PROOFS. Saving a team (O47). A table of owners with falling keys refutes the whole: after TEAM_PARK every byte is to read as the
stores of the frame left it, of every state. The slot that the frame takes goes to a new first entry of such a table (`Tbl.put`), and a
read that takes back a line the host has modified then meets the rings in another order, as in the statements on launches that end
(O43, O45). In the counterexample the frame fills the bias table, where plain stores write nothing (R245): what the act changes is the slot
alone. Of the machine's own states none has such a table; the statement lacks the hypothesis. -/

namespace Sys2Proof.Machine

open Spec

/-! ### Accesses outside the exposed range (R246, R329) -/

/-- What the homes do for accesses changes no byte that a read sees where memory, its keys and the host's lines stay. -/
theorem HomeFrame.store {s t : State} (h : HomeFrame s t) (hm : t.mem = s.mem) (hk : t.memKey = s.memKey)
    (hl : t.hostLines = s.hostLines) : SameStore s t := by
  rw [HomeFrame, hm, hk, hl] at h
  rw [h]
  exact ⟨rfl, rfl, rfl, rfl, rfl, rfl, rfl, rfl, rfl, rfl, rfl⟩

theorem SameStore.inHdm {s t : State} (h : SameStore s t) (a : Nat) : t.inHdm a = s.inHdm a := by
  simp only [State.inHdm, h.hdm]

theorem SameStore.inBias {s t : State} (h : SameStore s t) (a : Nat) : t.inBias a = s.inBias a := by
  simp only [State.inBias, h.hdm, h.biasBase]

theorem homeTouch_store_of_outside {s : State} {p : Phys} (h : s.inHdm p.addr = false) (own : Nat) (write : Bool) :
    SameStore s (s.homeTouch own p write) := by
  unfold State.homeTouch
  split
  · have hd : s.hdmTouch write p.addr = s := by simp [State.hdmTouch, h]
    rw [hd]
    exact SameStore.l2Touch ..
  · rw [agentHold_eq]
    exact ⟨rfl, rfl, rfl, rfl, rfl, rfl, rfl, rfl, rfl, rfl, rfl⟩
  · exact .refl s

/-- An access whose lines lie outside the exposed range changes no byte. -/
theorem homeTouches_store_of_outside {s : State} {p : Phys} {n : Nat}
    (h : ∀ i, i < ceilDiv (p.addr % 64 + n) 64 → s.inHdm (p.addr / 64 * 64 + 64 * i) = false) (own : Nat) (write : Bool) :
    SameStore s (s.homeTouches own p n write) :=
  List.foldlRecOn _ _ (SameStore.refl s) fun _ ht i hi =>
    ht.trans (homeTouch_store_of_outside ((ht.inHdm _).trans (h i (List.mem_range.mp hi))) own write)

theorem homeTouches_homeFrame (s : State) (own : Nat) (p : Phys) (n : Nat) (write : Bool) :
    HomeFrame s (s.homeTouches own p n write) := homeFrame_foldl _ (fun s _ => homeTouch_homeFrame s own _ write) _ s

theorem walksTouch_homeFrame (s : State) (own va n : Nat) : HomeFrame s (s.walksTouch own va n) := by
  refine homeFrame_foldl _ (fun t (p : Nat × Nat) => ?_) _ s
  unfold State.walkTouch
  split
  · exact .refl t
  · exact homeFrame_foldl _ (fun u _ => homeTouch_homeFrame u own _ false) _ t

/-! ### Plain stores to the bias table (R245) -/

theorem touches8_nil (sp : Space) (a : Nat) : touches8 [] sp a = false := rfl

theorem keepCode_nil (s : State) (sp : Space) : s.keepCode sp [] = s := by
  unfold State.keepCode
  split
  · rfl
  · simp only [List.map_nil, List.eraseDups_nil, List.foldl_nil, List.foldl_fixed]

theorem dropCopies_nil (s : State) : s.dropCopies [] = s := by
  have hq : ∀ q : Tbl Queue, (q.map fun x => (x.1, match x.2.copy with
      | some (sp, a) => if touches8 [] sp a then { x.2 with copy := none } else x.2
      | none => x.2)) = q := by
    intro q
    refine (List.map_congr_left fun x _ => ?_).trans (List.map_id q)
    cases hx : x.2.copy <;> simp [touches8_nil]
  refine congrArg (fun o => { s with owners := o }) ((List.map_congr_left fun e _ => ?_).trans (List.map_id s.owners))
  exact congrArg (fun q => (e.1, { e.2 with queues := q })) (hq e.2.queues)

theorem keepStatus_nil (s old : State) : s.keepStatus old [] = s := List.foldl_fixed' (fun p => by simp [touches8_nil]) _

theorem migrationHead_nil (s : State) : s.migrationHead [] = s :=
  List.foldl_fixed' (fun e => by cases e.2.migQ.bind (·.place) <;> simp [touches8_nil]) _

/-- A plain store to the bias table leaves the state as it was. -/
theorem land_inBias {s : State} {bs : List (Nat × Byte)} (h : ∀ e ∈ bs, s.inBias e.1 = true) (key : Nat) :
    s.land .dev key bs = s := by
  have hf : (if Space.dev = .dev ∧ (!false) = true then bs.filter fun e => !s.inBias e.1 else bs) = [] := by
    rw [if_pos ⟨rfl, rfl⟩, List.filter_eq_nil_iff]
    intro e he
    simp [h e he]
  have hi : imagesLeft .dev [] s.imgCache = s.imgCache := by simp [imagesLeft]
  unfold State.land
  dsimp only
  rw [hf, if_pos rfl, List.foldl_nil, keepCode_nil, show s.writeBytes .dev key [] = s from rfl, hi,
    show wordLocs .dev [] = [] from rfl, dropCopies_nil, keepStatus_nil, migrationHead_nil]

/-- Nothing is pending, no region is open, and no directory tracks a line: an access of an agent performs nothing but itself. -/
structure Unwatched (s : State) : Prop where
  pend : s.pend = []
  region : noRegion s
  dir : s.homeDir = []

theorem Unwatched.congr {s t : State} (h : Unwatched s) (k : HomeFrame s t) : Unwatched t := by
  rw [HomeFrame] at k
  rw [k]
  exact ⟨h.pend, h.region, h.dir⟩

theorem Unwatched.told {s : State} (h : Unwatched s) (ls : List Loc) : s.told ls none = s := by
  have hs : s.sharers ls none = [] := by simp [State.sharers, h.dir, Tbl.get]
  rw [State.told, hs, List.foldl_nil, check_eq_self h.region]

theorem Unwatched.quiet {s : State} (h : Unwatched s) (ls : List Loc) : s.quiet ls = s := by simp [State.quiet, h.pend]

/-- An agent's store to the bias table is no more than its accesses at the home. -/
theorem Unwatched.agentWrites_inBias {s : State} (h : Unwatched s) {own : Nat} {p : Phys} {bs : List Byte}
    (hsp : p.sp = .dev) (ht : p.tier ≠ 2) (hs : SameStore s (s.homeTouches own p bs.length true))
    (hb : ∀ i, i < bs.length → s.inBias (p.addr + i) = true) :
    s.agentWrites own p bs = s.homeTouches own p bs.length true := by
  have hu := h.congr (homeTouches_homeFrame s own p bs.length true)
  rw [State.agentWrites, State.askLines, if_pos ht, State.perform, hu.quiet, State.performNow, hu.told, hsp]
  refine land_inBias (fun e he => ?_) _
  obtain ⟨i, hi, rfl⟩ := List.mem_mapIdx.mp he
  rw [hs.inBias]
  exact hb i hi

/-! ### The end of a save (R307, R344, R405) -/

theorem dropClaims_store {s : State} (h : s.cmds = []) (tid : Nat) : SameStore s (s.dropClaims tid) := by
  have hb : s.begun tid = [] := by simp [State.begun, h]
  have ht : ∀ u : State, SameStore s u → SameStore s (match u.teams.get? tid with
      | some t => u.updCluster t.cluster fun c => { c with abq := c.abq.filter fun e => e.1 / 16 != tid }
      | none => u) := by
    intro u hu
    split
    · exact hu.trans ⟨rfl, rfl, rfl, rfl, rfl, rfl, rfl, rfl, rfl, rfl, rfl⟩
    · exact hu
  unfold State.dropClaims
  rw [hb]
  exact ht _ ⟨rfl, rfl, rfl, rfl, rfl, rfl, rfl, rfl, rfl, rfl, rfl⟩

theorem clearHandle_store (s : State) (core i : Nat) : SameStore s (s.clearHandle core i) :=
  ⟨rfl, rfl, rfl, rfl, rfl, rfl, rfl, rfl, rfl, rfl, rfl⟩

/-- A team that leaves changes no byte where no command is in flight. -/
theorem removeTeam_store {s : State} (h : s.cmds = []) (tid : Nat) (t : Team) : SameStore s (s.removeTeam tid t) := by
  have hc : ∀ (l : List Nat) (u : State), SameStore s u → SameStore s (l.foldl (fun s i => s.clearHandle t.core i) u) :=
    fun l u hu => foldl_keeps (P := fun u => SameStore s u) _ (fun _ _ hv => hv.trans (clearHandle_store ..)) l u hu
  have hb : ∀ (u : State) (x : Nat) (f : Cluster → Cluster), SameStore s u → SameStore s (u.updCluster x f) := fun _ _ _ hu =>
    hu.trans ⟨rfl, rfl, rfl, rfl, rfl, rfl, rfl, rfl, rfl, rfl, rfl⟩
  have hl : ∀ (u : State) (ws : Tbl Wave) (cs : Tbl Cmd) (ts : Tbl Team), SameStore s u →
      SameStore s { u with waves := ws, cmds := cs, teams := ts } := fun _ _ _ _ hu =>
    hu.trans ⟨rfl, rfl, rfl, rfl, rfl, rfl, rfl, rfl, rfl, rfl, rfl⟩
  exact hl _ _ _ _ (hb _ _ _ (hc _ _ (dropClaims_store h tid)))

/-- A team without waves has no parked one. -/
theorem queueParks_of_noWaves {s : State} (h : s.waves = []) (tid slot : Nat) (t : Team) : s.queueParks tid slot t = (s, []) := by
  simp [State.queueParks, State.teamWaves, h]

/-- The slot of a saved team's frame is taken. -/
def State.slotTaken (s : State) (own slot : Nat) : State := s.updOwner own fun o => { o with framesUsed := slot :: o.framesUsed }

theorem exec_teamPark_ends {s : State} {t : Team} {why : Nat} (ht : s.teams.get? s.ev.x = some t) (hw : t.saving = some why)
    (hr : s.unitReady s.ev.x t = true) : exec .teamPark s = .next (s.endSave s.ev.x t) := by
  change execTeamPark s = _
  simp only [execTeamPark, ht, hw, hr, if_true]

theorem HomeFrame.slotTaken_store {s t : State} (hf : HomeFrame s t) (hs : SameStore s t) (own slot : Nat) :
    SameStore (s.slotTaken own slot) (t.slotTaken own slot) := by
  have ho : t.owners = s.owners := by rw [hf]
  refine { hs with places := ?_ }
  unfold State.slotTaken State.updOwner State.statusPlaces
  rw [ho]

section

variable {s u : State} {tid slot : Nat} {t : Team} {o : Owner} {ps : List (Phys × Nat × Nat)}

/-- The save of a team that has no waves: its frame is stored, its slot is taken, and it leaves. -/
theorem saveTeam_of_noWaves (ht : s.teams.get? tid = some t) (ho : s.owners.get? t.owner = some o) (hs : o.freeSlot = some slot)
    (hw : s.waves = []) (hu : s.walksTouch t.owner (o.slotVa slot) (frameBytes t []) = u)
    (hps : u.framePieces t.owner o .store (o.slotVa slot) (frameBytes t []) = .ok ps)
    (hkeep : ∀ bs, HomeFrame s (u.writeFrame t.owner ps bs)) :
    ∃ bs x, s.saveTeam tid = .done (((u.writeFrame t.owner ps bs).slotTaken t.owner slot).removeTeam tid t) x := by
  have htw : s.teamWaves tid = [] := by simp [State.teamWaves, hw]
  have hq : ∀ bs, ((u.writeFrame t.owner ps bs).updOwner t.owner fun o => { o with framesUsed := slot :: o.framesUsed }).queueParks
      tid slot t = ((u.writeFrame t.owner ps bs).slotTaken t.owner slot, []) := fun bs =>
    queueParks_of_noWaves (by rw [hkeep bs]; exact hw) tid slot t
  unfold State.saveTeam
  simp only [ht, ho, hs, htw, Option.bind_some, Option.map_some, List.map_nil, hu, hps, hq]
  exact ⟨_, _, rfl⟩

/-- What that save leaves of bytes: those of the stores of the frame, with the slot taken. -/
theorem endSave_store (hi : s.inGroup t = false) (hc : s.cmds = []) (ht : s.teams.get? tid = some t)
    (ho : s.owners.get? t.owner = some o) (hs : o.freeSlot = some slot) (hw : s.waves = [])
    (hu : s.walksTouch t.owner (o.slotVa slot) (frameBytes t []) = u)
    (hps : u.framePieces t.owner o .store (o.slotVa slot) (frameBytes t []) = .ok ps)
    (hkeep : ∀ bs, HomeFrame s (u.writeFrame t.owner ps bs)) :
    ∃ bs, SameStore ((u.writeFrame t.owner ps bs).slotTaken t.owner slot) (s.endSave tid t) := by
  obtain ⟨bs, x, hx⟩ := saveTeam_of_noWaves ht ho hs hw hu hps hkeep
  have hunit : s.unitOf tid = [tid] := by simp [State.unitOf, ht, hi]
  have hr : SameStore ((u.writeFrame t.owner ps bs).slotTaken t.owner slot)
      (((u.writeFrame t.owner ps bs).slotTaken t.owner slot).removeTeam tid t) :=
    removeTeam_store (by rw [hkeep bs]; exact hc) tid t
  have hsaved : ∀ (v : State) (g : Tbl SavedGang), SameStore v { v with saved := g } := fun _ _ =>
    ⟨rfl, rfl, rfl, rfl, rfl, rfl, rfl, rfl, rfl, rfl, rfl⟩
  refine ⟨bs, ?_⟩
  unfold State.endSave
  simp only [hunit, State.saveTeams, hx]
  exact hr.trans (hsaved _ _)

end

/-! ### A frame in the bias table -/

/-- A team whose save has begun for a page fault. -/
def framedTeam : Team := { Team.start programLaunch 0 0 0 0 programShape with saving := some 0 }

/-- Its owner. -/
def framedOwner : Owner :=
  { Owner.init 0 0 with ring := ringUsedAt (2 ^ 30 - 16), queues := [(0, idleQueue)], frameSlots := 1 }

/-- `misordered` with that team, and with one frame slot of each owner at address 0, whose page holds the bias table: the team's frame of
32 KiB fills the table. -/
def framedInBias : State :=
  { misordered programLaunch with
    biasBase := 0x40000
    owners := (misordered programLaunch).owners.map fun e => (e.1, { e.2 with frameSlots := 1 })
    teams := [(0, framedTeam)] }

theorem framedInBias_inBias {a : Nat} (h : 0x40000 ≤ a) (h' : a < 0x48000) : framedInBias.inBias a = true := by
  have e : framedInBias.inBias a = (true && decide (0x40000 ≤ a) && decide (a < 0x40000 + 1 * 2 ^ 15)) := rfl
  rw [e, decide_eq_true h, decide_eq_true (by omega)]
  rfl

theorem framedInBias_outside {a : Nat} (h : a < 2 ^ 30) : framedInBias.inHdm a = false := by
  have e : framedInBias.inHdm a = (true && decide (1 * 2 ^ 30 ≤ a) && decide (a < (1 + 1) * 2 ^ 30)) := rfl
  rw [e, decide_eq_false (by omega)]
  rfl

/-- Where its frame lies. -/
def framedPlace : Phys := ⟨.dev, 0x40000, 0, 0, false⟩

/-- The state once the walk for the frame has read its entries. -/
def framedWalked : State := framedInBias.walksTouch 0 0 32768

theorem framedWalked_homeFrame : HomeFrame framedInBias framedWalked := walksTouch_homeFrame ..

theorem framedWalked_store : SameStore framedInBias framedWalked := by
  have h : framedWalked.mem = framedInBias.mem ∧ framedWalked.memKey = framedInBias.memKey ∧
      framedWalked.hostLines = framedInBias.hostLines := by decide +kernel
  obtain ⟨hm, hk, hl⟩ := h
  exact framedWalked_homeFrame.store hm hk hl

theorem framedWalked_pieces : framedWalked.framePieces 0 framedOwner .store 0 32768 = .ok [(framedPlace, 0, 32768)] := by
  have h : (match framedWalked.framePieces 0 framedOwner .store 0 32768 with
    | .ok ps => decide (ps = [(framedPlace, 0, 32768)])
    | .error _ => false) = true := by decide +kernel
  split at h
  · next ps hps => rw [hps, of_decide_eq_true h]
  · cases h

/-- The stores of any frame there change no byte, and nothing but what the homes hold. -/
theorem framedWalked_writes (bs : List Byte) :
    HomeFrame framedInBias (framedWalked.writeFrame 0 [(framedPlace, 0, 32768)] bs) ∧
    SameStore framedInBias (framedWalked.writeFrame 0 [(framedPlace, 0, 32768)] bs) := by
  have hw := framedWalked_store
  have hlen : (bs.take 32768).length ≤ 32768 := List.length_take_le ..
  have hquiet : Unwatched framedWalked := Unwatched.congr ⟨rfl, (fun e he => by cases he), rfl⟩ framedWalked_homeFrame
  have hhome : SameStore framedWalked (framedWalked.homeTouches 0 framedPlace (bs.take 32768).length true) := by
    refine homeTouches_store_of_outside (fun i hi => ?_) 0 true
    simp only [ceilDiv, framedPlace] at hi ⊢
    rw [hw.inHdm]
    exact framedInBias_outside (by omega)
  have hwrite : framedWalked.writeFrame 0 [(framedPlace, 0, 32768)] bs =
      framedWalked.homeTouches 0 framedPlace (bs.take 32768).length true := by
    refine hquiet.agentWrites_inBias rfl (by decide) hhome fun i hi => ?_
    change i < (bs.take 32768).length at hi
    rw [hw.inBias]
    exact framedInBias_inBias (Nat.le_add_right ..) (by simp only [framedPlace]; omega)
  rw [hwrite]
  exact ⟨framedWalked_homeFrame.trans (homeTouches_homeFrame ..), hw.trans hhome⟩

/-- The end of that save, as far as bytes go, is the slot taken. -/
theorem framedInBias_saves :
    ∃ t, exec .teamPark framedInBias = .next t ∧ SameStore (framedInBias.slotTaken 0 0) t := by
  obtain ⟨bs, hbs⟩ := endSave_store (s := framedInBias) (t := framedTeam) (tid := 0) (o := framedOwner) (slot := 0)
    rfl rfl rfl rfl rfl rfl rfl framedWalked_pieces fun bs => (framedWalked_writes bs).1
  obtain ⟨hf, hs⟩ := framedWalked_writes bs
  exact ⟨_, exec_teamPark_ends (why := 0) rfl rfl (by decide +kernel), (hf.slotTaken_store hs 0 0).trans hbs⟩

/-- Refutes O47: in `framedInBias` the stores of the frame change nothing, and the last byte of owner 1's STATUS, 0 after them, reads 0x80
after TEAM_PARK. -/
theorem not_savesAndRestores : ¬ Obligations.SavesAndRestores := by
  unfold Obligations.SavesAndRestores
  rintro ⟨⟨-, hsave⟩, -, -⟩
  obtain ⟨hok, -⟩ := hsave framedInBias framedTeam framedOwner 0 programLaunch ⟨rfl, rfl, rfl⟩ rfl rfl rfl rfl
    (fun e he => by cases he) (fun e he => by cases he) (by decide) rfl rfl rfl rfl rfl (fun e he => by cases he) (by decide) 0 (by decide)
    ⟨by decide, fun k hk => absurd hk (Nat.not_lt_zero k)⟩
  obtain ⟨t, bs, -, -, -, ht, -, hbytes, -⟩ := hok _ framedWalked_pieces
  obtain ⟨t', ht', hslot⟩ := framedInBias_saves
  obtain rfl : t = t' := by
    rw [ht] at ht'
    cases ht'
    rfl
  have h : (framedInBias.slotTaken 0 0).byteAt .dev 0 (2 ^ 30 + 8) = framedInBias.byteAt .dev 0 (2 ^ 30 + 8) := by
    rw [← hslot.bytes, hbytes]
    exact (framedWalked_writes bs).2.bytes ..
  exact absurd h (by decide +kernel)

end Sys2Proof.Machine

/-! PROOFS. The fields of instruction words and the values they denote (R92 to R95): each reading of a field against its
writing, and a word against the fields of its format. -/

namespace Sys2Proof

/-! ### Register fields (R95, R96, R99) -/

theorem Reg.src_of_block {r : Reg} {u : Nat} (h : r.block u = true) : r.src = true := by
  cases r with
  | v n =>
    simp only [Reg.block, Reg.src, Bool.and_eq_true, beq_iff_eq, decide_eq_true_eq] at h ⊢
    obtain ⟨hunit, hlt⟩ := h
    rcases Nat.eq_zero_or_pos u with rfl | hu <;> omega
  | q n => cases h

/-- A unit's first register is a window register, aligned, with the whole unit at or below v119. -/
theorem Reg.block_iff {r : Reg} {u : Nat} :
    r.block u = true ↔ r.src = true ∧ r.isQ = false ∧ r.code % u = 0 ∧ r.code + u < 121 := by
  constructor
  · intro h
    refine ⟨src_of_block h, ?_⟩
    cases r <;> simp_all [Reg.block, Reg.isQ, Reg.code]
  · cases r <;> simp_all [Reg.block, Reg.isQ, Reg.code]

/-- A destination names any register; a queue register only where no other field does. -/
theorem Reg.dst_iff {r : Reg} {l : List Reg} :
    r.dst l = true ↔ r.src = true ∧ (r.isQ = true → l.any Reg.isQ = false) := by
  cases r <;> simp [Reg.dst, Reg.src, Reg.isQ]

theorem Reg.code_lt {r : Reg} (h : r.src = true) : r.code < 128 := Laws.EncodingFits.code_of_src h

theorem Reg.regOf_code {r : Reg} (h : r.src = true) : regOf r.code = r := by
  cases r with
  | v n => simp_all [Reg.src, regOf, Reg.code]
  | q n => simp [regOf, Reg.code]

theorem bitsOf_lt (w hi lo : Nat) : bitsOf w hi lo < 2 ^ (hi + 1 - lo) := Nat.mod_lt _ (Nat.two_pow_pos _)

theorem code_regT (lo w : Nat) : (regT lo w).code = bitsOf w (lo + 6) lo := by
  have hlt := bitsOf_lt w (lo + 6) lo
  unfold regT regOf
  split <;> simp only [Reg.code]
  omega

/-! ### Signed fields (R93, R133) -/

theorem inRange_iff {lo hi i : Int} : inRange lo hi i = true ↔ lo ≤ i ∧ i ≤ hi := by
  simp only [inRange, Bool.and_eq_true, decide_eq_true_eq]

theorem unsignOf_signOf {w n : Nat} (h : n < 2 ^ w) : unsignOf w (signOf w n) = n := by
  unfold unsignOf signOf
  rw [Nat.mod_eq_of_lt h]
  split
  · rw [Int.emod_eq_of_lt (by omega) (by omega)]
    omega
  · rw [Int.sub_emod_right, Int.emod_eq_of_lt (by omega) (by omega)]
    omega

theorem unsignOf_signOf_bitsOf (w hi : Nat) : unsignOf (hi + 1) (signOf (hi + 1) (bitsOf w hi 0)) = bitsOf w hi 0 :=
  unsignOf_signOf (bitsOf_lt w hi 0)

theorem signOf_unsignOf {w : Nat} {i : Int} (hlo : -(2 ^ w : Nat) ≤ i) (hhi : i < (2 ^ w : Nat)) :
    signOf (w + 1) (unsignOf (w + 1) i) = i := by
  have hpow : 2 ^ (w + 1) = 2 * 2 ^ w := Nat.pow_succ'
  unfold signOf
  rw [Nat.mod_eq_of_lt (Laws.EncodingFits.unsignOf_lt (w + 1) i), Nat.add_sub_cancel, unsignOf, hpow]
  generalize 2 ^ w = n at hlo hhi
  rcases Int.lt_or_le i 0 with hneg | hnonneg
  · rw [← Int.add_emod_right, Int.emod_eq_of_lt (by omega) (by omega)]
    split <;> omega
  · rw [Int.emod_eq_of_lt (by omega) (by omega)]
    split <;> omega

/-! ### Size and action codes (R34, R93) -/

theorem sizeOf?_code (z : Size) : sizeOf? z.code = some z := by cases z <;> rfl

theorem code_of_sizeOf? {n : Nat} {z : Size} (h : sizeOf? n = some z) : z.code = n := by
  unfold sizeOf? at h
  split at h <;> cases h <;> rfl

theorem tretOf?_code (k : TretAct) : tretOf? k.code = some k := by cases k <;> rfl

theorem code_of_tretOf? {n : Nat} {k : TretAct} (h : tretOf? n = some k) : k.code = n := by
  unfold tretOf? at h
  split at h <;> cases h <;> rfl

/-! ### Formats (R92): bits [30:0] of a word are its fields' word, and a format's word gives its fields back -/

theorem bits_eq_wordT (w : Nat) :
    bitsOf w 30 0 = wordT (bitsOf w 30 25) (bitsOf w 24 21) (bitsOf w 20 14) (bitsOf w 13 7) (bitsOf w 6 0) := by
  simp only [wordT, bitsOf]
  omega

theorem bits_eq_wordI (w : Nat) :
    bitsOf w 30 0 = wordI (bitsOf w 30 25) (bitsOf w 24 18) (bitsOf w 17 11) (bitsOf w 10 0) := by
  simp only [wordI, bitsOf]
  omega

theorem bits_eq_wordM (w : Nat) :
    bitsOf w 30 0 = wordM (bitsOf w 30 25) (bitsOf w 24 18) (bitsOf w 17 11) (bitsOf w 10 8) (bitsOf w 7 0) := by
  simp only [wordM, bitsOf]
  omega

theorem bits_eq_wordU (w : Nat) : bitsOf w 30 0 = wordU (bitsOf w 30 25) (bitsOf w 24 18) (bitsOf w 17 0) := by
  simp only [wordU, bitsOf]
  omega

theorem wordT_fields {w p f d a b : Nat} (h : wordT p f d a b = bitsOf w 30 0) (hf : f < 16) (hd : d < 128) (ha : a < 128)
    (hb : b < 128) : bitsOf w 30 25 = p ∧ bitsOf w 24 21 = f ∧ bitsOf w 20 14 = d ∧ bitsOf w 13 7 = a ∧ bitsOf w 6 0 = b := by
  simp only [wordT, bitsOf] at h ⊢
  omega

theorem wordI_fields {w p d a i : Nat} (h : wordI p d a i = bitsOf w 30 0) (hd : d < 128) (ha : a < 128) (hi : i < 2 ^ 11) :
    bitsOf w 30 25 = p ∧ bitsOf w 24 18 = d ∧ bitsOf w 17 11 = a ∧ bitsOf w 10 0 = i := by
  simp only [wordI, bitsOf] at h ⊢
  omega

theorem wordM_fields {w p d a z o : Nat} (h : wordM p d a z o = bitsOf w 30 0) (hd : d < 128) (ha : a < 128) (hz : z < 7)
    (ho : o < 2 ^ 8) :
    bitsOf w 30 25 = p ∧ bitsOf w 24 18 = d ∧ bitsOf w 17 11 = a ∧ bitsOf w 10 8 = z ∧ bitsOf w 7 0 = o := by
  simp only [wordM, bitsOf] at h ⊢
  omega

theorem wordU_fields {w p d i : Nat} (h : wordU p d i = bitsOf w 30 0) (hd : d < 128) (hi : i < 2 ^ 18) :
    bitsOf w 30 25 = p ∧ bitsOf w 24 18 = d ∧ bitsOf w 17 0 = i := by
  simp only [wordU, bitsOf] at h ⊢
  omega

/-- The gathers' F is the direction, bit 24, and the size (R258). -/
theorem gather_fields (w : Nat) : bitsOf w 24 24 = bitsOf w 24 21 / 8 ∧ bitsOf w 23 21 = bitsOf w 24 21 % 8 := by
  simp only [bitsOf]
  omega

/-! ### The switch marker (R91) -/

theorem bitsOf_sBit_add {x : Nat} (m : Bool) (h : x < 2 ^ 31) : bitsOf (sBit m + x) 30 0 = x := by
  cases m <;> simp only [bitsOf, sBit, Bool.false_eq_true, if_true, if_false] <;> omega

theorem bitS_sBit_add {x : Nat} (m : Bool) (h : x < 2 ^ 31) : bitS (sBit m + x) = m := by
  have h31 : bitsOf (sBit m + x) 31 31 = m.toNat := by
    cases m <;> simp only [bitsOf, sBit, Bool.false_eq_true, if_true, if_false, Bool.toNat_true, Bool.toNat_false] <;> omega
  rw [bitS, h31]
  cases m <;> rfl

theorem sBit_bitS_add {w : Nat} (h : w < 2 ^ 32) : sBit (bitS w) + bitsOf w 30 0 = w := by
  simp only [bitS, sBit, beq_iff_eq, bitsOf]
  split <;> omega

end Sys2Proof

/-! PROOFS. Decoding and encoding are inverse to each other (O59). Over the opcode map's groups: what the decoder answers encodes to the
word (`Sound`), and each instruction's word decodes to it (`Decodes`). -/

namespace Sys2Proof

/-! ### A word that decodes is the encoding of its instruction -/

/-- What `r` answers for the word `w`, if anything, is an instruction word whose encoding is `w` but for the switch marker. -/
def Sound (w : Nat) (r : Except Reject Instr) : Prop := ∀ i, r = .ok i → i.isWord = true ∧ encodeBody i = bitsOf w 30 0

@[simp] theorem sound_error {w : Nat} {e : Reject} : Sound w (.error e) := fun _ h => by cases h

@[simp] theorem sound_ok {w : Nat} {i : Instr} : Sound w (.ok i) ↔ i.isWord = true ∧ encodeBody i = bitsOf w 30 0 := by
  simp [Sound]

theorem mbz_eq_ok {zs : List Nat} {i j : Instr} : mbz zs i = .ok j ↔ (∀ z ∈ zs, z = 0) ∧ i = j := by
  simp only [mbz, List.all_eq_true, beq_iff_eq]
  by_cases h : ∀ z ∈ zs, z = 0
  · rw [if_pos h, Except.ok.injEq, and_iff_right h]
  · simp only [h, if_false, reduceCtorEq, false_and]

@[simp] theorem sound_mbz {w : Nat} {zs : List Nat} {i : Instr} :
    Sound w (mbz zs i) ↔ ((∀ z ∈ zs, z = 0) → Sound w (.ok i)) := by
  simp only [Sound, mbz_eq_ok, Except.ok.injEq]
  constructor
  · exact fun h hz j hj => h j ⟨hz, hj⟩
  · exact fun h j hj => h hj.1 j hj.2

theorem decM_sound {w p : Nat} {c : Reg → Reg → Size → Int → Instr} (hp : bitsOf w 30 25 = p)
    (hword : ∀ d a z off, (c d a z off).isWord = true)
    (henc : ∀ d a z off, encodeBody (c d a z off) = wordM p d.code a.code z.code (unsignOf 8 off)) : Sound w (decM c w) := by
  unfold decM
  split
  next z hz =>
    rw [sound_ok, henc, bits_eq_wordM, code_of_sizeOf? hz, unsignOf_signOf_bitsOf w 7, code_regT, code_regT, hp]
    exact ⟨hword .., rfl⟩
  next => exact sound_error

theorem decG_sound {w g : Nat} {c : Reg → Reg → Reg → Size → Instr} (hp : bitsOf w 30 25 = 0x1C)
    (hg : 8 * bitsOf w 24 24 = g) (hword : ∀ d a b z, (c d a b z).isWord = true)
    (henc : ∀ d a b z, encodeBody (c d a b z) = wordT 0x1C (g + z.code) d.code a.code b.code) : Sound w (decG c w) := by
  obtain ⟨h24, h23⟩ := gather_fields w
  have hf : bitsOf w 24 21 = g + bitsOf w 23 21 := by omega
  unfold decG
  split
  next z hz =>
    rw [sound_ok, henc, bits_eq_wordT, code_of_sizeOf? hz, code_regT, code_regT, code_regT, hp, hf]
    exact ⟨hword .., rfl⟩
  next => exact sound_error

theorem dec1C_sound {w : Nat} (hp : bitsOf w 30 25 = 0x1C) : Sound w (dec1C w) := by
  have hbit := bitsOf_lt w 24 24
  unfold dec1C
  split
  · exact decG_sound hp (by omega) (fun _ _ _ _ => rfl) fun _ _ _ _ => rfl
  · exact decG_sound hp (by omega) (fun _ _ _ _ => rfl) fun _ _ _ _ => rfl

theorem decTret_sound {w : Nat} (hp : bitsOf w 30 25 = 0x25) (hf : bitsOf w 24 21 = 7) : Sound w (decTret w) := by
  unfold decTret
  split
  next k hk => simp +contextual [Instr.isWord, encodeBody, bits_eq_wordT, code_of_tretOf? hk, hp, hf]
  next => exact sound_error

/-- The opcode map is sound: formats I, U and M and the gathers first, then the groups of format T by their F. The
operations of local and global atomics leave no F free, so their last one is what F = 15 gives. -/
theorem decodeRaw_sound (w : Nat) : Sound w (decodeRaw w) := by
  unfold decodeRaw
  split
  all_goals rename_i hp
  case h_5 | h_6 | h_7 | h_8 =>
    simp [Instr.isWord, encodeBody, code_regT, bits_eq_wordI, unsignOf_signOf_bitsOf, hp]
  case h_11 | h_12 | h_13 | h_14 | h_29 | h_30 | h_31 | h_32 =>
    simp +contextual [Instr.isWord, encodeBody, code_regT, bits_eq_wordU, unsignOf_signOf_bitsOf, hp]
  case h_21 | h_22 | h_23 | h_24 => exact decM_sound hp (fun _ _ _ _ => rfl) fun _ _ _ _ => rfl
  case h_25 => exact dec1C_sound hp
  case h_43 => exact sound_error
  all_goals
    simp only [dec01, dec02, dec03, dec04, dec09, dec0A, dec10, dec11, dec12, dec13, dec14, dec15, dec1D, dec1E, dec1F,
      dec24, dec25, dec26, dec28, dec29, dec2A, dec2B, dec2C, dec2D, dec2E]
    split <;>
      simp +contextual [Instr.isWord, encodeBody, code_regT, bits_eq_wordT, unsignOf_signOf_bitsOf, decTret_sound, *]
  all_goals
    have hlt : bitsOf w 24 21 < 16 := bitsOf_lt w 24 21
    have hf : bitsOf w 24 21 = 15 := by
      simp only [imp_false] at *
      omega
    rw [hf]

/-! ### The word of a well-formed instruction decodes to it -/

/-- The instruction's encoding leaves the switch marker free, and a word with these bits [30:0] decodes to it. -/
def Decodes (i : Instr) : Prop := encodeBody i < 2 ^ 31 ∧ ∀ w, encodeBody i = bitsOf w 30 0 → decodeRaw w = .ok i

/-- Format T: the opcode leads to the group `g`, and the fields to the instruction in it. -/
theorem decodes_wordT {p f d a b : Nat} {g : Nat → Except Reject Instr} {i : Instr} (henc : encodeBody i = wordT p f d a b)
    (hpf : p < 64 ∧ f < 16) (hlt : d < 128 ∧ a < 128 ∧ b < 128) (hg : ∀ w, bitsOf w 30 25 = p → decodeRaw w = g w)
    (hgroup : ∀ w, bitsOf w 24 21 = f → bitsOf w 20 14 = d → bitsOf w 13 7 = a → bitsOf w 6 0 = b → g w = .ok i) :
    Decodes i := by
  obtain ⟨hp, hf⟩ := hpf
  obtain ⟨hd, ha, hb⟩ := hlt
  refine ⟨henc ▸ Laws.EncodingFits.wordT_fits hp hf hd ha hb, fun w h => ?_⟩
  obtain ⟨hp, hf, hd, ha, hb⟩ := wordT_fields (henc ▸ h) hf hd ha hb
  rw [hg w hp, hgroup w hf hd ha hb]

theorem decodes_wordI {p d a v : Nat} {i : Instr} (henc : encodeBody i = wordI p d a v) (hp : p < 64)
    (hlt : d < 128 ∧ a < 128 ∧ v < 2 ^ 11)
    (hdec : ∀ w, bitsOf w 30 25 = p → bitsOf w 24 18 = d → bitsOf w 17 11 = a → bitsOf w 10 0 = v → decodeRaw w = .ok i) :
    Decodes i := by
  obtain ⟨hd, ha, hv⟩ := hlt
  refine ⟨henc ▸ Laws.EncodingFits.wordI_fits hp hd ha hv, fun w h => ?_⟩
  obtain ⟨hp, hd, ha, hv⟩ := wordI_fields (henc ▸ h) hd ha hv
  exact hdec w hp hd ha hv

theorem decodes_wordM {p d a z o : Nat} {i : Instr} (henc : encodeBody i = wordM p d a z o) (hp : p < 64)
    (hlt : d < 128 ∧ a < 128 ∧ z < 7 ∧ o < 2 ^ 8)
    (hdec : ∀ w, bitsOf w 30 25 = p → bitsOf w 24 18 = d → bitsOf w 17 11 = a → bitsOf w 10 8 = z → bitsOf w 7 0 = o →
      decodeRaw w = .ok i) : Decodes i := by
  obtain ⟨hd, ha, hz, ho⟩ := hlt
  refine ⟨henc ▸ Laws.EncodingFits.wordM_fits hp hd ha hz ho, fun w h => ?_⟩
  obtain ⟨hp, hd, ha, hz, ho⟩ := wordM_fields (henc ▸ h) hd ha hz ho
  exact hdec w hp hd ha hz ho

theorem decodes_wordU {p d v : Nat} {i : Instr} (henc : encodeBody i = wordU p d v) (hp : p < 64)
    (hlt : d < 128 ∧ v < 2 ^ 18)
    (hdec : ∀ w, bitsOf w 30 25 = p → bitsOf w 24 18 = d → bitsOf w 17 0 = v → decodeRaw w = .ok i) : Decodes i := by
  obtain ⟨hd, hv⟩ := hlt
  refine ⟨henc ▸ Laws.EncodingFits.wordU_fits hp hd hv, fun w h => ?_⟩
  obtain ⟨hp, hd, hv⟩ := wordU_fields (henc ▸ h) hd hv
  exact hdec w hp hd hv

/-- Every well-formed instruction word decodes, group by group of the opcode map (R102). -/
theorem decodes_of_wf {i : Instr} (hwf : i.wf = true) (hw : i.isWord = true) : Decodes i := by
  cases i with
  | iadd d a b | isub d a b | imul d a b | imulh d a b | umulh d a b | imad d a b | imin d a b | imax d a b | umin d a b
  | umax d a b | iaddW d a b | isubW d a b | imulW d a b | umulW d a b =>
    simp only [Instr.wf, Bool.and_eq_true, Reg.block_iff, Reg.dst_iff] at hwf
    refine decodes_wordT (g := dec01) rfl (by decide) (by simp [Reg.code_lt, hwf])
      (fun w hp => by rw [decodeRaw, hp]; rfl) fun w hf hd ha hb => ?_
    simp [dec01, regT, Reg.regOf_code, *]
  | and d a b | or d a b | xor d a b | andn d a b | orn d a b | xnor d a b | shl d a b | shr d a b | sra d a b | rotl d a b
  | shlW d a b | shrW d a b | sraW d a b =>
    simp only [Instr.wf, Bool.and_eq_true, Reg.block_iff, Reg.dst_iff] at hwf
    refine decodes_wordT (g := dec02) rfl (by decide) (by simp [Reg.code_lt, hwf])
      (fun w hp => by rw [decodeRaw, hp]; rfl) fun w hf hd ha hb => ?_
    simp [dec02, regT, Reg.regOf_code, *]
  | cmpeq d a b | cmpne d a b | cmplt d a b | cmple d a b | cmpltu d a b | cmpleu d a b | sel d a b | bfe d a b | bfi d a b
  | pack2 d a b | permb d a b =>
    simp only [Instr.wf, Bool.and_eq_true, Reg.block_iff, Reg.dst_iff] at hwf
    refine decodes_wordT (g := dec03) rfl (by decide) (by simp [Reg.code_lt, hwf])
      (fun w hp => by rw [decodeRaw, hp]; rfl) fun w hf hd ha hb => ?_
    simp [dec03, regT, Reg.regOf_code, *]
  | clz d a | popc d a | brev d a | iabs d a | ineg d a | not d a | mov d a | movW d a | sextb d a | sexth d a | zextb d a
  | zexth d a =>
    simp only [Instr.wf, Bool.and_eq_true, Reg.block_iff, Reg.dst_iff] at hwf
    refine decodes_wordT (g := dec04) rfl (by decide) (by simp [Reg.code_lt, hwf])
      (fun w hp => by rw [decodeRaw, hp]; rfl) fun w hf hd ha hb => ?_
    simp [dec04, regT, Reg.regOf_code, mbz, *]
  | addi d a i =>
    simp only [Instr.wf, Bool.and_eq_true, Reg.dst_iff, inRange_iff] at hwf
    refine decodes_wordI rfl (by decide) ⟨by simp [Reg.code_lt, hwf], by simp [Reg.code_lt, hwf],
      Laws.EncodingFits.unsignOf_lt ..⟩ fun w hp hd ha hv => ?_
    have hi : signOf 11 (unsignOf 11 i) = i := signOf_unsignOf (by omega) (by omega)
    rw [decodeRaw, hp]
    simp [regT, Reg.regOf_code, *]
  | andi d a i | ori d a i | xori d a i =>
    simp only [Instr.wf, Bool.and_eq_true, Reg.dst_iff, decide_eq_true_eq] at hwf
    refine decodes_wordI rfl (by decide) ⟨by simp [Reg.code_lt, hwf], by simp [Reg.code_lt, hwf], by omega⟩
      fun w hp hd ha hv => ?_
    rw [decodeRaw, hp]
    simp [regT, Reg.regOf_code, *]
  | shli d a k | shri d a k | srai d a k | rotli d a k | shliW d a k | shriW d a k | sraiW d a k =>
    simp only [Instr.wf, Bool.and_eq_true, Reg.block_iff, Reg.dst_iff, decide_eq_true_eq] at hwf
    refine decodes_wordT (g := dec09) rfl (by decide) ⟨by simp [Reg.code_lt, hwf], by simp [Reg.code_lt, hwf], by omega⟩
      (fun w hp => by rw [decodeRaw, hp]; rfl) fun w hf hd ha hb => ?_
    simp [dec09, regT, Reg.regOf_code, *]
  | cmpeqi d a k | cmpnei d a k | cmplti d a k | cmplei d a k | cmpgti d a k | cmpgei d a k =>
    simp only [Instr.wf, Bool.and_eq_true, Reg.dst_iff, inRange_iff] at hwf
    refine decodes_wordT (g := dec0A) rfl (by decide) ⟨by simp [Reg.code_lt, hwf], by simp [Reg.code_lt, hwf],
      Laws.EncodingFits.unsignOf_lt 7 k⟩ (fun w hp => by rw [decodeRaw, hp]; rfl) fun w hf hd ha hb => ?_
    have hk : signOf 7 (unsignOf 7 k) = k := signOf_unsignOf (by omega) (by omega)
    simp [dec0A, regT, Reg.regOf_code, *]
  | cmpltui d a k | cmpgeui d a k =>
    simp only [Instr.wf, Bool.and_eq_true, Reg.dst_iff, decide_eq_true_eq] at hwf
    refine decodes_wordT (g := dec0A) rfl (by decide) ⟨by simp [Reg.code_lt, hwf], by simp [Reg.code_lt, hwf], by omega⟩
      (fun w hp => by rw [decodeRaw, hp]; rfl) fun w hf hd ha hb => ?_
    simp [dec0A, regT, Reg.regOf_code, *]
  | movi d i | ldlit d i | ldlitW d i | call d i =>
    simp only [Instr.wf, Bool.and_eq_true, Reg.block_iff, Reg.dst_iff, inRange_iff] at hwf
    refine decodes_wordU rfl (by decide) ⟨by simp [Reg.code_lt, hwf], Laws.EncodingFits.unsignOf_lt ..⟩ fun w hp hd hv => ?_
    have hi : signOf 18 (unsignOf 18 i) = i := signOf_unsignOf (by omega) (by omega)
    rw [decodeRaw, hp]
    simp [regT, Reg.regOf_code, *]
  | movhi d i =>
    simp only [Instr.wf, Bool.and_eq_true, Reg.block_iff, decide_eq_true_eq] at hwf
    refine decodes_wordU rfl (by decide) ⟨by simp [Reg.code_lt, hwf], by omega⟩ fun w hp hd hv => ?_
    rw [decodeRaw, hp]
    simp [regT, Reg.regOf_code, *]
  | fadd d a b | fsub d a b | fmul d a b | ffma d a b | ffms d a b | fnfma d a b | fmin d a b | fmax d a b | fcopysign d a b
  | fcmpeq d a b | fcmplt d a b | fcmple d a b | fcmpun d a b =>
    simp only [Instr.wf, Bool.and_eq_true, Reg.block_iff, Reg.dst_iff] at hwf
    refine decodes_wordT (g := dec10) rfl (by decide) (by simp [Reg.code_lt, hwf])
      (fun w hp => by rw [decodeRaw, hp]; rfl) fun w hf hd ha hb => ?_
    simp [dec10, regT, Reg.regOf_code, *]
  | fabs d a | fneg d a | frcp d a | frsq d a | fsqrt d a | fexp2 d a | flog2 d a | fsin d a | fcos d a | ftanh d a
  | ffloor d a | fceil d a | ftrunc d a | frint d a | fclass d a =>
    simp only [Instr.wf, Bool.and_eq_true, Reg.block_iff, Reg.dst_iff] at hwf
    refine decodes_wordT (g := dec11) rfl (by decide) (by simp [Reg.code_lt, hwf])
      (fun w hp => by rw [decodeRaw, hp]; rfl) fun w hf hd ha hb => ?_
    simp [dec11, regT, Reg.regOf_code, mbz, *]
  | hadd2B d a b | hsub2B d a b | hmul2B d a b | hfma2B d a b | hmin2B d a b | hmax2B d a b | hadd2H d a b | hsub2H d a b
  | hmul2H d a b | hfma2H d a b | hmin2H d a b | hmax2H d a b =>
    simp only [Instr.wf, Bool.and_eq_true, Reg.block_iff, Reg.dst_iff] at hwf
    refine decodes_wordT (g := dec12) rfl (by decide) (by simp [Reg.code_lt, hwf])
      (fun w hp => by rw [decodeRaw, hp]; rfl) fun w hf hd ha hb => ?_
    simp [dec12, regT, Reg.regOf_code, *]
  | cvt d a b | cvtPack d a b | cvtUnpk d a b | cvtPack2 d a b | cvtUnpk2 d a b | cvtPacks d a b | cvtUnpks d a b
  | qscale d a b =>
    simp only [Instr.wf, Bool.and_eq_true, Reg.block_iff, Reg.dst_iff] at hwf
    refine decodes_wordT (g := dec13) rfl (by decide) (by simp [Reg.code_lt, hwf])
      (fun w hp => by rw [decodeRaw, hp]; rfl) fun w hf hd ha hb => ?_
    simp [dec13, regT, Reg.regOf_code, *]
  | shfl d a b | shflup d a b | shfldn d a b | shflx d a b | qxch d a b | ballot d a | vany d a | vall d a | laneMatch d a
  | ired d a b | fred d a b | iscan d a b | fscan d a b | elect d =>
    simp only [Instr.wf, Bool.and_eq_true, Reg.block_iff] at hwf
    refine decodes_wordT (g := dec14) rfl (by decide) (by simp [Reg.code_lt, hwf])
      (fun w hp => by rw [decodeRaw, hp]; rfl) fun w hf hd ha hb => ?_
    simp [dec14, regT, Reg.regOf_code, mbz, *]
  | sread d k | swrite a k =>
    simp only [Instr.wf, Bool.and_eq_true, Reg.block_iff, decide_eq_true_eq, Bool.or_eq_true, beq_iff_eq] at hwf
    refine decodes_wordT (g := dec15) rfl (by decide) ⟨by simp [Reg.code_lt, hwf], by simp [Reg.code_lt, hwf], by omega⟩
      (fun w hp => by rw [decodeRaw, hp]; rfl) fun w hf hd ha hb => ?_
    simp [dec15, regT, Reg.regOf_code, mbz, *]
  | ld d a z off | st d a z off | ldl d a z off | stl d a z off =>
    simp only [Instr.wf, Bool.and_eq_true, Reg.block_iff, inRange_iff] at hwf
    refine decodes_wordM rfl (by decide) ⟨by simp [Reg.code_lt, hwf], by simp [Reg.code_lt, hwf],
      Laws.EncodingFits.size_code z, Laws.EncodingFits.unsignOf_lt ..⟩ fun w hp hd ha hz ho => ?_
    have hi : signOf 8 (unsignOf 8 off) = off := signOf_unsignOf (by omega) (by omega)
    rw [decodeRaw, hp]
    simp [regT, Reg.regOf_code, decM, sizeOf?_code, *]
  | ldx d a b z =>
    simp only [Instr.wf, Bool.and_eq_true, Reg.block_iff] at hwf
    have hz := Laws.EncodingFits.size_code z
    refine decodes_wordT (g := dec1C) rfl (by omega) (by simp [Reg.code_lt, hwf])
      (fun w hp => by rw [decodeRaw, hp]; rfl) fun w hf hd ha hb => ?_
    obtain ⟨h24, h23⟩ := gather_fields w
    have hdir : bitsOf w 24 24 = 0 := by omega
    have hsize : bitsOf w 23 21 = z.code := by omega
    simp [dec1C, decG, regT, Reg.regOf_code, sizeOf?_code, hwf, hdir, hsize, hd, ha, hb]
  | stx d a b z =>
    simp only [Instr.wf, Bool.and_eq_true, Reg.block_iff] at hwf
    have hz := Laws.EncodingFits.size_code z
    refine decodes_wordT (g := dec1C) rfl (by omega) (by simp [Reg.code_lt, hwf])
      (fun w hp => by rw [decodeRaw, hp]; rfl) fun w hf hd ha hb => ?_
    obtain ⟨h24, h23⟩ := gather_fields w
    have hdir : bitsOf w 24 24 = 1 := by omega
    have hsize : bitsOf w 23 21 = z.code := by omega
    simp [dec1C, decG, regT, Reg.regOf_code, sizeOf?_code, hwf, hdir, hsize, hd, ha, hb]
  | atomAdd d a b | atomAnd d a b | atomOr d a b | atomXor d a b | atomMin d a b | atomMax d a b | atomUmin d a b
  | atomUmax d a b | atomXchg d a b | atomCas d a b | atomInc d a b | atomFadd d a b | atomHadd2B d a b | atomHadd2H d a b
  | atomFmin d a b | atomFmax d a b =>
    simp only [Instr.wf, Bool.and_eq_true, Reg.block_iff] at hwf
    refine decodes_wordT (g := dec1D) rfl (by decide) (by simp [Reg.code_lt, hwf])
      (fun w hp => by rw [decodeRaw, hp]; rfl) fun w hf hd ha hb => ?_
    simp [dec1D, regT, Reg.regOf_code, *]
  | atomWAdd d a b | atomWAnd d a b | atomWOr d a b | atomWXor d a b | atomWMin d a b | atomWMax d a b | atomWUmin d a b
  | atomWUmax d a b | atomWXchg d a b | atomWCas d a b | atomWInc d a b =>
    simp only [Instr.wf, Bool.and_eq_true, Reg.block_iff] at hwf
    refine decodes_wordT (g := dec1E) rfl (by decide) (by simp [Reg.code_lt, hwf])
      (fun w hp => by rw [decodeRaw, hp]; rfl) fun w hf hd ha hb => ?_
    simp [dec1E, regT, Reg.regOf_code, *]
  | atomlAdd d a b | atomlAnd d a b | atomlOr d a b | atomlXor d a b | atomlMin d a b | atomlMax d a b | atomlUmin d a b
  | atomlUmax d a b | atomlXchg d a b | atomlCas d a b | atomlInc d a b | atomlFadd d a b | atomlHadd2B d a b
  | atomlHadd2H d a b | atomlFmin d a b | atomlFmax d a b =>
    simp only [Instr.wf, Bool.and_eq_true, Reg.block_iff] at hwf
    refine decodes_wordT (g := dec1F) rfl (by decide) (by simp [Reg.code_lt, hwf])
      (fun w hp => by rw [decodeRaw, hp]; rfl) fun w hf hd ha hb => ?_
    simp [dec1F, regT, Reg.regOf_code, *]
  | bra i =>
    simp only [Instr.wf, inRange_iff] at hwf
    refine decodes_wordU rfl (by decide) ⟨by decide, Laws.EncodingFits.unsignOf_lt ..⟩ fun w hp hd hv => ?_
    have hi : signOf 18 (unsignOf 18 i) = i := signOf_unsignOf (by omega) (by omega)
    rw [decodeRaw, hp]
    simp [mbz, *]
  | bz a i | bnz a i =>
    simp only [Instr.wf, Bool.and_eq_true, Reg.block_iff, inRange_iff] at hwf
    refine decodes_wordU rfl (by decide) ⟨by simp [Reg.code_lt, hwf], Laws.EncodingFits.unsignOf_lt ..⟩ fun w hp hd hv => ?_
    have hi : signOf 18 (unsignOf 18 i) = i := signOf_unsignOf (by omega) (by omega)
    rw [decodeRaw, hp]
    simp [regT, Reg.regOf_code, *]
  | jmp a | jcall d a | ret a =>
    simp only [Instr.wf, Bool.and_eq_true, Reg.block_iff] at hwf
    refine decodes_wordT (g := dec24) rfl (by decide) (by simp [Reg.code_lt, hwf])
      (fun w hp => by rw [decodeRaw, hp]; rfl) fun w hf hd ha hb => ?_
    simp [dec24, regT, Reg.regOf_code, mbz, *]
  | sleep k | trap k | nop | exit | yield | commit | bkpt =>
    simp only [Instr.wf, decide_eq_true_eq] at hwf
    refine decodes_wordT (g := dec25) rfl (by decide) ⟨by decide, by decide, by omega⟩
      (fun w hp => by rw [decodeRaw, hp]; rfl) fun w hf hd ha hb => ?_
    simp [dec25, mbz, *]
  | tret k =>
    refine decodes_wordT (g := dec25) rfl (by decide) ⟨by decide, by decide, Laws.EncodingFits.tret_code k⟩
      (fun w hp => by rw [decodeRaw, hp]; rfl) fun w hf hd ha hb => ?_
    simp [dec25, decTret, tretOf?_code, mbz, *]
  | regclm k | regrel k | wbase k | regstat d =>
    simp only [Instr.wf, Bool.and_eq_true, Reg.block_iff, decide_eq_true_eq] at hwf
    refine decodes_wordT (g := dec26) rfl (by decide) ⟨by simp [Reg.code_lt, hwf], by decide, by omega⟩
      (fun w hp => by rw [decodeRaw, hp]; rfl) fun w hf hd ha hb => ?_
    simp [dec26, regT, Reg.regOf_code, mbz, *]
  | halloc d a b | hfree a | hseal a | hwait a | hstat d a | hgen d a | lsfence a =>
    simp only [Instr.wf, Bool.and_eq_true, Reg.block_iff] at hwf
    refine decodes_wordT (g := dec28) rfl (by decide) (by simp [Reg.code_lt, hwf])
      (fun w hp => by rw [decodeRaw, hp]; rfl) fun w hf hd ha hb => ?_
    simp [dec28, regT, Reg.regOf_code, mbz, *]
  | tfetch d a b | tstore d a b | tmcast d a | lrbind a b | lrflush b =>
    simp only [Instr.wf, Bool.and_eq_true, Reg.block_iff] at hwf
    refine decodes_wordT (g := dec29) rfl (by decide) (by simp [Reg.code_lt, hwf])
      (fun w hp => by rw [decodeRaw, hp]; rfl) fun w hf hd ha hb => ?_
    simp [dec29, regT, Reg.regOf_code, mbz, *]
  | abclaim d a | abrel a | mzero a | mma d a b | mloop d a b | mdrain d a b =>
    simp only [Instr.wf, Bool.and_eq_true, Reg.block_iff] at hwf
    refine decodes_wordT (g := dec2A) rfl (by decide) (by simp [Reg.code_lt, hwf])
      (fun w hp => by rw [decodeRaw, hp]; rfl) fun w hf hd ha hb => ?_
    simp [dec2A, regT, Reg.regOf_code, mbz, *]
  | bcopy d a b | embag d a b | tlwait a b | tlread d b | qbind a b | qunbind a | qstat d a =>
    simp only [Instr.wf, Bool.and_eq_true, Reg.block_iff] at hwf
    refine decodes_wordT (g := dec2B) rfl (by decide) (by simp [Reg.code_lt, hwf])
      (fun w hp => by rw [decodeRaw, hp]; rfl) fun w hf hd ha hb => ?_
    simp [dec2B, regT, Reg.regOf_code, mbz, *]
  | binit a b | bexpect a b | barrive d a | bwait a b | bcredit a b | launch d a b | tsync | trigger =>
    simp only [Instr.wf, Bool.and_eq_true, Reg.block_iff] at hwf
    refine decodes_wordT (g := dec2C) rfl (by decide) (by simp [Reg.code_lt, hwf])
      (fun w hp => by rw [decodeRaw, hp]; rfl) fun w hf hd ha hb => ?_
    simp [dec2C, regT, Reg.regOf_code, mbz, *]
  | tkpush a | tkpop d | tkcancel a b | tkstat d a | tkdone =>
    simp only [Instr.wf, Bool.and_eq_true, Reg.block_iff] at hwf
    refine decodes_wordT (g := dec2D) rfl (by decide) (by simp [Reg.code_lt, hwf])
      (fun w hp => by rw [decodeRaw, hp]; rfl) fun w hf hd ha hb => ?_
    simp [dec2D, regT, Reg.regOf_code, mbz, *]
  | tlbinv d a k | icinv k | csrrd d k | csrwr a k | perfrd d k | halt =>
    simp only [Instr.wf, Bool.and_eq_true, Reg.block_iff, decide_eq_true_eq, Bool.or_eq_true, beq_iff_eq] at hwf
    refine decodes_wordT (g := dec2E) rfl (by decide) ⟨by simp [Reg.code_lt, hwf], by simp [Reg.code_lt, hwf], by omega⟩
      (fun w hp => by rw [decodeRaw, hp]; rfl) fun w hf hd ha hb => ?_
    simp [dec2E, regT, Reg.regOf_code, mbz, *]
  | _ => cases hw

/-! ### The two directions -/

theorem decodeWord_eq_ok_iff {w : Nat} {i : Instr} :
    decodeWord w = .ok i ↔ i.wf = true ∧ i.isWord = true ∧ encodeBody i = bitsOf w 30 0 := by
  unfold decodeWord
  constructor
  · intro h
    split at h
    next j hj =>
      obtain ⟨hword, henc⟩ := decodeRaw_sound w j hj
      split at h <;> cases h
      exact ⟨‹_›, hword, henc⟩
    next => cases h
  · rintro ⟨hwf, hword, henc⟩
    rw [(decodes_of_wf hwf hword).2 w henc]
    exact if_pos hwf

/-- Settles O59: both directions from `decodeWord_eq_ok_iff`, the switch marker set beside bits [30:0]. -/
theorem encoding : Obligations.Encoding := by
  unfold Obligations.Encoding
  refine ⟨fun m i hwf hword => ?_, fun w i hw h => ?_⟩
  · obtain ⟨hfits, -⟩ := decodes_of_wf hwf hword
    refine ⟨?_, decodeWord_eq_ok_iff.mpr ⟨hwf, hword, (bitsOf_sBit_add m hfits).symm⟩, bitS_sBit_add m hfits⟩
    cases m <;> simp only [encode, sBit, if_true, Bool.false_eq_true, if_false] <;> omega
  · obtain ⟨hwf, hword, henc⟩ := decodeWord_eq_ok_iff.mp h
    exact ⟨hwf, hword, by rw [encode, henc, sBit_bitS_add hw]⟩

/-- Settles O57: the decoder evaluated on the spec's own words. -/
theorem decodeWords : Obligations.DecodeWords := by
  unfold Obligations.DecodeWords
  exact ⟨rfl, rfl, rfl, rfl, rfl, rfl, rfl, rfl, rfl, rfl, rfl, rfl, rfl, rfl, rfl, rfl, rfl, rfl, rfl⟩

end Sys2Proof

/-! PROOFS. The return of a class V result (O21). -/

namespace Sys2Proof.Machine

/-! ### A result lands in its wave (R121, R122, R148) -/

theorem landShadow_region (w : Wave) (o : Outst) (p : PReg) :
    w.landShadow o p = { w with region := (w.landShadow o p).region } := by
  unfold Wave.landShadow
  repeat' split
  all_goals rfl

theorem read_of_not_has {w : Wave} {p : PReg} (h : w.has p = false) (l : Nat) : w.read p l = 0 := by
  obtain ⟨hidden, n⟩ := p
  simp only [Wave.has, Bool.or_eq_false_iff, decide_eq_false_iff_not] at h
  obtain ⟨rfl, hn⟩ := h
  simp [Wave.read, hn]

/-- The results still to come once `o` has returned. -/
def Wave.left (w : Wave) (o : Outst) : List Outst := (w.outst.filter fun x => x ≠ o).map (w.outrun o)

/-- The wave whose result `o` has returned but for its value, with the region's copies as `r` has them. -/
def Wave.beforeValue (w : Wave) (o : Outst) (r : Option Region) : Wave :=
  { w with outst := w.left o, fflags := w.fflags ||| o.flags, region := r }

/-- What a result's landing can do: it writes its register lane where it still belongs there, and else no register. -/
theorem land_cases (w : Wave) (o : Outst) :
    ∃ r, (w.land o = w.beforeValue o r ∧ ∀ p, ¬ (o.dst = some p ∧ o.toReg = true)) ∨
      ∃ p, o.dst = some p ∧ o.toReg = true ∧ w.land o = (w.beforeValue o r).write p o.lane o.val := by
  cases hd : o.dst with
  | none =>
    refine ⟨((w.beforeValue o w.region).landFlags o).region, .inl ⟨?_, by simp⟩⟩
    rw [Wave.land, hd]
    rfl
  | some p =>
    have hland : w.land o = let v := ({ w with outst := w.left o }.landFlags o).landShadow o p
        if o.toReg then v.write p o.lane o.val else v := by
      rw [Wave.land, hd]
      rfl
    rw [landShadow_region] at hland
    cases ht : o.toReg with
    | true => exact ⟨_, .inr ⟨p, rfl, rfl, by rw [hland, ht]; rfl⟩⟩
    | false => exact ⟨_, .inl ⟨by rw [hland, ht]; rfl, by simp⟩⟩

/-- All of a wave stays but register contents, results to come, flags and the region's copies; the result's register lane takes its
value. -/
theorem land_spec (w : Wave) (o : Outst) (ho : o.lane < 64) :
    w.land o = { w with
      regs := (w.land o).regs, hidden := (w.land o).hidden, fflags := w.fflags ||| o.flags, region := (w.land o).region
      outst := w.left o } ∧
    ∀ p l, l < 64 → (w.land o).read p l =
      if o.dst = some p ∧ o.lane = l ∧ o.toReg = true ∧ w.has p = true then o.val else w.read p l := by
  obtain ⟨r, ⟨h, hno⟩ | ⟨q, hd, ht, h⟩⟩ := land_cases w o
  · rw [h]
    refine ⟨rfl, fun p l _ => ?_⟩
    rw [if_neg fun hp => hno p ⟨hp.1, hp.2.2.1⟩]
    rfl
  · have hregs := regsOnly_write (w.beforeValue o r) q o.lane o.val
    have hout := outst_write (w.beforeValue o r) q o.lane o.val
    rw [← h] at hregs hout
    refine ⟨by rw [show w.land o = _ from hregs, hout]; rfl, fun p l hl => ?_⟩
    have hread : (w.beforeValue o r).read p l = w.read p l := rfl
    have hhas : (w.beforeValue o r).has q = w.has q := rfl
    rw [h, read_write _ _ _ _ _ _ ho hl, hread, hhas, hd, ht]
    by_cases hp : p = q ∧ l = o.lane
    · obtain ⟨rfl, rfl⟩ := hp
      cases hx : w.has p
      · simp [read_of_not_has hx]
      · simp
    · rw [if_neg hp, if_neg]
      rintro ⟨hq, hl, -⟩
      exact hp ⟨(Option.some.inj hq).symm, hl.symm⟩

/-- The last return lets a parked wave go on. -/
theorem returnOne_eq (w : Wave) (o : Outst) :
    w.returnOne o = { w.land o with parked := if (w.land o).outst = [] then false else (w.land o).parked } := by
  unfold Wave.returnOne
  dsimp only
  simp only [List.isEmpty_iff]
  split <;> rfl

/-- A result that no later instruction's has outrun stays as it is. -/
theorem mem_left {w : Wave} {o z : Outst} (hz : z ∈ w.outst) (hne : z ≠ o)
    (h : z.dst ≠ o.dst ∨ z.lane ≠ o.lane ∨ o.seq ≤ z.seq) : z ∈ w.left o := by
  refine List.mem_map.mpr ⟨z, List.mem_filter.mpr ⟨hz, by simpa using hne⟩, if_neg ?_⟩
  rintro ⟨hd, hl, hs⟩
  rcases h with h | h | h
  · exact h hd
  · exact h hl
  · omega

/-- With no region open, no earlier instruction's result is left for the register and lane of one that has returned. -/
theorem seq_le_of_mem_left {w : Wave} {o z : Outst} (hr : w.region = none) (hz : z ∈ w.left o) (ho : o.dst ≠ none)
    (hd : z.dst = o.dst) (hl : z.lane = o.lane) : o.seq ≤ z.seq := by
  obtain ⟨x, -, rfl⟩ := List.mem_map.mp hz
  have holder : w.older x = false := by simp [Wave.older, hr]
  unfold Wave.outrun at hd hl ⊢
  split at hd
  next hx =>
    simp only [holder, Bool.false_eq_true, false_and, if_false] at hd
    exact absurd hd.symm ho
  next hx =>
    rw [if_neg hx] at hl ⊢
    by_contra hlt
    exact hx ⟨hd, hl, by omega⟩

theorem result?_eq {s : State} {x y : Nat} {w : Wave} {o : Outst} (hw : s.waves.get? x = some w) (ho : w.outst[y]? = some o)
    (hr : o.ready = true) : s.result? x y = some o := by
  simp [State.result?, hw, ho, hr]

/-- Settles O21, by what a result that lands can do (`land_cases`). -/
theorem resultReturns : Obligations.ResultReturns := by
  unfold Obligations.ResultReturns
  intro s w o hw ho hr hlane
  obtain ⟨hland, hread⟩ := land_spec w o hlane
  have hout : (w.land o).outst = w.left o := by rw [hland]
  have hexec : exec .classVResult s = .next { s with waves := s.waves.put s.ev.x (w.returnOne o) } := by
    change execClassVResult s = _
    simp only [execClassVResult, result?_eq hw ho hr, State.updWave, Tbl.upd, hw]
  refine ⟨_, _, hexec, rfl, ?_, ?_, ?_, ?_, ?_, ?_⟩
  all_goals rw [returnOne_eq]
  · rw [hland]
  · exact hread
  · intro z hz hne h
    rw [hout]
    exact mem_left hz hne h
  · intro hreg z hz
    rw [hout] at hz
    exact seq_le_of_mem_left hreg hz
  · rw [hout, Wave.left, List.length_map]
  · rw [hland]

end Sys2Proof.Machine

/-! PROOFS. Branches, jumps, calls and returns, and the trap of a misaligned target (O12). -/

namespace Sys2Proof.Machine

open Spec

/-! ### The copies of R336 where an instruction names no destination -/

/-- The copies of R336 change the issuing wave alone. -/
theorem shadow_waveOnly {s : State} {c : Ctx} (hc : s.ctx = some c) (f : Form) : WaveOnly s (c.shadow f).s c.wid := by
  obtain ⟨hs, -⟩ := ctx_some hc
  obtain ⟨-, -, -, -, -, -, -, hwaves, hrest⟩ := shadow_spec c f
  rw [← hs]
  exact ⟨hrest, hwaves⟩

/-- Without a destination there is nothing to copy: the body sees the issuing wave as it is. -/
theorem shadow_noTargets {s : State} {c : Ctx} (hc : s.ctx = some c) {f : Form} (hf : f.dst = []) :
    (c.shadow f).w = c.w ∧ (c.shadow f).s.waves.get? c.wid = some c.w := by
  obtain ⟨hs, hwid, hget, -⟩ := ctx_some hc
  obtain ⟨hw, -, -, -, -, -, hput, -⟩ := shadow_spec c f
  have hnil : c.targets f = [] := by rw [Ctx.targets, hf]; rfl
  rw [hnil, shadowed_nil] at hw
  have hput := hput (by rw [hs, hwid]; exact hget)
  rw [hw] at hput
  exact ⟨hw, hput⟩

/-- An issue without a destination ends; `wB` is its wave with its effect. -/
theorem ends_of_wave {s sB : State} {c : Ctx} {f : Form} (hc : s.ctx = some c) {wB : Wave}
    (hB : WaveOnly (c.shadow f).s sB c.wid) (hw : sB.waves.get? c.wid = some wB) (hl : wB.live = c.w.live)
    (hp : wB.pcs = c.w.pcs) (next : Nat → PC) (back : Bool) :
    Ends s (sB.finish (fun l => some (next l)) back) c wB next := by
  obtain ⟨honly, hwave⟩ := go_spec hc ((shadow_waveOnly hc f).trans hB) hw hl hp next back
  exact ⟨honly, hwave⟩

/-- An issue without a destination and without an effect ends. -/
theorem ends_plain {s : State} {c : Ctx} {f : Form} (hc : s.ctx = some c) (hf : f.dst = []) (next : Nat → PC) (back : Bool) :
    Ends s ((c.shadow f).s.finish (fun l => some (next l)) back) c c.w next :=
  ends_of_wave hc (WaveOnly.refl _ _) (shadow_noTargets hc hf).2 rfl rfl next back

/-! ### Where a jump leads -/

/-- R168: the model's sum of PCs is the PC of the displaced address. -/
theorem target_eq_displaced (c : Ctx) (i : Int) : c.target i = displaced c i := by
  have h4 : (4 : PC) = BitVec.ofInt 57 4 := by decide
  have hpc : c.pc = BitVec.ofInt 57 c.pc.toNat := by rw [BitVec.ofInt_natCast, BitVec.ofNat_toNat, BitVec.setWidth_eq]
  rw [Ctx.target, displaced, BitVec.ofInt_add, BitVec.ofInt_add, ← hpc, h4]

theorem jumpTarget_eq_pairPc (c : Ctx) (a : Reg) (l : Nat) : c.jumpTarget a l = pairPc c a l := by
  rw [Ctx.jumpTarget, pairPc, BitVec.ofNat_toNat]

theorem misaligned_iff (p : PC) : misaligned p = true ↔ ¬ aligned p := by
  simp [misaligned, aligned]

theorem misaligned_eq_false {p : PC} (h : aligned p) : misaligned p = false :=
  Bool.eq_false_iff.2 fun hm => (misaligned_iff p).1 hm h

namespace RegionOnly

variable {c c' : Ctx} (h : RegionOnly c c')

include h

theorem target (i : Int) : c'.target i = c.target i := by rw [Ctx.target, h.pc]; rfl

theorem pc4 : c'.pc4 = c.pc4 := by rw [Ctx.pc4, h.pc]; rfl

theorem jumpTarget (a : Reg) : c'.jumpTarget a = c.jumpTarget a := by
  funext l
  rw [Ctx.jumpTarget, h.regW]
  rfl

theorem first : c'.first = c.first := by rw [Ctx.first, h.cnt]; rfl

theorem link : c'.link = c.link := by rw [Ctx.link, h.pc4]; rfl

end RegionOnly

/-- The lanes that branch, by what the form's own context reads. -/
theorem branch_next {c c' : Ctx} (h : RegionOnly c c') (i : Int) (t : Nat → Bool) (s : State) :
    ∃ back, c'.branch i t s = .jump s (fun l => some (if t l then displaced c i else c.pc + 4)) back := by
  refine ⟨decide ((c'.target i).toNat ≤ c'.pc.toNat) && (lanesOf c'.set).any t, ?_⟩
  unfold Ctx.branch
  rw [h.target, h.pc4, target_eq_displaced]
  rfl

/-! ### Instructions without a result -/

section

variable {s : State} {c : Ctx}

/-- R168: a branch, whichever lanes take it. -/
theorem ends_branch {f : Form} {ins : Instr} {i : Int} {t : Ctx → Nat → Bool} (hf : f = s.formOf ins) (hd : f.dst = [])
    (hr : Ready s ins c) :
    ∃ u, issue f (fun c => c.branch i (t c) c.s) s = .next u ∧
      Ends s u c c.w fun l => if t (c.shadow f) l then displaced c i else c.pc + 4 := by
  obtain ⟨back, hb⟩ := branch_next (shadow_regionOnly c f) i (t (c.shadow f)) (c.shadow f).s
  refine ⟨_, issue_ready f _ hr.ctx (hf ▸ hr.checks) (hf ▸ hr.room), ?_⟩
  rw [hb]
  exact ends_plain hr.ctx hd _ back

theorem ends_bra {i : Int} (hr : Ready s (.bra i) c) :
    ∃ t, exec (.bra i) s = .next t ∧ Ends s t c c.w fun _ => displaced c i :=
  ends_branch (t := fun _ _ => true) rfl rfl hr

theorem ends_bz {a : Reg} {i : Int} (hr : Ready s (.bz a i) c) :
    ∃ t, exec (.bz a i) s = .next t ∧ Ends s t c c.w fun l => if c.reg a l = 0 then displaced c i else c.pc + 4 := by
  have h := ends_branch (i := i) (t := fun c l => c.reg a l == 0) rfl rfl hr
  simp only [(shadow_regionOnly c _).reg, beq_iff_eq] at h
  exact h

theorem ends_bnz {a : Reg} {i : Int} (hr : Ready s (.bnz a i) c) :
    ∃ t, exec (.bnz a i) s = .next t ∧ Ends s t c c.w fun l => if c.reg a l ≠ 0 then displaced c i else c.pc + 4 := by
  have h := ends_branch (i := i) (t := fun c l => c.reg a l != 0) rfl rfl hr
  simp only [(shadow_regionOnly c _).reg, bne_iff_ne] at h
  exact h

theorem ends_nop (hr : Ready s .nop c) : ∃ t, exec .nop s = .next t ∧ Ends s t c c.w fun _ => c.pc + 4 :=
  ⟨_, (show exec .nop s = execNop s from rfl).trans (issue_ready {} _ hr.ctx hr.checks hr.room), ends_plain (f := {}) hr.ctx rfl _ _⟩

theorem ends_commit (hr : Ready s .commit c) (hn : c.w.region = none) :
    ∃ t, exec .commit s = .next t ∧ Ends s t c c.w fun _ => c.pc + 4 := by
  refine ⟨_, (show exec .commit s = execCommit s from rfl).trans (issue_ready {} _ hr.ctx hr.checks hr.room), ?_⟩
  have hw : (c.shadow {}).w.region = none := by rw [(shadow_noTargets hr.ctx rfl).1, hn]
  simp only [hw]
  exact ends_plain (f := {}) hr.ctx rfl _ _

/-- R176: the clock value from which the wave may be ready again. -/
theorem ends_sleep {k : Nat} (hr : Ready s (.sleep k) c) :
    ∃ t, exec (.sleep k) s = .next t ∧ Ends s t c
      { c.w with sleep := some (c.s.clock.toNat + (8 + k % 8) * 2 ^ (k / 8) * 8), slept := some (c.pc, c.set) }
      fun _ => c.pc + 4 := by
  refine ⟨_, (show exec (.sleep k) s = execSleep k s from rfl).trans (issue_ready {} _ hr.ctx hr.checks hr.room), ?_⟩
  obtain ⟨-, hwid, -, hset, hpc, hs⟩ := shadow_regionOnly c {}
  have hclock : (c.shadow {}).s.clock = c.s.clock := by rw [hs]
  refine ends_of_wave (f := {}) hr.ctx (wB := { c.w with
    sleep := some (c.s.clock.toNat + (8 + k % 8) * 2 ^ (k / 8) * 8), slept := some (c.pc, c.set) })
    (hwid ▸ WaveOnly.upd _ _ _) ?_ rfl rfl (fun _ => c.pc + 4) false
  rw [hclock, hset, hpc, hwid]
  exact (Tbl.get?_upd_self _ _ _).trans (congrArg _ (shadow_noTargets (f := {}) hr.ctx rfl).2)

/-- Two steps of a machine that change one wave and the counters of cores. -/
theorem OnlyWave.trans {a b d : State} {wid : Nat} (h : OnlyWave a b wid) (k : OnlyWave b d wid) : OnlyWave a d wid where
  rest := by rw [k.rest, h.rest]
  waves j hj := (k.waves j hj).trans (h.waves j hj)
  cores j := by rw [k.cores j, h.cores j]
  bytes sp key x := (k.bytes sp key x).trans (h.bytes sp key x)

theorem BooksOnly.trans {a b d : Wave} (h : BooksOnly a b) (k : BooksOnly b d) : BooksOnly a d := by
  unfold BooksOnly at *
  rw [k, h]

/-- R113, R114: a sweep that starts changes the books of its wave and counts. -/
theorem startSweep_spec (s : State) (wid : Nat) (p : PC) (had : Mask) {w : Wave} (hw : s.waves.get? wid = some w) :
    OnlyWave s (s.startSweep wid p had) wid ∧
      (s.startSweep wid p had).waves.get? wid = some { w with sweep := some ⟨p.toNat, had, 0, 0⟩ } := by
  unfold State.startSweep
  rw [hw]
  refine ⟨⟨rfl, fun k hk => Tbl.get?_put_ne _ hk _, fun k => core_count (s.setWave wid _) _ 4 k, ?_⟩, Tbl.get?_put_self _ _ _⟩
  exact SameStore.bytes ⟨rfl, rfl, rfl, rfl, rfl, rfl, rfl, rfl, rfl, rfl, rfl⟩

/-- An issue that ends and then starts a sweep has ended. -/
theorem Ends.startSweep {sB t : State} {wB : Wave} {next : Nat → PC} (h : Ends sB t c wB next) (p : PC) (had : Mask) :
    Ends sB (t.startSweep c.wid p had) c wB next := by
  obtain ⟨honly, w', hw', hbooks, hmoved⟩ := h
  obtain ⟨hs, hget⟩ := startSweep_spec t c.wid p had hw'
  refine ⟨honly.trans hs, _, hget, ?_, hmoved.set, hmoved.others⟩
  unfold BooksOnly at hbooks ⊢
  rw [hbooks]

theorem ends_yield (hr : Ready s .yield c) : ∃ t, exec .yield s = .next t ∧ Ends s t c c.w fun _ => c.pc + 4 := by
  refine ⟨_, (show exec .yield s = execYield s from rfl).trans (issue_ready {} _ hr.ctx hr.checks hr.room), ?_⟩
  have hwid := (shadow_regionOnly c {}).wid
  have hpc4 := (shadow_regionOnly c {}).pc4
  have hend := ends_plain (f := {}) hr.ctx rfl fun _ => c.pc4
  by_cases hsweep : (c.shadow {}).w.sweep.isSome = true
  · simp only [hsweep, if_true, hpc4]
    exact hend true
  · by_cases hdiv : (c.shadow {}).w.divided = true
    · simp only [hsweep, hdiv, if_true, hpc4, hwid]
      exact (hend false).startSweep _ _
    · simp only [hsweep, hdiv]
      exact hend false

end

/-! ### Jumps through a pair -/

section

variable {s : State} {c : Ctx}

/-- The form of a jump (R170). -/
def jumpForm (d : Option Reg) (a : Reg) : Form := { dst := (d.map fun r => (r, 2)).toList, src := [(a, 2)] }

/-- The link a jump writes in a lane (R170). -/
def jumpLink (c : Ctx) (a : Reg) (l : Nat) : LaneOut := if misaligned (pairPc c a l) then ⟨[], {}⟩ else c.link

/-- R170: with every counted lane's target a multiple of 4, a jump writes its link and goes. -/
theorem jumpOp_aligned {d : Option Reg} {a : Reg} (hc : s.ctx = some c) (hk : c.check (jumpForm d a) = none)
    (hr : c.w.shadowRoom (c.targets (jumpForm d a)) = true) (hal : ∀ l, hasLane c.cnt l = true → aligned (pairPc c a l)) :
    ∃ back, jumpOp d a s = .next
      ((match d with
        | some r => (c.shadow (jumpForm d a)).writeF r 2 (jumpLink c a) (c.shadow (jumpForm d a)).s
        | none => (c.shadow (jumpForm d a)).s).finish (fun l => some (jumpNext c a l)) back) := by
  have hR := shadow_regionOnly c (jumpForm d a)
  have hany : ((lanesOf c.cnt).any fun l => misaligned (pairPc c a l)) = false := by
    rw [List.any_eq_false]
    intro l hl
    simp [misaligned_eq_false (hal l ((mem_lanesOf _ _).1 hl))]
  have hnext : (fun l => some (if misaligned (pairPc c a l) then c.pc4 else pairPc c a l)) = fun l => some (jumpNext c a l) := by
    funext l
    by_cases h : aligned (pairPc c a l)
    · rw [misaligned_eq_false h, jumpNext]
      exact congrArg some (if_pos h).symm
    · rw [(misaligned_iff _).2 h, jumpNext]
      exact congrArg some (if_neg h).symm
  have hjump : c.jumpTarget a = pairPc c a := funext (jumpTarget_eq_pairPc c a)
  refine ⟨(lanesOf c.set).any fun l => !misaligned (pairPc c a l) && decide ((pairPc c a l).toNat ≤ c.pc.toNat),
    (issue_ready (jumpForm d a) _ hc hk hr).trans (congrArg Host.Outcome.next ?_)⟩
  simp only [hR.jumpTarget, hR.cnt, hR.link, hR.pc4, hR.pc, hR.set, hjump, hany, hnext]
  rfl

/-- R90, R170: a counted lane's misaligned target traps, with the lowest counted lane's target. -/
theorem jumpOp_misaligned {d : Option Reg} {a : Reg} {l : Nat} (hc : s.ctx = some c) (hk : c.check (jumpForm d a) = none)
    (hr : c.w.shadowRoom (c.targets (jumpForm d a)) = true) (hl : hasLane c.cnt l = true) (hm : ¬ aligned (pairPc c a l)) :
    jumpOp d a s = .next
      (s.raise c.wid ⟨.misaligned, c.cnt, 0, BitVec.ofNat 64 (pairPc c a c.first).toNat, none⟩ c.set c.pc c.word) := by
  have hR := shadow_regionOnly c (jumpForm d a)
  obtain ⟨hs, -⟩ := ctx_some hc
  have hjump : c.jumpTarget a = pairPc c a := funext (jumpTarget_eq_pairPc c a)
  have hany : ((lanesOf c.cnt).any fun l => misaligned (pairPc c a l)) = true :=
    List.any_eq_true.2 ⟨l, (mem_lanesOf _ _).2 hl, (misaligned_iff _).2 hm⟩
  have hcnt : c.onlyHelpers = false := by
    refine Bool.eq_false_iff.2 fun h => ?_
    rw [Ctx.onlyHelpers, beq_iff_eq] at h
    rw [h] at hl
    exact absurd hl (by simp [hasLane])
  refine (issue_ready (jumpForm d a) _ hc hk hr).trans (congrArg Host.Outcome.next ?_)
  simp only [hR.jumpTarget, hR.cnt, hR.first, hjump, hany, if_true]
  simp only [Ctx.settle, hcnt, Ctx.trapOf, hs, hR.cnt, BitVec.ofNat_toNat]
  rfl

/-- JMP and RET. -/
theorem ends_jump {a : Reg} (hc : s.ctx = some c) (hk : c.check (jumpForm none a) = none)
    (hr : c.w.shadowRoom (c.targets (jumpForm none a)) = true) (hal : ∀ l, hasLane c.cnt l = true → aligned (pairPc c a l)) :
    ∃ t, jumpOp none a s = .next t ∧ Ends s t c c.w (jumpNext c a) := by
  obtain ⟨back, h⟩ := jumpOp_aligned hc hk hr hal
  exact ⟨_, h, ends_plain hc rfl _ back⟩

/-! ### Links -/

theorem wide_word (x : DWord) (i : Nat) : (wide x).word i = pairWord x i := by
  match i with
  | 0 => apply BitVec.eq_of_toNat_eq; simp [wide, LaneOut.word, pairWord, loWord]
  | 1 => apply BitVec.eq_of_toNat_eq; simp [wide, LaneOut.word, pairWord, hiWord, Nat.shiftRight_eq_div_pow]
  | i + 2 =>
    have hlt : x.toNat / 2 ^ (32 * (i + 2)) = 0 :=
      Nat.div_eq_of_lt (x.isLt.trans_le (Nat.pow_le_pow_right (by decide) (by omega)))
    rw [pairWord, hlt]
    rfl

/-- Results without flags raise none. -/
theorem flagsOf_none (c : Ctx) (out : Nat → LaneOut) (h : ∀ l, (out l).flags = {}) : c.flagsOf out = 0 := by
  have hw : ({} : FpFlags).word = 0 := by decide
  unfold Ctx.flagsOf
  induction lanesOf c.cnt with
  | nil => rfl
  | cons l ls ih =>
    rw [List.foldl_cons, h l, hw]
    exact ih

/-- A link written and the lanes gone, in the statement's words. -/
theorem writesF_link {f : Form} {d : Reg} {out : Nat → LaneOut} {val : Nat → Nat → Word} (hc : s.ctx = some c)
    (hf : f.dst = [(d, 2)]) (hflags : ∀ l, (out l).flags = {}) (hval : ∀ l i, (out l).word i = val l i) (next : Nat → PC)
    (back : Bool) :
    WritesF s (((c.shadow f).writeF d 2 out (c.shadow f).s).finish (fun l => some (next l)) back) c d 2 val c.w.fflags
      c.w.srseed next := by
  obtain ⟨hs, hwid, hget, -⟩ := ctx_some hc
  obtain ⟨hw, -, -, -, -, -, hput, -⟩ := shadow_spec c f
  have hseed : (c.shadow f).w = { (c.shadow f).w with srseed := c.w.srseed } := by rw [hw]
  have h := writeF_go hc f d 2 hf out (c.shadow f).s c.w.srseed next back (WaveOnly.refl _ _)
    ((hput (by rw [hs, hwid]; exact hget)).trans (congrArg some hseed))
  have hz : c.w.fflags ||| c.flagsOf out = c.w.fflags := by rw [flagsOf_none c out hflags]; exact BitVec.or_zero
  rw [hz, funext fun l => funext (hval l)] at h
  exact h

theorem writesF_call {d : Reg} {i : Int} (hr : Ready s (.call d i) c) : ∃ t, exec (.call d i) s = .next t ∧
    WritesF s t c d 2 (fun _ k => pairWord ((c.pc + 4).setWidth 64) k) c.w.fflags c.w.srseed fun _ => displaced c i := by
  have hR := shadow_regionOnly c { dst := [(d, 2)] }
  obtain ⟨back, hb⟩ := branch_next hR i (fun _ => true)
    ((c.shadow { dst := [(d, 2)] }).writeF d 2 (fun _ => c.link) (c.shadow { dst := [(d, 2)] }).s)
  refine ⟨_, (show exec (.call d i) s = execCall d i s from rfl).trans
    (issue_ready { dst := [(d, 2)] } _ hr.ctx hr.checks hr.room), ?_⟩
  simp only [hR.link, hb]
  exact writesF_link hr.ctx rfl (fun _ => rfl) (fun _ => wide_word _) _ back

theorem writesF_jcall {d a : Reg} (hr : Ready s (.jcall d a) c) (hal : ∀ l, hasLane c.cnt l = true → aligned (pairPc c a l)) :
    ∃ t, exec (.jcall d a) s = .next t ∧
      WritesF s t c d 2 (fun l k => if (pairPc c a l).toNat % 4 = 0 then pairWord ((c.pc + 4).setWidth 64) k else 0)
        c.w.fflags c.w.srseed (jumpNext c a) := by
  obtain ⟨back, h⟩ := jumpOp_aligned (d := some d) hr.ctx hr.checks hr.room hal
  refine ⟨_, h, writesF_link hr.ctx rfl (fun l => ?_) (fun l k => ?_) _ back⟩
  · unfold jumpLink
    split <;> rfl
  · by_cases hl : aligned (pairPc c a l)
    · rw [jumpLink, misaligned_eq_false hl]
      exact (wide_word _ _).trans (if_pos hl).symm
    · rw [jumpLink, (misaligned_iff _).2 hl]
      exact (if_neg hl).symm

end

theorem controlEffects : controlEffectsHold := by
  intro s i c o ho hr hlegal
  cases i with
  | bra i => cases ho; exact ends_bra hr
  | bz a i => cases ho; exact ends_bz hr
  | bnz a i => cases ho; exact ends_bnz hr
  | jmp a => cases ho; exact ends_jump hr.ctx hr.checks hr.room hlegal
  | ret a => cases ho; exact ends_jump hr.ctx hr.checks hr.room hlegal
  | nop => cases ho; exact ends_nop hr
  | yield => cases ho; exact ends_yield hr
  | commit => cases ho; exact ends_commit hr hlegal
  | sleep k => cases ho; exact ends_sleep hr
  | _ => cases ho

theorem misalignedTarget : misalignedTargetHold := by
  intro s i c a l hp hr hl hm
  cases i with
  | jmp a => cases hp; exact jumpOp_misaligned (d := none) hr.ctx hr.checks hr.room hl hm
  | ret a => cases hp; exact jumpOp_misaligned (d := none) hr.ctx hr.checks hr.room hl hm
  | jcall d a => cases hp; exact jumpOp_misaligned (d := some d) hr.ctx hr.checks hr.room hl hm
  | _ => cases hp

/-- Settles O12: an issue without results ends with the wave as it was, a link is a class F write, and a misaligned
target raises its trap before either. -/
theorem controlFlow : Obligations.ControlFlow :=
  ⟨controlEffects, ⟨fun _ _ _ _ => writesF_call, fun _ _ _ _ => writesF_jcall⟩, misalignedTarget⟩

end Sys2Proof.Machine

/-! PROOFS. The checks of an instruction word, before anything it does (O14). -/

namespace Sys2Proof.Machine

open Spec

/-! ### An instruction word that fails the checks 3 to 5 -/

/-- What an issue that fails a check leaves (R107, R108). -/
def Ctx.rejected (c : Ctx) (x : TrapInfo) : State :=
  if c.onlyHelpers then c.s.finish (toPc c.pc4) else c.s.raise c.wid x c.set c.pc c.word

/-- The checks 3 to 5 of a form, before the rest of an execution. -/
def checkedFirst (f : Form) (rest : Ctx → Out) (s : State) : Out :=
  match s.ctx with
  | none => .refused .noIssuingWave
  | some c =>
    match c.check f with
    | some x => .next (if c.onlyHelpers then s.finish (toPc c.pc4) else s.raise c.wid x c.set c.pc c.word)
    | none => rest c

/-- Every issue makes the checks of its form first. -/
theorem issue_eq_checkedFirst (f : Form) (body : Ctx → Res) (s : State) : issue f body s = checkedFirst f
    (fun c => if c.w.shadowRoom (c.targets f) then .next (c.settle f (body (c.shadow f))) else .next s.wait) s := by
  unfold issue checkedFirst
  rfl

theorem checkedFirst_rejects {s : State} {c : Ctx} {f : Form} {x : TrapInfo} {rest : Ctx → Out} (hc : s.ctx = some c)
    (hk : c.check f = some x) : checkedFirst f rest s = .next (c.rejected x) := by
  rw [checkedFirst, hc]
  simp only [hk]
  rw [Ctx.rejected, (ctx_some hc).1]

/-- The instruction makes the checks of its units, field and level before anything else. -/
def ChecksFirst (s : State) (i : Instr) : Prop := ∃ rest, exec i s = checkedFirst (s.formOf i) rest s

/-- LDLIT has no field check beyond its word (R101). -/
theorem ldlit_checksFirst (d : Reg) (k : Int) {s : State} {c : Ctx} (hc : s.ctx = some c) : ChecksFirst s (.ldlit d k) := by
  have hform : ∀ bad, bad = false → ({ dst := [(d, 1)], illegal := bad } : Form) = s.formOf (.ldlit d k) := fun _ h => by
    rw [h]
    rfl
  unfold ChecksFirst
  rw [show exec (.ldlit d k) s = loadLiteral d k 1 s from rfl, loadLiteral, hform _ (by rw [hc]; rfl)]
  exact ⟨_, issue_eq_checkedFirst _ _ _⟩

/-- REGCLM names no register and needs no level: no check of it fails. -/
theorem regclm_checksFirst (k : Nat) {s : State} {c : Ctx} (hc : s.ctx = some c) : ChecksFirst s (.regclm k) := by
  have hk : c.check (s.formOf (.regclm k)) = none := by
    change c.check {} = none
    simp [Ctx.check]
  refine ⟨fun _ => exec (.regclm k) s, ?_⟩
  rw [checkedFirst, hc]
  simp only [hk]

/-- R106 to R108: every instruction word, those two by their own forms, makes its checks first. -/
theorem word_checksFirst {s : State} {i : Instr} {c : Ctx} (hword : i.isWord = true) (hc : s.ctx = some c) :
    ChecksFirst s i := by
  cases i with
  | takeRecords | queueEnable | queueReset | imageCheck | placeGang | colaunchPlace | drainStart | drainDeadline |
    restoreGang | clusterOwnerChange | waveRetire | teamRetire | launchComplete | launchDiscard | launchKill |
    ownerCreate | ownerDestroy | setKeys | dbtagWrite | faultdoneWrite | hdmcfgWrite | biasbaseWrite | registerWrite |
    storeEntrySend | invalidation | storeEntryAck | atomicPerform | classVResult | regionCommit | cautiousModeEnd |
    starvationSweep | trapEntry | teamPark | faultPost | engineCommandRelease | engineCommandComplete |
    arraySlotStart | bankSettle | abclaimGrant | regclmGrant | sleepEnd | coreGate | coreWake | coreResume |
    powerThrottle | railExcursion | moduleReset | deviceIdWrite | firmwareUpdate | attestationRequest | mrExtend |
    debugUnlock | hkPwrlimWrite | hkEccClear | memoryError | memoryScrub | arrayFault | linkRetry | linkDown |
    fabricRequest | fabricResend | fabricUnreachable | leaseRequest | leaseRecall | leaseBlock | hostSnoop |
    hostHdmAccess | keyFetch | illegalInstruction | instructionFetchFault | elementAccessPerformed | leaseBlockClear =>
    cases hword
  | ldlit d k => exact ldlit_checksFirst d k hc
  | regclm k => exact regclm_checksFirst k hc
  | _ => exact ⟨_, rfl⟩

/-- An instruction word that fails a check is rejected. -/
theorem word_rejected {s : State} {i : Instr} {c : Ctx} {x : TrapInfo} (hword : i.isWord = true) (hc : s.ctx = some c)
    (hk : c.check (s.formOf i) = some x) : exec i s = .next (c.rejected x) := by
  obtain ⟨rest, h⟩ := word_checksFirst hword hc
  exact h.trans (checkedFirst_rejects hc hk)

/-- A set that is rejected ends at its next word, or traps. -/
theorem word_checks {s : State} {i : Instr} {c : Ctx} {x : TrapInfo} (hword : i.isWord = true) (hc : s.ctx = some c)
    (hk : c.check (s.formOf i) = some x) :
    (c.cnt ≠ 0 → exec i s = .next (s.raise c.wid x c.set c.pc c.word)) ∧
    (c.cnt = 0 → ∃ t, exec i s = .next t ∧ Ends s t c c.w fun _ => c.pc + 4) := by
  obtain ⟨hs, hwid, hget, -⟩ := ctx_some hc
  have h := word_rejected hword hc hk
  unfold Ctx.rejected Ctx.onlyHelpers at h
  refine ⟨fun hn => ?_, fun hz => ?_⟩
  · rw [h, if_neg (by simpa using hn), hs]
  · rw [if_pos (by simpa using hz), hs] at h
    obtain ⟨honly, hwave⟩ := go_spec hc (WaveOnly.refl s c.wid) (by rw [hwid]; exact hget) rfl rfl (fun _ => c.pc + 4) false
    exact ⟨_, h, honly, hwave⟩

/-! ### What the checks find at U -/

/-- The instructions of R104, R131, R412 and R415 that no U wave may execute. -/
def needsLevel : Instr → Bool
  | .tret _ | .tlbinv _ _ _ | .icinv _ | .csrrd _ _ | .csrwr _ _ | .perfrd _ _ | .halt => true
  | .sread _ k => decide (20 ≤ k)
  | _ => false

section

variable {s : State} {c : Ctx} (hc : s.ctx = some c) (hu : c.w.level = .u)

include hc hu

theorem atS_of_u : s.atS = false := by
  rw [State.atS, hc]
  simp [hu]

theorem barred_of_u (onlyM : Bool) : s.barred onlyM = true := by
  rw [State.barred, hc]
  simp [hu]

theorem barredLevel_of_u (i : Instr) : s.barredLevel i = needsLevel i := by
  cases i with
  | sread d k => simp [State.barredLevel, needsLevel, atS_of_u hc hu]
  | tret k => simp [State.barredLevel, needsLevel, atS_of_u hc hu]
  | tlbinv d a k => exact barred_of_u hc hu _
  | icinv k => exact barred_of_u hc hu _
  | csrrd d k => exact barred_of_u hc hu _
  | csrwr a k => simp [State.barredLevel, needsLevel, barred_of_u hc hu]
  | perfrd d k => exact barred_of_u hc hu _
  | halt => exact barred_of_u hc hu _
  | _ => rfl

/-- No instruction that a U wave may not execute has a field check beyond its word. -/
theorem barredField_of_needsLevel {i : Instr} (h : needsLevel i = true) : s.barredField i = false := by
  cases i with
  | exit => exact atS_of_u hc hu
  | ldlitW d k => cases h
  | _ => rfl

end

/-- At U, a form that is not illegal fails by its level, or by the first unit past the allocation. -/
theorem check_of_u {c : Ctx} (hu : c.w.level = .u) {f : Form} (hi : f.illegal = false) : c.check f =
    if f.priv then some (c.trapOf .privileged)
    else ((f.dst ++ f.src).filter c.past).head?.map fun e => c.trapOf .window (BitVec.ofNat 32 (fieldOf e.1)) := by
  unfold Ctx.check
  simp only [hu, hi, reduceCtorEq, false_and, if_false, Bool.false_eq_true, List.head?_filter]
  cases (f.dst ++ f.src).find? c.past <;> rfl

/-- Whether a unit reaches past the allocation from the window base (R97), as the statement writes it. -/
def pastAllocation (c : Ctx) (e : Reg × Nat) : Bool :=
  match e.1 with
  | .v n => decide (c.w.alloc < c.w.base + n + e.2)
  | .q _ => false

theorem past_eq_pastAllocation (c : Ctx) : c.past = pastAllocation c := by
  funext ⟨r, u⟩
  cases r with
  | v n => exact decide_eq_decide.2 (by dsimp only; omega)
  | q n => rfl

/-- The check of an instruction at U whose field check passes. -/
theorem check_formOf_of_u {s : State} {c : Ctx} (hc : s.ctx = some c) (hu : c.w.level = .u) {i : Instr}
    (hi : s.barredField i = false) : c.check (s.formOf i) =
    if needsLevel i then some (c.trapOf .privileged)
    else (((unitsOf i).1 ++ (unitsOf i).2).filter (pastAllocation c)).head?.map
      fun e => c.trapOf .window (BitVec.ofNat 32 (fieldOf e.1)) := by
  rw [check_of_u hu hi, past_eq_pastAllocation, ← barredLevel_of_u hc hu]
  rfl

/-- Settles O14: an issue makes its form's checks first, and at U the form fails by level or by its first unit past the
allocation. -/
theorem decodeChecks : Obligations.DecodeChecks := by
  refine ⟨fun s i c x hword _ hc hk => word_checks hword hc hk, fun s i c _ hc hu => ?_⟩
  refine ⟨fun hp => ?_, fun hp hf n u rest hpast => ?_, fun hp hf hpast => ?_⟩
  · rw [check_formOf_of_u hc hu (barredField_of_needsLevel hc hu hp)]
    exact if_pos hp
  · have hfilter : List.filter (pastAllocation c) ((unitsOf i).1 ++ (unitsOf i).2) = (.v n, u) :: rest := hpast
    rw [check_formOf_of_u hc hu hf, hfilter]
    exact if_neg (Bool.eq_false_iff.1 hp)
  · have hfilter : List.filter (pastAllocation c) ((unitsOf i).1 ++ (unitsOf i).2) = [] := hpast
    rw [check_formOf_of_u hc hu hf, hfilter]
    exact if_neg (Bool.eq_false_iff.1 hp)

end Sys2Proof.Machine

/-! PROOFS. Queue registers as operands (O9). A table of teams with falling keys refutes the statement: it writes the issuing team back
even where nothing is popped, and `Tbl.put` lists a team of such a table anew, at the front, where an instruction that only pushes leaves
the table as it was. Of the machine's own states none has such a table; the statement lacks the hypothesis. -/

namespace Sys2Proof.Machine

open Spec

/-- The program's team with q1 bound to an empty channel of eight slots, wave 0 its producer. -/
def pushingTeam : Team :=
  { Team.start programLaunch 0 0 0 0 programShape with queues := [(1, ⟨false, 1, 3, 0, [], [], []⟩)] }

/-- The program's wave. -/
def pushingWave : Wave := Wave.start programShape 0 0 0 0 0

/-- Lane 0 of that wave issues, and the table of teams lists a team 1 before the wave's team 0. -/
def misorderedTeams : State :=
  { State.reset.withTeam 0 0 with
    waves := [(0, pushingWave)]
    teams := [(1, pushingTeam), (0, pushingTeam)]
    cur := ⟨0, 1, BitVec.ofNat 57 programPc, 0⟩ }

/-- The context of that issue. -/
def pushingCtx : Ctx := ⟨misorderedTeams, 0, pushingWave, pushingTeam, 1, BitVec.ofNat 57 programPc, 0⟩

/-- ADDI q1, v4, 1: it pushes and pops nothing. -/
def pushOnly : Instr := .addi (.q 1) (.v 4) 1

theorem pushOnly_ready : Ready misorderedTeams pushOnly pushingCtx where
  wf := by decide
  ctx := rfl
  checks := by decide
  room := by decide

theorem pushOnly_queue : ¬ windowOnly pushOnly := fun h => absurd (h (.q 1, 1) List.mem_cons_self) (by decide)

/-- Lane 0 is the one counted lane. -/
theorem pushingCtx_lane {l : Nat} (h : hasLane pushingCtx.cnt l = true) : l = 0 := by
  have hone : pushingCtx.cnt = 1#64 := by decide
  simpa [hasLane, hone, BitVec.getLsbD_one] using h

theorem pushingCtx_canPush (q : Nat) (h : Reg.q 1 = .q q) : canPush pushingCtx q := by
  obtain rfl := Reg.q.inj h
  refine ⟨⟨false, 1, 3, 0, [], [], []⟩, rfl, rfl, by decide, fun l hl => ?_⟩
  obtain rfl := pushingCtx_lane hl
  decide

/-- The push leaves the two entries of the table of teams. -/
theorem pushOnly_teams : (match exec pushOnly misorderedTeams with
    | .next t => t.teams.length
    | _ => 0) = 2 := by decide +kernel

/-- Refutes O9: from `misorderedTeams` the statement asks for a third entry in the table of teams after `pushOnly`, which leaves two. -/
theorem not_queueOperands : ¬ Obligations.QueueOperands := by
  unfold Obligations.QueueOperands
  intro h
  obtain ⟨t, hexec, -, _, -, -, -, hends⟩ := h.1 misorderedTeams pushOnly pushingCtx _ rfl pushOnly_ready pushOnly_queue trivial
    (fun q hq => nomatch hq) (fun hne => absurd rfl hne) pushingCtx_canPush
  have hthree : t.teams.length = 3 := by
    rw [hends.only.rest]
    rfl
  have htwo := pushOnly_teams
  rw [hexec] at htwo
  exact absurd (hthree.symm.trans htwo) (by decide)

end Sys2Proof.Machine

/-! PROOFS. Issues that leave class V results outstanding: what they leave, and the uniform operands of the collectives. -/

namespace Sys2Proof.Machine

open Spec

/-! ### Results that go outstanding (R120, R121) -/

/-- Results count only in the lanes of the mask and the words of the unit. -/
theorem results_eq_of_lanes {c : Ctx} {m : Mask} {d : Reg} {u : Nat} {val val' : Nat → Nat → Word} {flags flags' : Nat → Word}
    (seq : Nat) (ready : Bool) (hval : ∀ l k, hasLane m l = true → k < u → val l k = val' l k)
    (hflags : ∀ l, hasLane m l = true → flags l = flags' l) :
    c.results seq m d u val flags ready = c.results seq m d u val' flags' ready := by
  refine List.flatMap_congr fun l hl => List.ext_getElem (by simp) fun i h1 _ => ?_
  have hm := (mem_lanesOf m l).mp hl
  have hi : i < u := by
    rw [List.length_mapIdx] at h1
    exact h1.trans_le (length_unit_le c d u)
  simp only [List.getElem_mapIdx, hval l i hm hi, hflags l hm]

/-- An issue whose body leaves results outstanding in the lanes of a mask ends; `wA` is its wave before they do, `wB` with them. -/
theorem ends_oweLanes {s sA : State} {c : Ctx} {f : Form} {wA wB : Wave} (hc : s.ctx = some c)
    (hA : WaveOnly (c.shadow f).s sA c.wid) (hw : sA.waves.get? c.wid = some wA) {m : Mask} {d : Reg} {u : Nat} {out : Nat → LaneOut}
    (hB : wB = { wA with
      outst := wA.outst ++ c.results s.seq m d u (fun l k => (out l).word k) (fun l => (out l).flags.word) true })
    (hl : wB.live = c.w.live) (hp : wB.pcs = c.w.pcs) :
    Ends s (c.settle f (.go ((c.shadow f).oweLanes m d u out sA))) c wB fun _ => c.pc + 4 := by
  have hR := shadow_regionOnly c f
  have hseq : (c.shadow f).s.seq = s.seq := by rw [hR.s, (ctx_some hc).1]
  have howed : (c.shadow f).owed m d u out true =
      c.results s.seq m d u (fun l k => (out l).word k) (fun l => (out l).flags.word) true := by
    rw [← results_congr hR, ← hseq]
    rfl
  have hget : ((c.shadow f).oweLanes m d u out sA).waves.get? c.wid = some wB := by
    rw [Ctx.oweLanes, howed, hR.wid, hB]
    exact (Tbl.get?_upd_self _ _ _).trans (by rw [hw]; rfl)
  exact ends_of_wave hc (hA.trans (by rw [Ctx.oweLanes, hR.wid]; exact WaveOnly.upd _ _ _)) hget hl hp _ _

/-- An issue's body sees the issuing wave with the copies of R336 made. -/
theorem shadow_wave {s : State} {c : Ctx} (hc : s.ctx = some c) (f : Form) :
    (c.shadow f).s.waves.get? c.wid = some (c.w.shadowed (c.targets f)) := by
  obtain ⟨hs, hwid, hget, -⟩ := ctx_some hc
  obtain ⟨-, -, -, -, -, -, hput, -⟩ := shadow_spec c f
  rw [← shadow_w]
  exact hput (by rw [hs, hwid]; exact hget)

/-- The class V issue over a unit, with the generator as the body leaves it: every lane of the set owes its words and flags. -/
theorem ends_writeV {s sA : State} {c : Ctx} {f : Form} {d : Reg} {u : Nat} (hc : s.ctx = some c) (hf : f.dst = [(d, u)])
    {seed : Word} (hA : WaveOnly (c.shadow f).s sA c.wid)
    (hw : sA.waves.get? c.wid = some (withSeed (c.w.shadowed (c.targets f)) seed)) {out : Nat → LaneOut}
    {val : Nat → Nat → Word} {flags : Nat → Word} (hval : ∀ l k, hasLane c.set l = true → k < u → (out l).word k = val l k)
    (hflags : ∀ l, hasLane c.set l = true → (out l).flags.word = flags l) :
    Ends s (c.settle f (.go ((c.shadow f).writeV d u out sA))) c (withSeed (c.owing d u val flags) seed)
      fun _ => c.pc + 4 := by
  have htar : c.targets f = c.unit (d, u) := by simp [Ctx.targets, hf]
  refine ends_oweLanes hc hA hw ?_ rfl rfl
  rw [htar, shadowed_eq, (shadow_regionOnly c f).set, results_eq_of_lanes s.seq true hval hflags, Ctx.owing,
    (ctx_some hc).1]
  rfl

/-- The same where the body leaves the generator as it was. -/
theorem ends_writeV_plain {s : State} {c : Ctx} {f : Form} {d : Reg} {u : Nat} (hc : s.ctx = some c) (hf : f.dst = [(d, u)])
    {out : Nat → LaneOut} {val : Nat → Nat → Word} {flags : Nat → Word}
    (hval : ∀ l k, hasLane c.set l = true → k < u → (out l).word k = val l k)
    (hflags : ∀ l, hasLane c.set l = true → (out l).flags.word = flags l) :
    Ends s (c.settle f (.go ((c.shadow f).writeV d u out (c.shadow f).s))) c (c.owing d u val flags)
      fun _ => c.pc + 4 := by
  have hw := shadow_wave hc f
  have hseed : c.w.shadowed (c.targets f) = withSeed (c.w.shadowed (c.targets f)) c.w.srseed := by
    rw [shadowed_eq]
    rfl
  rw [hseed] at hw
  exact ends_writeV hc hf (WaveOnly.refl _ _) hw hval hflags

end Sys2Proof.Machine

/-! PROOFS. Special registers (O11). -/

namespace Sys2Proof.Machine

open Spec

theorem pairWord_zero (x : DWord) : pairWord x 0 = loWord x := (wide_word x 0).symm

theorem pairWord_one (x : DWord) : pairWord x 1 = hiWord x := (wide_word x 1).symm

theorem ofNat_eq_pairWord_zero (p : PC) : BitVec.ofNat 32 p.toNat = pairWord (p.setWidth 64) 0 := by
  rw [pairWord, BitVec.toNat_setWidth_of_le (by decide), Nat.mul_zero, Nat.pow_zero, Nat.div_one]

theorem ofNat_eq_pairWord_one (p : PC) : BitVec.ofNat 32 (p.toNat / 2 ^ 32) = pairWord (p.setWidth 64) 1 := by
  rw [pairWord, BitVec.toNat_setWidth_of_le (by decide), Nat.mul_one]

theorem boolWord_eq_cond (b : Bool) : boolWord b = Spec.cond (b = true) := rfl

/-- $tprev, its level by its code (R389). -/
theorem prev_eq (t : TrapRegs) : t.prev =
    (if t.prevLevel = .u then 0 else if t.prevLevel = .s then 1 else 2) + t.prevBase / 8 * 256 := by
  unfold TrapRegs.prev
  cases t.prevLevel <;> rfl

/-- A special register reads alike after the copies of R336. -/
theorem RegionOnly.special {c c' : Ctx} (h : RegionOnly c c') (k l : Nat) : c'.special k l = c.special k l := by
  unfold Ctx.special
  rw [h.w, h.t, h.set, h.s]

/-- A class F write, its words given otherwise outside the set and past the unit's end. -/
theorem WritesF.congr {s t : State} {c : Ctx} {d : Reg} {u : Nat} {val val' : Nat → Nat → Word} {flags seed : Word}
    {next : Nat → PC} (h : WritesF s t c d u val flags seed next)
    (hval : ∀ l i, hasLane c.set l = true → i < u → val l i = val' l i) : WritesF s t c d u val' flags seed next := by
  obtain ⟨honly, w', hget, hkeeps, ⟨hnew, hold⟩, howed, hmoved⟩ := h
  refine ⟨honly, w', hget, hkeeps, ⟨fun i p l hp hl => ?_, hold⟩, howed, hmoved⟩
  have hi : i < u := (List.getElem?_eq_some_iff.1 hp).1.trans_le (length_unit_le c d u)
  rw [hnew i p l hp hl, hval l i hl hi]

/-- A class F issue without flags, from the wave as it was. -/
theorem writesF_plain {s : State} {c : Ctx} {f : Form} {d : Reg} {u : Nat} (hc : s.ctx = some c) (hf : f.dst = [(d, u)])
    {out : Nat → LaneOut} {val : Nat → Nat → Word} (hflags : ∀ l, (out l).flags = {})
    (hval : ∀ l i, hasLane c.set l = true → i < u → (out l).word i = val l i) :
    WritesF s (c.settle f (.go ((c.shadow f).writeF d u out (c.shadow f).s))) c d u val c.w.fflags c.w.srseed
      fun _ => c.pc + 4 := by
  have hw : (c.shadow f).s.waves.get? c.wid = some { (c.shadow f).w with srseed := c.w.srseed } := by
    rw [shadow_wave hc, shadow_w, shadowed_eq]
  have h := writeF_go hc f d u hf out (c.shadow f).s c.w.srseed (fun _ => c.pc + 4) false (WaveOnly.refl _ _) hw
  rw [flagsOf_none c out hflags, show c.w.fflags ||| (0 : Word) = c.w.fflags from BitVec.or_zero] at h
  exact h.congr hval

/-! ### SREAD (R131, R199) -/

/-- The form of SREAD. -/
def sreadForm (s : State) (d : Reg) (k : Nat) : Form := { dst := [(d, 1)], priv := isTrapReg k && !s.atS }

/-- What SREAD gives a lane. -/
def specialOut (c : Ctx) (k l : Nat) : LaneOut := ⟨[c.special k l], {}⟩

/-- SREAD of $clock latches the counter's high word first. -/
def Ctx.latched (c : Ctx) (k : Nat) : State :=
  if k = 12 then c.s.updWave c.wid fun w => { w with clockh := hiWord c.s.clock } else c.s

/-- What SREAD does once its checks have passed. -/
def sreadBody (d : Reg) (k : Nat) (c : Ctx) : Res :=
  .go (if sreadClassF k then c.writeF d 1 (specialOut c k) (c.latched k) else c.writeV d 1 (specialOut c k) (c.latched k))

section

variable {s : State} {c : Ctx} {d : Reg} {k : Nat}

theorem exec_sread (hr : Ready s (.sread d k) c) : exec (.sread d k) s =
    .next (c.settle (sreadForm s d k) (sreadBody d k (c.shadow (sreadForm s d k)))) :=
  (show exec (.sread d k) s = issue (sreadForm s d k) (sreadBody d k) s from rfl).trans
    (issue_ready (sreadForm s d k) _ hr.ctx hr.checks hr.room)

theorem latched_of_ne (c : Ctx) (h : k ≠ 12) : c.latched k = c.s := if_neg h

/-- The one word of a lane's result. -/
theorem specialOut_word {f : Form} {val : Nat → Nat → Word} (hval : ∀ l, c.special k l = val l 0) (l i : Nat) (hi : i < 1) :
    (specialOut (c.shadow f) k l).word i = val l i := by
  obtain rfl : i = 0 := by omega
  rw [← hval l, ← (shadow_regionOnly c f).special k l]
  rfl

theorem specialOut_flags (c : Ctx) (k l : Nat) : (specialOut c k l).flags.word = 0 := by
  change ({} : FpFlags).word = 0
  decide

/-- 0 to 11 and 16 to 19 are class F. -/
theorem sread_classF (hr : Ready s (.sread d k) c) (hk : k ≤ 11 ∨ (16 ≤ k ∧ k ≤ 19)) {val : Nat → Nat → Word}
    (hval : ∀ l, c.special k l = val l 0) :
    ∃ t, exec (.sread d k) s = .next t ∧ WritesF s t c d 1 val c.w.fflags c.w.srseed fun _ => c.pc + 4 := by
  have hF : sreadClassF k = true := by simpa [sreadClassF] using hk
  refine ⟨_, exec_sread hr, ?_⟩
  rw [sreadBody, if_pos hF, latched_of_ne _ (by omega)]
  exact writesF_plain hr.ctx rfl (fun _ => rfl) fun l i _ hi => specialOut_word hval l i hi

/-- The others but $clock are outstanding. -/
theorem sread_classV (hr : Ready s (.sread d k) c) (hk : ¬ (k ≤ 11 ∨ (16 ≤ k ∧ k ≤ 19))) (h12 : k ≠ 12) {val : Nat → Nat → Word}
    (hval : ∀ l, c.special k l = val l 0) :
    ∃ t, exec (.sread d k) s = .next t ∧ Ends s t c (c.owing d 1 val fun _ => 0) fun _ => c.pc + 4 := by
  have hV : ¬ sreadClassF k = true := by simpa [sreadClassF] using hk
  refine ⟨_, exec_sread hr, ?_⟩
  rw [sreadBody, if_neg hV, latched_of_ne _ h12]
  exact ends_writeV_plain hr.ctx rfl (fun l i _ hi => specialOut_word hval l i hi) fun l _ => specialOut_flags _ k l

/-- $clock is outstanding, and its high word is latched. -/
theorem sread_clock (hr : Ready s (.sread d 12) c) {val : Nat → Nat → Word} (hval : ∀ l, c.special 12 l = val l 0) :
    ∃ t, exec (.sread d 12) s = .next t ∧
      Ends s t c { c.owing d 1 val fun _ => 0 with clockh := pairWord s.clock 1 } fun _ => c.pc + 4 := by
  have hR := shadow_regionOnly c (sreadForm s d 12)
  have hclock : (c.shadow (sreadForm s d 12)).s.clock = s.clock := by rw [hR.s, (ctx_some hr.ctx).1]
  refine ⟨_, exec_sread hr, ends_oweLanes hr.ctx (wA := { c.w.shadowed (c.unit (d, 1)) with clockh := pairWord s.clock 1 })
    (by rw [Ctx.latched, if_pos rfl, hR.wid]; exact WaveOnly.upd _ _ _) ?_ ?_ rfl rfl⟩
  · have htar : c.targets (sreadForm s d 12) = c.unit (d, 1) := by simp [Ctx.targets, sreadForm]
    have hw := shadow_wave hr.ctx (sreadForm s d 12)
    rw [htar] at hw
    rw [Ctx.latched, if_pos rfl, hR.wid, hclock, pairWord_one]
    exact (Tbl.get?_upd_self _ _ _).trans (by rw [hw]; rfl)
  · rw [hR.set, results_eq_of_lanes s.seq true (fun l i _ hi => specialOut_word hval l i hi)
      (fun l _ => specialOut_flags _ 12 l), shadowed_eq, Ctx.owing, (ctx_some hr.ctx).1]

end

/-! ### SWRITE (R131, R199) -/

/-- The low byte of a word is all that a write of $fflags takes. -/
theorem and_lowByte (v : Word) : v &&& 0xFF#32 = BitVec.ofNat 32 (v.toNat % 2 ^ 8) := by
  apply BitVec.eq_of_toNat_eq
  have hand : v.toNat &&& 255 = v.toNat % 2 ^ 8 := Nat.and_two_pow_sub_one_eq_mod v.toNat 8
  rw [BitVec.toNat_and, BitVec.toNat_ofNat, BitVec.toNat_ofNat, show (0xFF % 2 ^ 32 : Nat) = 255 from rfl, hand]
  omega

/-- A wave whose special register takes a value. -/
def Wave.swritten (w : Wave) (k : Nat) (v : Word) : Wave :=
  if k = 16 then { w with fpmode := fpmodeWrite w.fpmode v }
  else if k = 17 then { w with fflags := v &&& 0xFF#32 }
  else { w with srseed := v }

/-- What SWRITE does once its checks have passed. -/
def swriteBody (a : Reg) (k : Nat) (c : Ctx) : Res :=
  if c.onlyHelpers then .go c.s else .go (c.s.updWave c.wid (·.swritten k (c.reg a c.first)))

theorem onlyHelpers_iff (c : Ctx) : c.onlyHelpers = true ↔ c.cnt = 0 := by
  rw [Ctx.onlyHelpers, beq_iff_eq]
  rfl

theorem swrite_ends {s : State} {c : Ctx} {a : Reg} {k : Nat} (hr : Ready s (.swrite a k) c) :
    ∃ t, exec (.swrite a k) s = .next t ∧
      Ends s t c (if c.cnt = 0 then c.w else c.w.swritten k (c.reg a c.first)) fun _ => c.pc + 4 := by
  let f : Form := { src := [(a, 1)] }
  have hR := shadow_regionOnly c f
  refine ⟨_, (show exec (.swrite a k) s = issue f (swriteBody a k) s from rfl).trans
    (issue_ready _ _ hr.ctx hr.checks hr.room), ?_⟩
  have honly : (c.shadow f).onlyHelpers = true ↔ c.cnt = 0 := by rw [onlyHelpers_iff, hR.cnt]
  by_cases hz : c.cnt = 0
  · rw [swriteBody, if_pos (honly.2 hz), if_pos hz]
    exact ends_plain hr.ctx rfl _ _
  · rw [swriteBody, if_neg (mt honly.1 hz), if_neg hz, hR.reg, hR.first, hR.wid]
    refine ends_of_wave hr.ctx (WaveOnly.upd _ _ _)
      ((Tbl.get?_upd_self _ _ _).trans (by rw [(shadow_noTargets hr.ctx rfl).2]; rfl)) ?_ ?_ _ _
    all_goals unfold Wave.swritten; split; rfl; split <;> rfl

/-- Settles O11: a read is a class F write or leaves its word outstanding, by the register's class; a write is an issue without
results. -/
theorem specialRegisters : Obligations.SpecialRegisters := by
  refine ⟨fun s c d k hr => ?_, fun s c a k hr => ?_⟩
  · intro launch val
    have hs := (ctx_some hr.ctx).1
    have hval : ∀ l, c.special k l = val l 0 := by
      intro l
      dsimp only [val, launch]
      rw [← hs]
      clear_value val
      exact match k with
        | 12 | 14 | 24 | 26 => (pairWord_zero _).symm
        | 15 | 25 | 27 => (pairWord_one _).symm
        | 18 => boolWord_eq_cond _
        | 21 => ofNat_eq_pairWord_zero _
        | 22 => ofNat_eq_pairWord_one _
        | 30 => congrArg (BitVec.ofNat 32) (prev_eq _)
        | 0 | 1 | 2 | 3 | 4 | 5 | 6 | 7 | 8 | 9 | 10 | 11 | 13 | 16 | 17 | 19
        | 20 | 23 | 28 | 29 | _ + 31 => rfl
    by_cases hF : k ≤ 11 ∨ (16 ≤ k ∧ k ≤ 19)
    · simp only [hF, if_true]
      exact sread_classF hr hF hval
    · simp only [hF, if_false]
      by_cases h12 : k = 12
      · subst h12
        exact sread_clock hr hval
      · simp only [h12, if_false]
        exact sread_classV hr hF h12 hval
  · intro v w
    obtain ⟨t, hexec, hends⟩ := swrite_ends hr
    refine ⟨t, hexec, ?_⟩
    have hw : c.w.swritten k v = w := by
      by_cases h16 : k = 16
      · subst h16; rfl
      · by_cases h17 : k = 17
        · subst h17
          simp only [Wave.swritten, and_lowByte, w, Nat.reduceEqDiff, if_false, if_true]
        · simp only [Wave.swritten, h16, h17, if_false, w]
    rw [← hw]
    exact hends

end Sys2Proof.Machine

/-! PROOFS. Cross-lane instructions, reductions and scans (O8). -/

namespace Sys2Proof.Machine

open Spec

/-! ### Collectives whose uniform operands agree (R116, R117) -/

/-- A collective with a counted lane, its uniform operands agreeing, acts. -/
theorem collective_acts {s : State} {c : Ctx} {f : Form} {dst : Option (Reg × Nat)} {uni fmt : Ctx → List (Nat → Word)}
    {body : Ctx → Res} (hc : s.ctx = some c) (hk : c.check f = none) (hr : c.w.shadowRoom (c.targets f) = true) (hn : c.cnt ≠ 0)
    (hu : ((uni (c.shadow f)).all (c.shadow f).uniform) = true) (hf : ((fmt (c.shadow f)).all (c.shadow f).uniform) = true) :
    collective f dst uni fmt body s = .next (c.settle f (body (c.shadow f))) := by
  have hh : (c.shadow f).onlyHelpers = false := by
    refine Bool.eq_false_iff.2 fun h => hn ?_
    rw [← (shadow_regionOnly c f).cnt]
    exact (onlyHelpers_iff _).1 h
  have hstop : (c.shadow f).uniformStop (uni (c.shadow f)) (fmt (c.shadow f)) = none := by
    simp [Ctx.uniformStop, hu, hf]
  refine (issue_ready f _ hc hk hr).trans ?_
  simp only [hh, hstop]
  rfl

theorem uniform_iff (c : Ctx) (g : Nat → Word) : c.uniform g = true ↔ ∀ l, hasLane c.cnt l = true → g l = g c.first := by
  simp [Ctx.uniform, mem_lanesOf]

theorem agree_uniform {c c' : Ctx} (h : RegionOnly c c') {b : Reg} {bits : Nat} (ha : agree c b bits) :
    c'.uniform (c'.low b bits) = true := by
  refine (uniform_iff c' _).2 fun l hl => ?_
  rw [h.cnt] at hl
  rw [Ctx.low, Ctx.low, h.reg, h.reg, h.first, ha l hl]

/-- A uniform operand's low bits as the model and as the statements read them. -/
theorem low_toNat (c : Ctx) (b : Reg) {bits : Nat} (hb : bits ≤ 32) : (c.low b bits c.first).toNat = Spec.low c b bits := by
  have hlt : (c.reg b c.first).toNat % 2 ^ bits < 2 ^ 32 :=
    (Nat.mod_lt _ (Nat.two_pow_pos bits)).trans_le (Nat.pow_le_pow_right (by decide) hb)
  rw [Ctx.low, BitVec.toNat_ofNat, Nat.mod_eq_of_lt hlt]
  rfl

/-! ### Masks of lanes -/

theorem hasLane_foldl_laneBit (ls : List Nat) (h : ∀ l ∈ ls, l < 64) (m : Mask) (k : Nat) :
    hasLane (ls.foldl (fun m l => m ||| laneBit l) m) k = (hasLane m k || decide (k ∈ ls)) := by
  induction ls generalizing m with
  | nil => simp
  | cons l ls ih =>
    rw [List.foldl_cons, ih (fun j hj => h j (List.mem_cons_of_mem _ hj)), hasLane_or,
      hasLane_laneBit l k (h l List.mem_cons_self), Bool.or_assoc]
    simp only [List.mem_cons, Bool.decide_or]

theorem hasLane_maskOf {ls : List Nat} (h : ∀ l ∈ ls, l < 64) (k : Nat) : hasLane (maskOf ls) k = decide (k ∈ ls) := by
  rw [maskOf, hasLane_foldl_laneBit ls h]
  simp [hasLane]

theorem mask_ext {a b : Mask} (h : ∀ l, l < 64 → hasLane a l = hasLane b l) : a = b :=
  BitVec.eq_of_getLsbD_eq fun l hl => h l hl

/-- A sum of different powers of two has their bits. -/
theorem hasLane_ofNat_sum {ls : List Nat} (hs : ls.SortedLT) {k : Nat} (hk : k < 64) :
    hasLane (BitVec.ofNat 64 (ls.map (2 ^ ·)).sum) k = decide (k ∈ ls) := by
  have hbit : (ls.map (2 ^ ·)).sum.testBit k = true ↔ k ∈ ls := by
    rw [← Nat.mem_bitIndices, Nat.bitIndices_sum_map_two_pow hs]
  rw [hasLane, BitVec.getLsbD_ofNat, decide_eq_true hk, Bool.true_and, Bool.eq_iff_iff, hbit, decide_eq_true_iff]

/-- The mask of a vote, lane by lane. -/
theorem hasLane_votes (c : Ctx) (p : Nat → Prop) [DecidablePred p] (l : Nat) :
    hasLane (votes c p) l = (hasLane c.cnt l && decide (p l)) := by
  by_cases hl : l < 64
  · have hsort : ((List.range 64).filter fun l => hasLane c.cnt l && decide (p l)).SortedLT :=
      (List.pairwise_lt_range.filter _).sortedLT
    rw [votes, hasLane_ofNat_sum hsort hl]
    simp [hl]
  · have hf : ∀ m : Mask, hasLane m l = false := fun m => Bool.eq_false_iff.2 fun h => hl (hasLane_lt h)
    rw [hf, hf, Bool.false_and]

theorem lanesWith_eq_votes (c : Ctx) (q : Nat → Bool) (p : Nat → Prop) [DecidablePred p] (h : ∀ l, q l = true ↔ p l) :
    c.lanesWith q = votes c p := by
  refine mask_ext fun l _ => ?_
  rw [hasLane_votes, Ctx.lanesWith, hasLane_maskOf fun k hk => hasLane_lt ((mem_lanesOf _ _).1 (List.mem_filter.1 hk).1)]
  simp [mem_lanesOf, h]

theorem votes_eq_zero_iff (c : Ctx) (p : Nat → Prop) [DecidablePred p] :
    votes c p = 0 ↔ ∀ l, hasLane c.cnt l = true → ¬ p l := by
  have hz : ∀ l, hasLane (0 : Mask) l = false := fun l => by simp [hasLane]
  refine ⟨fun h l hl hp => ?_, fun h => mask_ext fun l _ => ?_⟩
  · have hv := hasLane_votes c p l
    rw [h, hz, hl, decide_eq_true hp] at hv
    cases hv
  · rw [hasLane_votes, hz]
    by_cases hl : hasLane c.cnt l = true
    · rw [decide_eq_false (h l hl), Bool.and_false]
    · rw [Bool.eq_false_iff.2 hl, Bool.false_and]

/-! ### The tree of R152 and the steps of R153 -/

theorem flags_or_none (x : FpFlags) : x.or {} = x := by simp [FpFlags.or]

theorem none_or_flags (x : FpFlags) : FpFlags.or {} x = x := by simp [FpFlags.or]

/-- An absent value comes without flags. -/
def NoStray (p : Part) : Prop := p.1 = none → p.2 = {}

theorem joinParts_eq_combined (f : Word → Word → Word × FpFlags) {x y : Part} (hx : NoStray x) (hy : NoStray y) :
    joinParts f x y = combined f x y := by
  obtain ⟨x, a⟩ := x
  obtain ⟨y, b⟩ := y
  cases x with
  | none =>
    obtain rfl : a = {} := hx rfl
    simp only [joinParts, combined, none_or_flags]
  | some x =>
    cases y with
    | none =>
      obtain rfl : b = {} := hy rfl
      simp only [joinParts, combined, flags_or_none]
    | some y => rfl

theorem combined_noStray (f : Word → Word → Word × FpFlags) {x y : Part} (hx : NoStray x) (hy : NoStray y) :
    NoStray (combined f x y) := by
  obtain ⟨x, a⟩ := x
  obtain ⟨y, b⟩ := y
  cases x with
  | none => exact hy
  | some x =>
    cases y with
    | none => exact fun h => nomatch h
    | some y => exact fun h => nomatch h

section

variable (f : Combine) (leaf : Nat → Option Word)

theorem node_noStray (v : Nat) : ∀ m, NoStray (node f leaf v m) := by
  induction v with
  | zero => exact fun m _ => rfl
  | succ v ih => exact fun m => combined_noStray _ (ih _) (ih _)

/-- A level of the tree pairs adjacent results. -/
theorem treeLevel_range (v n : Nat) : ∀ (m : Nat) (g : Nat → Part), treeLevel f v m ((List.range (2 * n)).map g) =
    (List.range n).map fun i => joinParts (f ((m + i) * 2 ^ v) v) (g (2 * i)) (g (2 * i + 1)) := by
  induction n with
  | zero => exact fun _ _ => rfl
  | succ n ih =>
    intro m g
    have htwo : (List.range (2 * (n + 1))).map g = g 0 :: g 1 :: (List.range (2 * n)).map fun i => g (i + 2) := by
      rw [show 2 * (n + 1) = 2 * n + 1 + 1 from rfl, List.range_succ_eq_map, List.range_succ_eq_map]
      simp only [List.map_cons, List.map_map]
      rfl
    rw [htwo, treeLevel, ih, List.range_succ_eq_map, List.map_cons, List.map_map]
    refine congrArg (List.cons _) (List.map_congr_left fun i _ => ?_)
    simp only [Function.comp_apply, show m + 1 + i = m + (i + 1) by omega]
    rfl

/-- The results of a level, from those of the level before. -/
theorem treeLevel_node (v n : Nat) : treeLevel f (v + 1) 0 ((List.range (2 * n)).map fun i => node f leaf v (i * 2 ^ v)) =
    (List.range n).map fun i => node f leaf (v + 1) (i * 2 ^ (v + 1)) := by
  rw [treeLevel_range]
  refine List.map_congr_left fun i _ => ?_
  rw [joinParts_eq_combined _ (node_noStray f leaf v _) (node_noStray f leaf v _), node, Nat.zero_add,
    show 2 * i * 2 ^ v = i * 2 ^ (v + 1) by ring, show (2 * i + 1) * 2 ^ v = i * 2 ^ (v + 1) + 2 ^ v by ring]

/-- R152: the model's tree over 64 lanes. -/
theorem reduceTree_eq_node : reduceTree f ((List.range 64).map fun l => (leaf l, {})) = node f leaf 6 0 := by
  have h0 : ((List.range 64).map fun l => (leaf l, ({} : FpFlags))) =
      (List.range (2 * 32)).map fun i => node f leaf 0 (i * 2 ^ 0) := by simp only [node, Nat.pow_zero, Nat.mul_one]
  rw [reduceTree, h0]
  simp only [List.foldl_cons, List.foldl_nil]
  rw [treeLevel_node f leaf 0 32, treeLevel_node f leaf 1 16, treeLevel_node f leaf 2 8, treeLevel_node f leaf 3 4,
    treeLevel_node f leaf 4 2, treeLevel_node f leaf 5 1]
  rfl

theorem scanned_noStray (v : Nat) : ∀ l, NoStray (scanned f leaf v l) := by
  induction v with
  | zero => exact fun l _ => rfl
  | succ v ih =>
    intro l
    rw [scanned]
    split
    · exact ih l
    · exact combined_noStray _ (fun _ => rfl) (ih l)

/-- One step of the scan, every lane at once. -/
theorem scanStep_scanned (v : Nat) : scanStep f ((List.range 64).map (scanned f leaf v)) (v + 1) =
    (List.range 64).map (scanned f leaf (v + 1)) := by
  refine List.ext_getElem (by simp [scanStep]) fun l h1 _ => ?_
  have hl : l < 64 := by simpa [scanStep] using h1
  simp only [scanStep, List.getElem_mapIdx, List.getElem_map, List.getElem_range, Nat.add_sub_cancel]
  rw [scanned]
  split
  · rfl
  · have hget : (((List.range 64).map (scanned f leaf v)).getD (l - 2 ^ v) (none, {})) = scanned f leaf v (l - 2 ^ v) := by
      rw [List.getD_eq_getElem _ _ (by rw [List.length_map, List.length_range]; exact (Nat.sub_le _ _).trans_lt hl)]
      simp
    rw [hget, joinParts_eq_combined _ (show NoStray (_, {}) from fun _ => rfl) (scanned_noStray f leaf v l)]

/-- R153: the model's scan. -/
theorem scanAll_eq_scanned {l : Nat} (hl : l < 64) :
    (scanAll f ((List.range 64).map fun l => (leaf l, {}))).getD l (none, {}) = scanned f leaf 6 l := by
  have h0 : ((List.range 64).map fun l => (leaf l, ({} : FpFlags))) = (List.range 64).map (scanned f leaf 0) := rfl
  rw [scanAll, h0]
  simp only [List.foldl_cons, List.foldl_nil, scanStep_scanned]
  rw [List.getD_eq_getElem _ _ (by simpa using hl)]
  simp

end

/-! ### Associative operations: the tree and the scan join lists -/

/-- The values of a list joined from the left, if there is one. -/
def joined? (op : Word → Word → Word) : List Word → Option Word
  | [] => none
  | x :: xs => some (xs.foldl op x)

theorem joined_eq (op : Word → Word → Word) (xs : List Word) : joined op xs = (joined? op xs).getD 0 := by
  cases xs <;> rfl

/-- A step without flags on values that may be absent. -/
def plain (op : Word → Word → Word) : Combine := fun _ _ x y => (op x y, {})

section

variable {op : Word → Word → Word} (hop : ∀ x y z, op (op x y) z = op x (op y z))

include hop

theorem joined?_append (xs ys : List Word) (n v : Nat) (a b : FpFlags) : joined? op (xs ++ ys) =
    (combined (plain op n v) (joined? op xs, a) (joined? op ys, b)).1 := by
  cases xs with
  | nil => rfl
  | cons x xs =>
    cases ys with
    | nil => rw [List.append_nil]; rfl
    | cons y ys =>
      have hfold : ∀ (ys : List Word) (x y : Word), ys.foldl op (op x y) = op x (ys.foldl op y) := fun ys => by
        induction ys with
        | nil => exact fun _ _ => rfl
        | cons z ys ih => exact fun x y => by rw [List.foldl_cons, hop, ih, List.foldl_cons]
      simp only [List.cons_append, joined?, List.foldl_append, List.foldl_cons, combined, plain, hfold]

variable (leaf : Nat → Option Word)

theorem node_plain (v : Nat) : ∀ m, (node (plain op) leaf v m).1 = joined? op ((List.range' m (2 ^ v)).filterMap leaf) := by
  induction v with
  | zero =>
    intro m
    cases h : leaf m <;> simp [node, joined?, h]
  | succ v ih =>
    intro m
    have hsplit : List.range' m (2 ^ (v + 1)) = List.range' m (2 ^ v) ++ List.range' (m + 2 ^ v) (2 ^ v) := by
      rw [Nat.pow_succ, Nat.mul_two, List.range'_append_1]
    rw [node, hsplit, List.filterMap_append, joined?_append hop _ _ m (v + 1) (node (plain op) leaf v m).2
      (node (plain op) leaf v (m + 2 ^ v)).2, ← ih, ← ih]

/-- After step v a lane's partial joins the lanes up to it that are no further than 2^v − 1 away. -/
theorem scanned_plain (v : Nat) : ∀ l, (scanned (plain op) leaf v l).1 =
    joined? op ((List.range' (l + 1 - 2 ^ v) (min (l + 1) (2 ^ v))).filterMap leaf) := by
  induction v with
  | zero =>
    intro l
    cases h : leaf l <;> simp [scanned, joined?, h]
  | succ v ih =>
    intro l
    have hpow : 2 ^ (v + 1) = 2 ^ v + 2 ^ v := by rw [Nat.pow_succ, Nat.mul_two]
    rw [scanned]
    split
    · next hl =>
      rw [ih, show l + 1 - 2 ^ (v + 1) = l + 1 - 2 ^ v by omega, show min (l + 1) (2 ^ (v + 1)) = min (l + 1) (2 ^ v) by omega]
    · next hl =>
      have hsplit : List.range' (l + 1 - 2 ^ (v + 1)) (min (l + 1) (2 ^ (v + 1))) =
          List.range' (l - 2 ^ v + 1 - 2 ^ v) (min (l - 2 ^ v + 1) (2 ^ v)) ++
            List.range' (l + 1 - 2 ^ v) (min (l + 1) (2 ^ v)) := by
        rw [show l + 1 - 2 ^ v = l - 2 ^ v + 1 - 2 ^ v + min (l - 2 ^ v + 1) (2 ^ v) by omega, List.range'_append_1]
        congr 1 <;> omega
      rw [hsplit, List.filterMap_append, joined?_append hop _ _ l (v + 1) {} (scanned (plain op) leaf v l).2, ← ih, ← ih]

end

/-! ### The integer operations (R198) -/

theorem intCombine_eq_redOp (sel : Nat) (x y : Word) : intCombine sel x y = redOp sel x y := by
  unfold intCombine redOp
  split
  · exact BitVec.eq_of_toNat_eq (by simp)
  all_goals rfl

/-- Choosing the lesser by a key, the right operand on a tie, is associative. -/
theorem lesser_assoc {α : Type} [LinearOrder α] (f : Word → α) (x y z : Word) :
    (if f (if f x < f y then x else y) < f z then (if f x < f y then x else y) else z) =
      if f x < f (if f y < f z then y else z) then x else (if f y < f z then y else z) := by
  by_cases hxy : f x < f y
  · by_cases hyz : f y < f z
    · simp only [hxy, hyz, hxy.trans hyz, if_true]
    · simp only [hxy, hyz, if_true, if_false]
  · by_cases hyz : f y < f z
    · simp only [hxy, hyz, if_true, if_false]
    · have hxz : ¬ f x < f z := not_lt.2 ((not_lt.1 hyz).trans (not_lt.1 hxy))
      simp only [hxy, hyz, hxz, if_false]

theorem redOp_assoc (sel : Nat) (x y z : Word) : redOp sel (redOp sel x y) z = redOp sel x (redOp sel y z) := by
  rw [← intCombine_eq_redOp, ← intCombine_eq_redOp, ← intCombine_eq_redOp, ← intCombine_eq_redOp]
  exact match sel with
    | 0 => BitVec.add_assoc ..
    | 1 => lesser_assoc BitVec.toInt x y z
    | 2 => lesser_assoc (fun w => OrderDual.toDual w.toInt) x y z
    | 3 => lesser_assoc BitVec.toNat x y z
    | 4 => lesser_assoc (fun w => OrderDual.toDual w.toNat) x y z
    | 5 => BitVec.and_assoc ..
    | 6 => BitVec.or_assoc ..
    | _ + 7 => BitVec.xor_assoc ..

theorem filterMap_if {α β : Type} (p : α → Bool) (g : α → β) (xs : List α) :
    xs.filterMap (fun x => if p x = true then some (g x) else none) = (xs.filter p).map g := by
  induction xs with
  | nil => rfl
  | cons x xs ih => by_cases h : p x = true <;> simp [h, ih]

theorem parts_eq (c : Ctx) (a : Reg) : c.parts a = (List.range 64).map fun l => (leafOf c a l, {}) := rfl

/-- R152: IRED joins the counted lanes' values. -/
theorem reduceTree_int (c : Ctx) (a : Reg) (sel : Nat) :
    ((reduceTree (fun _ _ x y => (intCombine sel x y, {})) (c.parts a)).1).getD 0 =
      joined (redOp sel) ((lanesOf c.cnt).map fun k => c.reg a k) := by
  have hf : (fun _ _ x y => (intCombine sel x y, {}) : Combine) = plain (redOp sel) := by
    funext _ _ x y
    rw [intCombine_eq_redOp]
    rfl
  rw [hf, parts_eq, reduceTree_eq_node, node_plain (redOp_assoc sel), joined_eq]
  exact congrArg (fun xs => (joined? (redOp sel) xs).getD 0) (filterMap_if _ _ _)

/-- R153: ISCAN joins the values of the counted lanes up to the lane. -/
theorem scanAll_int (c : Ctx) (a : Reg) (sel : Nat) {l : Nat} (hl : l < 64) :
    (((scanAll (fun _ _ x y => (intCombine sel x y, {})) (c.parts a)).getD l (none, {})).1).getD 0 =
      joined (redOp sel) (((lanesOf c.cnt).filter fun k => k ≤ l).map fun k => c.reg a k) := by
  have hf : (fun _ _ x y => (intCombine sel x y, {}) : Combine) = plain (redOp sel) := by
    funext _ _ x y
    rw [intCombine_eq_redOp]
    rfl
  have hrange : (List.range 64).filter (fun k => decide (k ≤ l)) = List.range' (l + 1 - 2 ^ 6) (min (l + 1) (2 ^ 6)) := by
    rw [show 64 = (l + 1) + (63 - l) by omega, List.range_add, List.filter_append, List.filter_eq_self.2,
      List.filter_eq_nil_iff.2, List.append_nil, show l + 1 - 2 ^ 6 = 0 by omega, show min (l + 1) (2 ^ 6) = l + 1 by omega,
      List.range_eq_range']
    · intro k hk
      obtain ⟨j, -, rfl⟩ := List.mem_map.1 hk
      simp only [decide_eq_true_eq]
      omega
    · intro k hk
      simpa [Nat.lt_succ_iff] using hk
  rw [hf, parts_eq, scanAll_eq_scanned _ _ hl, scanned_plain (redOp_assoc sel), joined_eq, ← hrange]
  refine congrArg (fun xs => (joined? (redOp sel) xs).getD 0) ((filterMap_if _ _ _).trans (congrArg _ ?_))
  rw [lanesOf, List.filter_filter, List.filter_filter]
  exact List.filter_congr fun k _ => Bool.and_comm _ _

/-! ### The LANE instructions but the floating-point ones (R194 to R198) -/

/-- The form of a LANE instruction. -/
def laneForm (d : Reg) (u : Nat) (srcs : List Reg) : Form := { dst := [(d, u)], src := srcs.map fun r => (r, 1) }

/-- An instruction that acts as the statement's function of lanes says: its operands, the words that R117 compares, its results. -/
structure LaneActs (i : Instr) (o : LaneFn) (srcs : List Reg) (uni : Ctx → List (Nat → Word)) (out : Ctx → Nat → LaneOut) : Prop where
  exec : ∀ s, exec i s = laneOp o.d o.u srcs uni out s
  form : ∀ s : State, s.formOf i = laneForm o.d o.u srcs
  uniform : ∀ c c', RegionOnly c c' → (∀ b bits, o.uniform = some (b, bits) → agree c b bits) → (uni c').all c'.uniform = true
  word : ∀ c l k, hasLane c.set l = true → k < o.u → (out c l).word k = (o.out c l).getD k 0
  flags : ∀ c l, (out c l).flags.word = 0
  congr : ∀ c c', RegionOnly c c' → ∀ l, o.out c' l = o.out c l

namespace RegionOnly

variable {c c' : Ctx} (h : RegionOnly c c')

include h

theorem fromLane (a : Reg) (l : Nat) (m : Int) : Spec.fromLane c' a l m = Spec.fromLane c a l m := by
  unfold Spec.fromLane
  simp only [h.set, h.reg]

theorem low (b : Reg) (bits : Nat) : Spec.low c' b bits = Spec.low c b bits := by
  rw [Spec.low, h.reg, h.first]
  rfl

theorem votes (p : Nat → Prop) [DecidablePred p] : Spec.votes c' p = Spec.votes c p := by
  unfold Spec.votes
  rw [h.cnt]

theorem leafOf (a : Reg) : Spec.leafOf c' a = Spec.leafOf c a := by
  funext l
  unfold Spec.leafOf
  rw [h.cnt, h.reg]

end RegionOnly

theorem flags_none_word : (({} : FpFlags)).word = 0 := by decide

theorem boolWord_of_iff {b : Bool} {p : Prop} [Decidable p] (h : b = true ↔ p) : boolWord b = Spec.cond p := by
  unfold boolWord Spec.cond
  simp only [h]
  rfl

section

variable (d a b : Reg)

/-- A shuffle by a uniform operand's low 6 bits (R195), or QXCH by its low 3 (R196). -/
theorem shuffle_acts {i : Instr} {bits : Nat} (hbits : bits ≤ 32) {m : Nat → Nat → Int}
    (hexec : ∀ s : State, exec i s = laneOp d 1 [a, b] (fun c => [c.low b bits])
      (fun c l => ⟨[c.fromLane a l (m l (c.low b bits c.first).toNat)], {}⟩) s)
    (hform : ∀ s : State, s.formOf i = laneForm d 1 [a, b]) :
    LaneActs i ⟨d, 1, some (b, bits), fun c l => [Spec.fromLane c a l (m l (Spec.low c b bits))]⟩ [a, b] (fun c => [c.low b bits])
      (fun c l => ⟨[c.fromLane a l (m l (c.low b bits c.first).toNat)], {}⟩) where
  exec := hexec
  form := hform
  uniform c c' h ha := by
    rw [List.all_cons, agree_uniform h (ha b bits rfl)]
    rfl
  word c l k _ _ := by rw [low_toNat c b hbits]; rfl
  flags _ _ := flags_none_word
  congr c c' h l := by simp only [h.low, h.fromLane]

end

/-- Each instruction of the statement's table. -/
theorem laneResult_acts {i : Instr} {o : LaneFn} (h : laneResult i = some o) : ∃ srcs uni out, LaneActs i o srcs uni out := by
  have hall : ∀ c : Ctx, ([] : List (Nat → Word)).all c.uniform = true := fun _ => rfl
  cases i with
  | shfl d a b =>
    cases h
    refine ⟨[a, b], fun _ => [], _, ⟨fun s => (show exec _ s = execShfl d a b s from rfl), fun _ => rfl, fun _ c' _ _ => hall c', fun c l k _ _ => ?_,
      fun _ _ => flags_none_word, fun c c' h l => by simp only [h.reg, h.fromLane]⟩⟩
    have hlow : (c.low b 6 l).toNat = (c.reg b l).toNat % 64 := by
      rw [Ctx.low, BitVec.toNat_ofNat]
      omega
    rw [hlow]
    rfl
  | shflup d a b =>
    cases h
    exact ⟨_, _, _, shuffle_acts d a b (m := fun l n => (l : Int) - n) (by decide) (fun s => (show exec _ s = execShflup d a b s from rfl)) fun _ => rfl⟩
  | shfldn d a b =>
    cases h
    exact ⟨_, _, _, shuffle_acts d a b (m := fun l n => (l : Int) + n) (by decide) (fun s => (show exec _ s = execShfldn d a b s from rfl)) fun _ => rfl⟩
  | shflx d a b =>
    cases h
    exact ⟨_, _, _, shuffle_acts d a b (m := fun l n => ((l ^^^ n : Nat) : Int)) (by decide) (fun s => (show exec _ s = execShflx d a b s from rfl)) fun _ => rfl⟩
  | qxch d a b =>
    cases h
    exact ⟨_, _, _, shuffle_acts d a b (m := fun l n => (qxchLane l n : Nat)) (by decide) (fun s => (show exec _ s = execQxch d a b s from rfl)) fun _ => rfl⟩
  | ballot d a =>
    cases h
    refine ⟨[a], fun _ => [], _, ⟨fun s => (show exec _ s = execBallot d a s from rfl), fun _ => rfl, fun _ c' _ _ => hall c', fun c l k _ _ => ?_,
      fun _ _ => flags_none_word, fun c c' h l => by simp only [h.reg, h.votes]⟩⟩
    rw [lanesWith_eq_votes c _ (fun k => c.reg a k ≠ 0) fun l => bne_iff_ne]
    rfl
  | laneMatch d a =>
    cases h
    refine ⟨[a], fun _ => [], _, ⟨fun s => (show exec _ s = execLaneMatch d a s from rfl), fun _ => rfl, fun _ c' _ _ => hall c', fun c l k _ _ => ?_,
      fun _ _ => flags_none_word, fun c c' h l => by simp only [h.reg, h.votes]⟩⟩
    rw [lanesWith_eq_votes c _ (fun k => c.reg a k = c.reg a l) fun _ => beq_iff_eq]
    rfl
  | vany d a =>
    cases h
    refine ⟨[a], fun _ => [], _, ⟨fun s => (show exec _ s = execVany d a s from rfl), fun _ => rfl, fun _ c' _ _ => hall c', fun c l k _ _ => ?_,
      fun _ _ => flags_none_word, fun c c' h l => by simp only [h.reg, h.votes]⟩⟩
    refine congrArg (fun w => ([w] : List Word).getD k 0) (boolWord_of_iff ?_)
    rw [ne_eq, votes_eq_zero_iff]
    simp [mem_lanesOf]
  | vall d a =>
    cases h
    refine ⟨[a], fun _ => [], _, ⟨fun s => (show exec _ s = execVall d a s from rfl), fun _ => rfl, fun _ c' _ _ => hall c', fun c l k _ _ => ?_,
      fun _ _ => flags_none_word, fun c c' h l => by simp only [h.reg, h.votes]⟩⟩
    refine congrArg (fun w => ([w] : List Word).getD k 0) (boolWord_of_iff ?_)
    rw [votes_eq_zero_iff]
    simp [mem_lanesOf]
  | elect d =>
    cases h
    exact ⟨[], fun _ => [], _, ⟨fun s => (show exec _ s = execElect d s from rfl), fun _ => rfl, fun _ c' _ _ => hall c', fun c l k _ _ =>
      congrArg (fun w => ([w] : List Word).getD k 0) (boolWord_of_iff beq_iff_eq),
      fun _ _ => flags_none_word, fun c c' h l => by simp only [h.first]⟩⟩
  | ired d a b =>
    cases h
    refine ⟨[a, b], fun c => [c.low b 3], _, ⟨fun s => (show exec _ s = execIred d a b s from rfl), fun _ => rfl, fun c c' h ha => ?_, fun c l k _ _ => ?_,
      fun _ _ => flags_none_word, fun c c' h l => by simp only [h.low, h.cnt, h.reg]⟩⟩
    · rw [List.all_cons, agree_uniform h (ha b 3 rfl)]
      rfl
    · dsimp only
      rw [reduceTree_int, low_toNat c b (by decide)]
      rfl
  | iscan d a b =>
    cases h
    refine ⟨[a, b], fun c => [c.low b 3], _, ⟨fun s => (show exec _ s = execIscan d a b s from rfl), fun _ => rfl, fun c c' h ha => ?_, fun c l k hl _ => ?_,
      fun _ _ => flags_none_word, fun c c' h l => by simp only [h.low, h.cnt, h.reg]⟩⟩
    · rw [List.all_cons, agree_uniform h (ha b 3 rfl)]
      rfl
    · dsimp only
      rw [scanAll_int c a _ (hasLane_lt hl), low_toNat c b (by decide)]
      rfl
  | _ => cases h

theorem crossLaneEffects_hold : crossLaneEffectsHold := by
  intro s i c o ho hr hn ha
  obtain ⟨srcs, uni, out, hi⟩ := laneResult_acts ho
  have hR := shadow_regionOnly c (laneForm o.d o.u srcs)
  refine ⟨_, (hi.exec s).trans (collective_acts (f := laneForm o.d o.u srcs) hr.ctx (hi.form s ▸ hr.checks) (hi.form s ▸ hr.room) hn (hi.uniform c _ hR ha) rfl), ?_⟩
  refine ends_writeV_plain hr.ctx rfl (fun l k hl hk => ?_) fun l _ => hi.flags _ l
  rw [hi.word _ l k (by rw [hR.set]; exact hl) hk, hi.congr c _ hR]

/-! ### Floating-point reductions and scans (R198, R144) -/

/-- The generator after FRED or FSCAN. -/
def redSeed (c : Ctx) (sel : Nat) : Word := if (sel = 0 ∨ sel = 3) ∧ c.w.rm = .stoch then seedStep c.w.srseed else c.w.srseed

/-- The wave under which the steps of FRED and FSCAN draw, from a context with the copies of R336 made. -/
theorem drawn_eq {c c' : Ctx} (h : RegionOnly c c') (sel : Nat) :
    (if sel = 0 ∨ sel = 3 then c'.w.draw c'.w.rm else c'.w) = withSeed c'.w (redSeed c sel) := by
  have hrm : c'.w.rm = c.w.rm := by rw [h.w]; rfl
  have hseed : c'.w.srseed = c.w.srseed := by rw [h.w]
  unfold redSeed Wave.draw withSeed
  rw [hrm, ← hseed]
  by_cases hs : sel = 0 ∨ sel = 3
  · by_cases hm : c.w.rm = .stoch
    · simp only [hs, hm, and_self, if_true]
    · simp only [hs, hm, and_false, if_true, if_false]
  · simp only [hs, false_and, if_false]

/-- A step of the model is the statement's. -/
theorem fpCombine_eq_fpStep {c c' : Ctx} (h : RegionOnly c c') (sel : Nat) (seed : Word) :
    fpCombine (withSeed c'.w seed) sel = fpStep c sel seed.toNat := by
  have hrm : c'.w.rm = c.w.rm := by rw [h.w]; rfl
  have hftz : c'.w.ftz = c.w.ftz := by rw [h.w]; rfl
  funext l j x y
  unfold fpCombine fpStep fpRound
  change (match sel with
    | 0 => _ | 1 => _ | 2 => _ | _ => _) = _
  rw [BitVec.ofNat_toNat, BitVec.setWidth_eq, ← hrm, ← hftz]
  rfl

section

variable {s : State} {c : Ctx} {d a b : Reg}

/-- The form of FRED and FSCAN. -/
def redForm (d a b : Reg) : Form := { dst := [(d, 1)], src := [(a, 1), (b, 1)] }

/-- A floating-point reduction or scan ends with the words and flags its lanes' steps make. -/
theorem fpLaneOp_ends {out : Ctx → Wave → Nat → Nat → LaneOut} (hc : s.ctx = some c) (hk : c.check (redForm d a b) = none)
    (hroom : c.w.shadowRoom (c.targets (redForm d a b)) = true) (hn : c.cnt ≠ 0) (ha : agree c b 2)
    {val : Nat → Nat → Word} {flags : Nat → Word}
    (hout : ∀ c', RegionOnly c c' → ∀ l, hasLane c.set l = true →
      (out c' (withSeed c'.w (redSeed c (Spec.low c b 2))) (Spec.low c b 2) l).word 0 = val l 0 ∧
      (out c' (withSeed c'.w (redSeed c (Spec.low c b 2))) (Spec.low c b 2) l).flags.word = flags l) :
    ∃ t, fpLaneOp d a b out s = .next t ∧
      Ends s t c (withSeed (c.owing d 1 val flags) (redSeed c (Spec.low c b 2))) fun _ => c.pc + 4 := by
  have hR := shadow_regionOnly c (redForm d a b)
  have hu : [(c.shadow (redForm d a b)).low b 2].all (c.shadow (redForm d a b)).uniform = true := by
    rw [List.all_cons, agree_uniform hR ha]
    rfl
  refine ⟨_, collective_acts (f := redForm d a b) hc hk hroom hn hu rfl, ?_⟩
  dsimp only
  rw [low_toNat _ b (by decide), hR.low, drawn_eq hR]
  refine ends_writeV hc rfl (by rw [hR.wid]; exact WaveOnly.upd _ _ _) ?_ (fun l k hl hk => ?_) fun l hl => (hout _ hR l hl).2
  · rw [hR.wid]
    exact (Tbl.get?_upd_self _ _ _).trans (by rw [shadow_wave hc]; rfl)
  · obtain rfl : k = 0 := by omega
    exact (hout _ hR l hl).1

end

theorem floatReductions_hold : floatReductionsHold := by
  intro s c d a b hn ha sel seed f tree scan
  have hparts : ∀ c', RegionOnly c c' → c'.parts a = (List.range 64).map fun l => (leafOf c a l, {}) := fun c' h => by
    rw [parts_eq, h.leafOf]
  refine ⟨fun hr => ?_, fun hr => ?_⟩
  · rw [show exec (.fred d a b) s = execFred d a b s from rfl]
    refine fpLaneOp_ends (val := fun _ _ => tree.1.getD 0) (flags := fun _ => tree.2.word) hr.ctx hr.checks hr.room hn ha
      fun c' h l _ => ?_
    rw [fpCombine_eq_fpStep h, hparts c' h, reduceTree_eq_node]
    exact ⟨rfl, rfl⟩
  · rw [show exec (.fscan d a b) s = execFscan d a b s from rfl]
    refine fpLaneOp_ends (val := fun l _ => (scan l).1.getD 0) (flags := fun l => (scan l).2.word) hr.ctx hr.checks hr.room hn ha
      fun c' h l hl => ?_
    rw [fpCombine_eq_fpStep h, hparts c' h, scanAll_eq_scanned _ _ (hasLane_lt hl)]
    exact ⟨rfl, rfl⟩

/-- Settles O8: every collective whose uniform operands agree leaves its lanes' words outstanding; the model's tree and scan are those of
R152 and R153 for every step, and for an associative one they join the counted lanes' values in order. -/
theorem crossLaneEffects : Obligations.CrossLaneEffects := ⟨crossLaneEffects_hold, floatReductions_hold⟩

end Sys2Proof.Machine

/-! PROOFS. Speculation regions: commit, the end of cautious mode, and rollback (O23). -/

namespace Sys2Proof.Machine

open Spec

/-! ### What may commit, and what stops it -/

/-- A wave that may commit in `t` is there in `s`, and may commit there. -/
def Calmer (s t : State) : Prop :=
  ∀ k w, t.waves.get? k = some w → w.mayCommit = true → ∃ v, s.waves.get? k = some v ∧ v.mayCommit = true

/-- The wave of a number may not commit. -/
def CalmAt (s : State) (k : Nat) : Prop := ∀ w, s.waves.get? k = some w → w.mayCommit = false

theorem mayCommit_of_no_region {w : Wave} (h : w.region = none) : w.mayCommit = false := by
  rw [Wave.mayCommit, h]

namespace Calmer

theorem refl (s : State) : Calmer s s := fun _ w hw hm => ⟨w, hw, hm⟩

theorem trans {a b c : State} (h : Calmer a b) (k : Calmer b c) : Calmer a c := fun j w hw hm => by
  obtain ⟨v, hv, hm'⟩ := k j w hw hm
  exact h j v hv hm'

theorem of_waves {s t : State} (h : t.waves = s.waves) : Calmer s t := fun _ w hw hm => ⟨w, by rw [← h]; exact hw, hm⟩

theorem foldl {α : Type} (f : State → α → State) (hf : ∀ s a, Calmer s (f s a)) (l : List α) (s : State) : Calmer s (l.foldl f s) :=
  foldl_keeps (P := Calmer s) f (fun t a h => h.trans (hf t a)) l s (.refl s)

theorem calmAt {s t : State} (h : Calmer s t) {k : Nat} (hs : CalmAt s k) : CalmAt t k := fun w hw =>
  Bool.eq_false_iff.2 fun hm => by
    obtain ⟨v, hv, hm'⟩ := h k w hw hm
    rw [hs v hv] at hm'
    cases hm'

/-- A wave put back so that it may commit only if it might before. -/
theorem setWave {s : State} {wid : Nat} {w w' : Wave} (hw : s.waves.get? wid = some w)
    (h : w'.mayCommit = true → w.mayCommit = true) : Calmer s (s.setWave wid w') := by
  intro k v hv hm
  by_cases hk : k = wid
  · subst hk
    obtain rfl := Option.some.inj ((Tbl.get?_put_self s.waves k w').symm.trans hv)
    exact ⟨w, hw, h hm⟩
  · exact ⟨v, (Tbl.get?_put_ne s.waves hk w').symm.trans hv, hm⟩

theorem updWave (s : State) (wid : Nat) (f : Wave → Wave) (h : ∀ w, (f w).mayCommit = true → w.mayCommit = true) :
    Calmer s (s.updWave wid f) := by
  cases hw : s.waves.get? wid with
  | none => exact of_waves (show s.waves.upd wid f = s.waves by rw [Tbl.upd, hw])
  | some w =>
    have hput : s.updWave wid f = s.setWave wid (f w) := by rw [State.updWave, State.setWave, Tbl.upd, hw]
    rw [hput]
    exact setWave hw (h w)

/-! ### Rollbacks, checks and void completions -/

theorem voidCmd (s : State) (cid : Nat) : Calmer s (s.voidCmd cid) := by
  cases h : s.cmds.get? cid with
  | none => rw [voidCmd_of_none h]; exact .refl s
  | some c => rw [voidCmd_of_some h]; exact of_waves rfl

theorem atWaymark_waves (s : State) (wid : Nat) (w : Wave) (r : Region) :
    (s.atWaymark wid w r).waves = s.waves.put wid (w.toWaymark r) := by
  unfold State.atWaymark
  dsimp only
  split <;> rfl

theorem rollbackOne (s : State) (wid : Nat) : Calmer s (s.rollbackOne wid) := by
  cases hw : s.waves.get? wid with
  | none => rw [State.rollbackOne, hw]; exact .refl s
  | some w =>
    cases hr : w.region with
    | none => rw [State.rollbackOne, hw]; dsimp only; rw [hr]; exact .refl s
    | some r =>
      have hno : (w.toWaymark r).mayCommit = false := mayCommit_of_no_region rfl
      have hset : Calmer s (s.setWave wid (w.toWaymark r)) := setWave hw fun h => by rw [hno] at h; cases h
      rw [rollbackOne_of_region hw hr]
      exact (hset.trans (of_waves (atWaymark_waves s wid w r))).trans (.foldl _ voidCmd _ _)

theorem rollback (fuel : Nat) : ∀ (ws : List Nat) (s : State), Calmer s (State.rollback fuel ws s) := by
  induction fuel with
  | zero => exact fun _ s => .refl s
  | succ fuel ih =>
    intro ws s
    cases ws with
    | nil => exact .refl s
    | cons wid rest => exact (rollbackOne s wid).trans (ih _ _)

theorem check (s : State) (ls : List Loc) (writer : Option Nat) : Calmer s (s.check ls writer) := by
  unfold State.check
  dsimp only
  split
  · exact .refl s
  · exact rollback _ _ _

/-! ### Commits -/

theorem freeHeld (s : State) (wid cid : Nat) : Calmer s (s.freeHeld wid cid) := by
  unfold State.freeHeld
  split
  · exact .refl s
  · next c _ =>
    split
    · next q _ =>
      have hdel : Calmer s { s with cmds := s.cmds.del cid } := of_waves rfl
      have hupd : Calmer ({ s with cmds := s.cmds.del cid }.check [.chan c.tid q] (some wid))
          ({ s with cmds := s.cmds.del cid }.unbind c.tid q (some wid)) := of_waves rfl
      exact (hdel.trans (check _ _ _)).trans hupd
    · exact of_waves rfl

theorem commit (s : State) (wid : Nat) : Calmer s (s.commit wid) ∧ CalmAt (s.commit wid) wid := by
  cases hw : s.waves.get? wid with
  | none =>
    rw [State.commit, hw]
    exact ⟨.refl s, fun w h => by rw [hw] at h; cases h⟩
  | some w =>
    rw [State.commit, hw]
    dsimp only
    have hfold := fun u : State => Calmer.foldl (fun s c => s.freeHeld wid c) (fun s c => freeHeld s wid c) (s.heldOf wid 0).reverse u
    refine ⟨(setWave hw fun h => ?_).trans ((of_waves rfl).trans (hfold _)), (hfold _).calmAt fun v hv => ?_⟩
    · rw [mayCommit_of_no_region rfl] at h
      cases h
    · obtain rfl := Option.some.inj ((Tbl.get?_put_self s.waves wid _).symm.trans hv)
      exact mayCommit_of_no_region rfl

theorem commitOne (s : State) (k : Nat) :
    Calmer s (if ((s.waves.get? k).map (·.mayCommit)).getD false then s.commit k else s) := by
  split
  · exact (commit s k).1
  · exact .refl s

theorem commitAll (s : State) : Calmer s s.commitAll := by
  unfold State.commitAll
  exact foldl _ (fun s (e : Nat × Wave) => commitOne s e.1) _ s

end Calmer

/-- The fold of `commitAll` leaves none of the listed waves that may commit. -/
theorem calmAt_commits {k : Nat} (es : Tbl Wave) : ∀ s : State, k ∈ es.map (·.1) →
    CalmAt (es.foldl (fun s e => if ((s.waves.get? e.1).map (·.mayCommit)).getD false then s.commit e.1 else s) s) k := by
  induction es with
  | nil => exact fun _ h => nomatch h
  | cons e es ih =>
    intro s h
    rw [List.foldl_cons]
    by_cases hk : k ∈ es.map (·.1)
    · exact ih _ hk
    · obtain rfl : k = e.1 := (List.mem_cons.1 h).resolve_right hk
      refine (Calmer.foldl _ (fun s e => Calmer.commitOne s e.1) es _).calmAt ?_
      split
      · exact (Calmer.commit s e.1).2
      · next hno =>
        intro w hw
        rw [hw] at hno
        exact Bool.eq_false_iff.2 hno

/-- After `commitAll` no wave may commit. -/
theorem calm_commitAll (s : State) (k : Nat) : CalmAt s.commitAll k := by
  by_cases hk : k ∈ s.waves.map (·.1)
  · exact calmAt_commits s.waves s hk
  · refine (Calmer.commitAll s).calmAt fun w hw => ?_
    exact absurd (List.mem_map_of_mem (f := Prod.fst) (mem_of_get? hw)) hk

namespace Calmer

/-! ### What follows the commits of a step -/

theorem changeHandle (s : State) (core i : Nat) (writer : Option Nat) (f : Handle → Handle) :
    Calmer s (s.changeHandle core i writer f) := by
  refine (check s [handleLoc core i] writer).trans (of_waves ?_)
  unfold State.changeHandle
  dsimp only
  split
  · rfl
  · rw [if_neg (by decide)]
    rfl

theorem creditBarrier (s : State) (tid a : Nat) (n : Int) (writer : Option Nat) : Calmer s (s.creditBarrier tid a n writer) :=
  (check _ _ _).trans (of_waves rfl)

theorem mayCommit_drainFlags (w : Wave) (f : Word) : (w.drainFlags f).mayCommit = w.mayCommit := by
  unfold Wave.drainFlags
  split
  · rfl
  · split
    · rfl
    · cases hr : w.region <;> simp [Wave.mayCommit, hr]

theorem teamsOnly {s t : State} (h : TeamsOnly s t) : Calmer s t := of_waves (by rw [h])

theorem completeIn (s : State) (wid : Nat) (h : Nat × Nat) : Calmer s (State.completeIn s wid h) := changeHandle _ _ _ _ _

theorem completeOut (s : State) (wid : Nat) (h : Nat × Nat) : Calmer s (State.completeOut s wid h) := changeHandle _ _ _ _ _

theorem withCmds (s : State) (m : Tbl Cmd) : Calmer s { s with cmds := m } := of_waves rfl

theorem completeCmd (s : State) (x : Nat) (c : Cmd) (n : Nat) : Calmer s (s.completeCmd x c n) := by
  rw [State.completeCmd]
  refine trans ?_ (withCmds _ _)
  refine trans ?_ (updWave _ _ _ fun w h => by rw [mayCommit_drainFlags] at h; exact h)
  refine trans ?_ ((check _ _ _).trans (teamsOnly (completeTicket_teamsOnly _ _ _)))
  refine trans ?_ (foldl _ (fun s (b : Nat × Nat) => creditBarrier s b.1 b.2 _ _) c.barriers _)
  refine trans ?_ (teamsOnly (present_teamsOnly c.lines _))
  exact (foldl _ (fun s h => completeIn s c.wid h) c.inb s).trans (foldl _ (fun s h => completeOut s c.wid h) c.outb _)

theorem endEmpty (s : State) : Calmer s s.endEmpty := by
  unfold State.endEmpty
  exact foldl _ (fun s (e : Nat × Cmd) => completeCmd s e.1 e.2 0) _ s

theorem fabAnswered_waves (s : State) (p : OutReq → Bool) : (s.fabAnswered p).waves = s.waves := by
  have hfold : ∀ (rs : List OutReq) (s : State), (rs.foldl (fun s r => match r.port with
      | some k => s.setLink k { s.link k with acked := max (s.link k).acked (min r.flit (s.flitOn (some k))) }
      | none => s) s).waves = s.waves := fun rs => by
    induction rs with
    | nil => exact fun _ => rfl
    | cons r rs ih =>
      intro s
      rw [List.foldl_cons, ih]
      split <;> rfl
  exact hfold _ s

theorem hear (s : State) : Calmer s s.hear := by
  unfold State.hear
  dsimp only
  split
  · exact .refl s
  · exact of_waves (fabAnswered_waves s _)

theorem mayCommit_endTurn (s : State) (wid : Nat) (w : Wave) : (s.endTurn wid w).mayCommit = w.mayCommit := by
  unfold State.endTurn
  split
  · split <;> rfl
  · rfl

/-- The entry of a table whose values change by their keys. -/
theorem get?_map_entry {α β : Type} (f : Nat × α → β) (t : Tbl α) (k : Nat) :
    Tbl.get? (t.map fun e => (e.1, f e)) k = (t.get? k).map fun v => f (k, v) := by
  induction t with
  | nil => rfl
  | cons e t ih =>
    obtain ⟨j, v⟩ := e
    by_cases hj : j = k
    · subst hj
      simp [Tbl.get?]
    · simpa [Tbl.get?, hj] using ih

theorem endTurns (s : State) : Calmer s s.endTurns := by
  intro k w hw hm
  have hget : s.endTurns.waves.get? k =
      (s.waves.get? k).map fun v => if v.sweep.isSome then s.endTurn k v else v := get?_map_entry _ _ _
  rw [hget] at hw
  obtain ⟨v, hv, rfl⟩ := Option.map_eq_some_iff.1 hw
  refine ⟨v, hv, ?_⟩
  split at hm
  · rw [← hm, mayCommit_endTurn]
  · exact hm

end Calmer

/-- R338: after a step no wave may commit. -/
theorem calm_step {s t : State} (h : step s = .next t) (k : Nat) : CalmAt t k := by
  obtain ⟨u, rfl⟩ : ∃ u : State, t = u.instant := by
    unfold step State.stepOne at h
    split at h
    · next u _ => exact ⟨u, by cases h; rfl⟩
    · next x hx => exact absurd h (hx t)
  have hlate : Calmer u.commitAll.postNow.commitAll u.instant :=
    ((Calmer.endEmpty _).trans (Calmer.hear _)).trans (Calmer.endTurns _)
  exact hlate.calmAt (calm_commitAll _ k)

/-! ### REGION_COMMIT -/

theorem get?_of_mem {α : Type} {t : Tbl α} {lo : Nat} (h : Tbl.ascending lo t = true) {k : Nat} {x : α} (hm : (k, x) ∈ t) :
    Tbl.get? t k = some x := by
  induction t generalizing lo with
  | nil => cases hm
  | cons e t ih =>
    obtain ⟨j, y⟩ := e
    simp only [Tbl.ascending, Bool.and_eq_true, decide_eq_true_eq] at h
    rcases List.mem_cons.1 hm with heq | hm
    · obtain ⟨rfl, rfl⟩ := Prod.mk.inj heq
      simp [Tbl.get?]
    · have hk : Tbl.get? t k = some x := ih h.2 hm
      have hne : j ≠ k := fun hj => by
        rw [← hj, get?_eq_none_of_lt h.2 (Nat.lt_succ_self j)] at hk
        cases hk
      rw [Tbl.get?, if_neg hne, hk]

/-- A held command goes on. -/
def Cmd.unheld (c : Cmd) : Cmd := { c with held := false }

/-- Commands go on. -/
def releaseAll (t : Tbl Cmd) (ks : List Nat) : Tbl Cmd := ks.foldl (fun t k => t.upd k Cmd.unheld) t

theorem get?_releaseAll (ks : List Nat) (j : Nat) : ∀ t : Tbl Cmd,
    (releaseAll t ks).get? j = if j ∈ ks then (t.get? j).map Cmd.unheld else t.get? j := by
  induction ks with
  | nil => exact fun _ => rfl
  | cons k ks ih =>
    intro t
    refine (ih _).trans ?_
    by_cases hj : j = k
    · subst hj
      rw [Tbl.get?_upd_self, if_pos List.mem_cons_self]
      split
      · rw [Option.map_map]; rfl
      · rfl
    · rw [Tbl.get?_upd_ne _ hj]
      simp only [List.mem_cons, hj, false_or]

theorem freeHeld_eq {s : State} {wid k : Nat} (h : ∀ c q, s.cmds.get? k = some c → c.kind ≠ .qunbind q) :
    s.freeHeld wid k = { s with cmds := s.cmds.upd k Cmd.unheld } := by
  unfold State.freeHeld
  split
  · next hk => rw [Tbl.upd, hk]
  · next c hk =>
    split
    · next q hq => exact absurd hq (h c q hk)
    · rfl

theorem freeHeld_fold {wid : Nat} (ks : List Nat) : ∀ {s : State},
    (∀ k ∈ ks, ∀ c q, s.cmds.get? k = some c → c.kind ≠ .qunbind q) →
    ks.foldl (fun s c => s.freeHeld wid c) s = { s with cmds := releaseAll s.cmds ks } := by
  induction ks with
  | nil => exact fun _ => rfl
  | cons k ks ih =>
    intro s h
    rw [List.foldl_cons, freeHeld_eq (h k List.mem_cons_self)]
    refine ih fun j hj c q hc => ?_
    change (s.cmds.upd k Cmd.unheld).get? j = some c at hc
    by_cases hjk : j = k
    · subst hjk
      rw [Tbl.get?_upd_self] at hc
      obtain ⟨d, hd, rfl⟩ := Option.map_eq_some_iff.1 hc
      exact h j List.mem_cons_self d q hd
    · rw [Tbl.get?_upd_ne _ hjk] at hc
      exact h j (List.mem_cons_of_mem _ hj) c q hc

/-- The wave of a region that has committed. -/
def Wave.committed (w : Wave) : Wave :=
  { w with
    region := none
    rollbacks := 0
    outst := w.outst.map fun o => if o.toReg then o else { o with dst := none, toReg := true }
    sbuf := w.sbuf.map fun e => { e with held := false }
    spilling := w.spilling.map fun l => l.map fun e => { e with held := false } }

theorem mem_heldOf_iff {s : State} {wid k : Nat} :
    k ∈ (s.heldOf wid 0).reverse ↔ ∃ c, (k, c) ∈ s.cmds ∧ c.wid = wid ∧ c.held = true := by
  simp [State.heldOf]

theorem commit_eq {s : State} {wid : Nat} {w : Wave} (hw : s.waves.get? wid = some w)
    (h : ∀ k ∈ (s.heldOf wid 0).reverse, ∀ c q, s.cmds.get? k = some c → c.kind ≠ .qunbind q) :
    s.commit wid = { s with
      waves := s.waves.put wid w.committed, cores := (s.count (((s.teams.get? w.tid).map (·.core)).getD 0) 2).cores
      cmds := releaseAll s.cmds (s.heldOf wid 0).reverse } := by
  rw [State.commit, hw]
  exact freeHeld_fold _ h

theorem regionCommits : regionCommitsHold := by
  refine ⟨fun s t h k w hw => calm_step h k w hw, ?_, ?_⟩
  · intro s w r hw hr hirrev hold hasc hkind
    have hmay : w.mayCommit = true := by
      rw [Wave.mayCommit, hr]
      simpa [hirrev] using hold
    have hcan : s.canCommit s.ev.x = true := by rw [State.canCommit, hw]; exact hmay
    have hheld : ∀ k ∈ (s.heldOf s.ev.x 0).reverse, ∀ c q, s.cmds.get? k = some c → c.kind ≠ .qunbind q := by
      intro k hk c q hc
      obtain ⟨c', hmem, hwid, hh⟩ := mem_heldOf_iff.1 hk
      obtain rfl := Option.some.inj (hc.symm.trans (get?_of_mem hasc hmem))
      exact hkind k c q hc hwid hh
    have hexec : exec .regionCommit s = .next (s.commit s.ev.x) := by
      rw [show exec .regionCommit s = execRegionCommit s from rfl, execRegionCommit, if_pos hcan]
    rw [commit_eq hw hheld] at hexec
    refine ⟨_, w.committed, hexec, SameStore.bytes ⟨rfl, rfl, rfl, rfl, rfl, rfl, rfl, rfl, rfl, rfl, rfl⟩,
      Tbl.get?_put_self _ _ _, rfl, rfl, rfl, rfl, fun k c hk => ?_, fun k hk => Tbl.get?_put_ne _ hk _, rfl⟩
    refine (get?_releaseAll _ k _).trans ?_
    rw [hk]
    have hiff := @mem_heldOf_iff s s.ev.x k
    by_cases hwid : c.wid = s.ev.x
    · rw [if_pos hwid]
      split
      · rfl
      · next hno =>
        have hfree : c.held = false := Bool.eq_false_iff.2 fun hh => hno (hiff.2 ⟨c, mem_of_get? hk, hwid, hh⟩)
        rw [← hfree]
    · rw [if_neg hwid, if_neg]
      intro hin
      obtain ⟨c', hmem, hwid', -⟩ := hiff.1 hin
      obtain rfl := Option.some.inj (hk.symm.trans (get?_of_mem hasc hmem))
      exact hwid hwid'
  · intro s w hw hc
    have hend : s.canEndCautious s.ev.x = true := by rw [State.canEndCautious, hw]; exact beq_iff_eq.2 hc
    rw [show exec .cautiousModeEnd s = execCautiousModeEnd s from rfl, execCautiousModeEnd, if_pos hend, State.updWave, Tbl.upd, hw]

/-! ### Rollback -/

theorem get_putLanes (w : Wave) (n : Nat) (vals : Tbl Word) (m l : Nat) (hl : l < 64) :
    (w.putLanes n vals).regs.get 0 (64 * m + l) = if m = n then vals.get 0 l else w.regs.get 0 (64 * m + l) := by
  have hfold : ∀ (ls : List Nat) (r : Tbl Word), (∀ j ∈ ls, j < 64) →
      (ls.foldl (fun r j => r.set 0 (64 * n + j) (vals.get 0 j)) r).get 0 (64 * m + l) =
        if m = n ∧ l ∈ ls then vals.get 0 l else r.get 0 (64 * m + l) := fun ls => by
    induction ls with
    | nil => exact fun r _ => by simp
    | cons j ls ih =>
      intro r hls
      rw [List.foldl_cons, ih _ fun i hi => hls i (List.mem_cons_of_mem _ hi), Tbl.get_set]
      have hj : j < 64 := hls j List.mem_cons_self
      by_cases hmn : m = n
      · subst hmn
        by_cases hjl : l = j
        · subst hjl; simp
        · have hne : ¬ 64 * m + l = 64 * m + j := by omega
          simp [hjl]
      · have hne : ¬ 64 * m + l = 64 * n + j := by omega
        simp [hmn, hne]
  exact (hfold _ w.regs fun j hj => List.mem_range.1 hj).trans (by simp [hl])

/-- The registers a waymark puts back: the copies of its shadow storage. -/
def Wave.restored (w : Wave) (sh : Tbl (Tbl Word)) : Wave := sh.foldl (fun w e => w.putLanes e.1 e.2) w

theorem restored_eq (sh : Tbl (Tbl Word)) : ∀ w : Wave, ∃ regs, w.restored sh = { w with regs := regs } := by
  induction sh with
  | nil => exact fun w => ⟨w.regs, rfl⟩
  | cons e sh ih => exact fun w => ih (w.putLanes e.1 e.2)

theorem toWaymark_eq (w : Wave) (r : Region) : w.toWaymark r = { w with
    regs := (w.restored r.shadow).regs, pcs := pcsRemove (~~~w.live) r.pcs, base := r.base, fpmode := r.fpmode
    fflags := r.fflags, srseed := r.srseed, tsMark := r.tsMark, sbuf := w.sbuf.filter fun e => e.seq < r.seq
    outst := (w.outst.filter fun o => o.seq < r.seq).map fun o => { o with toReg := true }
    sleep := none, waiting := none, absentWait := false, stop := none, parked := false, spilling := none, region := none
    rollbacks := if w.rollbacks = 3 then 0 else w.rollbacks + 1
    cautious := if w.rollbacks = 3 then 1025 else w.cautious } := by
  obtain ⟨regs, h⟩ := restored_eq r.shadow w
  have hnum : (w.rollbacks + 1 = 4) = (w.rollbacks = 3) := by rw [eq_iff_iff]; omega
  unfold Wave.toWaymark
  rw [show r.shadow.foldl (fun w e => w.putLanes e.1 e.2) w = w.restored r.shadow from rfl, h]
  dsimp only
  simp only [hnum]

theorem get_restored (n l : Nat) (hl : l < 64) (sh : Tbl (Tbl Word)) : ∀ {lo : Nat} (w : Wave), Tbl.ascending lo sh = true →
    (w.restored sh).regs.get 0 (64 * n + l) = match sh.get? n with
      | some vals => vals.get 0 l
      | none => w.regs.get 0 (64 * n + l) := by
  induction sh with
  | nil => exact fun _ _ => rfl
  | cons e sh ih =>
    intro lo w h
    obtain ⟨j, vals⟩ := e
    simp only [Tbl.ascending, Bool.and_eq_true, decide_eq_true_eq] at h
    refine (ih (w.putLanes j vals) h.2).trans ?_
    rw [get_putLanes w j vals n l hl]
    by_cases hj : n = j
    · subst hj
      rw [get?_eq_none_of_lt h.2 (Nat.lt_succ_self n)]
      simp [Tbl.get?]
    · simp [Tbl.get?, hj, Ne.symm hj]

theorem readers_nil (s : State) (but : Option Nat) : s.readers [] but = [] := by
  have hno : ∀ e : Nat × Wave, (some e.1 != but && e.2.hasRead []) = false := fun e => by
    cases hr : e.2.region <;> simp [Wave.hasRead, hr]
  simp [State.readers, hno]

theorem rollback_single {s : State} {v : Nat} {w : Wave} {r : Region} {fuel : Nat} (hf : 0 < fuel) (hw : s.waves.get? v = some w)
    (hr : w.region = some r) (hheld : s.heldOf v r.seq = []) : State.rollback fuel [v] s = s.atWaymark v w r := by
  obtain ⟨k, rfl⟩ := Nat.exists_eq_add_of_lt hf
  have hone : s.rollbackOne v = s.atWaymark v w r := by
    have hsame : (s.atWaymark v w r).heldOf v r.seq = [] := by
      rw [← hheld, State.heldOf, State.heldOf, atWaymark_cmds]
    rw [rollbackOne_of_region hw hr, hsame]
    rfl
  rw [Nat.zero_add]
  simp only [State.rollback, hw, Option.bind_some, hr, hheld, List.filterMap_nil, List.flatMap_nil, hone, readers_nil,
    List.append_nil]
  cases k <;> rfl

theorem atWaymark_eq (s : State) (v : Nat) (w : Wave) (r : Region) :
    ∃ cores, s.atWaymark v w r = { s with waves := s.waves.put v (w.toWaymark r), cores := cores } := by
  unfold State.atWaymark
  dsimp only
  split <;> exact ⟨_, rfl⟩

theorem rollbackRestores : rollbackRestoresHold := by
  intro s ls writer v w r hv hw hr hasc hcmds
  have hheld : s.heldOf v r.seq = [] := by
    simpa [State.heldOf, List.filter_eq_nil_iff] using fun k c hm hwid hh => absurd ⟨hwid, hh⟩ (hcmds (k, c) hm)
  have hcheck : s.check ls writer = s.atWaymark v w r := by
    simp only [State.check, hv, List.isEmpty_cons, Bool.false_eq_true, if_false]
    exact rollback_single (by simp) hw hr hheld
  have hwaves : (s.check ls writer).waves = s.waves.put v (w.toWaymark r) := by rw [hcheck, Calmer.atWaymark_waves]
  refine ⟨w.toWaymark r, by rw [hwaves, Tbl.get?_put_self], ?_, ?_, fun n l hl hn => ?_, fun k hk => by
    rw [hwaves, Tbl.get?_put_ne _ hk]⟩
  · obtain ⟨cores, heq⟩ := atWaymark_eq s v w r
    rw [hcheck, heq]
    exact SameStore.bytes ⟨rfl, rfl, rfl, rfl, rfl, rfl, rfl, rfl, rfl, rfl, rfl⟩
  · exact toWaymark_eq w r
  · have hread : (w.toWaymark r).read ⟨false, n⟩ l = (w.restored r.shadow).regs.get 0 (64 * n + l) := by
      rw [toWaymark_eq]
      simp [Wave.read, hn]
    rw [hread, get_restored n l hl r.shadow w hasc]
    cases r.shadow.get? n <;> simp [Wave.read, hn]

/-- Settles O23: no wave may commit after `commitAll`, and what follows it opens no region and keeps no wave from the waymark's
state; a commit and a rollback are worked out field by field. -/
theorem regions : Obligations.Regions := ⟨regionCommits, rollbackRestores⟩

end Sys2Proof.Machine

/-! PROOFS. Magnitudes as rational numbers, and FP32 rounding by them (for O4 and O6). -/

namespace Sys2Proof.Machine

open Spec

/-! ### Magnitudes -/

theorem two_zpow_pos (k : ℤ) : (0 : ℚ) < 2 ^ k := zpow_pos (by norm_num) k

theorem two_zpow_toNat {k : ℤ} (h : 0 ≤ k) : ((2 ^ k.toNat : ℕ) : ℚ) = 2 ^ k := by
  rw [Nat.cast_pow, Nat.cast_ofNat, ← zpow_natCast, Int.toNat_of_nonneg h]

theorem rat_nonneg (m : Mag) : 0 ≤ rat m := div_nonneg (Nat.cast_nonneg _) (Nat.cast_nonneg _)

theorem rat_eq_zero_iff {m : Mag} (hd : 0 < m.d) : rat m = 0 ↔ m.n = 0 := by
  have hd' : (m.d : ℚ) ≠ 0 := by positivity
  simp [rat, hd']

theorem rat_one : rat ⟨1, 1⟩ = 1 := by norm_num [rat]

theorem scale_d_pos {m : Mag} (hd : 0 < m.d) (k : ℤ) : 0 < (m.scale k).d := by
  unfold Mag.scale
  split <;> positivity

theorem scale_n_pos {m : Mag} (hn : 0 < m.n) (k : ℤ) : 0 < (m.scale k).n := by
  unfold Mag.scale
  split <;> positivity

@[simp] theorem rat_scale (m : Mag) (k : ℤ) : rat (m.scale k) = rat m * 2 ^ k := by
  unfold Mag.scale
  split
  · next h =>
    rw [rat, rat, Nat.cast_mul, two_zpow_toNat h]
    ring
  · next h =>
    rw [rat, rat, Nat.cast_mul, two_zpow_toNat (by omega), zpow_neg]
    field_simp

theorem le_iff {x y : Mag} (hx : 0 < x.d) (hy : 0 < y.d) : Mag.le x y = true ↔ rat x ≤ rat y := by
  rw [Mag.le, decide_eq_true_eq, rat, rat, div_le_div_iff₀ (by positivity) (by positivity)]
  exact_mod_cast Iff.rfl

theorem lt_iff {x y : Mag} (hx : 0 < x.d) (hy : 0 < y.d) : Mag.lt x y = true ↔ rat x < rat y := by
  rw [Mag.lt, decide_eq_true_eq, rat, rat, div_lt_div_iff₀ (by positivity) (by positivity)]
  exact_mod_cast Iff.rfl

theorem log2_bounds {m : Mag} (hn : 0 < m.n) (hd : 0 < m.d) : (2 : ℚ) ^ m.log2 ≤ rat m ∧ rat m < 2 ^ (m.log2 + 1) := by
  have hbound : ∀ k : ℕ, 0 < k → (2 : ℚ) ^ (Nat.log2 k : ℤ) ≤ k ∧ (k : ℚ) < 2 ^ ((Nat.log2 k : ℤ) + 1) := fun k hk =>
    ⟨by rw [zpow_natCast]; exact_mod_cast Nat.log2_self_le hk.ne',
      by rw [← Nat.cast_succ, zpow_natCast]; exact_mod_cast Nat.lt_log2_self⟩
  obtain ⟨hn1, hn2⟩ := hbound m.n hn
  obtain ⟨hd1, hd2⟩ := hbound m.d hd
  have hdq : (0 : ℚ) < m.d := by positivity
  set e : ℤ := (Nat.log2 m.n : ℤ) - (Nat.log2 m.d : ℤ) with he
  have hlow : (2 : ℚ) ^ (e - 1) ≤ rat m := by
    rw [rat, le_div_iff₀ hdq]
    calc (2 : ℚ) ^ (e - 1) * m.d ≤ 2 ^ (e - 1) * 2 ^ ((Nat.log2 m.d : ℤ) + 1) := by gcongr
      _ = 2 ^ (Nat.log2 m.n : ℤ) := by rw [← zpow_add₀ (by norm_num), he]; congr 1; ring
      _ ≤ m.n := hn1
  have hhigh : rat m < 2 ^ (e + 1) := by
    rw [rat, div_lt_iff₀ hdq]
    calc (m.n : ℚ) < 2 ^ ((Nat.log2 m.n : ℤ) + 1) := hn2
      _ = 2 ^ (e + 1) * 2 ^ (Nat.log2 m.d : ℤ) := by rw [← zpow_add₀ (by norm_num), he]; congr 1; ring
      _ ≤ 2 ^ (e + 1) * m.d := by gcongr
  have hle : Mag.le (Mag.scale ⟨1, 1⟩ e) m = true ↔ (2 : ℚ) ^ e ≤ rat m := by
    rw [le_iff (scale_d_pos Nat.one_pos e) hd, rat_scale, rat_one, one_mul]
  have hlog : m.log2 = if Mag.le (Mag.scale ⟨1, 1⟩ e) m then e else e - 1 := rfl
  by_cases h : (2 : ℚ) ^ e ≤ rat m
  · rw [hlog, if_pos (hle.2 h)]
    exact ⟨h, hhigh⟩
  · rw [hlog, if_neg (hle.not.2 h), sub_add_cancel]
    exact ⟨hlow, lt_of_not_ge h⟩

/-- The power of two at or below a number is one. -/
theorem binade_unique {x : ℚ} {e k : ℤ} (h1 : (2 : ℚ) ^ e ≤ x) (h2 : x < 2 ^ (e + 1)) (k1 : (2 : ℚ) ^ k ≤ x)
    (k2 : x < 2 ^ (k + 1)) : e = k := by
  have hek : e < k + 1 := (zpow_lt_zpow_iff_right₀ (by norm_num)).1 (h1.trans_lt k2)
  have hke : k < e + 1 := (zpow_lt_zpow_iff_right₀ (by norm_num)).1 (k1.trans_lt h2)
  omega

theorem log2_eq {m : Mag} (hn : 0 < m.n) (hd : 0 < m.d) {e : ℤ} (h1 : (2 : ℚ) ^ e ≤ rat m) (h2 : rat m < 2 ^ (e + 1)) :
    m.log2 = e := binade_unique (log2_bounds hn hd).1 (log2_bounds hn hd).2 h1 h2

/-! ### Rounding to an integer -/

theorem rat_eq_div_add_mod (n : ℕ) {d : ℕ} (hd : 0 < d) : (n : ℚ) / d = (n / d : ℕ) + (n % d : ℕ) / d := by
  have hd' : (d : ℚ) ≠ 0 := by positivity
  field_simp
  exact_mod_cast (Nat.div_add_mod n d).symm

/-- The fraction that a rounding drops lies in [0, 1). -/
theorem frac_bounds (n : ℕ) {d : ℕ} (hd : 0 < d) : 0 ≤ ((n % d : ℕ) : ℚ) / d ∧ ((n % d : ℕ) : ℚ) / d < 1 := by
  have hd' : (0 : ℚ) < d := by positivity
  exact ⟨by positivity, (div_lt_one hd').2 (by exact_mod_cast Nat.mod_lt n hd)⟩

theorem roundNat_cases (rm : Rm) (neg : Bool) (u n d lead : ℕ) :
    roundNat rm neg u n d lead = n / d ∨ roundNat rm neg u n d lead = n / d + 1 := (ite_eq_or_eq _ _ _).symm

theorem roundNat_exact {n d : ℕ} (hd : 0 < d) (h : n % d = 0) (rm : Rm) (neg : Bool) (u lead : ℕ) :
    roundNat rm neg u n d lead = n / d := by
  unfold roundNat
  rw [h]
  cases rm <;> simp <;> omega

theorem roundNat_rne (neg : Bool) (u n lead : ℕ) {d : ℕ} (hd : 0 < d) : |(roundNat .rne neg u n d lead : ℚ) - n / d| ≤ 1 / 2 := by
  have hd' : (0 : ℚ) < d := by positivity
  obtain ⟨hf0, hf1⟩ := frac_bounds n hd
  rw [rat_eq_div_add_mod n hd]
  by_cases hup : d < 2 * (n % d) ∨ (2 * (n % d) = d ∧ (lead + n / d) % 2 = 1)
  · have hr : roundNat .rne neg u n d lead = n / d + 1 := by simp [roundNat, hup]
    have hhalf : (1 : ℚ) / 2 ≤ (n % d : ℕ) / d := by
      rw [div_le_div_iff₀ (by norm_num) hd']
      exact_mod_cast (by omega : 1 * d ≤ n % d * 2)
    rw [hr, abs_le]
    push_cast
    constructor <;> linarith
  · have hr : roundNat .rne neg u n d lead = n / d := by simp [roundNat, hup]
    have hhalf : ((n % d : ℕ) : ℚ) / d ≤ 1 / 2 := by
      rw [div_le_div_iff₀ hd' (by norm_num)]
      exact_mod_cast (by omega : n % d * 2 ≤ 1 * d)
    rw [hr, abs_le]
    constructor <;> linarith

/-! ### FP32 codes -/

/-- The shape of FP32 (R132). -/
def shape32 : Shape2 := ⟨8, 23, 127, true, 0x7F7FFFFF, some 0x7F800000, 0x7FC00000⟩

/-- The magnitude of an FP32 code without its sign. -/
def mag32 (c : ℕ) : Mag := shape32.value c

/-- A magnitude code with a sign. -/
def signed32 (neg : Bool) (c : ℕ) : ℕ := if neg then c + 2 ^ 31 else c

theorem signed32_lt {c : ℕ} (hc : c < 2 ^ 31) (neg : Bool) : signed32 neg c < 2 ^ 32 := by
  cases neg <;> simp [signed32] <;> omega

theorem signed32_mod {c : ℕ} (hc : c < 2 ^ 31) (neg : Bool) : signed32 neg c % 2 ^ 31 = c := by
  cases neg <;> simp [signed32] <;> omega

theorem toNat_signed32 {c : ℕ} (hc : c < 2 ^ 31) (neg : Bool) : (BitVec.ofNat 32 (signed32 neg c)).toNat = signed32 neg c := by
  rw [BitVec.toNat_ofNat, Nat.mod_eq_of_lt (signed32_lt hc neg)]

theorem mag32_d_pos (c : ℕ) : 0 < (mag32 c).d := by
  unfold mag32 Shape2.value
  dsimp only
  split <;> exact scale_d_pos Nat.one_pos _

/-- A significand in a binade: the value of its code, the carry into the next binade and the subnormal codes included. -/
theorem rat_mag32 {ex : ℤ} {q : ℕ} (hex : -126 ≤ ex) (hq : q ≤ 2 ^ 24) (hlow : ex = -126 ∨ 2 ^ 23 ≤ q) :
    rat (mag32 ((ex + 126).toNat * 2 ^ 23 + q)) = q * 2 ^ (ex - 23) := by
  obtain ⟨j, rfl⟩ : ∃ j : ℕ, ex = j - 126 := ⟨(ex + 126).toNat, by omega⟩
  have hcode : ((j : ℤ) - 126 + 126).toNat = j := by omega
  rw [hcode]
  have hval : ∀ k r : ℕ, r < 2 ^ 23 → rat (mag32 (k * 2 ^ 23 + r)) =
      if k = 0 then (r : ℚ) * 2 ^ (-149 : ℤ) else ((2 ^ 23 + r : ℕ) : ℚ) * 2 ^ ((k : ℤ) - 150) := fun k r hr => by
    have hk : (k * 2 ^ 23 + r) / 2 ^ 23 = k := by omega
    have hr' : (k * 2 ^ 23 + r) % 2 ^ 23 = r := by omega
    have hdef : mag32 (k * 2 ^ 23 + r) =
        if k = 0 then Mag.scale ⟨r, 1⟩ (-149) else Mag.scale ⟨2 ^ 23 + r, 1⟩ ((k : ℤ) - 127 - 23) := by
      unfold mag32 Shape2.value shape32
      dsimp only
      rw [hk, hr']
      rfl
    rw [hdef]
    split
    · rw [rat_scale, rat, Nat.cast_one, div_one]
    · rw [rat_scale, rat, Nat.cast_one, div_one, sub_sub]
      norm_num
  by_cases h23 : q < 2 ^ 23
  · obtain rfl : j = 0 := by omega
    rw [hval 0 q h23, if_pos rfl]
    norm_num
  · by_cases h24 : q < 2 ^ 24
    · have hsplit : j * 2 ^ 23 + q = (j + 1) * 2 ^ 23 + (q - 2 ^ 23) := by omega
      rw [hsplit, hval _ _ (by omega), if_neg (by omega), show 2 ^ 23 + (q - 2 ^ 23) = q by omega]
      push_cast
      congr 2
      ring
    · obtain rfl : q = 2 ^ 24 := by omega
      have hsplit : j * 2 ^ 23 + 2 ^ 24 = (j + 2) * 2 ^ 23 + 0 := by omega
      rw [hsplit, hval _ _ (by omega), if_neg (by omega)]
      push_cast
      rw [show (j : ℤ) + 2 - 150 = 1 + ((j : ℤ) - 126 - 23) by ring, zpow_add₀ (by norm_num)]
      norm_num
      ring

theorem f32_signed32 {c : ℕ} (hc : c ≤ 0x7F7FFFFF) (neg : Bool) : f32 (BitVec.ofNat 32 (signed32 neg c)) = .fin neg (mag32 c) := by
  have hc31 : c < 2 ^ 31 := by omega
  have hdec : Kind.fp32.decode (signed32 neg c) = shape32.decode false (signed32 neg c % 2 ^ 32) := rfl
  rw [f32, toNat_signed32 hc31, hdec, Nat.mod_eq_of_lt (signed32_lt hc31 neg)]
  have hsign : (shape32.signed && decide (2 ^ (shape32.e + shape32.t) ≤ signed32 neg c)) = neg := by
    cases neg <;> simp [shape32, signed32]; omega
  have hmag : (if shape32.signed then signed32 neg c % 2 ^ (shape32.e + shape32.t) else signed32 neg c) = c :=
    signed32_mod hc31 neg
  have hinf : ¬ some c = shape32.infCode := by simp [shape32]; omega
  have hmax : ¬ (shape32.maxCode < c) := by simpa [shape32] using hc
  unfold Shape2.decode
  dsimp only
  rw [hsign, hmag]
  simp [hinf, hmax, mag32]

/-- A code with its sign bit reads as a subnormal exactly where its magnitude does. -/
theorem isSub32_signed32 {c : ℕ} (hc : c < 2 ^ 31) (neg : Bool) :
    isSub32 (BitVec.ofNat 32 (signed32 neg c)) = (decide (c < 2 ^ 23) && decide (c ≠ 0)) := by
  rw [isSub32, toNat_signed32 hc, signed32_mod hc]
  have hlow : signed32 neg c % 2 ^ 23 = c % 2 ^ 23 := by cases neg <;> simp [signed32]; omega
  rw [hlow, Bool.eq_iff_iff]
  simp
  omega

/-! ### Rounding to FP32 -/

/-- The exponent of the last place's binade: that of the magnitude, or of the smallest normal. -/
def Mag.binade (m : Mag) : ℤ := max m.log2 (-126)

/-- A magnitude in units of the last place. -/
def Mag.units (m : Mag) : Mag := m.scale (23 - m.binade)

/-- The rounded significand of a magnitude. -/
def Mag.signif (m : Mag) (rm : Rm) (neg : Bool) (u : ℕ) : ℕ :=
  roundNat rm neg u m.units.n m.units.d ((m.binade + 126).toNat * 2 ^ 23)

/-- Whether rounding a magnitude loses something. -/
def Mag.inexact (m : Mag) : Bool := m.units.n % m.units.d != 0

/-- The code of a rounded magnitude, where it does not overflow. -/
def Mag.code (m : Mag) (rm : Rm) (neg : Bool) (u : ℕ) : ℕ := (m.binade + 126).toNat * 2 ^ 23 + m.signif rm neg u

section

variable {m : Mag} (hn : 0 < m.n) (hd : 0 < m.d) (rm : Rm) (neg : Bool) (u : ℕ)

theorem rat_units : rat m.units * 2 ^ (m.binade - 23) = rat m := by
  rw [Mag.units, rat_scale, mul_assoc, ← zpow_add₀ (by norm_num), show 23 - m.binade + (m.binade - 23) = 0 by ring]
  simp

include hd

theorem units_d_pos : 0 < m.units.d := scale_d_pos hd _

theorem signif_rne : |(m.signif .rne neg u : ℚ) - rat m.units| ≤ 1 / 2 := roundNat_rne neg u _ _ (units_d_pos hd)

/-- A magnitude that is a whole number of units of the last place is its own rounding. -/
theorem round_of_whole {k : ℕ} (h : rat m.units = k) : m.inexact = false ∧ m.signif rm neg u = k := by
  have hd' := units_d_pos hd
  have hnk : m.units.n = k * m.units.d := by
    rw [rat, div_eq_iff (by exact_mod_cast hd'.ne')] at h
    exact_mod_cast h
  have hmod : m.units.n % m.units.d = 0 := by rw [hnk, Nat.mul_mod_left]
  refine ⟨by simp [Mag.inexact, hmod], ?_⟩
  rw [Mag.signif, roundNat_exact hd' hmod, hnk, Nat.mul_div_cancel _ hd']

include hn

theorem tiny_iff : Mag.lt m (Mag.scale ⟨1, 1⟩ (-126)) = true ↔ m.log2 < -126 := by
  obtain ⟨h1, h2⟩ := log2_bounds hn hd
  rw [lt_iff hd (scale_d_pos Nat.one_pos _), rat_scale, rat_one, one_mul]
  constructor
  · exact fun h => (zpow_lt_zpow_iff_right₀ (by norm_num : (1 : ℚ) < 2)).1 (h1.trans_lt h)
  · exact fun h => h2.trans_le (zpow_le_zpow_right₀ (by norm_num) (by omega))

theorem rat_lt_binade : rat m < 2 ^ (m.binade + 1) :=
  (log2_bounds hn hd).2.trans_le (zpow_le_zpow_right₀ (by norm_num) (by unfold Mag.binade; omega))

theorem units_lt : m.units.n < m.units.d * 2 ^ 24 := by
  have hlt := rat_lt_binade hn hd
  have hu : rat m.units < 2 ^ (24 : ℕ) := by
    rw [← rat_units, show m.binade + 1 = 24 + (m.binade - 23) by ring, zpow_add₀ (by norm_num)] at hlt
    exact_mod_cast lt_of_mul_lt_mul_right hlt (two_zpow_pos _).le
  rw [rat, div_lt_iff₀ (by exact_mod_cast units_d_pos hd)] at hu
  rw [Nat.mul_comm]
  exact_mod_cast hu

theorem le_units (h : m.binade ≠ -126) : m.units.d * 2 ^ 23 ≤ m.units.n := by
  have hlog : m.log2 = m.binade := by unfold Mag.binade at h ⊢; omega
  have hle := (log2_bounds hn hd).1
  have hu : (2 : ℚ) ^ (23 : ℕ) ≤ rat m.units := by
    rw [hlog, ← rat_units, show m.binade = 23 + (m.binade - 23) by ring, zpow_add₀ (by norm_num),
      show 23 + (m.binade - 23) - 23 = m.binade - 23 by ring] at hle
    exact_mod_cast le_of_mul_le_mul_right hle (two_zpow_pos _)
  rw [rat, le_div_iff₀ (by exact_mod_cast units_d_pos hd)] at hu
  rw [Nat.mul_comm]
  exact_mod_cast hu

theorem floor_units_lt : m.units.n / m.units.d < 2 ^ 24 := Nat.div_lt_of_lt_mul (units_lt hn hd)

theorem le_floor_units (h : m.binade ≠ -126) : 2 ^ 23 ≤ m.units.n / m.units.d :=
  (Nat.le_div_iff_mul_le (units_d_pos hd)).2 (by rw [Nat.mul_comm]; exact le_units hn hd h)

theorem signif_le : m.signif rm neg u ≤ 2 ^ 24 := by
  have hlt := floor_units_lt hn hd
  unfold Mag.signif
  rcases roundNat_cases rm neg u m.units.n m.units.d ((m.binade + 126).toNat * 2 ^ 23) with h | h <;> omega

theorem le_signif : m.binade = -126 ∨ 2 ^ 23 ≤ m.signif rm neg u := by
  by_cases hb : m.binade = -126
  · exact .inl hb
  · have hle := le_floor_units hn hd hb
    refine .inr ?_
    unfold Mag.signif
    rcases roundNat_cases rm neg u m.units.n m.units.d ((m.binade + 126).toNat * 2 ^ 23) with h | h <;> omega

theorem rat_mag32_code : rat (mag32 (m.code rm neg u)) = m.signif rm neg u * 2 ^ (m.binade - 23) :=
  rat_mag32 (le_max_right _ _) (signif_le hn hd rm neg u) (le_signif hn hd rm neg u)

/-- R141 for FP32 without SAT. -/
theorem round_fp32_eq : Kind.fp32.round false rm u (.fin neg m) =
    if 0x7F7FFFFF < m.code rm neg u then
      ⟨if rm == .rtz || (rm == .rdn && !neg) || (rm == .rup && neg) then signed32 neg 0x7F7FFFFF else signed32 neg 0x7F800000,
        { of := true, nx := true, uf := decide (m.log2 < -126) && m.inexact }⟩
    else ⟨signed32 neg (m.code rm neg u), { nx := m.inexact, uf := decide (m.log2 < -126) && m.inexact }⟩ := by
  have htiny : Mag.lt m (Mag.scale ⟨1, 1⟩ shape32.emin) = decide (m.log2 < -126) := by
    rw [Bool.eq_iff_iff, decide_eq_true_eq]
    exact tiny_iff hn hd
  have hex : (if decide (m.log2 < -126) = true then shape32.emin else m.log2) = m.binade := by
    rw [Mag.binade, show shape32.emin = -126 from rfl]
    by_cases h : m.log2 < -126
    · rw [decide_eq_true h, if_pos rfl]; omega
    · rw [decide_eq_false h, if_neg Bool.false_ne_true]; omega
  have hsignif : roundNat rm neg u (m.scale ((shape32.t : ℤ) - m.binade)).n (m.scale ((shape32.t : ℤ) - m.binade)).d
      ((m.binade - shape32.emin).toNat * 2 ^ shape32.t) = m.signif rm neg u := rfl
  have hcode : (m.binade - shape32.emin).toNat * 2 ^ shape32.t + m.signif rm neg u = m.code rm neg u := rfl
  have hzero : m.signif rm neg u = 0 → m.code rm neg u = 0 := fun hq => by
    have hb : m.binade = -126 := (le_signif hn hd rm neg u).resolve_right (by omega)
    rw [Mag.code, hq, hb]
    rfl
  rw [show Kind.fp32.round false rm u (.fin neg m) = shape32.round false false rm u (.fin neg m) from rfl]
  unfold Shape2.round
  dsimp only
  rw [if_neg hn.ne', htiny, hex, hsignif, hcode, if_neg (by simp [shape32])]
  refine ite_congr rfl (fun _ => rfl) fun _ => ?_
  split
  · next hq =>
    rw [hzero hq]
    cases neg <;> rfl
  · rfl

theorem round_fp32 (hc : m.code rm neg u ≤ 0x7F7FFFFF) : Kind.fp32.round false rm u (.fin neg m) =
    ⟨signed32 neg (m.code rm neg u), { nx := m.inexact, uf := decide (m.log2 < -126) && m.inexact }⟩ := by
  rw [round_fp32_eq hn hd, if_neg (by omega)]

/-- R141: the nearest code is within half a unit of the last place. -/
theorem code_rne_close : |rat (mag32 (m.code .rne neg u)) - rat m| ≤ 2 ^ (m.binade - 24) := by
  have hhalf : (2 : ℚ) ^ (m.binade - 24) = 1 / 2 * 2 ^ (m.binade - 23) := by
    rw [show m.binade - 24 = -1 + (m.binade - 23) by ring, zpow_add₀ (by norm_num)]
    norm_num
  rw [rat_mag32_code hn hd, ← rat_units (m := m), ← sub_mul, abs_mul, abs_of_pos (two_zpow_pos _), hhalf]
  exact mul_le_mul_of_nonneg_right (signif_rne hd neg u) (two_zpow_pos _).le

/-- A magnitude below the middle of the greatest finite value and the next power of two does not overflow. -/
theorem code_rne_le (h : rat m < 2 ^ (128 : ℤ) - 2 ^ (103 : ℤ)) : m.code .rne neg u ≤ 0x7F7FFFFF := by
  have hlog : m.log2 < 128 := (zpow_lt_zpow_iff_right₀ (by norm_num : (1 : ℚ) < 2)).1
    (((log2_bounds hn hd).1.trans_lt h).trans (sub_lt_self _ (two_zpow_pos _)))
  have hsig := signif_le hn hd .rne neg u
  unfold Mag.code
  by_cases hb : m.binade = 127
  · have hunits : rat m.units < 2 ^ (24 : ℕ) - 1 / 2 := by
      rw [← rat_units (m := m), hb] at h
      norm_num at h ⊢
      linarith
    have hclose := (abs_le.1 (signif_rne hd neg u)).2
    have hlt : m.signif .rne neg u < 2 ^ 24 := by exact_mod_cast (by linarith : (m.signif .rne neg u : ℚ) < 2 ^ (24 : ℕ))
    rw [hb]
    omega
  · have hb' : m.binade ≤ 126 := by unfold Mag.binade at hb ⊢; omega
    omega

end

/-! ### FP32 results -/

theorem round_fp32_zero (m : Mag) (h : m.n = 0) (rm : Rm) (neg : Bool) (u : ℕ) :
    Kind.fp32.round false rm u (.fin neg m) = ⟨signed32 neg 0, {}⟩ := by
  rw [show Kind.fp32.round false rm u (.fin neg m) = shape32.round false false rm u (.fin neg m) from rfl]
  unfold Shape2.round
  dsimp only
  rw [if_pos h]
  cases neg <;> rfl

theorem rne32_eq (x : Num) : rne32 x = BitVec.ofNat 32 (Kind.fp32.round false .rne 0 x).code := rfl

theorem f32_inf (neg : Bool) : f32 (BitVec.ofNat 32 (signed32 neg 0x7F800000)) = .inf neg := by
  cases neg <;> decide

/-- A finite value rounds to a finite value or an infinity of its sign. -/
theorem f32_rne32_fin (neg : Bool) {m : Mag} (hd : 0 < m.d) :
    (∃ v, f32 (rne32 (.fin neg m)) = .fin neg v ∧ 0 < v.d) ∨ f32 (rne32 (.fin neg m)) = .inf neg := by
  rw [rne32_eq]
  rcases Nat.eq_zero_or_pos m.n with hn | hn
  · rw [round_fp32_zero m hn]
    exact .inl ⟨_, f32_signed32 (Nat.zero_le _) neg, mag32_d_pos 0⟩
  · rw [round_fp32_eq hn hd]
    split
    · exact .inr (f32_inf neg)
    · next hc => exact .inl ⟨_, f32_signed32 (by omega) neg, mag32_d_pos _⟩

theorem f32_rne32_inf (neg : Bool) : f32 (rne32 (.inf neg)) = .inf neg := by
  cases neg <;> decide

theorem shape_value_d_pos (f : Shape2) (c : ℕ) : 0 < (f.value c).d := by
  unfold Shape2.value
  dsimp only
  split <;> exact scale_d_pos Nat.one_pos _

theorem decode_d_pos {k : Kind} {w : ℕ} {neg : Bool} {m : Mag} (h : k.decode w = .fin neg m) : 0 < m.d := by
  unfold Kind.decode at h
  dsimp only at h
  split at h
  · next f _ =>
    unfold Shape2.decode at h
    dsimp only at h
    repeat' split at h
    all_goals simp only [reduceCtorEq, Num.fin.injEq] at h
    all_goals
      obtain ⟨-, rfl⟩ := h
      exact shape_value_d_pos f _
  · obtain ⟨-, rfl⟩ := Num.fin.inj h
    exact Nat.one_pos

theorem f32_d_pos {w : Word} {neg : Bool} {m : Mag} (h : f32 w = .fin neg m) : 0 < m.d := decode_d_pos h

end Sys2Proof.Machine


/-! PROOFS. QSCALE: the quantiser's search and the instruction (O6). -/

namespace Sys2Proof.Machine

open Spec

/-! ### The error of a block -/

/-- An error sum, or a term of it: no NaN and not negative. -/
def IsError (x : Num) : Prop := (∃ m, x = .fin false m ∧ 0 < m.d) ∨ x = .inf false

/-- The order of error sums: +∞ is the greatest. -/
def errorKey : Num → WithTop ℚ
  | .fin _ m => rat m
  | _ => ⊤

theorem lessError_iff {x y : Num} (hx : IsError x) (hy : IsError y) : lessError x y ↔ errorKey x < errorKey y := by
  obtain ⟨m, rfl, -⟩ | rfl := hx <;> obtain ⟨n, rfl, -⟩ | rfl := hy <;> simp [lessError, errorKey]

theorem cmp_neg_iff {x y : Num} (hx : IsError x) (hy : IsError y) : x.cmp y < 0 ↔ errorKey x < errorKey y := by
  obtain ⟨m, rfl, hm⟩ | rfl := hx <;> obtain ⟨n, rfl, hn⟩ | rfl := hy
  · have hlt : rat m < rat n ↔ (m.n * n.d : ℤ) - n.n * m.d < 0 := by
      rw [← lt_iff hm hn, Mag.lt, decide_eq_true_eq, sub_neg]
      exact_mod_cast Iff.rfl
    simp only [errorKey, WithTop.coe_lt_coe, hlt, Num.cmp, Bool.false_eq_true, if_false]
    split
    · simp [*]
    · split <;> simp [*]
  · simp [Num.cmp, errorKey]
  · simp [Num.cmp, errorKey]
  · simp [Num.cmp, errorKey]

theorem isError_round {x : Num} (h : IsError x) : IsError (f32 (rne32 x)) := by
  obtain ⟨m, rfl, hd⟩ | rfl := h
  · exact (f32_rne32_fin false hd).imp (fun ⟨v, hv, hvd⟩ => ⟨v, hv, hvd⟩) id
  · exact .inr (f32_rne32_inf false)

/-- A value of a block that is no NaN and not infinite. -/
def IsElement (x : Num) : Prop := ∃ neg m, x = .fin neg m ∧ 0 < m.d

/-- The numerator of a sum, over the product of the denominators. -/
def sumNum (a : Bool) (m : Mag) (b : Bool) (n : Mag) : ℤ :=
  (if a then -(m.n * n.d : ℤ) else m.n * n.d) + (if b then -(n.n * m.d : ℤ) else n.n * m.d)

theorem add_fin (a : Bool) (m : Mag) (b : Bool) (n : Mag) : (Num.add .rne (.fin a m) (.fin b n)).1 =
    if sumNum a m b n = 0 then .fin (if a = b then a else false) ⟨0, 1⟩
    else .fin (decide (sumNum a m b n < 0)) ⟨(sumNum a m b n).natAbs, m.d * n.d⟩ := apply_ite Prod.fst _ _ _

theorem add_fin_element {a : Bool} {m : Mag} {b : Bool} {n : Mag} (hm : 0 < m.d) (hn : 0 < n.d) :
    IsElement (Num.add .rne (.fin a m) (.fin b n)).1 := by
  rw [add_fin]
  split
  · exact ⟨_, ⟨0, 1⟩, rfl, Nat.one_pos⟩
  · exact ⟨_, ⟨_, m.d * n.d⟩, rfl, Nat.mul_pos hm hn⟩

theorem isError_add {x y : Num} (hx : IsError x) (hy : IsError y) : IsError (x.add .rne y).1 := by
  obtain ⟨m, rfl, hm⟩ | rfl := hx <;> obtain ⟨n, rfl, hn⟩ | rfl := hy
  · rw [add_fin]
    split
    · exact .inl ⟨⟨0, 1⟩, rfl, Nat.one_pos⟩
    · have hnonneg : ¬ (sumNum false m false n < 0) := not_lt.2 (show (0 : ℤ) ≤ m.n * n.d + n.n * m.d by positivity)
      rw [decide_eq_false hnonneg]
      exact .inl ⟨⟨_, m.d * n.d⟩, rfl, Nat.mul_pos hm hn⟩
  · exact .inr rfl
  · exact .inr rfl
  · exact .inr rfl

theorem isError_square {neg : Bool} {m : Mag} (hd : 0 < m.d) :
    IsError ((f32 (rne32 (.fin neg m))).mul (f32 (rne32 (.fin neg m)))).1 := by
  obtain ⟨v, hv, hvd⟩ | hv := f32_rne32_fin neg hd
  · rw [hv]
    exact .inl ⟨v.mul v, by simp [Num.mul], Nat.mul_pos hvd hvd⟩
  · rw [hv]
    exact .inr (by simp [Num.mul])

theorem isError_errStep {y : Half} {rm : Rm} {c : ℤ} {err x : Num} (he : IsError err) (hx : IsElement x) :
    IsError (errStep y rm c err x) := by
  obtain ⟨neg, m, rfl, hd⟩ := hx
  unfold errStep
  dsimp only
  split
  · exact .inr rfl
  · next hq =>
    cases hdec : y.kind.decode (y.kind.round y.sat rm 0 (Num.scale (.fin neg m) (128 - c))).code with
    | nan s => rw [hdec] at hq; simp [Num.isNan] at hq
    | inf s => rw [hdec] at hq; simp [Num.isInf] at hq
    | fin s k =>
      obtain ⟨s', k', hsum, hk'⟩ := add_fin_element (a := neg) (b := !s) hd (scale_d_pos (decode_d_pos hdec) (c - 128))
      have hdiff : (Num.add .rne (.fin neg m) (Num.scale (.fin s k) (c - 128)).neg).1 = .fin s' k' := hsum
      rw [hdiff]
      exact isError_round (isError_add he (isError_round (isError_square hk')))

/-- The rounding mode of the search's conversions (R151). -/
def Half.searchRm (y : Half) : Rm := if y.rm = .stoch then .rne else y.rm

/-- The model's sum of a block's errors. -/
def errorOf (y : Half) (xs : List Num) (c : ℤ) : Num := xs.foldl (errStep y y.searchRm c) .zero

theorem isError_errorOf (y : Half) (c : ℤ) (xs : List Num) (h : ∀ x ∈ xs, IsElement x) : IsError (errorOf y xs c) := by
  have hfold : ∀ (xs : List Num), (∀ x ∈ xs, IsElement x) → ∀ err, IsError err → IsError (xs.foldl (errStep y y.searchRm c) err) :=
    fun xs => by
      induction xs with
      | nil => exact fun _ _ he => he
      | cons x xs ih =>
        exact fun h err he => ih (fun z hz => h z (List.mem_cons_of_mem _ hz)) _ (isError_errStep he (h x List.mem_cons_self))
  exact hfold xs h .zero (.inl ⟨_, rfl, Nat.one_pos⟩)

theorem timesPow_eq_scale (x : Num) (k : ℤ) : timesPow x k = x.scale k := by
  cases x with
  | nan s => rfl
  | inf n => rfl
  | fin n m =>
    simp only [timesPow, Num.scale, Mag.scale]
    split
    · rw [show (-k).toNat = 0 by omega, pow_zero, Nat.mul_one]
    · rw [show k.toNat = 0 by omega, pow_zero, Nat.mul_one]

theorem blockError_eq (y : Half) (xs : List Num) (c : ℤ) : blockError y xs c = errorOf y xs c := by
  unfold blockError errorOf
  refine List.foldl_ext _ _ _ fun err x _ => ?_
  simp only [timesPow_eq_scale, errStep, nonfinite, Bool.or_eq_true]
  rfl

/-! ### The candidate of least error -/

/-- One more candidate: it takes the place of a candidate of greater error. -/
def betterOf (err : ℤ → Num) (b : Option (ℤ × Num)) (c : ℤ) : Option (ℤ × Num) :=
  match b with
  | none => some (c, err c)
  | some (k, f) => if (err c).cmp f < 0 then some (c, err c) else some (k, f)

/-- A candidate is as R151 chooses it: no other has less error, and none of the same error is larger. -/
def IsBest (err : ℤ → Num) (cs : List ℤ) (b : ℤ) : Prop :=
  b ∈ cs ∧ ∀ c ∈ cs, c = b ∨ errorKey (err b) < errorKey (err c) ∨ (errorKey (err b) ≤ errorKey (err c) ∧ c < b)

theorem isBest_foldl {err : ℤ → Num} (he : ∀ c, IsError (err c)) (cs : List ℤ) : ∀ (done : List ℤ) (b : ℤ), IsBest err done b →
    (done ++ cs).Pairwise (· > ·) → ∃ k, cs.foldl (betterOf err) (some (b, err b)) = some (k, err k) ∧ IsBest err (done ++ cs) k := by
  induction cs with
  | nil => exact fun done b hb _ => ⟨b, rfl, by rwa [List.append_nil]⟩
  | cons c cs ih =>
    intro done b ⟨hmem, hall⟩ hdesc
    rw [List.append_cons] at hdesc ⊢
    have hlast : ∀ d ∈ done, c < d := fun d hd =>
      (List.pairwise_append.1 (List.pairwise_append.1 hdesc).1).2.2 d hd c List.mem_cons_self
    have hcmp := cmp_neg_iff (he c) (he b)
    rw [List.foldl_cons, betterOf]
    split
    · next hlt =>
      rw [hcmp] at hlt
      refine ih _ c ⟨by simp, fun d hd => ?_⟩ hdesc
      rcases List.mem_append.1 hd with hd | hd
      · rcases hall d hd with rfl | h | ⟨h, -⟩
        · exact .inr (.inl hlt)
        · exact .inr (.inl (hlt.trans h))
        · exact .inr (.inl (hlt.trans_le h))
      · exact .inl (List.mem_singleton.1 hd)
    · next hge =>
      rw [hcmp] at hge
      refine ih _ b ⟨List.mem_append_left _ hmem, fun d hd => ?_⟩ hdesc
      rcases List.mem_append.1 hd with hd | hd
      · exact hall d hd
      · obtain rfl := List.mem_singleton.1 hd
        exact .inr (.inr ⟨not_lt.1 hge, hlast b hmem⟩)

theorem isBest_search {err : ℤ → Num} (he : ∀ c, IsError (err c)) {cs : List ℤ} (hne : cs ≠ []) (hdesc : cs.Pairwise (· > ·)) :
    ∃ k, cs.foldl (betterOf err) none = some (k, err k) ∧ IsBest err cs k := by
  obtain ⟨c, cs, rfl⟩ := List.exists_cons_of_ne_nil hne
  exact isBest_foldl he cs [c] c ⟨List.mem_singleton_self c, fun d hd => .inl (List.mem_singleton.1 hd)⟩ hdesc

/-- The candidates about a code, before repeats go. -/
def candidatesOf (c0 : ℤ) : List ℤ := [clampCode (c0 + 1), c0, clampCode (c0 - 1)]

theorem candidates_spec {c0 : ℤ} (h1 : 1 ≤ c0) (h2 : c0 ≤ 254) :
    (candidatesOf c0).eraseDups.Pairwise (· > ·) ∧ (∀ c, c ∈ (candidatesOf c0).eraseDups ↔ c ∈ candidatesOf c0) ∧
      ∀ c ∈ candidatesOf c0, 1 ≤ c ∧ c ≤ 254 := by
  refine ⟨?_, fun c => List.mem_eraseDups, ?_⟩
  · by_cases htop : c0 = 254
    · subst htop
      decide
    · by_cases hlow : c0 = 1
      · subst hlow
        decide
      · have hup : clampCode (c0 + 1) = c0 + 1 := by unfold clampCode; omega
        have hdown : clampCode (c0 - 1) = c0 - 1 := by unfold clampCode; omega
        have hne : c0 - 1 ≠ c0 + 1 := by omega
        rw [candidatesOf, hup, hdown]
        simp [List.eraseDups_cons, hne]
  · unfold candidatesOf clampCode
    simp
    omega

/-! ### The largest magnitude and emax -/

/-- One more value for the largest magnitude. -/
def largerOf (m : Mag) (x : Num) : Mag :=
  match x with
  | .fin _ n => if m.lt n then n else m
  | _ => m

theorem foldl_larger (xs : List Num) : ∀ m : Mag, 0 < m.d → (∀ x ∈ xs, IsElement x) →
    0 < (xs.foldl largerOf m).d ∧ rat m ≤ rat (xs.foldl largerOf m) ∧ (∀ x ∈ xs, absOf x ≤ rat (xs.foldl largerOf m)) ∧
      (rat (xs.foldl largerOf m) = rat m ∨ ∃ x ∈ xs, absOf x = rat (xs.foldl largerOf m)) := by
  induction xs with
  | nil => exact fun m hm _ => ⟨hm, le_rfl, fun x hx => absurd hx (List.not_mem_nil), .inl rfl⟩
  | cons x xs ih =>
    intro m hm h
    obtain ⟨neg, n, rfl, hn⟩ := h x List.mem_cons_self
    have hbig : 0 < (largerOf m (.fin neg n)).d ∧ rat m ≤ rat (largerOf m (.fin neg n)) ∧
        rat n ≤ rat (largerOf m (.fin neg n)) ∧
        (rat (largerOf m (.fin neg n)) = rat m ∨ rat n = rat (largerOf m (.fin neg n))) := by
      have hlt := lt_iff hm hn
      rw [largerOf]
      split
      · next hmn => exact ⟨hn, (hlt.1 hmn).le, le_rfl, .inr rfl⟩
      · next hmn => exact ⟨hm, le_rfl, not_lt.1 fun hr => hmn (hlt.2 hr), .inl rfl⟩
    obtain ⟨hd, hml, hnl, hor⟩ := hbig
    obtain ⟨hd', hle, hall, hex⟩ := ih _ hd fun z hz => h z (List.mem_cons_of_mem _ hz)
    rw [List.foldl_cons]
    refine ⟨hd', hml.trans hle, fun z hz => ?_, ?_⟩
    · rcases List.mem_cons.1 hz with rfl | hz
      · exact hnl.trans hle
      · exact hall z hz
    · rcases hex with heq | ⟨z, hz, heq⟩
      · rw [heq]
        exact hor.imp id fun hr => ⟨_, List.mem_cons_self, hr⟩
      · exact .inr ⟨z, List.mem_cons_of_mem _ hz, heq⟩

theorem amax_spec {xs : List Num} (h : ∀ x ∈ xs, IsElement x) :
    0 < (amax xs).d ∧ (∀ x ∈ xs, absOf x ≤ rat (amax xs)) ∧ (rat (amax xs) = 0 ∨ ∃ x ∈ xs, absOf x = rat (amax xs)) := by
  obtain ⟨hd, -, hall, hex⟩ := foldl_larger xs ⟨0, 1⟩ Nat.one_pos h
  exact ⟨hd, hall, hex.imp (fun hr => hr.trans (by simp [rat])) id⟩

/-- A kind that QSCALE may name: a byte kind with a legal precision. -/
def IsScaleKind (k : Kind) : Prop :=
  (∃ p inf, (k = .b8 p inf ∨ k = .u8 p inf) ∧ 1 ≤ p ∧ p ≤ 7) ∨ k = .int8 ∨ k = .uint8

theorem emax_eq {k : Kind} (h : IsScaleKind k) : k.emax = emaxOf k := by
  have hb8 : ∀ p, p < 8 → 1 ≤ p → ∀ inf, (Kind.b8 p inf).emax = emaxOf (.b8 p inf) ∧ (Kind.u8 p inf).emax = emaxOf (.u8 p inf) := by
    decide
  obtain ⟨p, inf, rfl | rfl, h1, h7⟩ | rfl | rfl := h
  · exact (hb8 p (by omega) h1 inf).1
  · exact (hb8 p (by omega) h1 inf).2
  · decide
  · decide

/-! ### The quantiser's search -/

theorem isElement_of_finite {x : Num} (hd : ∀ neg m, x = .fin neg m → 0 < m.d) (h : nonfinite x ≠ true) : IsElement x := by
  cases x with
  | nan s => exact absurd rfl h
  | inf s => exact absurd rfl h
  | fin neg m => exact ⟨neg, m, rfl, hd neg m rfl⟩

/-- The search finds the candidate of least error about c0. -/
theorem quantScale_search {y : Half} {xs : List Num} (h : ∀ x ∈ xs, IsElement x) (hmax : (amax xs).n ≠ 0) :
    ∃ k : ℤ, 1 ≤ k ∧ k ≤ 254 ∧ IsBest (errorOf y xs) (candidatesOf (clampCode ((amax xs).log2 - y.kind.emax + 128))) k ∧
      quantScale y xs = ⟨k.toNat, false, decide ((amax xs).log2 - y.kind.emax + 128 < 1)⟩ := by
  set c0 := clampCode ((amax xs).log2 - y.kind.emax + 128) with hc0
  obtain ⟨hdesc, hmem, hrange⟩ := candidates_spec (c0 := c0) (le_max_left _ _) (by rw [hc0, clampCode]; omega)
  have hne : (candidatesOf c0).eraseDups ≠ [] := fun hnil => by
    have hin := (hmem c0).2 (by simp [candidatesOf])
    rw [hnil] at hin
    cases hin
  obtain ⟨k, hk, hin, hbest⟩ := isBest_search (fun c => isError_errorOf y c xs h) hne hdesc
  have hkc := (hmem k).1 hin
  refine ⟨k, (hrange k hkc).1, (hrange k hkc).2, ⟨hkc, fun c hc => hbest c ((hmem c).2 hc)⟩, ?_⟩
  have hfin : (xs.any fun x => x.isNan || x.isInf) = false := by
    rw [List.any_eq_false]
    intro x hx
    obtain ⟨neg, m, rfl, -⟩ := h x hx
    simp [Num.isNan, Num.isInf]
  have hfound : (quantScale y xs) = ⟨(((candidatesOf c0).eraseDups.foldl (betterOf (errorOf y xs)) none).getD (1, .zero)).1.toNat,
      false, decide ((amax xs).log2 - y.kind.emax + 128 < 1)⟩ := by
    rw [quantScale, if_neg (by rw [hfin]; decide), if_neg hmax]
    refine congrArg (fun b : Option (ℤ × Num) => Scale.mk (b.getD (1, .zero)).1.toNat false _) ?_
    exact List.foldl_ext _ _ _ fun b c _ => by cases b <;> rfl
  rw [hfound, hk]
  rfl

theorem isScale_quantScale {y : Half} {xs : List Num} (hk : IsScaleKind y.kind) (hd : ∀ x ∈ xs, ∀ neg m, x = .fin neg m → 0 < m.d) :
    isScale y xs (quantScale y xs).code (quantScale y xs).flags := by
  have helem : ¬ (∃ x ∈ xs, nonfinite x = true) → ∀ x ∈ xs, IsElement x := fun hbad x hx =>
    isElement_of_finite (hd x hx) fun hx' => hbad ⟨x, hx, hx'⟩
  refine ⟨fun hbad => ?_, fun hbad hzero => ?_, fun top e hbad hattained hbound hlow hhigh => ?_⟩
  · have hany : (xs.any fun x => x.isNan || x.isInf) = true := List.any_eq_true.2 hbad
    rw [quantScale, if_pos hany]
    exact ⟨rfl, rfl⟩
  · obtain ⟨hmd, -, hex⟩ := amax_spec (helem hbad)
    have hn : (amax xs).n = 0 := by
      refine (rat_eq_zero_iff hmd).1 (hex.elim id ?_)
      rintro ⟨x, hx, heq⟩
      rw [← heq, hzero x hx]
    have hfin : ¬ (xs.any fun x => x.isNan || x.isInf) = true := fun hany => hbad (List.any_eq_true.1 hany)
    rw [quantScale, if_neg hfin, if_pos hn]
    exact ⟨rfl, rfl⟩
  · obtain ⟨hmd, hall, hex⟩ := amax_spec (helem hbad)
    have htop : rat (amax xs) = top := by
      obtain ⟨x, hx, heq⟩ := hattained
      refine le_antisymm ?_ (heq ▸ hall x hx)
      rcases hex with h0 | ⟨z, hz, hzeq⟩
      · rw [h0]
        exact (two_zpow_pos e).le.trans hlow
      · exact hzeq ▸ hbound z hz
    have hn : (amax xs).n ≠ 0 := fun h0 => by
      rw [(rat_eq_zero_iff hmd).2 h0] at htop
      exact absurd (htop ▸ hlow) (not_le.2 (two_zpow_pos e))
    have hlog : (amax xs).log2 = e := log2_eq (Nat.pos_of_ne_zero hn) hmd (htop ▸ hlow) (htop ▸ hhigh)
    obtain ⟨k, h1, h254, ⟨hmem, hbest⟩, heq⟩ := quantScale_search (y := y) (helem hbad) hn
    rw [hlog, emax_eq hk] at hmem hbest heq
    have hcast : ((k.toNat : ℕ) : ℤ) = k := Int.toNat_of_nonneg (by omega)
    have herr := fun c => isError_errorOf y c xs (helem hbad)
    rw [heq]
    dsimp only
    rw [hcast]
    refine ⟨hmem, rfl, fun c' hc' => ?_⟩
    rw [blockError_eq, blockError_eq, lessError_iff (herr k) (herr c'), lessError_iff (herr c') (herr k)]
    exact (hbest c' hc').imp_right fun h => h.imp_right fun h => ⟨not_lt.2 h.1, h.2⟩

/-! ### The instruction -/

theorem isScaleKind_of_byte {n : ℕ} {y : Half} (h : Half.ofBits n = some y) (hbyte : y.kind.isByte = true) :
    IsScaleKind y.kind := by
  have hp : bitsOf n 6 4 ≤ 7 := by unfold bitsOf; omega
  unfold Half.ofBits at h
  dsimp only at h
  split at h
  · cases h
  split at h
  · cases h
  split at h
  · cases h
  next k hk =>
  split at h
  · cases h
  obtain rfl := Option.some.inj h
  dsimp only at hbyte ⊢
  repeat' split at hk
  all_goals cases hk
  · exact absurd hbyte (by decide)
  · exact absurd hbyte (by decide)
  · exact absurd hbyte (by decide)
  · exact .inl ⟨_, _, .inl rfl, by omega, hp⟩
  · exact .inl ⟨_, _, .inr rfl, by omega, hp⟩
  · exact .inr (.inl rfl)
  · exact .inr (.inr rfl)
  · exact absurd hbyte (by decide)
  · exact absurd hbyte (by decide)

theorem isScaleKind_of_halves {w : Word} {x y : Half} (h : qscaleFmt.halves w = some (x, y)) : IsScaleKind y.kind := by
  have hdst : qscaleFmt.dstHalf w = some y := by
    unfold CvtFmt.halves at h
    split at h
    · next a b _ hb =>
      obtain ⟨-, rfl⟩ := Prod.mk.inj (Option.some.inj h)
      exact hb
    · cases h
  obtain ⟨hbits, hok⟩ := Option.filter_eq_some_iff.1 hdst
  have hbyte : y.kind.isByte = true := (Bool.and_eq_true_iff.1 hok).1
  exact isScaleKind_of_byte hbits hbyte

/-- What the issue of QSCALE reads and writes. -/
def qscaleForm (d a b : Reg) : Form := { dst := [(d, 1)], src := [(a, 4), (b, 1)] }

/-- The scale code and flags of a lane: those of its aligned group of 8 lanes (R192). -/
def groupScale (y : Half) (c : Ctx) (a : Reg) (l : ℕ) : Scale := quantScale y (groupElems c a (l / 8))

/-- A lane's scale as the model looks it up among the groups'. -/
def groupCode (y : Half) (c : Ctx) (a : Reg) (l : ℕ) : Scale :=
  ((List.range 8).map fun g => quantScale y (groupElems c a g)).getD (l / 8) ⟨0, false, false⟩

/-- The body of QSCALE past the check of its uniform operand. -/
def qscaleBody (d a b : Reg) (c : Ctx) : Res :=
  match qscaleFmt.halves (c.reg b c.first) with
  | none => .trap (c.trapOf .format (qscaleFmt.failing (c.reg b c.first)))
  | some (_, y) => .go (c.oweLanes (groupLanes c) d 1
      (fun l => ⟨[BitVec.ofNat 32 (groupCode y c a l).code], (groupCode y c a l).flags⟩) c.s)

theorem exec_qscale (d a b : Reg) (s : State) : exec (.qscale d a b) s =
    collective (qscaleForm d a b) (some (d, 1)) (fun _ => []) (fun c => c.words b 1) (qscaleBody d a b) s := by
  rw [show exec (.qscale d a b) s = execQscale d a b s from rfl, execQscale]
  refine congrArg (fun body => collective (qscaleForm d a b) (some (d, 1)) (fun _ => []) (fun c => c.words b 1) body s)
    (funext fun c => ?_)
  unfold qscaleBody
  obtain _ | ⟨x, y⟩ := qscaleFmt.halves (c.reg b c.first)
  · rfl
  · rfl

theorem groupElems_congr {c c' : Ctx} (h : RegionOnly c c') (a : Reg) (g : ℕ) : groupElems c' a g = groupElems c a g := by
  simp only [groupElems, h.cnt, h.reg]

theorem groupCode_eq {c c' : Ctx} (h : RegionOnly c c') (y : Half) (a : Reg) {l : ℕ} (hl : l < 64) :
    groupCode y c' a l = groupScale y c a l := by
  have hg : l / 8 < 8 := by omega
  simp [groupCode, List.getD, hg, groupScale, groupElems_congr h]

theorem groupLanes_congr {c c' : Ctx} (h : RegionOnly c c') : groupLanes c' = groupLanes c := by
  simp only [groupLanes, h.cnt, h.set]

theorem isScale_group {w : Word} {x y : Half} (h : qscaleFmt.halves w = some (x, y)) (c : Ctx) (a : Reg) (l : ℕ) :
    isScale y (groupElems c a (l / 8)) (groupScale y c a l).code (groupScale y c a l).flags := by
  refine isScale_quantScale (isScaleKind_of_halves h) fun x hx neg m hm => ?_
  obtain ⟨i, -, rfl⟩ := List.mem_map.1 hx
  split at hm
  · exact f32_d_pos hm
  · obtain ⟨-, rfl⟩ := Num.fin.inj hm
    exact Nat.one_pos

section

variable {s : State} {c : Ctx} {d a b : Reg} (hr : Ready s (.qscale d a b) c) (hn : c.cnt ≠ 0)
  (hu : ∀ l, hasLane c.cnt l = true → c.reg b l = c.reg b c.first)

include hr hn hu

/-- QSCALE acts, its format words agreeing. -/
theorem qscale_acts : exec (.qscale d a b) s =
    .next (c.settle (qscaleForm d a b) (qscaleBody d a b (c.shadow (qscaleForm d a b)))) := by
  have hR := shadow_regionOnly c (qscaleForm d a b)
  rw [exec_qscale]
  refine collective_acts hr.ctx hr.checks hr.room hn rfl ?_
  have huni : (c.shadow (qscaleForm d a b)).uniform ((c.shadow (qscaleForm d a b)).reg b) = true :=
    (uniform_iff _ _).2 fun l hl => by
      rw [hR.cnt] at hl
      rw [hR.reg, hR.reg, hR.first, hu l hl]
  simpa [Ctx.words] using huni

/-- R388: the format trap. -/
theorem qscale_traps (h : qscaleFmt.halves (c.reg b c.first) = none) : exec (.qscale d a b) s =
    .next (s.raise c.wid ⟨.format, c.cnt, qscaleFmt.failing (c.reg b c.first), 0, none⟩ c.set c.pc c.word) := by
  have hR := shadow_regionOnly c (qscaleForm d a b)
  have hbody : qscaleBody d a b (c.shadow (qscaleForm d a b)) =
      .trap ⟨.format, c.cnt, qscaleFmt.failing (c.reg b c.first), 0, none⟩ := by
    rw [qscaleBody, hR.reg, hR.first, h]
    simp only [Ctx.trapOf, hR.cnt]
  have hcnt : c.onlyHelpers = false := Bool.eq_false_iff.2 fun hh => hn ((onlyHelpers_iff c).1 hh)
  rw [qscale_acts hr hn hu, hbody]
  simp only [Ctx.settle, hcnt, (ctx_some hr.ctx).1]
  rfl

/-- R192: the scale codes outstanding in the lanes of the groups. -/
theorem qscale_ends {x y : Half} (h : qscaleFmt.halves (c.reg b c.first) = some (x, y)) : ∃ t, exec (.qscale d a b) s = .next t ∧
    Ends s t c { c.w with
      region := (c.w.shadowed (c.unit (d, 1))).region
      outst := c.w.outst ++ c.results s.seq (groupLanes c) d 1 (fun l _ => BitVec.ofNat 32 (groupScale y c a l).code)
        (fun l => (groupScale y c a l).flags.word) true } (fun _ => c.pc + 4) := by
  have hR := shadow_regionOnly c (qscaleForm d a b)
  have htar : c.targets (qscaleForm d a b) = c.unit (d, 1) := by simp [Ctx.targets, qscaleForm]
  refine ⟨_, qscale_acts hr hn hu, ?_⟩
  rw [qscaleBody, hR.reg, hR.first, h]
  dsimp only
  rw [groupLanes_congr hR]
  refine ends_oweLanes hr.ctx (WaveOnly.refl _ _) (shadow_wave hr.ctx _) ?_ rfl rfl
  have hout := results_eq_of_lanes (c := c) (m := groupLanes c) (d := d) (u := 1) s.seq true
    (val := fun l _ => BitVec.ofNat 32 (groupScale y c a l).code)
    (val' := fun l k => LaneOut.word ⟨[BitVec.ofNat 32 (groupCode y (c.shadow (qscaleForm d a b)) a l).code], {}⟩ k)
    (flags := fun l => (groupScale y c a l).flags.word)
    (flags' := fun l => (groupCode y (c.shadow (qscaleForm d a b)) a l).flags.word)
    (fun l k hl hk => by
      obtain rfl : k = 0 := by omega
      rw [groupCode_eq hR y a (hasLane_lt hl)]
      rfl)
    (fun l hl => by rw [groupCode_eq hR y a (hasLane_lt hl)])
  rw [htar, shadowed_eq, hout]
  rfl

end

/-- Settles O6: the search's candidate is the one of least error, a tie to the larger code, and every lane of a group with a
counted lane owes its group's. -/
theorem qscaleEffects : Obligations.QscaleEffects := by
  intro s c d a b hr hn hu
  refine ⟨qscale_traps hr hn hu, fun x y h => ?_⟩
  obtain ⟨t, hexec, hends⟩ := qscale_ends hr hn hu h
  exact ⟨t, fun l => ((groupScale y c a l).code, (groupScale y c a l).flags), hexec, fun l _ => isScale_group h c a l, hends⟩

end Sys2Proof.Machine

/-! PROOFS. The transcendental unit's instructions: their issue (O4). -/

namespace Sys2Proof.Machine

open Spec

/-- The registers that an instruction of one operand names. -/
def unitForm (d a : Reg) : Form := { dst := [(d, 1)], src := [(a, 1)] }

/-- A class V operation of one operand, by what a lane gets. -/
def unitOp (d a : Reg) (f : Ctx → Nat → Word × FpFlags) : LaneOp :=
  { d := d, srcs := [a], classV := true, out := fun c l => ⟨[(f c l).1], (f c l).2⟩ }

/-- An instruction is a class V operation of one operand. -/
structure UnitActs (i : Instr) (d a : Reg) (f : Ctx → Nat → Word × FpFlags) : Prop where
  exec : ∀ s, exec i s = (unitOp d a f).exec s
  form : ∀ s : State, s.formOf i = unitForm d a
  units : unitsOf i = ([(d, 1)], [(a, 1)])
  congr : a.isQ = false → ∀ c c', RegionOnly c c' → ∀ l, f c' l = f c l

theorem operand_window (c : Ctx) {a : Reg} (h : a.isQ = false) (l : Nat) : c.operand a l = c.reg a l := by
  cases a with
  | v n => rfl
  | q n => cases h

theorem operand_congr {c c' : Ctx} (h : RegionOnly c c') {a : Reg} (ha : a.isQ = false) (l : Nat) :
    c'.operand a l = c.operand a l := by
  rw [operand_window c' ha, operand_window c ha, h.reg]

theorem ftz_congr {c c' : Ctx} (h : RegionOnly c c') : c'.w.ftz = c.w.ftz := by
  rw [h.w]
  rfl

theorem rm_congr {c c' : Ctx} (h : RegionOnly c c') : c'.w.rm = c.w.rm := by
  rw [h.w]
  rfl

/-- On window registers nothing stops the operation, and its results go outstanding. -/
theorem run_unitOp {d a : Reg} (hd : d.isQ = false) (ha : a.isQ = false) (f : Ctx → Nat → Word × FpFlags) (c : Ctx) :
    (unitOp d a f).run c = .go (c.writeV d 1 (fun l => ⟨[(f c l).1], (f c l).2⟩) c.s) := by
  cases d with
  | q n => cases hd
  | v n =>
    cases a with
    | q k => cases ha
    | v k =>
      unfold LaneOp.run
      simp only [unitOp, if_true]
      rfl

theorem ends_unitOp {s : State} {i : Instr} {c : Ctx} {d a : Reg} {f : Ctx → Nat → Word × FpFlags} (hi : UnitActs i d a f)
    (hr : Ready s i c) (hw : windowOnly i) : ∃ t, Machine.exec i s = .next t ∧
      Ends s t c (c.owing d 1 (fun l _ => (f c l).1) fun l => (f c l).2.word) (fun _ => c.pc + 4) := by
  have hd : d.isQ = false := hw (d, 1) (by simp [hi.units])
  have ha : a.isQ = false := hw (a, 1) (by simp [hi.units])
  have hcongr := hi.congr ha c _ (shadow_regionOnly c (unitForm d a))
  have hk := hr.checks
  have hroom := hr.room
  rw [hi.form] at hk hroom
  have hissue : Machine.exec i s = .next (c.settle (unitForm d a) ((unitOp d a f).run (c.shadow (unitForm d a)))) :=
    (hi.exec s).trans (issue_ready (unitForm d a) _ hr.ctx hk hroom)
  rw [run_unitOp hd ha] at hissue
  refine ⟨_, hissue, ends_writeV_plain hr.ctx rfl (fun l k _ hk1 => ?_) fun l _ => by rw [hcongr l]⟩
  obtain rfl : k = 0 := by omega
  exact congrArg Prod.fst (hcongr l)

/-- FRCP, FRSQ, FEXP2, FLOG2, FSIN, FCOS and FTANH. -/
theorem unitActs_trans {i : Instr} {d a : Reg} (g : TFun) (hexec : ∀ s, exec i s = transOp g d a s)
    (hform : ∀ s : State, s.formOf i = unitForm d a) (hunits : unitsOf i = ([(d, 1)], [(a, 1)])) :
    UnitActs i d a fun c l => g.apply c.w.ftz (c.operand a l) where
  exec := hexec
  form := hform
  units := hunits
  congr ha c c' h l := by rw [ftz_congr h, operand_congr h ha]

theorem unitActs_sqrt (d a : Reg) : UnitActs (.fsqrt d a) d a fun c l =>
    let x := (fp c a l).sqrt
    round32 (if c.w.rm = .stoch then .rne else c.w.rm) c.w.ftz 0 x.1 x.2 where
  exec _ := rfl
  form _ := rfl
  units := rfl
  congr ha c c' h l := by simp only [fp, ftz_congr h, rm_congr h, operand_congr h ha]

/-- The operations of `fpUnitResult`. -/
theorem unitActs_of_result {i : Instr} {d : Reg} {f : Ctx → Nat → Word × FpFlags} (h : fpUnitResult i = some (d, f)) :
    ∃ a, UnitActs i d a f := by
  unfold fpUnitResult at h
  split at h
  case h_9 => cases h
  all_goals obtain ⟨rfl, rfl⟩ := Prod.mk.inj (Option.some.inj h)
  · exact ⟨_, unitActs_trans .rcp (fun _ => rfl) (fun _ => rfl) rfl⟩
  · exact ⟨_, unitActs_trans .rsq (fun _ => rfl) (fun _ => rfl) rfl⟩
  · exact ⟨_, unitActs_trans .exp2 (fun _ => rfl) (fun _ => rfl) rfl⟩
  · exact ⟨_, unitActs_trans .log2 (fun _ => rfl) (fun _ => rfl) rfl⟩
  · exact ⟨_, unitActs_trans .sin (fun _ => rfl) (fun _ => rfl) rfl⟩
  · exact ⟨_, unitActs_trans .cos (fun _ => rfl) (fun _ => rfl) rfl⟩
  · exact ⟨_, unitActs_trans .tanh (fun _ => rfl) (fun _ => rfl) rfl⟩
  · exact ⟨_, unitActs_sqrt _ _⟩

theorem floatUnit_effects : floatUnitEffectsHold := by
  intro s i c d f h hr hw
  obtain ⟨a, hi⟩ := unitActs_of_result h
  exact ends_unitOp hi hr hw

end Sys2Proof.Machine


/-! PROOFS. The transcendental unit's bounds (O4). -/

namespace Sys2Proof.Machine

open Spec

/-! ### FP32 operands -/

/-- A finite FP32 value is a code's. -/
theorem f32_fin_inv {w : Word} {neg : Bool} {m : Mag} (h : f32 w = .fin neg m) :
    ∃ c, c ≤ 0x7F7FFFFF ∧ w = BitVec.ofNat 32 (signed32 neg c) ∧ m = mag32 c := by
  have hlt := w.isLt
  have hdec : f32 w = shape32.decode false w.toNat := by
    rw [f32, show Kind.fp32.decode w.toNat = shape32.decode false (w.toNat % 2 ^ 32) from rfl, Nat.mod_eq_of_lt hlt]
  rw [hdec] at h
  unfold Shape2.decode at h
  simp only [Bool.false_eq_true, false_and, if_false, shape32, Bool.true_and, if_true] at h
  split at h
  · cases h
  split at h
  · cases h
  next hinf hmax =>
  obtain ⟨hneg, hm⟩ := Num.fin.inj h
  refine ⟨w.toNat % 2 ^ 31, by simpa using hmax, ?_, hm.symm⟩
  apply BitVec.eq_of_toNat_eq
  have hneg' : decide (2 ^ 31 ≤ w.toNat) = neg := hneg
  rw [toNat_signed32 (Nat.mod_lt _ (by norm_num))]
  by_cases hbit : 2 ^ 31 ≤ w.toNat
  · rw [decide_eq_true hbit] at hneg'
    rw [← hneg', signed32, if_pos rfl]
    omega
  · rw [decide_eq_false hbit] at hneg'
    rw [← hneg', signed32, if_neg Bool.false_ne_true]
    omega

/-- A significand below 2^24 in its binade. -/
structure Canonical (x : ℚ) (q : ℕ) (ex : ℤ) : Prop where
  value : x = q * 2 ^ (ex - 23)
  signif : q < 2 ^ 24
  low : -126 ≤ ex
  high : ex ≤ 127
  normal : ex = -126 ∨ 2 ^ 23 ≤ q

theorem canonical_mag32 {c : ℕ} (hc : c ≤ 0x7F7FFFFF) : ∃ q ex, Canonical (rat (mag32 c)) q ex := by
  by_cases hsub : c < 2 ^ 23
  · have hval := rat_mag32 (ex := -126) (q := c) le_rfl (by omega) (.inl rfl)
    refine ⟨c, -126, ?_, by omega, le_rfl, by norm_num, .inl rfl⟩
    rw [← hval]
    norm_num
  · set j := c / 2 ^ 23 with hj
    have hval := rat_mag32 (ex := (j : ℤ) - 127) (q := 2 ^ 23 + c % 2 ^ 23) (by omega) (by omega) (.inr (by omega))
    have hcode : ((j : ℤ) - 127 + 126).toNat * 2 ^ 23 + (2 ^ 23 + c % 2 ^ 23) = c := by omega
    rw [hcode] at hval
    exact ⟨2 ^ 23 + c % 2 ^ 23, j - 127, hval, by omega, by omega, by omega, .inr (by omega)⟩

theorem f32_canonical {w : Word} {neg : Bool} {m : Mag} (h : f32 w = .fin neg m) : ∃ q ex, Canonical (rat m) q ex := by
  obtain ⟨c, hc, -, rfl⟩ := f32_fin_inv h
  exact canonical_mag32 hc

/-- A finite FP32 value is a multiple of the smallest subnormal one. -/
theorem Canonical.whole {x : ℚ} {q : ℕ} {ex : ℤ} (h : Canonical x q ex) : ∃ k : ℕ, x = k * 2 ^ (-149 : ℤ) := by
  refine ⟨q * 2 ^ (ex + 126).toNat, ?_⟩
  have hpow : ex - 23 = (ex + 126) + -149 := by ring
  have hlow := h.low
  rw [Nat.cast_mul, two_zpow_toNat (by omega), h.value, hpow, zpow_add₀ (by norm_num), mul_assoc]

theorem Canonical.lt_top {x : ℚ} {q : ℕ} {ex : ℤ} (h : Canonical x q ex) : x < 2 ^ (128 : ℤ) := by
  have hhigh := h.high
  calc x = q * 2 ^ (ex - 23) := h.value
    _ < 2 ^ (24 : ℤ) * 2 ^ (ex - 23) := by
      refine mul_lt_mul_of_pos_right ?_ (two_zpow_pos _)
      exact_mod_cast h.signif
    _ = 2 ^ (ex + 1) := by rw [← zpow_add₀ (by norm_num)]; congr 1; ring
    _ ≤ 2 ^ (128 : ℤ) := zpow_le_zpow_right₀ (by norm_num) (by omega)

/-! ### Signed magnitudes -/

theorem abs_ratOf (neg : Bool) (m : Mag) : |ratOf neg m| = rat m := by
  cases neg <;> simp [ratOf, abs_of_nonneg (rat_nonneg m)]

theorem ratOf_sub (neg : Bool) (m n : Mag) : |ratOf neg m - ratOf neg n| = |rat m - rat n| := by
  cases neg
  · rfl
  · rw [ratOf, ratOf, if_pos rfl, if_pos rfl, neg_sub_neg, abs_sub_comm]

/-- The difference of signed magnitudes as the check of R185 works it out. -/
theorem rat_difference {n p : Bool} {v r : Mag} (hv : 0 < v.d) (hr : 0 < r.d) :
    rat ⟨((if n then -(v.n * r.d : ℤ) else v.n * r.d) - (if p then -(r.n * v.d : ℤ) else r.n * v.d)).natAbs, v.d * r.d⟩ =
      |ratOf n v - ratOf p r| := by
  have hv' : (v.d : ℚ) ≠ 0 := by positivity
  have hr' : (r.d : ℚ) ≠ 0 := by positivity
  have hdiff : ratOf n v - ratOf p r =
      (((if n then -(v.n * r.d : ℤ) else v.n * r.d) - (if p then -(r.n * v.d : ℤ) else r.n * v.d) : ℤ) : ℚ) / (v.d * r.d) := by
    cases n <;> cases p <;> simp [ratOf, rat] <;> field_simp
  rw [hdiff, abs_div, abs_of_pos (by positivity : (0 : ℚ) < v.d * r.d), rat, Nat.cast_natAbs]
  push_cast
  rfl

/-! ### The fixed-point sums -/

theorem fx_pos : 0 < fx := by unfold fx; positivity

theorem isqrt_spec (n : ℕ) (k : ℕ) : ∀ r : ℕ, r * r ≤ n → n < (r + 2 ^ k) * (r + 2 ^ k) →
    isqrt n k r * isqrt n k r ≤ n ∧ n < (isqrt n k r + 1) * (isqrt n k r + 1) := by
  induction k with
  | zero => exact fun r h1 h2 => ⟨h1, h2⟩
  | succ k ih =>
    intro r h1 h2
    rw [isqrt]
    split
    · next h => exact ih _ h (by rw [add_assoc, ← two_mul, ← pow_succ']; exact h2)
    · next h => exact ih _ h1 (not_le.1 h)

theorem isqrt_lt (n : ℕ) (k : ℕ) : ∀ r : ℕ, isqrt n k r < r + 2 ^ k := by
  induction k with
  | zero => exact fun r => Nat.lt_succ_self r
  | succ k ih =>
    intro r
    rw [isqrt, pow_succ]
    split
    · have := ih (r + 2 ^ k); omega
    · have := ih r; omega

theorem expSum_mono {x y : ℕ} (hxy : x ≤ y) (fuel : ℕ) : ∀ {k s t : ℕ}, s ≤ t → expSum x fuel k s ≤ expSum y fuel k t := by
  induction fuel with
  | zero => exact fun _ => le_rfl
  | succ fuel ih =>
    intro k s t hst
    rw [expSum, expSum]
    exact Nat.add_le_add hst (ih (Nat.div_le_div_right (Nat.div_le_div_right (Nat.mul_le_mul hst hxy))))

theorem exp2Frac_mono {f g : ℕ} (h : f ≤ g) : exp2Frac f ≤ exp2Frac g :=
  expSum_mono (Nat.div_le_div_right (Nat.mul_le_mul_right _ h)) 50 le_rfl

/-- The greatest fraction of an exponent below 128: 2^-17 short of one. -/
theorem exp2Frac_top : exp2Frac (fx - fx / 2 ^ 17) < 2 * fx - fx / 2 ^ 24 := by decide +kernel

theorem exp2Frac_one : exp2Frac fx < 3 * fx := by decide +kernel

theorem atanhSum_le {zz : ℕ} (h : 2 * zz ≤ fx) (fuel : ℕ) : ∀ {k p : ℕ}, atanhSum zz fuel k p ≤ 2 * p := by
  induction fuel with
  | zero => exact fun {_ _} => Nat.zero_le _
  | succ fuel ih =>
    intro k p
    have hnext : p * zz / fx * 2 ≤ p := by
      have hle : p * zz / fx * fx ≤ p * zz := Nat.div_mul_le_self _ _
      have := fx_pos
      nlinarith
    have hk : p / k ≤ p := Nat.div_le_self _ _
    have := ih (k := k + 2) (p := p * zz / fx)
    rw [atanhSum]
    omega

theorem sinSum_bounds {xx : ℕ} (h : xx ≤ 6 * fx) (fuel : ℕ) : ∀ {k t : ℕ}, 1 ≤ k → 0 ≤ sinSum xx fuel k t ∧ sinSum xx fuel k t ≤ t := by
  induction fuel with
  | zero => exact fun {_ _} _ => ⟨le_rfl, Int.natCast_nonneg _⟩
  | succ fuel ih =>
    intro k t hk
    have hterm : t * xx / fx / ((k + 1) * (k + 2)) ≤ t := by
      have hfx := fx_pos
      have h6 : 6 ≤ (k + 1) * (k + 2) := by nlinarith
      rw [Nat.div_div_eq_div_mul]
      refine Nat.div_le_of_le_mul ?_
      calc t * xx ≤ t * (6 * fx) := by gcongr
        _ ≤ fx * ((k + 1) * (k + 2)) * t := by nlinarith [Nat.mul_le_mul_left (fx * t) h6]
    obtain ⟨h0, h1⟩ := ih (k := k + 2) (t := t * xx / fx / ((k + 1) * (k + 2))) (by omega)
    rw [sinSum]
    omega

/-! ### The range of the exact values -/

theorem fx_cast : ((fx : ℕ) : ℚ) = 2 ^ (160 : ℤ) := by norm_num [fx]

theorem exp2Fix_d_pos (v : ℤ) : 0 < (exp2Fix v).d := scale_d_pos fx_pos _

theorem value_d_pos {f : TFun} {neg : Bool} {m : Mag} (hd : 0 < m.d) (hn : f = .rcp → 0 < m.n) : 0 < (f.value neg m).2.d := by
  have hd' : 0 < fx * m.d := Nat.mul_pos fx_pos hd
  cases f with
  | rcp => exact hn rfl
  | rsq => exact Nat.two_pow_pos 201
  | exp2 => exact exp2Fix_d_pos _
  | log2 => exact fx_pos
  | sin => exact fx_pos
  | cos =>
    unfold TFun.value
    dsimp only
    split
    · exact Nat.pow_pos hd'
    · exact fx_pos
  | tanh =>
    unfold TFun.value tanhMag
    dsimp only
    repeat' split
    · positivity
    · positivity
    · exact Nat.add_pos_left (exp2Fix_d_pos _) _

theorem rat_fxNum (v : ℤ) : rat (fxNum v).2 = |(v : ℚ)| / 2 ^ (160 : ℤ) := by
  rw [fxNum, rat, fx_cast, Nat.cast_natAbs, Int.cast_abs]

theorem rcp_lt {neg : Bool} {m : Mag} {q : ℕ} {ex : ℤ} (hd : 0 < m.d) (hc : Canonical (rat m) q ex)
    (ho : TFun.rcp.overflows neg m = false) : rat ⟨m.d, m.n⟩ < 2 ^ (128 : ℤ) - 2 ^ (103 : ℤ) := by
  have hgt : (2 : ℚ) ^ (-128 : ℤ) < rat m := by
    have hno : ¬ (Mag.le m (Mag.scale ⟨1, 1⟩ (-128)) = true) := by simpa [TFun.overflows] using ho
    rwa [le_iff hd (scale_d_pos Nat.one_pos _), rat_scale, rat_one, one_mul, not_le] at hno
  obtain ⟨k, hk⟩ := hc.whole
  have hk1 : (2 : ℚ) ^ (21 : ℤ) < k := by
    rw [hk, show (-128 : ℤ) = 21 + -149 by norm_num, zpow_add₀ (by norm_num)] at hgt
    exact lt_of_mul_lt_mul_right hgt (two_zpow_pos _).le
  have hk2 : (2 ^ 21 + 1 : ℚ) ≤ k := by exact_mod_cast (Nat.succ_le_of_lt (by exact_mod_cast hk1) : 2 ^ 21 + 1 ≤ k)
  have hinv : rat ⟨m.d, m.n⟩ = (rat m)⁻¹ := by rw [rat, rat, inv_div]
  rw [hinv, hk, inv_lt_comm₀ (by positivity) (by norm_num)]
  refine lt_of_lt_of_le ?_ (mul_le_mul_of_nonneg_right hk2 (two_zpow_pos _).le)
  norm_num

theorem rsq_lt (neg : Bool) (m : Mag) : rat (TFun.rsq.value neg m).2 < 2 ^ (100 : ℤ) := by
  have hlt := isqrt_lt (m.d * 2 ^ 400 / m.n) 300 0
  rw [Nat.zero_add] at hlt
  have hn : (Mag.sqrt ⟨m.d, m.n⟩).n < 2 ^ 301 := by
    unfold Mag.sqrt
    dsimp only
    split <;> omega
  have hd : (Mag.sqrt ⟨m.d, m.n⟩).d = 2 ^ 201 := rfl
  rw [show (TFun.rsq.value neg m).2 = Mag.sqrt ⟨m.d, m.n⟩ from rfl, rat, hd, div_lt_iff₀ (by positivity)]
  have hpow : (2 : ℚ) ^ (100 : ℤ) * ((2 ^ 201 : ℕ) : ℚ) = ((2 ^ 301 : ℕ) : ℚ) := by
    rw [Nat.cast_pow, Nat.cast_pow, Nat.cast_ofNat, ← zpow_natCast, ← zpow_natCast, ← zpow_add₀ (by norm_num)]
    rfl
  rw [hpow]
  exact Nat.cast_lt.2 hn

/-- 2^v by the whole part of v and its fraction. -/
theorem rat_exp2Fix (v : ℤ) : rat (exp2Fix v) =
    exp2Frac (v % (fx : ℤ)).toNat / 2 ^ (160 : ℤ) * 2 ^ max (-400) (min 200 (v / (fx : ℤ))) := by
  rw [exp2Fix, rat_scale, rat, fx_cast]

theorem exp2Fix_lt {v : ℤ} (h : v ≤ 128 * fx - (fx / 2 ^ 17 : ℕ)) : rat (exp2Fix v) < 2 ^ (128 : ℤ) - 2 ^ (103 : ℤ) := by
  have hfx : (0 : ℤ) < fx := by exact_mod_cast fx_pos
  have hgap : 0 < fx / 2 ^ 17 ∧ fx / 2 ^ 17 ≤ fx := by norm_num [fx]
  have hdiv := Int.mul_ediv_add_emod v fx
  have hmod0 := Int.emod_nonneg v hfx.ne'
  have hmod1 := Int.emod_lt_of_pos v hfx
  rw [rat_exp2Fix]
  have hi : v / (fx : ℤ) < 128 := Int.ediv_lt_of_lt_mul hfx (by omega)
  generalize v / (fx : ℤ) = i at hdiv hi ⊢
  generalize v % (fx : ℤ) = f at hdiv hmod0 hmod1 ⊢
  by_cases htop : i = 127
  · have hfrac : exp2Frac f.toNat < 2 * fx - fx / 2 ^ 24 :=
      (exp2Frac_mono (by rw [htop] at hdiv; omega)).trans_lt exp2Frac_top
    have hq : (exp2Frac f.toNat : ℚ) < 2 ^ (161 : ℤ) - 2 ^ (136 : ℤ) := by
      have hval : 2 * fx - fx / 2 ^ 24 = 2 ^ 161 - 2 ^ 136 := by norm_num [fx]
      rw [hval] at hfrac
      have hcast : ((2 ^ 161 - 2 ^ 136 : ℕ) : ℚ) = 2 ^ (161 : ℤ) - 2 ^ (136 : ℤ) := by norm_num
      rw [← hcast]
      exact Nat.cast_lt.2 hfrac
    have hexp : max (-400) (min 200 i) = 127 := by omega
    rw [hexp, div_mul_eq_mul_div, div_lt_iff₀ (two_zpow_pos _)]
    calc (exp2Frac f.toNat : ℚ) * 2 ^ (127 : ℤ) < (2 ^ (161 : ℤ) - 2 ^ (136 : ℤ)) * 2 ^ (127 : ℤ) :=
          mul_lt_mul_of_pos_right hq (two_zpow_pos _)
      _ = (2 ^ (128 : ℤ) - 2 ^ (103 : ℤ)) * 2 ^ (160 : ℤ) := by norm_num
  · have hfrac : exp2Frac f.toNat < 3 * fx := (exp2Frac_mono (by omega)).trans_lt exp2Frac_one
    have hq : (exp2Frac f.toNat : ℚ) < 3 * 2 ^ (160 : ℤ) := by
      rw [← fx_cast]
      exact_mod_cast hfrac
    have hexp : max (-400) (min 200 i) ≤ 126 := by omega
    have hpow : (2 : ℚ) ^ max (-400) (min 200 i) ≤ 2 ^ (126 : ℤ) := zpow_le_zpow_right₀ (by norm_num) hexp
    have hone : (exp2Frac f.toNat : ℚ) / 2 ^ (160 : ℤ) < 3 := (div_lt_iff₀ (two_zpow_pos _)).2 hq
    calc (exp2Frac f.toNat : ℚ) / 2 ^ (160 : ℤ) * 2 ^ max (-400) (min 200 i)
        ≤ 3 * 2 ^ (126 : ℤ) := mul_le_mul hone.le hpow (two_zpow_pos _).le (by norm_num)
      _ < 2 ^ (128 : ℤ) - 2 ^ (103 : ℤ) := by norm_num

/-- A number at fixed point, rounded down. -/
theorem floor_fx_le {m : Mag} (hd : 0 < m.d) {b : ℕ} (h : rat m * 2 ^ (160 : ℤ) ≤ b) : m.n * fx / m.d ≤ b := by
  refine Nat.div_le_of_le_mul ?_
  rw [rat, div_mul_eq_mul_div, div_le_iff₀ (by positivity), ← fx_cast] at h
  rw [Nat.mul_comm m.d]
  exact_mod_cast h

theorem Canonical.le_of_lt_128 {x : ℚ} {q : ℕ} {ex : ℤ} (h : Canonical x q ex) (hx : x < 128) : x ≤ 128 - 2 ^ (-17 : ℤ) := by
  have hex : ex ≤ 6 := by
    by_contra hbig
    have hq : 2 ^ 23 ≤ q := h.normal.resolve_left (by omega)
    have hle : (2 : ℚ) ^ (7 : ℤ) ≤ x := by
      calc (2 : ℚ) ^ (7 : ℤ) ≤ 2 ^ (23 + (ex - 23)) := zpow_le_zpow_right₀ (by norm_num) (by omega)
        _ = 2 ^ (23 : ℕ) * 2 ^ (ex - 23) := by rw [zpow_add₀ (by norm_num)]; rfl
        _ ≤ q * 2 ^ (ex - 23) := mul_le_mul_of_nonneg_right (by exact_mod_cast hq) (two_zpow_pos _).le
        _ = x := h.value.symm
    norm_num at hle
    linarith
  have hq : (q : ℚ) ≤ 2 ^ 24 - 1 := by
    have hlt := h.signif
    have : (q : ℚ) + 1 ≤ 2 ^ 24 := by exact_mod_cast hlt
    linarith
  calc x = q * 2 ^ (ex - 23) := h.value
    _ ≤ (2 ^ 24 - 1) * 2 ^ (-17 : ℤ) :=
      mul_le_mul hq (zpow_le_zpow_right₀ (by norm_num) (by omega)) (two_zpow_pos _).le (by norm_num)
    _ = 128 - 2 ^ (-17 : ℤ) := by norm_num

theorem top_exponent_cast : ((128 * fx - fx / 2 ^ 17 : ℕ) : ℚ) = (128 - 2 ^ (-17 : ℤ)) * 2 ^ (160 : ℤ) := by
  norm_num [fx]

theorem fxOf_true (m : Mag) : fxOf true m = -((m.n * fx / m.d : ℕ) : ℤ) := if_pos rfl

theorem fxOf_false (m : Mag) : fxOf false m = ((m.n * fx / m.d : ℕ) : ℤ) := if_neg Bool.false_ne_true

theorem exp2_lt {neg : Bool} {m : Mag} {q : ℕ} {ex : ℤ} (hd : 0 < m.d) (hc : Canonical (rat m) q ex)
    (ho : TFun.exp2.overflows neg m = false) : rat (TFun.exp2.value neg m).2 < 2 ^ (128 : ℤ) - 2 ^ (103 : ℤ) := by
  have hval : (TFun.exp2.value neg m).2 = exp2Fix (max (-400 * fx) (min (200 * fx) (fxOf neg m))) := rfl
  rw [hval]
  refine exp2Fix_lt ?_
  have hgap : fx / 2 ^ 17 ≤ fx := Nat.div_le_self _ _
  have hle : fxOf neg m ≤ 128 * fx - (fx / 2 ^ 17 : ℕ) := by
    cases neg with
    | true =>
      rw [fxOf_true]
      generalize m.n * fx / m.d = z
      omega
    | false =>
      have hlt : rat m < 128 := by
        have hno : ¬ (Mag.le ⟨128, 1⟩ m = true) := by simpa [TFun.overflows] using ho
        rw [le_iff Nat.one_pos hd, not_le] at hno
        simpa [rat] using hno
      have hx := hc.le_of_lt_128 hlt
      have hfloor : m.n * fx / m.d ≤ 128 * fx - fx / 2 ^ 17 := by
        refine floor_fx_le hd ?_
        rw [top_exponent_cast]
        exact mul_le_mul_of_nonneg_right hx (two_zpow_pos _).le
      rw [fxOf_false]
      omega
  omega

/-! #### The logarithm, the sine and the hyperbolic tangent -/

/-- The exponent of a canonical value. -/
theorem Canonical.log2_bounds {m : Mag} {q : ℕ} {ex : ℤ} (h : Canonical (rat m) q ex) (hn : 0 < m.n) (hd : 0 < m.d) :
    -149 ≤ m.log2 ∧ m.log2 ≤ 127 := by
  obtain ⟨hlow, hhigh⟩ := Machine.log2_bounds hn hd
  obtain ⟨k, hk⟩ := h.whole
  have hk0 : k ≠ 0 := fun h0 => by
    rw [h0, Nat.cast_zero, zero_mul] at hk
    exact absurd ((rat_eq_zero_iff hd).1 hk) hn.ne'
  have hsmall : (2 : ℚ) ^ (-149 : ℤ) ≤ rat m := by
    rw [hk]
    exact le_mul_of_one_le_left (two_zpow_pos _).le (by exact_mod_cast Nat.one_le_iff_ne_zero.2 hk0)
  have h1 : (-149 : ℤ) < m.log2 + 1 := (zpow_lt_zpow_iff_right₀ (by norm_num : (1 : ℚ) < 2)).1 (hsmall.trans_lt hhigh)
  have h2 : m.log2 < 128 := (zpow_lt_zpow_iff_right₀ (by norm_num : (1 : ℚ) < 2)).1 (hlow.trans_lt h.lt_top)
  omega

theorem by_ln2_lt {one ln z sum : ℕ} (h0 : 0 < one) (hln : 2 * one < 3 * ln) (hz : 3 * z ≤ one) (hs : sum ≤ 2 * z) :
    2 * sum * one / ln < 2 * one := by
  refine Nat.div_lt_of_lt_mul ?_
  nlinarith

/-- The series part of the logarithm lies in [0, 2). -/
theorem log2Fix_bounds {m : Mag} (hn : 0 < m.n) (hd : 0 < m.d) :
    m.log2 * fx ≤ log2Fix m ∧ log2Fix m < m.log2 * fx + 2 * fx := by
  obtain ⟨hlow, hhigh⟩ := log2_bounds hn hd
  set y := m.scale (-m.log2) with hy
  have hyd : 0 < y.d := scale_d_pos hd _
  have hy2 : y.n < 2 * y.d := by
    have hrat : rat y < 2 := by
      rw [hy, rat_scale]
      calc rat m * 2 ^ (-m.log2) < 2 ^ (m.log2 + 1) * 2 ^ (-m.log2) := mul_lt_mul_of_pos_right hhigh (two_zpow_pos _)
        _ = 2 := by rw [← zpow_add₀ (by norm_num)]; norm_num
    rw [rat, div_lt_iff₀ (by positivity)] at hrat
    exact_mod_cast hrat
  set z := (y.n - y.d) * fx / (y.n + y.d) with hz
  have hz3 : 3 * z ≤ fx := by
    have hmul : z * (y.n + y.d) ≤ (y.n - y.d) * fx := Nat.div_mul_le_self _ _
    have hthird : 3 * (y.n - y.d) ≤ y.n + y.d := by omega
    have hpos : 0 < y.n + y.d := by omega
    nlinarith
  have hzz : 2 * (z * z / fx) ≤ fx := by
    have hmul : z * z / fx * fx ≤ z * z := Nat.div_mul_le_self _ _
    have := fx_pos
    nlinarith
  have hsum := atanhSum_le hzz 60 (k := 1) (p := z)
  have hdef : log2Fix m = m.log2 * fx + ((2 * atanhSum (z * z / fx) 60 1 z * fx / fxLn2 : ℕ) : ℤ) := rfl
  have htail := by_ln2_lt fx_pos (by norm_num [fx, fxLn2] : 2 * fx < 3 * fxLn2) hz3 hsum
  rw [hdef]
  generalize 2 * atanhSum (z * z / fx) 60 1 z * fx / fxLn2 = r at htail
  omega

theorem sinTurns_le (f : ℕ) : |sinTurns f| ≤ 2 * fx := by
  set g := f % (fx / 2) with hg
  set h := if fx / 4 < g then fx / 2 - g else g with hh
  set x := 2 * h * fxPi / fx with hx
  have hfx : fx = 2 ^ 160 := rfl
  have hh4 : h ≤ fx / 4 := by
    have hlt : g < fx / 2 := Nat.mod_lt _ (by norm_num [fx])
    rw [hh]
    split <;> omega
  have hx2 : x ≤ 2 * fx := by
    refine Nat.div_le_of_le_mul ?_
    have hpi : fxPi ≤ 4 * fx := by norm_num [fx, fxPi]
    have h4 : 4 * h ≤ fx := by omega
    nlinarith
  have hxx : x * x / fx ≤ 6 * fx := by
    refine Nat.div_le_of_le_mul ?_
    nlinarith
  obtain ⟨h0, h1⟩ := sinSum_bounds hxx 30 (k := 1) (t := x) le_rfl
  have hdef : sinTurns f = if fx / 2 ≤ f then -sinSum (x * x / fx) 30 1 x else sinSum (x * x / fx) 30 1 x := rfl
  rw [hdef, abs_le]
  split <;> omega

theorem rat_sinTurns_le (f : ℕ) : rat (fxNum (sinTurns f)).2 ≤ 2 := by
  rw [rat_fxNum, div_le_iff₀ (two_zpow_pos _), ← fx_cast]
  exact_mod_cast sinTurns_le f

theorem sin_le (neg : Bool) (m : Mag) : rat (TFun.sin.value neg m).2 ≤ 2 := rat_sinTurns_le _

theorem rat_le_one {n d : ℕ} (h : n ≤ d) : rat ⟨n, d⟩ ≤ 1 := div_le_one_of_le₀ (by exact_mod_cast h) (Nat.cast_nonneg _)

theorem cos_le (neg : Bool) (m : Mag) : rat (TFun.cos.value neg m).2 ≤ 2 := by
  unfold TFun.value
  dsimp only
  split
  · exact (rat_le_one (Nat.sub_le _ _)).trans (by norm_num)
  · exact rat_sinTurns_le _

theorem tanh_le (neg : Bool) (m : Mag) : rat (TFun.tanh.value neg m).2 ≤ 1 := by
  unfold TFun.value tanhMag
  dsimp only
  repeat' split
  · refine rat_le_one ?_
    calc m.n * (3 * m.d * m.d - m.n * m.n) ≤ m.n * (3 * m.d * m.d) := Nat.mul_le_mul_left _ (Nat.sub_le _ _)
      _ ≤ m.d * (3 * m.d * m.d) := Nat.mul_le_mul_right _ (by omega)
      _ = 3 * m.d * m.d * m.d := by ring
  · exact rat_le_one (Nat.sub_le _ _)
  · exact rat_le_one (by omega)

/-! ### The bound of R185 -/

theorem rat_ulp {r : Mag} (hn : 0 < r.n) : rat (ulp r) = 2 ^ (r.binade - 23) := by
  rw [ulp, if_neg hn.ne', rat_scale, rat_one, one_mul]
  rfl

theorem ulp_d_pos (r : Mag) : 0 < (ulp r).d := scale_d_pos Nat.one_pos _

theorem rat_twice (m : Mag) : rat (m.mul ⟨2, 1⟩) = 2 * rat m := by
  simp only [rat, Mag.mul, Nat.mul_one]
  push_cast
  ring

theorem bound_d_pos (f : TFun) (m r : Mag) : 0 < (f.bound m r).d := by
  have h := ulp_d_pos r
  have h2 : 0 < ((ulp r).mul ⟨2, 1⟩).d := by simpa [Mag.mul] using h
  cases f with
  | rcp => exact h
  | rsq => exact h
  | exp2 => exact h2
  | log2 =>
    unfold TFun.bound
    dsimp only
    split
    · positivity
    · exact h2
  | sin => exact Nat.two_pow_pos 22
  | cos => exact Nat.two_pow_pos 22
  | tanh => exact h2

theorem rat_bound (f : TFun) {neg : Bool} {m r : Mag} (hd : 0 < m.d) (hn : 0 < r.n) (hneg : f = .log2 → neg = false) :
    rat (f.bound m r) = errorBound f (ratOf neg m) r.log2 := by
  have hulp : rat (ulp r) = 2 ^ (max r.log2 (-126) - 23) := rat_ulp hn
  cases f with
  | rcp => exact hulp
  | rsq => exact hulp
  | exp2 => exact (rat_twice _).trans (by rw [hulp]; rfl)
  | log2 =>
    obtain rfl := hneg rfl
    have h1 : Mag.le ⟨1, 2⟩ m = true ↔ 1 / 2 ≤ rat m := by
      rw [le_iff Nat.two_pos hd]
      norm_num [rat]
    have h2 : Mag.le m ⟨2, 1⟩ = true ↔ rat m ≤ 2 := by
      rw [le_iff hd Nat.one_pos]
      norm_num [rat]
    have hx : ratOf false m = rat m := rfl
    unfold TFun.bound errorBound
    dsimp only
    rw [hx]
    by_cases hnear : 1 / 2 ≤ rat m ∧ rat m ≤ 2
    · rw [if_pos ⟨h1.2 hnear.1, h2.2 hnear.2⟩, if_pos hnear]
      norm_num [rat]
    · rw [if_neg fun h => hnear ⟨h1.1 h.1, h2.1 h.2⟩, if_neg hnear, rat_twice, hulp]
  | sin => norm_num [TFun.bound, errorBound, rat]
  | cos => norm_num [TFun.bound, errorBound, rat]
  | tanh => exact (rat_twice _).trans (by rw [hulp]; rfl)

/-- What R185 asks of a result code. -/
def Keeps (f : TFun) (x : ℚ) (r : Bool × Mag) (w : Word) : Prop :=
  ∃ n v, f32 w = .fin n v ∧ |ratOf n v - ratOf r.1 r.2| ≤ errorBound f x r.2.log2 ∧ (f = .tanh → rat v ≤ 1)

theorem keeps_of_check {f : TFun} {neg : Bool} {m : Mag} {r : Bool × Mag} {c : Word} (hd : 0 < m.d) (hrn : 0 < r.2.n)
    (hrd : 0 < r.2.d) (hneg : f = .log2 → neg = false) (h : f.keeps m r c = true) : Keeps f (ratOf neg m) r c := by
  unfold TFun.keeps at h
  split at h
  · next n v hv =>
    have hvd := f32_d_pos hv
    obtain ⟨hle, hone⟩ := Bool.and_eq_true_iff.1 h
    rw [le_iff (Nat.mul_pos hvd hrd) (bound_d_pos f m r.2), rat_bound f hd hrn hneg] at hle
    refine ⟨n, v, hv, (rat_difference hvd hrd).symm.trans_le hle, fun hf => ?_⟩
    have hle1 : Mag.le v ⟨1, 1⟩ = true := by simpa [hf] using hone
    rw [le_iff hvd Nat.one_pos, rat_one] at hle1
    exact hle1
  · cases h

/-- Half a unit of the last place is within the bound, and the bounds that do not follow the result are for small results. -/
theorem half_ulp_le_bound (f : TFun) (x : ℚ) {r : Mag} (hn : 0 < r.n) (hd : 0 < r.d)
    (hsin : f = .sin ∨ f = .cos → rat r ≤ 2) (hlog : f = .log2 → 1 / 2 ≤ x ∧ x ≤ 2 → rat r ≤ 4) :
    (2 : ℚ) ^ (r.binade - 24) ≤ errorBound f x r.log2 := by
  have hulp : (2 : ℚ) ^ (r.binade - 24) ≤ 2 ^ (max r.log2 (-126) - 23) :=
    zpow_le_zpow_right₀ (by norm_num) (by unfold Mag.binade; omega)
  have htwice : (2 : ℚ) ^ (r.binade - 24) ≤ 2 * 2 ^ (max r.log2 (-126) - 23) :=
    hulp.trans (le_mul_of_one_le_left (two_zpow_pos _).le (by norm_num))
  have hsmall : ∀ k : ℤ, -126 ≤ k → rat r ≤ 2 ^ k → (2 : ℚ) ^ (r.binade - 24) ≤ 2 ^ (k - 24) := fun k hk hr => by
    have hlow : r.log2 ≤ k := (zpow_le_zpow_iff_right₀ (by norm_num : (1 : ℚ) < 2)).1 ((log2_bounds hn hd).1.trans hr)
    exact zpow_le_zpow_right₀ (by norm_num) (by unfold Mag.binade; omega)
  have htrig : f = .sin ∨ f = .cos → (2 : ℚ) ^ (r.binade - 24) ≤ 2 ^ (-22 : ℤ) := fun h =>
    (hsmall 1 (by norm_num) (by simpa using hsin h)).trans (zpow_le_zpow_right₀ (by norm_num) (by norm_num))
  cases f with
  | rcp => exact hulp
  | rsq => exact hulp
  | exp2 => exact htwice
  | log2 =>
    unfold errorBound
    dsimp only
    split
    · next hnear =>
      refine (hsmall 2 (by norm_num) ((hlog rfl hnear).trans (by norm_num))).trans ?_
      exact zpow_le_zpow_right₀ (by norm_num) (by norm_num)
    · exact htwice
  | sin => exact htrig (.inl rfl)
  | cos => exact htrig (.inr rfl)
  | tanh => exact htwice

/-- A magnitude up to 1 rounds to one up to 1. -/
theorem rounded_le_one {neg : Bool} {r : Mag} (hn : 0 < r.n) (hd : 0 < r.d) (h : rat r ≤ 1) : rat (mag32 (r.code .rne neg 0)) ≤ 1 := by
  have hlog : r.log2 ≤ 0 := (zpow_le_zpow_iff_right₀ (by norm_num : (1 : ℚ) < 2)).1 ((log2_bounds hn hd).1.trans (by simpa using h))
  rw [rat_mag32_code hn hd]
  by_cases h0 : r.binade = 0
  · have hlow : (2 : ℚ) ^ (0 : ℤ) ≤ rat r := by
      have hlog0 : r.log2 = 0 := by unfold Mag.binade at h0; omega
      rw [← hlog0]
      exact (log2_bounds hn hd).1
    have hone : rat r = 1 := le_antisymm h (by simpa using hlow)
    have hunits : rat r.units = (2 ^ 23 : ℕ) := by
      rw [Mag.units, rat_scale, hone, h0]
      norm_num
    rw [(round_of_whole hd .rne neg 0 hunits).2, h0]
    norm_num
  · have hb : r.binade ≤ -1 := by unfold Mag.binade at h0 ⊢; omega
    have hs : (r.signif .rne neg 0 : ℚ) ≤ 2 ^ (24 : ℕ) := by exact_mod_cast signif_le hn hd .rne neg 0
    calc (r.signif .rne neg 0 : ℚ) * 2 ^ (r.binade - 23) ≤ 2 ^ (24 : ℕ) * 2 ^ (-24 : ℤ) :=
          mul_le_mul hs (zpow_le_zpow_right₀ (by norm_num) (by omega)) (two_zpow_pos _).le (by positivity)
      _ = 1 := by norm_num

/-- The exact value, rounded to nearest, keeps the bound. -/
theorem keeps_rounded {f : TFun} {x : ℚ} {p : Bool} {r : Mag} (hn : 0 < r.n) (hd : 0 < r.d)
    (hfit : rat r < 2 ^ (128 : ℤ) - 2 ^ (103 : ℤ)) (hsin : f = .sin ∨ f = .cos → rat r ≤ 2)
    (hlog : f = .log2 → 1 / 2 ≤ x ∧ x ≤ 2 → rat r ≤ 4) (htanh : f = .tanh → rat r ≤ 1) : Keeps f x (p, r) (rne32 (.fin p r)) := by
  have hcode := code_rne_le hn hd p 0 hfit
  have hw : rne32 (.fin p r) = BitVec.ofNat 32 (signed32 p (r.code .rne p 0)) := by
    rw [rne32_eq, round_fp32 hn hd .rne p 0 hcode]
  refine ⟨p, _, by rw [hw, f32_signed32 hcode], ?_, fun hf => rounded_le_one hn hd (htanh hf)⟩
  rw [ratOf_sub]
  exact (code_rne_close hn hd p 0).trans (half_ulp_le_bound f x hn hd hsin hlog)

/-! ### Operands that R186 does not list -/

theorem special_log2_none {neg : Bool} {m : Mag} (h : TFun.log2.special (.fin neg m) = none) : neg = false ∧ 0 < m.n := by
  unfold TFun.special at h
  dsimp only at h
  split at h
  · cases h
  · next hn =>
    cases neg with
    | true => cases h
    | false => exact ⟨rfl, Nat.pos_of_ne_zero hn⟩

theorem special_rcp_none {neg : Bool} {m : Mag} (h : TFun.rcp.special (.fin neg m) = none) : 0 < m.n := by
  unfold TFun.special at h
  dsimp only at h
  split at h
  · cases h
  · next hn => exact Nat.pos_of_ne_zero hn

theorem log2_value_le {neg : Bool} {m : Mag} (hn : 0 < m.n) (hd : 0 < m.d) {b : ℕ} (hlow : -(b : ℤ) ≤ m.log2)
    (hhigh : m.log2 + 2 ≤ b) : rat (TFun.log2.value neg m).2 ≤ b := by
  obtain ⟨h1, h2⟩ := log2Fix_bounds hn hd
  have hfx : (0 : ℤ) < fx := by exact_mod_cast fx_pos
  have habs : |log2Fix m| ≤ b * fx := by
    rw [abs_le]
    constructor <;> nlinarith
  rw [show (TFun.log2.value neg m).2 = (fxNum (log2Fix m)).2 from rfl, rat_fxNum, div_le_iff₀ (two_zpow_pos _), ← fx_cast]
  exact_mod_cast habs

/-- The exact value of an operand that R186 does not list and that does not overflow is within the range of FP32. -/
theorem value_fits {f : TFun} {w : Word} {neg : Bool} {m : Mag} (hx : f32 w = .fin neg m) (hs : f.special (.fin neg m) = none)
    (ho : f.overflows neg m = false) : rat (f.value neg m).2 < 2 ^ (128 : ℤ) - 2 ^ (103 : ℤ) := by
  have hd := f32_d_pos hx
  obtain ⟨q, ex, hc⟩ := f32_canonical hx
  cases f with
  | rcp => exact rcp_lt hd hc ho
  | rsq => exact (rsq_lt neg m).trans (by norm_num)
  | exp2 => exact exp2_lt hd hc ho
  | log2 =>
    obtain ⟨-, hn⟩ := special_log2_none hs
    obtain ⟨h1, h2⟩ := hc.log2_bounds hn hd
    exact (log2_value_le hn hd (b := 256) (by omega) (by omega)).trans_lt (by norm_num)
  | sin => exact (sin_le neg m).trans_lt (by norm_num)
  | cos => exact (cos_le neg m).trans_lt (by norm_num)
  | tanh => exact (tanh_le neg m).trans_lt (by norm_num)

theorem log2_value_near {neg : Bool} {m : Mag} (hn : 0 < m.n) (hd : 0 < m.d) (hx : 1 / 2 ≤ rat m ∧ rat m ≤ 2) :
    rat (TFun.log2.value neg m).2 ≤ 4 := by
  obtain ⟨hlow, hhigh⟩ := log2_bounds hn hd
  have h1 : m.log2 ≤ 1 := (zpow_le_zpow_iff_right₀ (by norm_num : (1 : ℚ) < 2)).1 (hlow.trans (by simpa using hx.2))
  have h2 : (-1 : ℤ) < m.log2 + 1 :=
    (zpow_lt_zpow_iff_right₀ (by norm_num : (1 : ℚ) < 2)).1 (lt_of_le_of_lt (by simpa using hx.1) hhigh)
  exact_mod_cast log2_value_le hn hd (b := 4) (by omega) (by omega)

/-- R185: the device's result keeps the bound. -/
theorem result_keeps {f : TFun} {w : Word} {neg : Bool} {m : Mag} (ftz : Bool) (hx : f32 w = .fin neg m)
    (hs : f.special (.fin neg m) = none) (ho : f.overflows neg m = false) (hrn : 0 < (f.value neg m).2.n) :
    Keeps f (ratOf neg m) (f.value neg m) (f.result ftz w neg m) := by
  have hd := f32_d_pos hx
  have hrd : 0 < (f.value neg m).2.d := value_d_pos hd fun hf => by
    subst hf
    exact special_rcp_none hs
  have hneg : f = .log2 → neg = false := fun hf => by
    subst hf
    exact (special_log2_none hs).1
  unfold TFun.result
  dsimp only
  split
  · next h => exact keeps_of_check hd hrn hrd hneg h
  · refine keeps_rounded hrn hrd (value_fits hx hs ho) ?_ ?_ ?_
    · rintro (rfl | rfl)
      · exact sin_le neg m
      · exact cos_le neg m
    · rintro rfl hnear
      obtain ⟨rfl, hn⟩ := special_log2_none hs
      exact log2_value_near (neg := false) hn hd hnear
    · rintro rfl
      exact tanh_le neg m

theorem apply_unlisted {f : TFun} {ftz : Bool} {a : Word} {neg : Bool} {m : Mag} (hx : f32 (flush ftz a) = .fin neg m)
    (hs : f.special (f32 (flush ftz a)) = none) : f.apply ftz a =
      if f.overflows neg m then (if neg then 0xFF800000#32 else 0x7F800000#32, { of := true, nx := true })
      else (flush ftz (f.result ftz (flush ftz a) neg m),
        { nx := true, uf := decide ((f.result ftz (flush ftz a) neg m).toNat % 2 ^ 31 < 2 ^ 23) }) := by
  unfold TFun.apply
  dsimp only
  rw [hs]
  dsimp only
  rw [hx]
  rfl

theorem rcp_value_mul {neg : Bool} {m : Mag} (hn : 0 < m.n) (hd : 0 < m.d) :
    ratOf (TFun.rcp.value neg m).1 (TFun.rcp.value neg m).2 * ratOf neg m = 1 := by
  have hn' : (m.n : ℚ) ≠ 0 := by positivity
  have hd' : (m.d : ℚ) ≠ 0 := by positivity
  cases neg <;> simp [TFun.value, ratOf, rat] <;> field_simp

/-- R185: results of operands that R186 does not list and that do not overflow. -/
theorem unlisted_bounds (f : TFun) (ftz : Bool) (a : Word) (neg : Bool) (m : Mag) (e : ℤ) (hx : f32 (flush ftz a) = .fin neg m)
    (hs : f.special (f32 (flush ftz a)) = none) (ho : f.overflows neg m = false)
    (hlow : (2 : ℚ) ^ e ≤ |ratOf (f.value neg m).1 (f.value neg m).2|)
    (hhigh : |ratOf (f.value neg m).1 (f.value neg m).2| < 2 ^ (e + 1)) :
    (∃ n v, f32 (f.result ftz (flush ftz a) neg m) = .fin n v ∧
      |ratOf n v - ratOf (f.value neg m).1 (f.value neg m).2| ≤ errorBound f (ratOf neg m) e ∧ (f = .tanh → rat v ≤ 1)) ∧
    (f = .rcp → ratOf (f.value neg m).1 (f.value neg m).2 * ratOf neg m = 1) ∧
    f.apply ftz a = (flush ftz (f.result ftz (flush ftz a) neg m),
      { nx := true, uf := decide ((f.result ftz (flush ftz a) neg m).toNat % 2 ^ 31 < 2 ^ 23) }) := by
  have hd := f32_d_pos hx
  have hs' : f.special (.fin neg m) = none := by rw [← hx]; exact hs
  rw [abs_ratOf] at hlow hhigh
  have hrd : 0 < (f.value neg m).2.d := value_d_pos hd fun hf => by
    subst hf
    exact special_rcp_none hs'
  have hrn : 0 < (f.value neg m).2.n := Nat.pos_of_ne_zero fun h0 => by
    rw [(rat_eq_zero_iff hrd).2 h0] at hlow
    exact absurd hlow (not_le.2 (two_zpow_pos e))
  have hlog := log2_eq hrn hrd hlow hhigh
  refine ⟨?_, ?_, ?_⟩
  · obtain ⟨n, v, hv, hclose, hone⟩ := result_keeps ftz hx hs' ho hrn
    exact ⟨n, v, hv, hlog ▸ hclose, hone⟩
  · rintro rfl
    exact rcp_value_mul (special_rcp_none hs') hd
  · rw [apply_unlisted hx hs, ho]
    rfl

/-! ### FSQRT -/

/-- The integer root behind a square root, with 200 fractional bits. -/
theorem sqrt_spec {m : Mag} (hd : 0 < m.d) (hm : rat m < 2 ^ (128 : ℤ)) : ∃ r : ℕ,
    (r : ℚ) ≤ rat m.sqrt * 2 ^ (200 : ℤ) ∧ rat m.sqrt * 2 ^ (200 : ℤ) < r + 1 ∧
      (r : ℚ) * r ≤ rat m * 2 ^ (400 : ℤ) ∧ rat m * 2 ^ (400 : ℤ) < (r + 1) * (r + 1) ∧
      (r * r * m.d = m.n * 2 ^ 400 → rat m.sqrt * 2 ^ (200 : ℤ) = r) := by
  have hval : rat m * 2 ^ (400 : ℤ) = ((m.n * 2 ^ 400 : ℕ) : ℚ) / m.d := by
    rw [rat, div_mul_eq_mul_div, Nat.cast_mul, Nat.cast_pow, Nat.cast_ofNat]
    rfl
  have hfloor := rat_eq_div_add_mod (m.n * 2 ^ 400) hd
  obtain ⟨hf0, hf1⟩ := frac_bounds (m.n * 2 ^ 400) hd
  set n := m.n * 2 ^ 400 / m.d with hn
  have hn600 : n < 2 ^ 600 := by
    have hlt : (n : ℚ) < 2 ^ (600 : ℤ) := by
      calc (n : ℚ) ≤ rat m * 2 ^ (400 : ℤ) := by rw [hval, hfloor]; linarith
        _ < 2 ^ (128 : ℤ) * 2 ^ (400 : ℤ) := mul_lt_mul_of_pos_right hm (two_zpow_pos _)
        _ = 2 ^ (528 : ℤ) := by rw [← zpow_add₀ (by norm_num)]; rfl
        _ ≤ 2 ^ (600 : ℤ) := zpow_le_zpow_right₀ (by norm_num) (by norm_num)
    rw [zpow_ofNat] at hlt
    exact_mod_cast hlt
  obtain ⟨h1, h2⟩ := isqrt_spec n 300 0 (Nat.zero_le _) (by rw [Nat.zero_add, ← pow_add, show 300 + 300 = 600 from rfl]; exact hn600)
  set r := isqrt n 300 0 with hr
  have hsqrt : m.sqrt = ⟨if r * r * m.d = m.n * 2 ^ 400 then 2 * r else 2 * r + 1, 2 ^ 201⟩ := rfl
  have hrat : rat m.sqrt * 2 ^ (200 : ℤ) = ((if r * r * m.d = m.n * 2 ^ 400 then 2 * r else 2 * r + 1 : ℕ) : ℚ) / 2 := by
    have hpow : ((2 ^ 201 : ℕ) : ℚ) = 2 * 2 ^ (200 : ℤ) := by
      rw [Nat.cast_pow, Nat.cast_ofNat, pow_succ']
      rfl
    rw [hsqrt, rat, hpow, div_mul_eq_mul_div]
    exact mul_div_mul_right _ _ (two_zpow_pos 200).ne'
  refine ⟨r, ?_, ?_, ?_, ?_, fun hexact => ?_⟩
  · rw [hrat]
    split <;> push_cast <;> linarith
  · rw [hrat]
    split <;> push_cast <;> linarith
  · have hq : (r : ℚ) * r ≤ n := by exact_mod_cast h1
    rw [hval, hfloor]
    linarith
  · have hq : (n : ℚ) + 1 ≤ (r + 1) * (r + 1) := by exact_mod_cast h2
    rw [hval, hfloor]
    linarith
  · rw [hrat, if_pos hexact]
    push_cast
    ring

/-- Rounding to a normal code: FTZ leaves it. -/
theorem round32_normal {m : Mag} (hn : 0 < m.n) (hd : 0 < m.d) (rm : Rm) (ftz neg nv : Bool) (u : ℕ)
    (hc : m.code rm neg u ≤ 0x7F7FFFFF) (hnormal : 2 ^ 23 ≤ m.code rm neg u) : round32 rm ftz u (.fin neg m) nv =
      (BitVec.ofNat 32 (signed32 neg (m.code rm neg u)), { nx := m.inexact, uf := decide (m.log2 < -126) && m.inexact, nv := nv }) := by
  have hsub : isSub32 (BitVec.ofNat 32 (signed32 neg (m.code rm neg u))) = false := by
    rw [isSub32_signed32 (by omega), decide_eq_false (by omega), Bool.false_and]
  unfold round32
  dsimp only
  rw [round_fp32 hn hd rm neg u hc]
  dsimp only
  rw [hsub, if_neg (by simp)]
  simp

/-- The codes of a normal magnitude's binade. -/
theorem code_range {m : Mag} (hn : 0 < m.n) (hd : 0 < m.d) (rm : Rm) (neg : Bool) (u : ℕ) (hlow : -126 < m.log2)
    (hhigh : m.log2 < 127) : 2 ^ 23 ≤ m.code rm neg u ∧ m.code rm neg u < 0x7F7FFFFF := by
  have hb : m.binade = m.log2 := by unfold Mag.binade; omega
  have h1 := signif_le hn hd rm neg u
  have h2 := (le_signif hn hd rm neg u).resolve_left (by omega)
  unfold Mag.code
  omega

/-- The square root of an FP32 operand is well inside the normal range. -/
theorem sqrt_log2 {m : Mag} {q : ℕ} {ex : ℤ} (hn : 0 < m.n) (hd : 0 < m.d) (hc : Canonical (rat m) q ex) :
    0 < m.sqrt.n ∧ -77 < m.sqrt.log2 ∧ m.sqrt.log2 < 66 := by
  obtain ⟨r, h1, h2, h3, h4, -⟩ := sqrt_spec hd hc.lt_top
  have hsd : 0 < m.sqrt.d := Nat.two_pow_pos 201
  have hsquare : ∀ k : ℤ, ((2 : ℚ) ^ k) * 2 ^ k = 2 ^ (2 * k) := fun k => by rw [← zpow_add₀ (by norm_num), two_mul]
  have hshift : ∀ k : ℤ, (2 : ℚ) ^ k * 2 ^ (200 : ℤ) = 2 ^ (k + 200) := fun k => by rw [← zpow_add₀ (by norm_num)]
  have hlow : (2 : ℚ) ^ (-76 : ℤ) < rat m.sqrt := by
    have hm : (2 : ℚ) ^ (-149 : ℤ) ≤ rat m :=
      (zpow_le_zpow_right₀ (by norm_num) (hc.log2_bounds hn hd).1).trans (log2_bounds hn hd).1
    have hr : (2 : ℚ) ^ (125 : ℤ) < r + 1 := by
      refine lt_of_mul_self_lt_mul_self₀ (by positivity) ?_
      calc (2 : ℚ) ^ (125 : ℤ) * 2 ^ (125 : ℤ) = 2 ^ (2 * 125 : ℤ) := hsquare 125
        _ ≤ 2 ^ (-149 : ℤ) * 2 ^ (400 : ℤ) := by
          rw [← zpow_add₀ (by norm_num)]
          exact zpow_le_zpow_right₀ (by norm_num) (by norm_num)
        _ ≤ rat m * 2 ^ (400 : ℤ) := mul_le_mul_of_nonneg_right hm (two_zpow_pos _).le
        _ < (r + 1) * (r + 1) := h4
    refine lt_of_mul_lt_mul_right ?_ (two_zpow_pos 200).le
    rw [hshift]
    rw [show (125 : ℤ) = 1 + 124 by norm_num, zpow_add₀ (by norm_num), zpow_one, two_mul] at hr
    have hone : (1 : ℚ) ≤ 2 ^ (124 : ℤ) := one_le_zpow₀ (by norm_num) (by norm_num)
    exact lt_of_lt_of_le (lt_of_add_lt_add_right (hr.trans_le' (add_le_add_right hone _))) h1
  have hhigh : rat m.sqrt < 2 ^ (66 : ℤ) := by
    have hr : (r : ℚ) < 2 ^ (265 : ℤ) := by
      refine lt_of_mul_self_lt_mul_self₀ (by positivity) ?_
      calc (r : ℚ) * r ≤ rat m * 2 ^ (400 : ℤ) := h3
        _ < 2 ^ (128 : ℤ) * 2 ^ (400 : ℤ) := mul_lt_mul_of_pos_right hc.lt_top (two_zpow_pos _)
        _ ≤ 2 ^ (2 * 265 : ℤ) := by
          rw [← zpow_add₀ (by norm_num)]
          exact zpow_le_zpow_right₀ (by norm_num) (by norm_num)
        _ = 2 ^ (265 : ℤ) * 2 ^ (265 : ℤ) := (hsquare 265).symm
    refine lt_of_mul_lt_mul_right (h2.trans ?_) (two_zpow_pos 200).le
    rw [hshift, show (66 : ℤ) + 200 = 1 + 265 by norm_num, zpow_add₀ (by norm_num), zpow_one]
    have hone : (1 : ℚ) ≤ 2 ^ (265 : ℤ) := one_le_zpow₀ (by norm_num) (by norm_num)
    exact (add_lt_add_of_lt_of_le hr hone).trans_eq (two_mul _).symm
  have hsn : 0 < m.sqrt.n := Nat.pos_of_ne_zero fun h0 => by
    rw [(rat_eq_zero_iff hsd).2 h0] at hlow
    exact absurd hlow (not_lt.2 (two_zpow_pos _).le)
  obtain ⟨hb1, hb2⟩ := log2_bounds hsn hsd
  have hl : (-76 : ℤ) < m.sqrt.log2 + 1 := (zpow_lt_zpow_iff_right₀ (by norm_num : (1 : ℚ) < 2)).1 (hlow.trans hb2)
  have hh : m.sqrt.log2 < 66 := (zpow_lt_zpow_iff_right₀ (by norm_num : (1 : ℚ) < 2)).1 (hb1.trans_lt hhigh)
  omega

section

variable {s : Mag} (hn : 0 < s.n) (hd : 0 < s.d) {rm : Rm} (hrm : rm = .rtz ∨ rm = .rdn)

include hd hrm

theorem signif_truncated : (s.signif rm false 0 : ℚ) ≤ rat s.units ∧ rat s.units < s.signif rm false 0 + 1 := by
  have hsig : s.signif rm false 0 = s.units.n / s.units.d := by
    unfold Mag.signif roundNat
    rcases hrm with rfl | rfl <;> simp
  have hfloor : rat s.units = (s.units.n / s.units.d : ℕ) + (s.units.n % s.units.d : ℕ) / s.units.d :=
    rat_eq_div_add_mod s.units.n (units_d_pos hd)
  obtain ⟨hf0, hf1⟩ := frac_bounds s.units.n (units_d_pos hd)
  rw [hsig, hfloor]
  constructor <;> linarith

include hn

theorem rat_next_code : rat (mag32 (s.code rm false 0 + 1)) = (s.signif rm false 0 + 1 : ℕ) * 2 ^ (s.binade - 23) := by
  have hsmall : s.signif rm false 0 < 2 ^ 24 := by
    have hlt : rat s.units < (2 ^ 24 : ℕ) := by
      rw [rat, div_lt_iff₀ (by exact_mod_cast units_d_pos hd), mul_comm]
      exact_mod_cast units_lt hn hd
    exact Nat.cast_lt.1 ((signif_truncated hd hrm).1.trans_lt hlt)
  rw [show s.code rm false 0 + 1 = (s.binade + 126).toNat * 2 ^ 23 + (s.signif rm false 0 + 1) by unfold Mag.code; omega]
  exact rat_mag32 (le_max_right _ _) hsmall ((le_signif hn hd rm false 0).imp_right fun h => by omega)

/-- A truncated magnitude lies between its code and the next. -/
theorem code_truncated : rat (mag32 (s.code rm false 0)) ≤ rat s ∧ rat s < rat (mag32 (s.code rm false 0 + 1)) := by
  obtain ⟨h1, h2⟩ := signif_truncated hd hrm
  rw [rat_mag32_code hn hd, rat_next_code hn hd hrm, ← rat_units (m := s), Nat.cast_succ]
  exact ⟨mul_le_mul_of_nonneg_right h1 (two_zpow_pos _).le, mul_lt_mul_of_pos_right h2 (two_zpow_pos _)⟩

end

/-- Significands of a binade from 2^-177 on are whole numbers in units of 2^-200. -/
theorem whole_at_200 (k : ℕ) {b : ℤ} (hb : -177 ≤ b) : ∃ j : ℕ, (k : ℚ) * 2 ^ (b - 23) * 2 ^ (200 : ℤ) = j := by
  refine ⟨k * 2 ^ (b + 177).toNat, ?_⟩
  rw [Nat.cast_mul, two_zpow_toNat (by omega), mul_assoc, ← zpow_add₀ (by norm_num)]
  congr 2
  ring

theorem sqrt_truncated {m : Mag} {q : ℕ} {ex : ℤ} (hn : 0 < m.n) (hd : 0 < m.d) (hc : Canonical (rat m) q ex) {rm : Rm}
    (hrm : rm = .rtz ∨ rm = .rdn) : rat (mag32 (m.sqrt.code rm false 0)) ^ 2 ≤ rat m ∧
      rat m < rat (mag32 (m.sqrt.code rm false 0 + 1)) ^ 2 := by
  obtain ⟨hsn, hlow, -⟩ := sqrt_log2 hn hd hc
  obtain ⟨r, h1, h2, h3, h4, -⟩ := sqrt_spec hd hc.lt_top
  have hsd : 0 < m.sqrt.d := Nat.two_pow_pos 201
  have hb : -177 ≤ m.sqrt.binade := by unfold Mag.binade; omega
  obtain ⟨hle, hlt⟩ := code_truncated hsn hsd hrm
  obtain ⟨j, hj⟩ := whole_at_200 (m.sqrt.signif rm false 0) hb
  obtain ⟨j', hj'⟩ := whole_at_200 (m.sqrt.signif rm false 0 + 1) hb
  rw [← rat_mag32_code hsn hsd] at hj
  rw [← rat_next_code hsn hsd hrm] at hj'
  have hsquare : ∀ x : ℚ, x ^ 2 * 2 ^ (400 : ℤ) = x * 2 ^ (200 : ℤ) * (x * 2 ^ (200 : ℤ)) := fun x => by
    rw [show (400 : ℤ) = 200 + 200 by norm_num, zpow_add₀ (by norm_num)]
    ring
  constructor
  · have hjr : (j : ℚ) ≤ r := by
      have hjlt : (j : ℚ) < (r + 1 : ℕ) := by
        rw [← hj, Nat.cast_succ]
        exact (mul_le_mul_of_nonneg_right hle (two_zpow_pos 200).le).trans_lt h2
      exact Nat.cast_le.2 (Nat.le_of_lt_succ (Nat.cast_lt.1 hjlt))
    refine le_of_mul_le_mul_right ?_ (two_zpow_pos 400)
    rw [hsquare, hj]
    exact (mul_le_mul hjr hjr (Nat.cast_nonneg _) (Nat.cast_nonneg _)).trans h3
  · have hrj : (r : ℚ) + 1 ≤ j' := by
      have hrlt : (r : ℚ) < j' := by
        rw [← hj']
        exact h1.trans_lt (mul_lt_mul_of_pos_right hlt (two_zpow_pos 200))
      exact_mod_cast Nat.succ_le_of_lt (Nat.cast_lt.1 hrlt)
    refine lt_of_mul_lt_mul_right ?_ (two_zpow_pos 400).le
    rw [hsquare, hj']
    exact h4.trans_le (mul_le_mul hrj hrj (by positivity) (Nat.cast_nonneg _))

/-- FSQRT rounds down under the modes toward zero. -/
theorem sqrtOf_truncates (rm : Rm) (ftz : Bool) (a : Word) (m : Mag) (hrm : rm = .rtz ∨ rm = .rdn)
    (hx : f32 (flush ftz a) = .fin false m) (hm : m.n ≠ 0) :
    (∃ v, f32 (sqrtOf rm ftz a).1 = .fin false v ∧ rat v ^ 2 ≤ rat m) ∧
      ∃ v, f32 ((sqrtOf rm ftz a).1 + 1) = .fin false v ∧ rat m < rat v ^ 2 := by
  have hn := Nat.pos_of_ne_zero hm
  have hd := f32_d_pos hx
  obtain ⟨q, ex, hc⟩ := f32_canonical hx
  obtain ⟨hsn, hlow, hhigh⟩ := sqrt_log2 hn hd hc
  have hsd : 0 < m.sqrt.d := Nat.two_pow_pos 201
  obtain ⟨hc1, hc2⟩ := code_range hsn hsd rm false 0 (by omega) (by omega)
  obtain ⟨ht1, ht2⟩ := sqrt_truncated hn hd hc hrm
  have hstoch : (if rm = .stoch then Rm.rne else rm) = rm := if_neg (by rcases hrm with rfl | rfl <;> simp)
  have hroot : (Num.fin false m).sqrt = (.fin false m.sqrt, false) := by simp [Num.sqrt, hm]
  have hw : (sqrtOf rm ftz a).1 = BitVec.ofNat 32 (signed32 false (m.sqrt.code rm false 0)) := by
    rw [sqrtOf, hx, hroot, hstoch, round32_normal hsn hsd rm ftz false false 0 hc2.le hc1]
  have hsucc : (sqrtOf rm ftz a).1 + 1 = BitVec.ofNat 32 (signed32 false (m.sqrt.code rm false 0 + 1)) := by
    rw [hw, show signed32 false (m.sqrt.code rm false 0 + 1) = signed32 false (m.sqrt.code rm false 0) + 1 from rfl,
      BitVec.ofNat_add]
    rfl
  exact ⟨⟨_, by rw [hw, f32_signed32 hc2.le], ht1⟩, _, by rw [hsucc, f32_signed32 hc2], ht2⟩

theorem unitBounds : unitBoundsHold := by
  refine ⟨fun f ftz a neg m e hx hs ho => unlisted_bounds f ftz a neg m e hx hs ho, fun f ftz a neg m hx hs ho => ?_,
    fun rm ftz a m hrm hx hm => sqrtOf_truncates rm ftz a m hrm hx hm⟩
  rw [apply_unlisted hx hs, if_pos ho]

/-! ### The cases of R186: words, zeros and powers of two -/

theorem word_eq_signed32 (w : Word) : w = BitVec.ofNat 32 (signed32 (decide (2 ^ 31 ≤ w.toNat)) (w.toNat % 2 ^ 31)) := by
  have hlt := w.isLt
  apply BitVec.eq_of_toNat_eq
  rw [toNat_signed32 (Nat.mod_lt _ (by norm_num)), signed32]
  by_cases h : 2 ^ 31 ≤ w.toNat
  · rw [decide_eq_true h, if_pos rfl]
    omega
  · rw [decide_eq_false h, if_neg Bool.false_ne_true]
    omega

theorem flush_of_nan {a : Word} {q : Bool} (h : f32 a = .nan q) (ftz : Bool) : flush ftz a = a := by
  have hsub : ¬ (isSub32 a = true) := fun hs => by
    have hc : a.toNat % 2 ^ 31 ≤ 0x7F7FFFFF := by
      simp [isSub32] at hs
      omega
    rw [word_eq_signed32 a, f32_signed32 hc] at h
    cases h
  rw [flush, if_neg fun hf => hsub hf.2]

theorem apply_listed {f : TFun} {ftz : Bool} {a : Word} {r : Num} {fl : FpFlags} (h : f.special (f32 (flush ftz a)) = some (r, fl)) :
    f.apply ftz a = ((round32 .rne ftz 0 r false).1, (round32 .rne ftz 0 r false).2.or fl) := by
  unfold TFun.apply
  dsimp only
  rw [h]

theorem or_noFlags (x : FpFlags) : x.or {} = x := by
  cases x
  simp [FpFlags.or]

theorem round32_zero (rm : Rm) (ftz neg : Bool) (u : ℕ) : round32 rm ftz u (.fin neg ⟨0, 1⟩) false = (BitVec.ofNat 32 (signed32 neg 0), {}) := by
  unfold round32
  rw [round_fp32_zero ⟨0, 1⟩ rfl]
  cases ftz <;> cases neg <;> decide

theorem round32_one (ftz neg : Bool) : round32 .rne ftz 0 (.fin neg ⟨1, 1⟩) false =
    (if neg then 0xBF800000#32 else 0x3F800000#32, {}) := by
  cases ftz <;> cases neg <;> decide

theorem round32_nan (rm : Rm) (ftz nv : Bool) (u : ℕ) : round32 rm ftz u (.nan false) nv = (0x7FC00000#32, { nv := nv }) := by
  unfold round32
  rw [show Kind.fp32.round false rm u (.nan false) = ⟨0x7FC00000, {}⟩ from rfl]
  cases ftz <;> cases nv <;> decide

/-- A power of two as a code. -/
theorem powCode_eq {k : ℤ} (h1 : -126 ≤ k) (h2 : k ≤ 127) :
    powCode k = BitVec.ofNat 32 (signed32 false ((k + 126).toNat * 2 ^ 23 + 2 ^ 23)) := by
  obtain ⟨j, rfl⟩ : ∃ j : ℕ, k = j - 126 := ⟨(k + 126).toNat, by omega⟩
  have hint : (127 + ((j : ℤ) - 126)) * 2 ^ 23 = ((j * 2 ^ 23 + 2 ^ 23 : ℕ) : ℤ) := by
    push_cast
    ring
  rw [powCode, hint, BitVec.ofInt_natCast, show ((j : ℤ) - 126 + 126).toNat = j by omega]
  rfl

theorem f32_powCode {k : ℤ} (h1 : -126 ≤ k) (h2 : k ≤ 127) :
    ∃ m, f32 (powCode k) = .fin false m ∧ 0 < m.n ∧ 0 < m.d ∧ rat m = 2 ^ k := by
  have hval : rat (mag32 ((k + 126).toNat * 2 ^ 23 + 2 ^ 23)) = 2 ^ k := by
    rw [rat_mag32 h1 (by norm_num) (.inr le_rfl), Nat.cast_pow, Nat.cast_ofNat, ← zpow_natCast, ← zpow_add₀ (by norm_num)]
    congr 1
    push_cast
    ring
  refine ⟨_, by rw [powCode_eq h1 h2, f32_signed32 (by omega)], ?_, mag32_d_pos _, hval⟩
  refine Nat.pos_of_ne_zero fun h0 => ?_
  rw [(rat_eq_zero_iff (mag32_d_pos _)).2 h0] at hval
  exact (two_zpow_pos k).ne hval

theorem flush_powCode {k : ℤ} (h1 : -126 ≤ k) (h2 : k ≤ 127) (ftz : Bool) : flush ftz (powCode k) = powCode k := by
  have hsub : isSub32 (powCode k) = false := by
    rw [powCode_eq h1 h2, isSub32_signed32 (by omega), decide_eq_false (by omega), Bool.false_and]
  rw [flush, if_neg (by simp [hsub])]

theorem power?_eq {m : Mag} (hn : 0 < m.n) (hd : 0 < m.d) {k : ℤ} (h : rat m = 2 ^ k) : m.power? = some k := by
  have hlog : m.log2 = k := log2_eq hn hd h.ge (h ▸ zpow_lt_zpow_right₀ (by norm_num) (by omega))
  have hrat : rat (Mag.scale ⟨1, 1⟩ k) = rat m := by rw [rat_scale, rat_one, one_mul, h]
  have hk := scale_d_pos (m := ⟨1, 1⟩) Nat.one_pos k
  rw [Mag.power?, hlog, if_pos ((le_iff hk hd).2 hrat.le), if_pos ((le_iff hd hk).2 hrat.ge)]

section

variable {m : Mag} (hn : 0 < m.n) (hd : 0 < m.d) {k : ℕ} (hk : rat m.units = k) (hlow : -126 ≤ m.log2)

include hn hd hk hlow

/-- The significand of a normal magnitude that is a whole number of units of the last place. -/
theorem whole_bounds : 2 ^ 23 ≤ k ∧ k < 2 ^ 24 := by
  have hb : m.binade = m.log2 := by unfold Mag.binade; omega
  obtain ⟨h1, h2⟩ := log2_bounds hn hd
  have hm := rat_units (m := m)
  rw [hk, hb] at hm
  rw [← hm] at h1 h2
  have hsplit : ∀ j : ℤ, (2 : ℚ) ^ (m.log2 + j) = 2 ^ (23 + j) * 2 ^ (m.log2 - 23) := fun j => by
    rw [← zpow_add₀ (by norm_num)]
    congr 1
    ring
  have h0 := hsplit 0
  rw [add_zero] at h0
  rw [h0] at h1
  rw [hsplit 1] at h2
  exact ⟨by exact_mod_cast le_of_mul_le_mul_right h1 (two_zpow_pos _),
    by exact_mod_cast lt_of_mul_lt_mul_right h2 (two_zpow_pos _).le⟩

/-- A whole number of units of the last place, in the normal range, rounds to itself with no flag. -/
theorem round32_whole (hhigh : m.log2 ≤ 127) (rm : Rm) (ftz neg nv : Bool) (u : ℕ) : round32 rm ftz u (.fin neg m) nv =
    (BitVec.ofNat 32 (signed32 neg ((m.log2 + 126).toNat * 2 ^ 23 + k)), { nv := nv }) := by
  obtain ⟨hx, hs⟩ := round_of_whole hd rm neg u hk
  obtain ⟨hk1, hk2⟩ := whole_bounds hn hd hk hlow
  have hb : m.binade = m.log2 := by unfold Mag.binade; omega
  have hcode : m.code rm neg u = (m.log2 + 126).toNat * 2 ^ 23 + k := by rw [Mag.code, hs, hb]
  rw [round32_normal hn hd rm ftz neg nv u (by rw [hcode]; omega) (by rw [hcode]; omega), hx, hcode, Bool.and_false]

theorem f32_whole (hhigh : m.log2 ≤ 127) (neg : Bool) :
    ∃ v, f32 (BitVec.ofNat 32 (signed32 neg ((m.log2 + 126).toNat * 2 ^ 23 + k))) = .fin neg v ∧ rat v = rat m := by
  obtain ⟨hk1, hk2⟩ := whole_bounds hn hd hk hlow
  have hb : m.binade = m.log2 := by unfold Mag.binade; omega
  refine ⟨_, f32_signed32 (by omega) neg, ?_⟩
  rw [rat_mag32 hlow hk2.le (.inr hk1), ← hk, ← hb, rat_units]

end

theorem round32_pow {m : Mag} (hn : 0 < m.n) (hd : 0 < m.d) {j : ℤ} (hj : rat m = 2 ^ j) (h1 : -126 ≤ j) (h2 : j ≤ 127)
    (rm : Rm) (ftz nv : Bool) (u : ℕ) : round32 rm ftz u (.fin false m) nv = (powCode j, { nv := nv }) := by
  have hlog : m.log2 = j := log2_eq hn hd hj.ge (hj ▸ zpow_lt_zpow_right₀ (by norm_num) (by omega))
  have hb : m.binade = j := by unfold Mag.binade; omega
  have hunits : rat m.units = (2 ^ 23 : ℕ) := by
    rw [Mag.units, rat_scale, hj, hb, ← zpow_add₀ (by norm_num), Nat.cast_pow, Nat.cast_ofNat, ← zpow_natCast]
    congr 1
    push_cast
    ring
  rw [round32_whole hn hd hunits (by omega) (by omega) rm ftz false nv u, hlog, powCode_eq h1 h2]

/-- The exact result 2^j of a listed case. -/
theorem apply_pow {f : TFun} {ftz : Bool} {a : Word} {j : ℤ} (h : f.special (f32 (flush ftz a)) = some (exactly false (Mag.scale ⟨1, 1⟩ j)))
    (h1 : -126 ≤ j) (h2 : j ≤ 127) : f.apply ftz a = (powCode j, noFlags) := by
  have hr : rat (Mag.scale ⟨1, 1⟩ j) = 2 ^ j := by rw [rat_scale, rat_one, one_mul]
  rw [apply_listed h, or_noFlags,
    round32_pow (scale_n_pos Nat.one_pos j) (scale_d_pos Nat.one_pos j) hr h1 h2 .rne ftz false 0]
  rfl

/-! ### Powers of two -/

section

variable (ftz : Bool) {k : ℤ}

theorem rcp_pow (h1 : -126 ≤ k) (h2 : k ≤ 126) : TFun.rcp.apply ftz (powCode k) = (powCode (-k), noFlags) := by
  obtain ⟨m, hx, hn, hd, hm⟩ := f32_powCode h1 (by omega)
  refine apply_pow ?_ (by omega) (by omega)
  have hfits : powFits (-k) = true := by simp [powFits]; omega
  rw [flush_powCode h1 (by omega), hx]
  simp only [TFun.special, if_neg hn.ne', power?_eq hn hd hm, hfits]
  rfl

theorem rsq_pow (h1 : -126 ≤ k) (h2 : k ≤ 127) (heven : k % 2 = 0) :
    TFun.rsq.apply ftz (powCode k) = (powCode (-(k / 2)), noFlags) := by
  obtain ⟨m, hx, hn, hd, hm⟩ := f32_powCode h1 h2
  refine apply_pow ?_ (by omega) (by omega)
  rw [flush_powCode h1 h2, hx]
  simp only [TFun.special, if_neg hn.ne', power?_eq hn hd hm, heven]
  rfl

theorem exp2_pow (h1 : 0 ≤ k) (h2 : k ≤ 6) : TFun.exp2.apply ftz (powCode k) = (powCode (2 ^ k.toNat), noFlags) := by
  obtain ⟨m, hx, hn, hd, hm⟩ := f32_powCode (k := k) (by omega) (by omega)
  have hpow : (2 : ℤ) ^ k.toNat ≤ 2 ^ 6 := pow_le_pow_right₀ (by norm_num) (by omega)
  have hpos : (0 : ℤ) < 2 ^ k.toNat := by positivity
  refine apply_pow ?_ (by omega) (by omega)
  rw [flush_powCode (by omega) (by omega), hx]
  simp only [TFun.special, if_neg hn.ne', power?_eq hn hd hm, if_pos (And.intro h1 h2)]
  push_cast
  rfl

theorem log2_pow (h1 : -126 ≤ k) (h2 : k ≤ 127) : (TFun.log2.apply ftz (powCode k)).2 = noFlags ∧
    ∃ n v, f32 (TFun.log2.apply ftz (powCode k)).1 = .fin n v ∧ ratOf n v = k := by
  obtain ⟨m, hx, hn, hd, hm⟩ := f32_powCode h1 h2
  have hs : TFun.log2.special (f32 (flush ftz (powCode k))) = some (exactly (decide (k < 0)) ⟨k.natAbs, 1⟩) := by
    rw [flush_powCode h1 h2, hx]
    simp only [TFun.special, if_neg hn.ne', power?_eq hn hd hm]
    rfl
  rw [apply_listed hs, or_noFlags]
  by_cases hk : k = 0
  · subst hk
    have hz : round32 .rne ftz 0 (.fin (decide ((0 : ℤ) < 0)) ⟨(0 : ℤ).natAbs, 1⟩) false = (BitVec.ofNat 32 (signed32 false 0), {}) :=
      round32_zero .rne ftz false 0
    rw [hz]
    refine ⟨rfl, false, mag32 0, f32_signed32 (by norm_num) false, ?_⟩
    decide +kernel
  · have hj1 : 0 < k.natAbs := Int.natAbs_pos.2 hk
    have hj2 : k.natAbs < 2 ^ 7 := by omega
    obtain ⟨hlow, hhigh⟩ := log2_bounds (m := ⟨k.natAbs, 1⟩) hj1 Nat.one_pos
    have hrat : rat ⟨k.natAbs, 1⟩ = (k.natAbs : ℕ) := by rw [rat, Nat.cast_one, div_one]
    rw [hrat] at hlow hhigh
    have he1 : (0 : ℤ) < Mag.log2 ⟨k.natAbs, 1⟩ + 1 := (zpow_lt_zpow_iff_right₀ (by norm_num : (1 : ℚ) < 2)).1
      (lt_of_le_of_lt (by rw [zpow_zero]; exact_mod_cast hj1) hhigh)
    have he2 : Mag.log2 ⟨k.natAbs, 1⟩ < 7 := (zpow_lt_zpow_iff_right₀ (by norm_num : (1 : ℚ) < 2)).1
      (hlow.trans_lt (by exact_mod_cast hj2))
    have hunits : rat (Mag.units ⟨k.natAbs, 1⟩) = (k.natAbs * 2 ^ (23 - Mag.log2 ⟨k.natAbs, 1⟩).toNat : ℕ) := by
      rw [Mag.units, rat_scale, hrat, Nat.cast_mul, two_zpow_toNat (by omega), Mag.binade, max_eq_left (by omega)]
    obtain ⟨v, hv, hvr⟩ := f32_whole hj1 Nat.one_pos hunits (by omega) (by omega) (decide (k < 0))
    rw [round32_whole hj1 Nat.one_pos hunits (by omega) (by omega) .rne ftz (decide (k < 0)) false 0]
    refine ⟨rfl, _, v, hv, ?_⟩
    rw [ratOf, hvr, hrat, Nat.cast_natAbs, Int.cast_abs]
    by_cases hneg : k < 0
    · rw [decide_eq_true hneg, if_pos rfl, abs_of_neg (by exact_mod_cast hneg), neg_neg]
    · rw [decide_eq_false hneg, if_neg Bool.false_ne_true, abs_of_nonneg (by exact_mod_cast not_lt.1 hneg)]

end

/-! ### Quarter turns -/

/-- A quarter of a turn in fixed point. -/
def quarter : ℕ := fx / 4

/-- A multiple of a quarter turn is exact in fixed point. -/
theorem turns_of_quarters {n : Bool} {m : Mag} (hd : 0 < m.d) {z : ℤ} (h : ratOf n m = z / 4) :
    m.n * 4 % m.d = 0 ∧ turns n m = (z % 4).toNat * quarter := by
  have habs : rat m = |(z : ℚ)| / 4 := by
    rw [← abs_ratOf n m, h, abs_div, abs_of_pos (by norm_num : (0 : ℚ) < 4)]
  have hnat : m.n * 4 = z.natAbs * m.d := by
    rw [rat, div_eq_div_iff (by positivity) (by norm_num), ← Int.cast_abs, ← Nat.cast_natAbs] at habs
    exact_mod_cast habs
  have hone : fx = 4 * quarter := by norm_num [quarter, fx]
  have hfix : m.n * fx / m.d = z.natAbs * quarter := by
    rw [hone, ← Nat.mul_assoc, hnat, Nat.mul_right_comm, Nat.mul_div_cancel _ hd]
  have hsigned : fxOf n m = z * quarter := by
    have hr := rat_nonneg m
    cases n with
    | true =>
      have hz : z ≤ 0 := by
        have hle : (z : ℚ) ≤ 0 := by
          rw [ratOf, if_pos rfl] at h
          linarith
        exact_mod_cast hle
      rw [fxOf_true, hfix, Nat.cast_mul, Int.ofNat_natAbs_of_nonpos hz]
      ring
    | false =>
      have hz : 0 ≤ z := by
        have hle : (0 : ℚ) ≤ z := by
          rw [ratOf, if_neg Bool.false_ne_true] at h
          linarith
        exact_mod_cast hle
      rw [fxOf_false, hfix, Nat.cast_mul, Int.natAbs_of_nonneg hz]
  have hq : (0 : ℤ) < quarter := by norm_num [quarter, fx]
  have hmod : fxOf n m % (fx : ℤ) = z % 4 * quarter := by
    rw [hsigned, hone, Nat.cast_mul, Nat.cast_ofNat, mul_comm z, mul_comm (4 : ℤ), Int.mul_emod_mul_of_pos _ _ hq, mul_comm]
  refine ⟨by rw [hnat, Nat.mul_mod_left], ?_⟩
  obtain ⟨r, hr⟩ : ∃ r : ℕ, z % 4 = r := ⟨(z % 4).toNat, by omega⟩
  rw [turns, hmod, hr, ← Nat.cast_mul, Int.toNat_natCast, Int.toNat_natCast]

section

variable {ftz n : Bool} {a : Word} {m : Mag} {z : ℤ} (hx : f32 (flush ftz a) = .fin n m) (hm : m.n ≠ 0) (h : ratOf n m = z / 4)

include hx hm h

/-- FSIN of whole half turns. -/
theorem sin_half (hz : z % 4 = 0 ∨ z % 4 = 2) : TFun.sin.apply ftz a = (BitVec.ofNat 32 (signed32 n 0), noFlags) := by
  obtain ⟨hmod, ht⟩ := turns_of_quarters (f32_d_pos hx) h
  have hs : TFun.sin.special (f32 (flush ftz a)) = some (exactly n ⟨0, 1⟩) := by
    have hhalf : turns n m * 2 % fx = 0 := by
      rw [ht]
      rcases hz with hz | hz <;> rw [hz] <;> decide +kernel
    rw [hx]
    simp only [TFun.special, if_neg hm, hmod, hhalf]
    rfl
  rw [apply_listed hs, or_noFlags, round32_zero]
  rfl

/-- FSIN of odd quarter turns. -/
theorem sin_quarter (hz : z % 4 = 1 ∨ z % 4 = 3) : TFun.sin.apply ftz a =
    (if z % 4 = 3 then 0xBF800000#32 else 0x3F800000#32, noFlags) := by
  obtain ⟨hmod, ht⟩ := turns_of_quarters (f32_d_pos hx) h
  have hs : TFun.sin.special (f32 (flush ftz a)) = some (exactly (decide (z % 4 = 3)) ⟨1, 1⟩) := by
    have hhalf : turns n m * 2 % fx ≠ 0 ∧ decide (fx / 2 < turns n m) = decide (z % 4 = 3) := by
      rw [ht]
      rcases hz with hz | hz <;> rw [hz] <;> decide +kernel
    rw [hx]
    simp only [TFun.special, if_neg hm, hmod, if_neg hhalf.1, hhalf.2]
    rfl
  rw [apply_listed hs, or_noFlags, round32_one]
  simp only [decide_eq_true_eq]
  rfl

/-- FCOS of whole half turns. -/
theorem cos_half (hz : z % 4 = 0 ∨ z % 4 = 2) : TFun.cos.apply ftz a =
    (if z % 4 = 2 then 0xBF800000#32 else 0x3F800000#32, noFlags) := by
  obtain ⟨hmod, ht⟩ := turns_of_quarters (f32_d_pos hx) h
  have hs : TFun.cos.special (f32 (flush ftz a)) = some (exactly (decide (z % 4 = 2)) ⟨1, 1⟩) := by
    have hhalf : turns n m * 2 % fx = 0 ∧ decide (turns n m ≠ 0) = decide (z % 4 = 2) := by
      rw [ht]
      rcases hz with hz | hz <;> rw [hz] <;> decide +kernel
    rw [hx]
    simp only [TFun.special, if_neg hm, hmod, if_pos hhalf.1, hhalf.2]
    rfl
  rw [apply_listed hs, or_noFlags, round32_one]
  simp only [decide_eq_true_eq]
  rfl

/-- FCOS of odd quarter turns. -/
theorem cos_quarter (hz : z % 4 = 1 ∨ z % 4 = 3) : TFun.cos.apply ftz a = (0#32, noFlags) := by
  obtain ⟨hmod, ht⟩ := turns_of_quarters (f32_d_pos hx) h
  have hs : TFun.cos.special (f32 (flush ftz a)) = some (exactly false ⟨0, 1⟩) := by
    have hhalf : turns n m * 2 % fx ≠ 0 := by
      rw [ht]
      rcases hz with hz | hz <;> rw [hz] <;> decide +kernel
    rw [hx]
    simp only [TFun.special, if_neg hm, hmod, if_neg hhalf]
    rfl
  rw [apply_listed hs, or_noFlags, round32_zero]
  rfl

end

/-! ### NaNs, negative operands and square roots -/

theorem apply_nan (f : TFun) (ftz : Bool) {a : Word} {q : Bool} (h : f32 a = .nan q) : f.apply ftz a = (0x7FC00000#32, { nv := q }) := by
  have hs : f.special (f32 (flush ftz a)) = some (.nan false, { nv := q }) := by rw [flush_of_nan h, h]; rfl
  rw [apply_listed hs, round32_nan]
  cases q <;> rfl

theorem apply_negative {f : TFun} (hf : f = .rsq ∨ f = .log2) {ftz : Bool} {a : Word} {m : Mag} (hx : f32 (flush ftz a) = .fin true m)
    (hm : m.n ≠ 0) : f.apply ftz a = (0x7FC00000#32, { nv := true }) := by
  have hs : f.special (f32 (flush ftz a)) = some (.nan false, { nv := true }) := by
    rw [hx]
    rcases hf with rfl | rfl <;> simp [TFun.special, hm]
  rw [apply_listed hs, round32_nan]
  rfl

theorem sqrtOf_nan (rm : Rm) (ftz : Bool) {a : Word} {q : Bool} (h : f32 a = .nan q) :
    sqrtOf rm ftz a = (0x7FC00000#32, { nv := q }) := by
  rw [sqrtOf, flush_of_nan h, h]
  exact round32_nan _ ftz q 0

theorem sqrtOf_negative (rm : Rm) {ftz : Bool} {a : Word} {m : Mag} (hx : f32 (flush ftz a) = .fin true m) (hm : m.n ≠ 0) :
    sqrtOf rm ftz a = (0x7FC00000#32, { nv := true }) := by
  have hroot : (Num.fin true m).sqrt = (.nan false, true) := by simp [Num.sqrt, hm]
  rw [sqrtOf, hx, hroot]
  exact round32_nan _ ftz true 0

/-- The square root of an even power of two is exact. -/
theorem rat_sqrt_pow {m : Mag} (hd : 0 < m.d) {j : ℤ} (h1 : -200 ≤ j) (h2 : j < 64) (hm : rat m = 2 ^ (2 * j)) :
    rat m.sqrt = 2 ^ j := by
  have htop : rat m < 2 ^ (128 : ℤ) := hm ▸ zpow_lt_zpow_right₀ (by norm_num) (by omega)
  obtain ⟨r, -, -, hle, hlt, hexact⟩ := sqrt_spec hd htop
  obtain ⟨p, hp⟩ : ∃ p : ℕ, (2 : ℚ) ^ (j + 200) = p := ⟨2 ^ (j + 200).toNat, (two_zpow_toNat (by omega)).symm⟩
  have hsquare : rat m * 2 ^ (400 : ℤ) = p * p := by
    rw [hm, ← hp, ← zpow_add₀ (by norm_num), ← zpow_add₀ (by norm_num)]
    congr 1
    ring
  rw [hsquare] at hle hlt
  have hrp : r = p := by
    have h3 : r * r ≤ p * p := by exact_mod_cast hle
    have h4 : p * p < (r + 1) * (r + 1) := by exact_mod_cast hlt
    exact le_antisymm (Nat.mul_self_le_mul_self_iff.1 h3) (Nat.le_of_lt_succ (Nat.mul_self_lt_mul_self_iff.1 h4))
  have hnat : r * r * m.d = m.n * 2 ^ 400 := by
    have hcast : ((m.n * 2 ^ 400 : ℕ) : ℚ) = (r * r * m.d : ℕ) := by
      have hdq : (m.d : ℚ) ≠ 0 := by positivity
      rw [rat, div_mul_eq_mul_div, div_eq_iff hdq, zpow_ofNat] at hsquare
      rw [hrp, Nat.cast_mul, Nat.cast_mul, Nat.cast_mul, Nat.cast_pow, Nat.cast_ofNat]
      exact hsquare
    exact (Nat.cast_injective hcast).symm
  have hval := hexact hnat
  rw [hrp, ← hp, zpow_add₀ (by norm_num)] at hval
  exact mul_right_cancel₀ (two_zpow_pos 200).ne' hval

theorem sqrtOf_pow (rm : Rm) (ftz : Bool) {k : ℤ} (h1 : -126 ≤ k) (h2 : k ≤ 127) (heven : k % 2 = 0) :
    sqrtOf rm ftz (powCode k) = (powCode (k / 2), noFlags) := by
  obtain ⟨m, hx, hn, hd, hm⟩ := f32_powCode h1 h2
  have hk : k = 2 * (k / 2) := by omega
  have hroot : (Num.fin false m).sqrt = (.fin false m.sqrt, false) := by simp [Num.sqrt, hn.ne']
  have hsqrt := rat_sqrt_pow hd (j := k / 2) (by omega) (by omega) (by rw [← hk]; exact hm)
  have hsd : 0 < m.sqrt.d := Nat.two_pow_pos 201
  have hsn : 0 < m.sqrt.n := Nat.pos_of_ne_zero fun h0 => by
    rw [(rat_eq_zero_iff hsd).2 h0] at hsqrt
    exact (two_zpow_pos _).ne hsqrt
  rw [sqrtOf, flush_powCode h1 h2, hx, hroot]
  exact round32_pow hsn hsd hsqrt (by omega) (by omega) _ ftz false 0

/-! ### R186 -/

/-- R186: FSIN and FCOS at multiples of a quarter turn. -/
theorem listed_turns {ftz n : Bool} {a : Word} {m : Mag} (hx : f32 (flush ftz a) = .fin n m) (hm : m.n ≠ 0) (z : ℤ) :
    (ratOf n m = z / 2 → TFun.sin.apply ftz a = (if n then 0x80000000#32 else 0#32, noFlags)) ∧
    (ratOf n m = z + 1 / 4 → TFun.sin.apply ftz a = (0x3F800000#32, noFlags) ∧ TFun.cos.apply ftz a = (0#32, noFlags)) ∧
    (ratOf n m = z + 3 / 4 → TFun.sin.apply ftz a = (0xBF800000#32, noFlags) ∧ TFun.cos.apply ftz a = (0#32, noFlags)) ∧
    (ratOf n m = z → TFun.cos.apply ftz a = (0x3F800000#32, noFlags)) ∧
    (ratOf n m = z + 1 / 2 → TFun.cos.apply ftz a = (0xBF800000#32, noFlags)) := by
  refine ⟨fun h => ?_, fun h => ?_, fun h => ?_, fun h => ?_, fun h => ?_⟩
  · have hz : ratOf n m = ((2 * z : ℤ) : ℚ) / 4 := by rw [h]; push_cast; ring
    rw [sin_half hx hm hz (by omega)]
    cases n <;> rfl
  · have hz : ratOf n m = ((4 * z + 1 : ℤ) : ℚ) / 4 := by rw [h]; push_cast; ring
    rw [sin_quarter hx hm hz (by omega), cos_quarter hx hm hz (by omega), if_neg (by omega)]
    exact ⟨rfl, rfl⟩
  · have hz : ratOf n m = ((4 * z + 3 : ℤ) : ℚ) / 4 := by rw [h]; push_cast; ring
    rw [sin_quarter hx hm hz (by omega), cos_quarter hx hm hz (by omega), if_pos (by omega)]
    exact ⟨rfl, rfl⟩
  · have hz : ratOf n m = ((4 * z : ℤ) : ℚ) / 4 := by rw [h]; push_cast; ring
    rw [cos_half hx hm hz (by omega), if_neg (by omega)]
  · have hz : ratOf n m = ((4 * z + 2 : ℤ) : ℚ) / 4 := by rw [h]; push_cast; ring
    rw [cos_half hx hm hz (by omega), if_pos (by omega)]

/-- R186: the rows of zeros and infinities are evaluated, the others are lemmas. -/
theorem unitSpecials : unitSpecialsHold := by
  intro ftz
  refine ⟨?_, ?_, ?_, ?_, ?_, ?_, ?_, fun f a q h => apply_nan f ftz h,
    fun a m hx hm => ⟨apply_negative (.inl rfl) hx hm, apply_negative (.inr rfl) hx hm⟩, fun k h1 h2 => rcp_pow ftz h1 h2,
    fun k h1 h2 he => rsq_pow ftz h1 h2 he, fun k h1 h2 => exp2_pow ftz h1 h2, fun k h1 h2 => log2_pow ftz h1 h2,
    fun a n m z hx hm => listed_turns hx hm z, fun rm => ⟨?_,
    fun a q h => sqrtOf_nan rm ftz h, fun a m hx hm => sqrtOf_negative rm hx hm, fun k h1 h2 he => sqrtOf_pow rm ftz h1 h2 he⟩⟩
  case refine_8 => cases ftz <;> cases rm <;> decide +kernel
  all_goals cases ftz <;> decide +kernel

/-- Settles O4: the unit's issue, the bounds of R185 by the exact value rounded to nearest, and the cases of R186. -/
theorem floatUnitEffects : Obligations.FloatUnitEffects := ⟨floatUnit_effects, unitBounds, unitSpecials⟩

end Sys2Proof.Machine
